-- ==== Sys2Proof/Word.lean ====
section
/-! DEFINITION. The words of the station (R4: a word is 32 bits, little-endian), the shape of a row of the register map (R5–R8), and the
operand structures that commands carry. -/
namespace Sys2Proof

/-- One byte of memory. -/
abbrev Byte := BitVec 8

/-- A word is 32 bits (R4). -/
abbrev Word := BitVec 32

/-- A master identity (R26): 6 bits. -/
abbrev Ident := Fin 64

/-- Register field types (R6). RSV bits are simply not listed in a row. -/
inductive FldTy where
  | rw | ro | wo | w1c | w1s | rwc
  deriving DecidableEq, Repr

/-- The Warm column of a field (R7). -/
inductive Warm where
  | kept
  | to (v : Nat)
  deriving DecidableEq, Repr

/-- The place of one register field: word address in the backstage view, low bit, width. -/
structure Fld where
  addr : Nat
  lo : Nat
  w : Nat
  deriving DecidableEq, Repr

/-- One field of a register's table: its place in the word, type, Cold and Warm values, and the range of encodings that are not reserved (R8). -/
structure FieldRow where
  lo : Nat
  w : Nat
  ty : FldTy
  cold : Nat
  warm : Warm
  legLo : Nat
  legHi : Nat
  deriving DecidableEq, Repr

/-- One register of the map: `n1 × n2` instances at `base + i·s1 + j·s2`, in the backstage view only where `back` (R5). -/
structure RegRow where
  base : Nat
  n1 : Nat
  s1 : Nat
  n2 : Nat
  s2 : Nat
  back : Bool
  fields : List FieldRow
  deriving DecidableEq, Repr

/-- A field every encoding of which is legal. -/
def fld (lo w : Nat) (ty : FldTy) (cold : Nat) (warm : Warm) : FieldRow := ⟨lo, w, ty, cold, warm, 0, 2 ^ w - 1⟩

/-- A field whose encodings outside `legLo`–`legHi` are reserved (R8). -/
def fldIn (lo w : Nat) (ty : FldTy) (cold : Nat) (warm : Warm) (legLo legHi : Nat) : FieldRow := ⟨lo, w, ty, cold, warm, legLo, legHi⟩

/-- A register row. -/
def reg (base n1 s1 n2 s2 : Nat) (back : Bool) (fields : List FieldRow) : RegRow := ⟨base, n1, s1, n2, s2, back, fields⟩

/-- A ring frame as it stands on a lane (R62): the four header words by offset, the payload bytes as sent, the trailer, and whether the frame
ended in an error block instead of a terminate block (R70). -/
structure RFrame where
  w0 : Word
  w1 : Word
  w2 : Word
  w3 : Word
  payload : List Byte
  crc : Word
  err : Bool
  deriving DecidableEq, Repr

/-- What the world outside gives a command while it is carried out: the bytes of its buffer in host memory (R451), whether that host access
failed, and the quantities measured, in the order the step uses them. -/
structure Env where
  host : List Byte
  hostFail : Bool
  obs : List Word
  deriving DecidableEq, Repr

/-- Fields of a format R instruction beside its major opcode and fn (R238). -/
structure RFmt where
  x : Fin 32
  wt : Fin 32
  wd : Fin 32
  ws : Fin 32
  deriving DecidableEq, Repr

/-- Fields of format I (R238). -/
structure IFmt where
  imm : BitVec 16
  wd : Fin 32
  ws : Fin 32
  deriving DecidableEq, Repr

/-- Fields of format B (R238). -/
structure BFmt where
  off : BitVec 16
  wt : Fin 32
  ws : Fin 32
  deriving DecidableEq, Repr

/-- Fields of the bit-field instructions (R248); `z` is [14:10]. -/
structure FieldFmt where
  pos : Fin 32
  wm1 : Fin 32
  sg : Bool
  z : Fin 32
  wd : Fin 32
  ws : Fin 32
  deriving DecidableEq, Repr

/-- Fields of the string instructions (R250); `z` is [13:0]. -/
structure StrFmt where
  size : Fin 4
  ss : Fin 16
  ds : Fin 16
  z : Fin 16384
  deriving DecidableEq, Repr

/-- Fields of the engine I/O extension (R260); `z` is [8:4]. -/
structure IoFmt where
  wr : Fin 32
  wm : Fin 32
  unit : Fin 64
  nb : Bool
  z : Fin 32
  deriving DecidableEq, Repr

/-- Fields of an ad-lib word (R265). -/
structure AdlibFmt where
  sel : Fin 16
  wd : Fin 32
  ws : Fin 32
  wt : Fin 32
  imm7 : Fin 128
  deriving DecidableEq, Repr

end Sys2Proof
end

