-- ==== Sys2Proof/Syntax.lean ====
section
/-! DEFINITION. The commands: one constructor per row of the opcode table, with the operands that the row takes from outside: which instance, who
acts, the word or frame that arrives, and what the world outside gives the step (Env). A `seq` is the prompt-book sequence number of the command whose step
it is; `p` the number of a processor (0 and 1 the stage pairs, 2 + n ENGn). -/
namespace Sys2Proof

/-- A command to the station. -/
inductive Instr where
  /-- SYS_NOP (R53): Command that does nothing but record its own prompt-book entry. -/
  | sysNop (seq : Nat) (env : Env)
  /-- SYS_IDENT (R483): Command that reports the part, revision, station ID and firmware versions. -/
  | sysIdent (seq : Nat) (env : Env)
  /-- SYS_RESET (R54): Command that reaches DONE and posts its completion, then starts a warm or cold reset within 100 µs. -/
  | sysReset (seq : Nat) (env : Env)
  /-- SYS_STATUS (R483): Command that reports the reset cause, the boot state, PWR_STAT and CLK_STAT. -/
  | sysStatus (seq : Nat) (env : Env)
  /-- SYS_FWLOAD (R480): Long command that writes a firmware image to the inactive slot (magic last) and verifies the slot. -/
  | sysFwload (seq : Nat) (env : Env)
  /-- SYS_FWSELECT (R480): Command that names the firmware slot to run at the next reset, whatever its version. -/
  | sysFwselect (seq : Nat) (env : Env)
  /-- STORE_READ (R428): Command that copies whole store entries, from a given kind and key, into a bulk buffer. -/
  | storeRead (seq : Nat) (env : Env)
  /-- STORE_WRITE (R426): Long command that builds a new store record with the given entries, writes it to the inactive bank, reads it back and makes it active. -/
  | storeWrite (seq : Nat) (env : Env)
  /-- STORE_LIST (R428): Command that lists the header words of every entry of the active store record. -/
  | storeList (seq : Nat) (env : Env)
  /-- STORE_ERASE (R428): Long command that writes a new store record without the named entries. -/
  | storeErase (seq : Nat) (env : Env)
  /-- STORE_STATUS (R428): Command that reports the store banks, their sequence numbers and the record length. -/
  | storeStatus (seq : Nat) (env : Env)
  /-- STORE_FACTORY (R426): Long command that writes a new store record holding the factory configuration. -/
  | storeFactory (seq : Nat) (env : Env)
  /-- RING_CONFIG (R90): Command that sets the link mode, port enables, role and tier-link MAC while the station is OFFLINE. -/
  | ringConfig (seq : Nat)
  /-- RING_SCHEDULE (R90): Long command that checks a whole schedule image and loads it into the shadow tables. -/
  | ringSchedule (seq : Nat) (env : Env)
  /-- RING_COMMIT (R90): Long command that commits the shadow schedule generation at a chosen lap boundary, locally or ring-wide from the starter. -/
  | ringCommit (seq : Nat)
  /-- RING_JOIN (R87): Long command that joins the ring (mode 0) or loads or deletes a grant-table entry on the starter. -/
  | ringJoin (seq : Nat) (env : Env)
  /-- RING_LEAVE (R87): Long command that sends a leave request and leaves the ring at the lap of the leave notice. -/
  | ringLeave (seq : Nat)
  /-- RING_SPLIT (R90): Command that sets the fields of one split point. -/
  | ringSplit (seq : Nat)
  /-- RING_CREDITS (R90): Command that sets the open-window credit pools of both directions. -/
  | ringCredits (seq : Nat)
  /-- RING_HEAL (R168): Command that configures healing, forces or releases a wrap, or flushes the wrap table or a stream entry. -/
  | ringHeal (seq : Nat)
  /-- RING_STATUS (R90): Command that reports the ring state, ring ID, lap number and generations. -/
  | ringStatus (seq : Nat)
  /-- TIME_STARTER (R124): Command that sets starter candidacy and priority, or replaces the reserve list on the starter. -/
  | timeStarter (seq : Nat)
  /-- TIME_SET (R124): Command that sets the rate, applies a step and writes the servo enable of the station's time. -/
  | timeSet (seq : Nat)
  /-- TIME_ASYM (R116): Command that writes a port's asymmetry value (mode 0) or measures the ring asymmetry over 256 laps on the starter (mode 1). -/
  | timeAsym (seq : Nat)
  /-- TIME_TRIG (R118): Command that writes and commits the fields of one trigger. -/
  | timeTrig (seq : Nat)
  /-- TIME_CAPT (R120): Command that configures one capture input. -/
  | timeCapt (seq : Nat)
  /-- TIME_UTC (R124): Command that sets the UTC offset, on the starter while laps run. -/
  | timeUtc (seq : Nat)
  /-- TIME_PTP (R122): Command that sets the IEEE 1588 or 802.1AS role, profile and intervals of a MAC. -/
  | timePtp (seq : Nat)
  /-- TIME_STATUS (R124): Command that reports the time state, offset, passive offset and set index. -/
  | timeStatus (seq : Nat)
  /-- MRSH_CONFIG (R140): Command that sets the marshal guard band, cut limits and watch entries for the next lap boundary. -/
  | mrshConfig (seq : Nat)
  /-- MRSH_MODE (R140): Command that sets the marshal to active or monitor-only mode and the star-mode address. -/
  | mrshMode (seq : Nat)
  /-- MRSH_STATUS (R140): Command that reports the marshal state, self offsets and cut count. -/
  | mrshStatus (seq : Nat)
  /-- MRSH_CLEAR (R140): Command that clears marshal counters, self maxima or the warning log, or leaves OUT. -/
  | mrshClear (seq : Nat)
  /-- FAB_WINDOW (R173): Command that writes and commits the fields of one fabric aperture window. -/
  | fabWindow (seq : Nat) (env : Env)
  /-- FAB_LOGREAD (R181): Command that copies the fabric error and discard logs into a bulk buffer. -/
  | fabLogread (seq : Nat) (env : Env)
  /-- FAB_LOGCLR (R205): Command that clears the fabric error log, discard log or counters. -/
  | fabLogclr (seq : Nat) (env : Env)
  /-- FAB_FENCECLR (R166): Command that clears the fence of one source or of all sources, so each kind accepts its next frame whatever its seq. -/
  | fabFenceclr (seq : Nat)
  /-- GATE_ROUTE (R204): Long command that writes, reads or invalidates routing entries, all together between two lookups. -/
  | gateRoute (seq : Nat) (env : Env)
  /-- GATE_RATE (R204): Command that writes rate-adaptation entries together between two lookups. -/
  | gateRate (seq : Nat)
  /-- GATE_CACHE (R205): Command that copies cached rate-entry values with their arrival times and freshness. -/
  | gateCache (seq : Nat)
  /-- GATE_STATUS (R205): Command that reports gate status, miss and drop counters and log status. -/
  | gateStatus (seq : Nat)
  /-- STAGE_LOAD (R222): Long command that loads a stage image into an image slot that no pair is running from. -/
  | stageLoad (seq : Nat) (env : Env)
  /-- STAGE_VERIFY (R225): Long command that checks the header, signature, sections, maps, carry map and gap of an image for the named pairs. -/
  | stageVerify (seq : Nat) (env : Env)
  /-- STAGE_ARM (R225): Command that copies the verified understudy's code into the inactive code half, runs its early carry entries and sets armed. -/
  | stageArm (seq : Nat) (env : Env)
  /-- STAGE_CUE (R226): Long command that cues the armed understudy at a named cycle boundary. -/
  | stageCue (seq : Nat) (env : Env)
  /-- STAGE_DISARM (R225): Command that clears the armed understudy of the named pairs. -/
  | stageDisarm (seq : Nat) (env : Env)
  /-- STAGE_MODE (R217): Command that requests stop, run, hold or single step of a stage pair. -/
  | stageMode (seq : Nat) (env : Env)
  /-- STAGE_RESTART (R220): Long command that applies safe actions and warm- or cold-restarts a pair from its active slot into a requested mode. -/
  | stageRestart (seq : Nat) (env : Env)
  /-- STAGE_CYCLE (R230): Command that writes and commits a pair's cycle length, phase, output offset and watchdog limit. -/
  | stageCycle (seq : Nat) (env : Env)
  /-- STAGE_STATUS (R230): Command that reports a pair's state, cycle number and logic durations. -/
  | stageStatus (seq : Nat) (env : Env)
  /-- ENG_LOAD (R283): Long command that verifies a signed script image and writes it into the script library. -/
  | engLoad (seq : Nat) (env : Env)
  /-- ENG_START (R284): Long command that checks, loads and starts a script with its parameter block on an engine. -/
  | engStart (seq : Nat) (env : Env)
  /-- ENG_STOP (R277): Command that stops the named running engines with their stop actions. -/
  | engStop (seq : Nat)
  /-- ENG_MATRIX (R270): Command that assigns or releases lines and controllers to an engine or binds a channel to an endpoint. -/
  | engMatrix (seq : Nat)
  /-- ENG_HANDS (R304): Command that moves stagehands to another engine, clearing their bindings and FIFOs and restarting them. -/
  | engHands (seq : Nat)
  /-- ENG_ADLIB (R268): Command that checks and writes, or reads, one ad-lib decode-table entry. -/
  | engAdlib (seq : Nat)
  /-- ENG_ADLIBLOCK (R268): Command that locks the ad-lib decode table until cold reset. -/
  | engAdliblock (seq : Nat)
  /-- ENG_STATUS (R304): Command that reports an engine's state, stop records and stagehands. -/
  | engStatus (seq : Nat)
  /-- LINE_MODE (R307): Command that writes and commits the electrical mode of a serial line. -/
  | lineMode (seq : Nat) (env : Env)
  /-- LINE_CAL (R324): Long command that requests calibration passes on the named lines and waits up to a time limit. -/
  | lineCal (seq : Nat) (env : Env)
  /-- LINE_SCOPE (R326): Long command that captures line-scope samples into house memory. -/
  | lineScope (seq : Nat) (env : Env)
  /-- LINE_ECHO (R328): Long command that runs a reflection test on a line in an open maintenance window. -/
  | lineEcho (seq : Nat) (env : Env)
  /-- LINE_MAINT (R327): Command that opens or closes a maintenance window on the named lines. -/
  | lineMaint (seq : Nat) (env : Env)
  /-- LINE_TELEM (R329): Command that copies line telemetry records into a bulk buffer. -/
  | lineTelem (seq : Nat) (env : Env)
  /-- DIO_MODE (R313): Command that writes and commits the mode and open-load detection of a discrete line. -/
  | dioMode (seq : Nat) (env : Env)
  /-- DIO_FILTER (R314): Command that writes and commits the input filter and side-band edges of discrete lines. -/
  | dioFilter (seq : Nat) (env : Env)
  /-- DIO_SET (R318): Command that sets output levels of an octet not owned by a stage pair or engine, or clears its latches. -/
  | dioSet (seq : Nat) (env : Env)
  /-- DIO_STATUS (R330): Command that reports an octet's inputs, faults, outputs and global status. -/
  | dioStatus (seq : Nat) (env : Env)
  /-- CAN_MODE (R334): Command that commits a controller's mode and configuration, optionally cancelling a tagged record. -/
  | canMode (seq : Nat) (env : Env)
  /-- CAN_TIMING (R337): Command that commits a controller's nominal and data bit timing and delay compensation. -/
  | canTiming (seq : Nat) (env : Env)
  /-- CAN_DETECT (R352): Long command that tries candidate bit timings in listen-only until eight good frames settle one. -/
  | canDetect (seq : Nat) (env : Env)
  /-- CAN_FILTER (R346): Command that writes and commits acceptance filters of a controller. -/
  | canFilter (seq : Nat) (env : Env)
  /-- CAN_PAIR (R342): Command that joins or parts a pair of CAN controllers while both are off. -/
  | canPair (seq : Nat) (env : Env)
  /-- CAN_RECOVER (R350): Command that starts bus-off recovery of a controller. -/
  | canRecover (seq : Nat) (env : Env)
  /-- CAN_STATUS (R353): Command that reports a controller's status and counters. -/
  | canStatus (seq : Nat) (env : Env)
  /-- NET_PORT (R356): Command that commits a MAC's PHY mode, PLCA settings and endpoint filter. -/
  | netPort (seq : Nat)
  /-- NET_QUEUE (R361): Command that commits a MAC's PCP-to-class map. -/
  | netQueue (seq : Nat)
  /-- NET_GATES (R370): Command that loads a MAC's gate control list to take effect at the next cycle start. -/
  | netGates (seq : Nat)
  /-- NET_VLAN (R371): Command that commits a MAC's tag insertion and removal settings. -/
  | netVlan (seq : Nat)
  /-- NET_FDB (R362): Command that writes, deletes, flushes or reads address-table entries. -/
  | netFdb (seq : Nat)
  /-- NET_LIMITS (R366): Command that commits a switch port's and its classes' buffer limits. -/
  | netLimits (seq : Nat)
  /-- NET_MIRROR (R375): Command that sets mirroring and loads flow-classifier entries. -/
  | netMirror (seq : Nat)
  /-- NET_STATUS (R376): Command that reports a MAC's and the switch's status and counters. -/
  | netStatus (seq : Nat)
  /-- MOT_CONFIG (R382): Command that commits a profile generator's limits, route, switches and set-point settings. -/
  | motConfig (seq : Nat)
  /-- MOT_MOVE (R380): Command that plans a limited-jerk move to a target, at once or queued for a split point or trigger. -/
  | motMove (seq : Nat)
  /-- MOT_VELOCITY (R380): Command that plans toward a target velocity and holds it. -/
  | motVelocity (seq : Nat)
  /-- MOT_STOP (R391): Command that decelerates a generator to standstill, or stops it at ESTOP, and discards any queued move. -/
  | motStop (seq : Nat)
  /-- MOT_HOME (R392): Long command that runs the homing sequence of a generator. -/
  | motHome (seq : Nat)
  /-- MOT_LATCH (R393): Command that latches a generator's position at an input edge, capture or given time. -/
  | motLatch (seq : Nat)
  /-- MOT_STATUS (R401): Command that reports a generator's state, position, velocity and target. -/
  | motStatus (seq : Nat)
  /-- DRV_CONFIG (R401): Command that commits a bridge's mode, currents, bands and feed-forward. -/
  | drvConfig (seq : Nat)
  /-- DRV_ENABLE (R396): Command that enables or disables the named bridges. -/
  | drvEnable (seq : Nat)
  /-- DRV_COIL (R399): Command that sets a bridge's pull-in and hold currents and pull-in time for coil mode. -/
  | drvCoil (seq : Nat)
  /-- DRV_CLEAR (R398): Command that clears the latched faults of the named bridges. -/
  | drvClear (seq : Nat)
  /-- DRV_STATUS (R401): Command that reports a bridge's status, faults, measurement and coil timing. -/
  | drvStatus (seq : Nat)
  /-- MEM_POWER (R405): Command that puts house memory banks ON, in RETENTION or OFF. -/
  | memPower (seq : Nat) (env : Env)
  /-- MEM_SCRUB (R416): Command that sets the scrub rate of a region. -/
  | memScrub (seq : Nat) (env : Env)
  /-- MEM_REMAP (R417): Command that remaps a house memory word to a spare, or reads a bank's remap table. -/
  | memRemap (seq : Nat) (env : Env)
  /-- MEM_COPY (R421): Long command that copies a buffer through DMA7. -/
  | memCopy (seq : Nat) (env : Env)
  /-- MEM_STATUS (R428): Command that reports memory events, error counts and spares used. -/
  | memStatus (seq : Nat) (env : Env)
  /-- SAFE_TABLE (R494): Command that writes and commits the safe-state table while the gate is ARMED and the table unlocked. -/
  | safeTable (seq : Nat) (env : Env)
  /-- SAFE_RELEASE (R491): Command that releases a tripped fault gate when no cause is present. -/
  | safeRelease (seq : Nat) (env : Env)
  /-- SAFE_STATUS (R497): Command that reports the gate state, latched and present causes and first cause. -/
  | safeStatus (seq : Nat) (env : Env)
  /-- DIAG_BIST (R497): Long command that runs a built-in self-test of a stage pair, engine or the gate path. -/
  | diagBist (seq : Nat) (env : Env)
  /-- DIAG_LOOP (R497): Long command that runs a serial loopback or a discrete test pulse on a line. -/
  | diagLoop (seq : Nat) (env : Env)
  /-- DIAG_INJECT (R497): Command that injects a proof-test fault: memory bit inversions, lockstep, clock, rail, temperature or watchdog faults. -/
  | diagInject (seq : Nat) (env : Env)
  /-- DIAG_WDOG (R488): Command that sets the per-command watchdog limits and engine watchdog periods. -/
  | diagWdog (seq : Nat) (env : Env)
  /-- BOOK_HEAD (R55): Command that reports the prompt-book head and oldest valid sequence numbers. -/
  | bookHead (seq : Nat) (env : Env)
  /-- BOOK_READ (R55): Command that copies consistent prompt-book entries into a bulk buffer. -/
  | bookRead (seq : Nat) (env : Env)
  /-- BOOK_FIND (R55): Command that finds the newest older entry with a given host tag and originator. -/
  | bookFind (seq : Nat) (env : Env)
  /-- BOOK_MARK (R55): Command that records a marker entry whose parameter digest covers four host words. -/
  | bookMark (seq : Nat) (env : Env)
  /-- HOST_CONFIG (R465): Command that commits host interface settings and interrupt routes. -/
  | hostConfig (seq : Nat) (env : Env)
  /-- HOST_UNFENCE (R463): Command that clears the fence of a PCIe function's identity. -/
  | hostUnfence (seq : Nat) (env : Env)
  /-- HOST_STATUS (R465): Command that reports host links, fences, hot-swap state and fence rejections. -/
  | hostStatus (seq : Nat) (env : Env)
  /-- PWR_DOMAIN (R471): Command that changes power domains to ON, RETENTION or OFF, all or none. -/
  | pwrDomain (seq : Nat) (env : Env)
  /-- PWR_HOLDUP (R469): Command that sets the power-fail reactions. -/
  | pwrHoldup (seq : Nat) (env : Env)
  /-- PWR_STATUS (R483): Command that reports power status, rails and the highest temperature. -/
  | pwrStatus (seq : Nat) (env : Env)
  /-- CALL_DOORBELL_WRITE (R435): Write of a channel's doorbell word that stores the value, sets busy, clears done and delivers the channel. -/
  | callDoorbellWrite (id : Ident) (c : Fin 64) (v : Word)
  /-- CALL_MESSAGE_WRITE (R435): Write to a channel's message buffer, taken only while the channel is not busy. -/
  | callMessageWrite (id : Ident) (c : Fin 64) (w : Fin 16) (v : Word)
  /-- CALL_ACK_WRITE (R436): Receiver's acknowledge that stores a return code, clears busy and sets done. -/
  | callAckWrite (id : Ident) (c : Fin 64) (v : Word)
  /-- CALL_EVCLR (R437): Receiver's write of evclr that clears the channel's event count. -/
  | callEvclr (id : Ident) (c : Fin 64)
  /-- CALL_BIND_WRITE (R432): Write of a channel binding, checked against the sender and receiver rules and the lock. -/
  | callBindWrite (id : Ident) (c : Fin 64) (v : Word)
  /-- CALL_LOCK (R433): Write of 1 that locks every callboard binding until cold reset. -/
  | callLock (id : Ident)
  /-- CALL_ERR_INFO_CLEAR (R434): W1C of CALL_ERR_INFO.valid that clears the record and its overflow. -/
  | callErrInfoClear (id : Ident)
  /-- CALL_CNT_EVDROP_CLEAR (R437): Write that clears the dropped-event counter. -/
  | callCntEvdropClear (id : Ident)
  /-- DOORBELL_PROCESSING (R436): Command core judges the newest doorbell value of a queue channel and acknowledges it with a return code. -/
  | doorbellProcessing (c : Fin 16)
  /-- SLOT_CONSUMPTION (R37): Command core reads a submission slot in its round-robin turn, checks it and records it in the prompt book. -/
  | slotConsumption (env : Env)
  /-- COMMAND_START (R39): Accepted command starts once a context is free, in-flight limits, flags and unit holds allow. -/
  | commandStart (seq : Nat) (env : Env)
  /-- COMMAND_END (R40): Command reaches its final state, its entry is written and its completion is posted in start order. -/
  | commandEnd (seq : Nat) (env : Env)
  /-- COMPLETION_INTERRUPT (R519): Queue completion interrupt sent when coalesce completions accumulate or the holdoff elapses. -/
  | completionInterrupt (q : Fin 8)
  /-- COMMAND_WATCHDOG (R43): Expiry of the per-command limit of a kind S or Q command, which fails it with status 0x0F01. -/
  | commandWatchdog (seq : Nat)
  /-- CORE_HEARTBEAT (R488): Expiry of the 50 ms command-core heartbeat, which starts a warm reset with cause 5. -/
  | coreHeartbeat
  /-- EPOCH_RECORD_RETRY (R31): Every 10 ms the command core retries recording a queue epoch in the store after a failed write. -/
  | epochRecordRetry (env : Env)
  /-- CMD_QCTL_RESET (R57): Queue reset that drops unconsumed slots, abandons accepted commands, clears the halt and zeroes the pointers. -/
  | cmdQctlReset (id : Ident) (q : Fin 8) (env : Env)
  /-- CMD_QCTL_COMMIT (R28): Commit of a disabled queue's configuration, checked for placement and owner lock, binding its doorbells. -/
  | cmdQctlCommit (id : Ident) (q : Fin 8)
  /-- CMD_QCTL_ENABLE (R31): Enable of a queue with a new recorded epoch, zeroed pointers and phase 1. -/
  | cmdQctlEnable (id : Ident) (q : Fin 8) (env : Env)
  /-- CMD_QCTL_DISABLE (R31): Disable that stops consumption while accepted commands continue. -/
  | cmdQctlDisable (id : Ident) (q : Fin 8)
  /-- REGISTER_WRITE (R6): Write to a register field without behaviour of its own, under its field type. -/
  | registerWrite (id : Ident) (a : Fin 0x10000000) (whole : Bool) (v : Word)
  /-- SYS_DECERR_INFO_CLEAR (R22): W1C of SYS_DECERR_INFO.valid that clears the decode-error record and overflow. -/
  | sysDecerrInfoClear (id : Ident)
  /-- SYS_LINKERR_CLEAR (R25): Write that clears both internal link error counters. -/
  | sysLinkerrClear (id : Ident)
  /-- VIEW_IDT_WRITE (R444): Write of an identity-table entry, effective for later accesses unless fixed or locked. -/
  | viewIdtWrite (id : Ident) (i : Fin 64) (v : Word)
  /-- VIEW_LOCK (R444): Write of 1 that freezes the identity table until cold reset. -/
  | viewLock (id : Ident)
  /-- VIEW_FAULT_INFO_CLEAR (R445): W1C of VIEW_FAULT_INFO.valid that clears the record, overflow and fault counter. -/
  | viewFaultInfoClear (id : Ident)
  /-- RING_CTL_COMMIT (R90): Commit of RING_CFG, refused unless the station is OFFLINE. -/
  | ringCtlCommit (id : Ident)
  /-- RING_CTL_SPLITCOMMIT (R82): Split-point fields take effect together at the next lap boundary. -/
  | ringCtlSplitcommit (id : Ident)
  /-- RING_CTL_CNTCLR (R91): Write that clears all RING counters. -/
  | ringCtlCntclr (id : Ident)
  /-- RING_PUBCOMMIT (R72): Write that publishes window regions for this lap and makes them read-only until the boundary. -/
  | ringPubcommit (v : Word)
  /-- LAP_BOUNDARY (R19): Local time reaches the announced lap start: the station swaps lap-buffer halves, starts stage cycles and opens the lap's schedule. -/
  | lapBoundary (dep0 : Fin 1024) (dep1 : Fin 1024) (told0 : Bool) (told1 : Bool) (bad : Bool)
  /-- OUTPUT_HOLD (R229): Count of consecutive missing laps reaches its threshold and the pair's register outputs take their safe actions. -/
  | outputHold (p : Fin 2)
  /-- SCHEDULED_WINDOW (R72): At an active window start the ring unit sends one process frame of the published region, or counts a missed publication. -/
  | scheduledWindow (d : Fin 2) (n : Fin 8) (subtick : Fin 32)
  /-- OPEN_WINDOW_INSERTION (R75): Station inserts the oldest open frame whose credit pool allows it when it fits before the next busy interval. -/
  | openWindowInsertion (d : Fin 2) (subtick : Fin 32)
  /-- TRANSIT_BUFFER_RELEASE (R75): Held forwarded open frames leave the transit buffer gap quanta after the busy interval ends. -/
  | transitBufferRelease (d : Fin 2)
  /-- SPLIT_POINT_FIRE (R81): Split point reaches its offset and starts stagehands, queued moves, interrupts and callboard events. -/
  | splitPointFire (n : Fin 16)
  /-- LAP_FRAME (R104): Lap frame taken in: correction updated, reference arrival and offset taken, reserve list and numbering adopted. -/
  | lapFrame (p : Fin 2) (f : RFrame) (subtick : Fin 32) (res : Nat)
  /-- PROCESS_FRAME (R78): Process frame of the current lap is written into the back half and its source bit set, or discarded as late, wrong-lap or out of range. -/
  | processFrame (p : Fin 2) (f : RFrame) (subtick : Fin 32)
  /-- WRITE (R187): Write frame accepted in sequence and made visible at the target, or refused. -/
  | write (p : Fin 2) (f : RFrame)
  /-- READ_REQUEST (R187): Read request frame accepted and queued at the target port, which returns a completion. -/
  | readRequest (p : Fin 2) (f : RFrame)
  /-- ATOMIC (R185): Atomic frame executed at a house-memory bank, returning the old value. -/
  | atomic (p : Fin 2) (f : RFrame)
  /-- COMPLETION (R178): Completion frame matched to its tag and returned to the initiator, or discarded as late. -/
  | completion (p : Fin 2) (f : RFrame)
  /-- MESSAGE (R195): Message frame delivered straight to its destination gate port. -/
  | message (p : Fin 2) (f : RFrame)
  /-- SIDE_BAND (R187): Side-band frame handed to the gate after earlier writes of its source are visible. -/
  | sideBand (p : Fin 2) (f : RFrame)
  /-- INBOUND_BUFFER_DRAIN (R188): Accepted inbound request leaves the inbound buffer into memory. -/
  | inboundBufferDrain
  /-- JOIN_REQUEST (R86): Starter answers a join request with a grant, refusal or busy, or grants a rejoin of a kept address. -/
  | joinRequest (p : Fin 2) (f : RFrame)
  /-- JOIN_GRANT (R87): Joining station loads its granted address and schedule image as shadow and becomes ASSIGNED. -/
  | joinGrant (p : Fin 2) (f : RFrame)
  /-- JOIN_REFUSE (R87): Refusal fails the join command and returns the station to OFFLINE. -/
  | joinRefuse (p : Fin 2) (f : RFrame)
  /-- JOIN_BUSY (R87): Busy answer makes the joining station send its request again, failing after 64. -/
  | joinBusy (p : Fin 2) (f : RFrame)
  /-- JOIN_NO_ANSWER (R87): 16 laps without answer make the station repeat its request, failing after three silent periods. -/
  | joinNoAnswer
  /-- CLOSE_NOTICE (R87): Close notice takes the assigned station to CLOSING and frees the named stream entry. -/
  | closeNotice (p : Fin 2) (f : RFrame)
  /-- LEAVE_REQUEST (R88): Starter sends a leave notice and makes a ring-wide commit. -/
  | leaveRequest (p : Fin 2) (f : RFrame)
  /-- LEAVE_NOTICE (R148): Leave notice schedules the leave and frees the stream entry of the leaving station. -/
  | leaveNotice (p : Fin 2) (f : RFrame)
  /-- START_CLAIM (R111): Start claim taken in is recorded and, in LISTEN, makes the station send its own claim. -/
  | startClaim (p : Fin 2) (f : RFrame)
  /-- LISTEN_TIME (R111): Candidate's listen time elapses and it sends its claim and starts the settle timer. -/
  | listenTime
  /-- SETTLE_TIME (R112): Settle time elapses and the best claim opens lap 1 or others take reserve rank. -/
  | settleTime
  /-- EIGHT_MISSED_LAPS (R111): Eight consecutive missed laps stop insertion and return the claim state to START. -/
  | eightMissedLaps
  /-- TAKEOVER (R114): Reserve k opens laps itself after k+1 consecutive missed laps. -/
  | takeover (dep0 : Nat) (dep1 : Nat)
  /-- SERVO_UPDATE (R105): After 2^upd laps the servo steps the set or updates the rate from the averaged offset. -/
  | servoUpdate
  /-- DELAY_MARKER_RECEIVED_REQUEST (R99): Delay request taken in is stamped and answered in the first idle block after 100 ns. -/
  | delayMarkerReceivedRequest (p : Fin 2) (n : Fin 64) (turn : Nat)
  /-- DELAY_MARKER_RESPONSE (R100): Delay response yields a link-delay sample, filtered into the port's average. -/
  | delayMarkerResponse (p : Fin 2) (n : Fin 64) (turn : Fin 65536) (subtick : Fin 32)
  /-- BLOCK_LOCK (R61): Port gains block lock after 64 valid sync headers. -/
  | blockLock (p : Fin 2) (member : Bool)
  /-- PORT_FAILURE (R149): Loss of signal, bad sync headers or Remote Fault fail a ring port, which sends Remote Fault. -/
  | portFailure (p : Fin 2) (remote : Bool)
  /-- WRAP (R150): Station wraps the failed port, turning traffic into the other direction and sending its wrap marker. -/
  | wrap (p : Fin 2)
  /-- WRAP_MARKER (R159): Wrap marker taken in is forwarded, enters the wrap table, holds every source and starts a marker replay. -/
  | wrapMarker (p : Fin 2) (wp : Fin 2) (station : Fin 4096)
  /-- REPLAY_MARKER (R157): Replay marker taken in causes hold and marker replay without a wrap. -/
  | replayMarker (p : Fin 2) (station : Fin 4096)
  /-- UNWRAP_NOTICE (R153): Unwrap notice removes the matching wrap-table entry at the next boundary. -/
  | unwrapNotice (p : Fin 2) (wp : Fin 2) (station : Fin 4096)
  /-- PORT_READY (R154): East wrapped port ready for stable laps sends an unwrap proposal. -/
  | portReady
  /-- UNWRAP_PROPOSAL (R154): Partner's ready west port answers a proposal with an accept. -/
  | unwrapProposal (v : Fin 65536)
  /-- ACCEPT (R154): Proposer taking an accept before U−1 sends a confirm. -/
  | accept (v : Fin 65536)
  /-- CONFIRM (R154): Partner taking a confirm before U becomes CONFIRMED. -/
  | confirm (v : Fin 65536)
  /-- MARKER_REPLAY (R158): Source sends replay start, buffered frames younger than W and replay end in direction odir. -/
  | markerReplay
  /-- REQUEST_REPLAY (R160): Source sends a requester its buffered frames from its expected numbers, listing unavailable kinds. -/
  | requestReplay
  /-- REPLAY_REQUEST (R160): Replay request taken in queues a request replay, or is dropped when the queue is full. -/
  | replayRequest (p : Fin 2) (f : RFrame)
  /-- REPLAY_START (R161): Replay start moves a held or recovering source to replay, or fences on an unavailable kind. -/
  | replayStart (p : Fin 2) (f : RFrame)
  /-- REPLAY_END (R161): Replay end returns the source to NORMAL or sends a new request when a kind is short. -/
  | replayEnd (p : Fin 2) (f : RFrame)
  /-- FENCE_NOTICE (R164): Fence notice taken in at the source sets fremote and records the sender. -/
  | fenceNotice (p : Fin 2) (f : RFrame)
  /-- HOLD_TIMEOUT (R159): 2×W without replay end returns a held source to NORMAL or RECOVER. -/
  | holdTimeout (ring : Fin 256) (station : Fin 4096)
  /-- RECOVER_TIMEOUT (R160): 2×W without replay start resends the request, fencing after three. -/
  | recoverTimeout (ring : Fin 256) (station : Fin 4096)
  /-- MARSHAL_MISSED_LAP (R127): No chosen lap-frame copy by the marshal's predicted boundary makes it predict the lap and possibly leave LOCKED. -/
  | marshalMissedLap
  /-- DESYNCHRONISE (R135): Cut count reaches cutlim at a boundary and the station goes idle, OFFLINE and rejoins, or goes OUT. -/
  | desynchronise
  /-- DESYNC_IDLE_END (R135): After the idle period the lanes resume idle blocks and the station enters LISTEN. -/
  | desyncIdleEnd
  /-- MRSH_CTL_COMMIT (R140): Marshal RWC fields take effect at the next boundary. -/
  | mrshCtlCommit (id : Ident)
  /-- MRSH_CTL_REJOIN (R127): Write that takes the marshal out of OUT and starts a rejoin. -/
  | mrshCtlRejoin (id : Ident)
  /-- MRSH_WLOG_READ (R133): Read of warning-log word +0x04 removes the head entry. -/
  | mrshWlogRead
  /-- FORERUNNER_REFERENCE_FRAME (R139): Star-mode reference frame sets the reference arrival and lap numbering at rate 2. -/
  | forerunnerReferenceFrame (f : RFrame) (subtick : Fin 32)
  /-- TIME_SNAPCTL_CAP (R97): Write that captures the raw counter and its conversion at one tick. -/
  | timeSnapctlCap
  /-- TIME_SNAPCTL_CNTCLR (R125): Write that clears every time counter. -/
  | timeSnapctlCntclr
  /-- TIME_TRIG_COMMIT (R119): Commit of a trigger's fields, marking past starts missed. -/
  | timeTrigCommit (n : Fin 8)
  /-- TRIGGER_FIRE (R118): Trigger reaches its occurrence, raises TRIGEV and drives its pin. -/
  | triggerFire (n : Fin 8)
  /-- CAPTURE_EDGE (R120): Selected edge on a capture input latches the raw counter into its queue. -/
  | captureEdge (n : Fin 8) (rising : Bool)
  /-- TIME_CAPT_AUX_READ (R121): Read of a capture auxiliary word removes the entry. -/
  | timeCaptAuxRead (n : Fin 8)
  /-- TIME_TSQ_AUX_READ (R121): Read of a transmit stamp queue auxiliary word removes the entry. -/
  | timeTsqAuxRead (q : Fin 6)
  /-- PTP_MESSAGE (R122): IEEE 1588 or 802.1AS message on an enabled MAC handled by the command core. -/
  | ptpMessage (m : Fin 4) (src : Nat) (offset : Option Word)
  /-- FABRIC_GRANT (R174): Fabric requester grants an aperture access, takes a tag and queues its frames, or refuses it locally. -/
  | fabricGrant
  /-- TAG_TIMEOUT (R176): Tag timer expires, failing the access with TIMEOUT and freeing the tag. -/
  | tagTimeout (t : Fin 64)
  /-- PREFETCH_AGE (R183): Prefetch buffer discarded when its age limit passes. -/
  | prefetchAge (w : Fin 16)
  /-- FAB_CTL_WINCOMMIT (R173): Commit of a window's fields once no access through it is outstanding. -/
  | fabCtlWincommit (id : Ident) (w : Fin 16)
  /-- FAB_CTL_CNTCLR (R206): Write that clears the FAB counters. -/
  | fabCtlCntclr (id : Ident)
  /-- MESSAGE_ENTERS_GATE (R194): Message from a port is routed by the routing table, rate entry or queue, or dropped as a miss. -/
  | messageEntersGate (src : Fin 17)
  /-- RATE_ENTRY_SEND (R197): Rate entry sends its latest value when its pace has elapsed. -/
  | rateEntrySend (i : Fin 1024)
  /-- GATE_WAIT_LIMIT (R200): Request waiting on a held port past the wait limit receives the busy answer. -/
  | gateWaitLimit (n : Fin 64)
  /-- GATE_ANSWER_LIMIT (R200): Transaction without answer after txlim closes with the busy answer and is logged. -/
  | gateAnswerLimit (n : Fin 64)
  /-- GATE_CTL_LOGCLR (R203): Write that empties the gate log. -/
  | gateCtlLogclr (id : Ident)
  /-- GATE_CTL_CNTCLR (R207): Write that clears the GATE counters. -/
  | gateCtlCntclr (id : Ident)
  /-- WRITE_OUTPUTS (R215): At the later of logic end and the output offset the sequencer processes the output map, publishes and writes the retained journal. -/
  | writeOutputs (p : Fin 2)
  /-- RETAINED_JOURNAL_APPLY (R219): Journal record's words are applied to the retained variables in the background. -/
  | retainedJournalApply (p : Fin 2)
  /-- CYCLE_WATCHDOG (R216): Logic phase overruns its limit and the pair enters FAULT, tripping the gate. -/
  | cycleWatchdog (p : Fin 2)
  /-- STG_CTL_COMMIT (R230): Commit of a pair's cycle fields for the next cycle boundary. -/
  | stgCtlCommit (id : Ident) (p : Fin 2)
  /-- STG_CTL_CNTCLR (R232): Write that clears the STG counters. -/
  | stgCtlCntclr (id : Ident)
  /-- DBG_CTL_HALT0 (R217): Debug halt of stage pair 0 into HOLD. -/
  | dbgCtlHalt0 (id : Ident)
  /-- DBG_CTL_HALT1 (R217): Debug halt of stage pair 1 into HOLD. -/
  | dbgCtlHalt1 (id : Ident)
  /-- ADD (R240): Instruction wd := ws + wt. -/
  | add (p : Fin 18) (r : RFmt)
  /-- SUB (R240): Instruction wd := ws − wt. -/
  | sub (p : Fin 18) (r : RFmt)
  /-- AND (R240): Instruction wd := ws AND wt. -/
  | and (p : Fin 18) (r : RFmt)
  /-- OR (R240): Instruction wd := ws OR wt. -/
  | or (p : Fin 18) (r : RFmt)
  /-- XOR (R240): Instruction wd := ws XOR wt. -/
  | xor (p : Fin 18) (r : RFmt)
  /-- NOR (R240): Instruction wd := NOT (ws OR wt). -/
  | nor (p : Fin 18) (r : RFmt)
  /-- ANDN (R240): Instruction wd := ws AND NOT wt. -/
  | andn (p : Fin 18) (r : RFmt)
  /-- CPLT (R240): Instruction setting wd to 1 if ws < wt signed. -/
  | cplt (p : Fin 18) (r : RFmt)
  /-- CPLTU (R240): Instruction setting wd to 1 if ws < wt unsigned. -/
  | cpltu (p : Fin 18) (r : RFmt)
  /-- CPEQ (R240): Instruction setting wd to 1 if ws = wt. -/
  | cpeq (p : Fin 18) (r : RFmt)
  /-- SHL (R240): Instruction shifting ws left by wt[4:0]. -/
  | shl (p : Fin 18) (r : RFmt)
  /-- SHR (R240): Instruction shifting ws right by wt[4:0] with zero fill. -/
  | shr (p : Fin 18) (r : RFmt)
  /-- SHRA (R240): Instruction shifting ws right by wt[4:0] with sign fill. -/
  | shra (p : Fin 18) (r : RFmt)
  /-- SHL_K (R240): Instruction shifting ws left by sh. -/
  | shlK (p : Fin 18) (r : RFmt)
  /-- SHR_K (R240): Instruction shifting ws right by sh with zero fill. -/
  | shrK (p : Fin 18) (r : RFmt)
  /-- SHRA_K (R240): Instruction shifting ws right by sh with sign fill. -/
  | shraK (p : Fin 18) (r : RFmt)
  /-- CLZ (R240): Instruction counting the leading zero bits of ws. -/
  | clz (p : Fin 18) (r : RFmt)
  /-- MIN (R240): Instruction taking the signed smaller of ws and wt. -/
  | min (p : Fin 18) (r : RFmt)
  /-- MAX (R240): Instruction taking the signed larger of ws and wt. -/
  | max (p : Fin 18) (r : RFmt)
  /-- MINU (R240): Instruction taking the unsigned smaller of ws and wt. -/
  | minu (p : Fin 18) (r : RFmt)
  /-- MAXU (R240): Instruction taking the unsigned larger of ws and wt. -/
  | maxu (p : Fin 18) (r : RFmt)
  /-- MUL (R241): Instruction giving the low word of ws × wt. -/
  | mul (p : Fin 18) (r : RFmt)
  /-- MULH (R241): Instruction giving the high word of the signed product. -/
  | mulh (p : Fin 18) (r : RFmt)
  /-- MULHU (R241): Instruction giving the high word of the unsigned product. -/
  | mulhu (p : Fin 18) (r : RFmt)
  /-- DIV (R241): Instruction giving the signed quotient rounded toward zero. -/
  | div (p : Fin 18) (r : RFmt)
  /-- DIVU (R241): Instruction giving the unsigned quotient. -/
  | divu (p : Fin 18) (r : RFmt)
  /-- REM (R241): Instruction giving the signed remainder. -/
  | rem (p : Fin 18) (r : RFmt)
  /-- REMU (R241): Instruction giving the unsigned remainder. -/
  | remu (p : Fin 18) (r : RFmt)
  /-- FADD (R243): FLOAT32 addition. -/
  | fadd (p : Fin 18) (r : RFmt)
  /-- FSUB (R243): FLOAT32 subtraction. -/
  | fsub (p : Fin 18) (r : RFmt)
  /-- FMUL (R243): FLOAT32 multiplication. -/
  | fmul (p : Fin 18) (r : RFmt)
  /-- FDIV (R243): FLOAT32 division. -/
  | fdiv (p : Fin 18) (r : RFmt)
  /-- FSQRT (R243): FLOAT32 square root. -/
  | fsqrt (p : Fin 18) (r : RFmt)
  /-- FMIN (R243): FLOAT32 minimum, a NaN yielding the other operand. -/
  | fmin (p : Fin 18) (r : RFmt)
  /-- FMAX (R243): FLOAT32 maximum, a NaN yielding the other operand. -/
  | fmax (p : Fin 18) (r : RFmt)
  /-- FEQ (R243): FLOAT32 equality comparison. -/
  | feq (p : Fin 18) (r : RFmt)
  /-- FLT (R243): FLOAT32 less-than comparison. -/
  | flt (p : Fin 18) (r : RFmt)
  /-- FLE (R243): FLOAT32 less-or-equal comparison. -/
  | fle (p : Fin 18) (r : RFmt)
  /-- ITOF (R243): Signed integer to FLOAT32 conversion. -/
  | itof (p : Fin 18) (r : RFmt)
  /-- FTOI (R243): FLOAT32 to signed integer, rounded to nearest and saturating. -/
  | ftoi (p : Fin 18) (r : RFmt)
  /-- FTOIZ (R243): FLOAT32 to signed integer, rounded toward zero and saturating. -/
  | ftoiz (p : Fin 18) (r : RFmt)
  /-- ADD_K (R242): Instruction adding a sign-extended immediate. -/
  | addK (p : Fin 18) (r : IFmt)
  /-- AND_K (R242): Instruction ANDing a zero-extended immediate. -/
  | andK (p : Fin 18) (r : IFmt)
  /-- OR_K (R242): Instruction ORing a zero-extended immediate. -/
  | orK (p : Fin 18) (r : IFmt)
  /-- XOR_K (R242): Instruction XORing a zero-extended immediate. -/
  | xorK (p : Fin 18) (r : IFmt)
  /-- CPLT_K (R242): Signed compare with a sign-extended immediate. -/
  | cpltK (p : Fin 18) (r : IFmt)
  /-- CPLTU_K (R242): Unsigned compare with a sign-extended immediate. -/
  | cpltuK (p : Fin 18) (r : IFmt)
  /-- LDHI (R242): Instruction loading imm16 into the upper half of wd. -/
  | ldhi (p : Fin 18) (r : IFmt)
  /-- BPERM (R249): Instruction permuting bytes of ws and the old wd by selector nibbles. -/
  | bperm (p : Fin 18) (r : IFmt)
  /-- BFX (R248): Instruction extracting a bit field, zero- or sign-extended. -/
  | bfx (p : Fin 18) (r : FieldFmt)
  /-- BFI (R248): Instruction inserting a bit field into wd. -/
  | bfi (p : Fin 18) (r : FieldFmt)
  /-- LD_B (R244): Signed byte load. -/
  | ldB (p : Fin 18) (r : IFmt)
  /-- LD_BU (R244): Unsigned byte load. -/
  | ldBu (p : Fin 18) (r : IFmt)
  /-- LD_H (R244): Signed half-word load. -/
  | ldH (p : Fin 18) (r : IFmt)
  /-- LD_HU (R244): Unsigned half-word load. -/
  | ldHu (p : Fin 18) (r : IFmt)
  /-- LD_W (R244): Word load. -/
  | ldW (p : Fin 18) (r : IFmt)
  /-- ST_B (R244): Byte store, faulting NARROW on SECDED memory. -/
  | stB (p : Fin 18) (r : IFmt)
  /-- ST_H (R244): Half-word store, faulting NARROW on SECDED memory. -/
  | stH (p : Fin 18) (r : IFmt)
  /-- ST_W (R244): Word store. -/
  | stW (p : Fin 18) (r : IFmt)
  /-- AMADD (R245): Indivisible add at a house-memory word or through the aperture, returning the old value. -/
  | amadd (p : Fin 18) (r : RFmt)
  /-- AMSWAP (R245): Indivisible swap at a house-memory word or through the aperture, returning the old value. -/
  | amswap (p : Fin 18) (r : RFmt)
  /-- REP (R252): Block instruction that repeats the following string instruction until w5 is zero or cmps stops. -/
  | rep (p : Fin 18) (r : StrFmt)
  /-- MOVS (R251): String element step copying one element from w6 to w7. -/
  | movs (p : Fin 18) (r : StrFmt)
  /-- FILLS (R251): String element step writing the fill value at w7. -/
  | fills (p : Fin 18) (r : StrFmt)
  /-- CMPS (R251): String element step comparing elements and stopping on a difference. -/
  | cmps (p : Fin 18) (r : StrFmt)
  /-- BR_EQ (R247): Branch if equal. -/
  | brEq (p : Fin 18) (r : BFmt)
  /-- BR_NE (R247): Branch if not equal. -/
  | brNe (p : Fin 18) (r : BFmt)
  /-- BR_LT (R247): Branch if less, signed. -/
  | brLt (p : Fin 18) (r : BFmt)
  /-- BR_GE (R247): Branch if greater or equal, signed. -/
  | brGe (p : Fin 18) (r : BFmt)
  /-- BR_LTU (R247): Branch if less, unsigned. -/
  | brLtu (p : Fin 18) (r : BFmt)
  /-- BR_GEU (R247): Branch if greater or equal, unsigned. -/
  | brGeu (p : Fin 18) (r : BFmt)
  /-- BR_ANY (R247): Branch if some mask bit is set. -/
  | brAny (p : Fin 18) (r : BFmt)
  /-- BR_NONE (R247): Branch if no mask bit is set. -/
  | brNone (p : Fin 18) (r : BFmt)
  /-- JMP (R247): Relative jump. -/
  | jmp (p : Fin 18) (off : BitVec 26)
  /-- CALL (R247): Relative call writing the return address to w31. -/
  | call (p : Fin 18) (off : BitVec 26)
  /-- JMPR (R247): Jump to the address in ws. -/
  | jmpr (p : Fin 18) (r : RFmt)
  /-- CALLR (R247): Call to the address in ws, writing w31. -/
  | callr (p : Fin 18) (r : RFmt)
  /-- TRAP (R254): Instruction raising a TRAP trap with a code. -/
  | trap (p : Fin 18) (r : RFmt)
  /-- BRK (R254): Debug halt if a debugger is attached, otherwise a BREAK trap. -/
  | brk (p : Fin 18) (r : RFmt)
  /-- TRET (R254): Return from a handler: PC := EPC, ie := pie. -/
  | tret (p : Fin 18) (r : RFmt)
  /-- RDS (R235): Read of a special register. -/
  | rds (p : Fin 18) (r : RFmt)
  /-- WRS (R235): Write of a special register. -/
  | wrs (p : Fin 18) (r : RFmt)
  /-- DRAIN (R246): Instruction completing when every earlier store has reached its target. -/
  | drain (p : Fin 18) (r : RFmt)
  /-- TGET (R255): Instruction reading the raw counter or program time. -/
  | tget (p : Fin 18) (r : RFmt)
  /-- PUSH (R262): Engine writes a word into a stagehand or channel transmit FIFO. -/
  | push (p : Fin 18) (r : IoFmt)
  /-- POP (R262): Engine takes a word from a stagehand or channel receive FIFO. -/
  | pop (p : Fin 18) (r : IoFmt)
  /-- HCTL (R261): Engine disables, enables or restarts a stagehand it owns. -/
  | hctl (p : Fin 18) (r : IoFmt)
  /-- HSYNC (R296): Engine syncs the stagehands in a mask. -/
  | hsync (p : Fin 18) (r : IoFmt)
  /-- WEV (R263): Wait for an event in a mask, then return and clear the pending events. -/
  | wev (p : Fin 18) (r : IoFmt)
  /-- WEV_EOC (R264): Stage pair ends its logic phase or init entry. -/
  | wevEoc (p : Fin 18) (r : IoFmt)
  /-- AD_LIB (R265): Instruction running the micro-operations of a decode-table entry. -/
  | adLib (p : Fin 18) (r : AdlibFmt)
  /-- INTERRUPT_ENTRY (R259): Engine takes an enabled pending event as an interrupt at SR_VBASE + 0x80. -/
  | interruptEntry (n : Fin 16)
  /-- ENGINE_TIMER (R275): Raw counter reaches ENGnn_TCMP and sets the timer event. -/
  | engineTimer (n : Fin 16)
  /-- ENGINE_WATCHDOG (R278): Engine watchdog expires and the engine stops with cause 3. -/
  | engineWatchdog (n : Fin 16)
  /-- ENG_SYNC (R296): Write that syncs the named stagehands. -/
  | engSync (id : Ident) (n : Fin 16) (mask : Word)
  /-- ENG_WDKICK (R278): Write that restarts the engine watchdog. -/
  | engWdkick (id : Ident) (n : Fin 16)
  /-- ENG_GTX (R281): Write that hands a message in local memory to the gate. -/
  | engGtx (id : Ident) (n : Fin 16) (v : Word)
  /-- ENG_EVT_CLEAR (R275): W1C of latched engine event bits, losing to a same-cycle set. -/
  | engEvtClear (id : Ident) (n : Fin 16) (v : Word)
  /-- ENG_CNTCLR (R306): Write that clears an engine's counters. -/
  | engCntclr (id : Ident) (n : Fin 16)
  /-- JUMP (R292): Stagehand conditional jump, optionally decrementing A or B. -/
  | jump (h : Fin 32) (cond : Fin 16) (addr : Fin 32) (z : Fin 4) (sel : Fin 4)
  /-- WAITFOR (R292): Stagehand waits for a slot level, trigger event or engine flag. -/
  | waitfor (h : Fin 32) (lvl : Bool) (src : Fin 4) (k : Fin 8) (z : Fin 32) (sel : Fin 4)
  /-- SHIFT (R293): Stagehand shifts bits out of TSR and into RSR. -/
  | shift (h : Fin 32) (n1 : Fin 32) (dst : Fin 4) (src : Fin 4) (ien : Bool) (oen : Bool) (sel : Fin 4)
  /-- TAKE (R295): Stagehand loads TSR from its transmit FIFO. -/
  | take (h : Fin 32) (nb : Bool) (ife : Bool) (z : Fin 256) (sel : Fin 4)
  /-- GIVE (R293): Stagehand puts gathered bits into its receive FIFO. -/
  | give (h : Fin 32) (nb : Bool) (iff : Bool) (z : Fin 256) (sel : Fin 4)
  /-- DRIVE (R292): Stagehand sets masked output slots to a pattern. -/
  | drive (h : Fin 32) (pat : Fin 256) (z : Fin 8) (sel : Fin 4)
  /-- LDK (R292): Stagehand loads an immediate into A, B or TSR. -/
  | ldk (h : Fin 32) (dst : Fin 4) (imm : Fin 512) (sel : Fin 4)
  /-- MOVE (R292): Stagehand moves and transforms a value between slots, registers and PC. -/
  | move (h : Fin 32) (dst : Fin 8) (src : Fin 8) (op : Fin 4) (z : Fin 8) (sel : Fin 4)
  /-- SIGNAL (R292): Stagehand sets, clears, toggles or sets and waits on an engine flag. -/
  | signal (h : Fin 32) (act : Fin 4) (k : Fin 8) (z : Fin 64) (sel : Fin 4)
  /-- HAND_CTL_EN_CLEAR (R300): Write of 0 to en that freezes the stagehand's state and outputs. -/
  | handCtlEnClear (id : Ident) (h : Fin 32)
  /-- HAND_CTL_EN_SET (R301): Write of 1 to en that clears the divider and resumes at the saved PC. -/
  | handCtlEnSet (id : Ident) (h : Fin 32)
  /-- HAND_CTL_RESTART (R302): Restart that clears shift state, sets PC to wrap-bottom and outputs to rest. -/
  | handCtlRestart (id : Ident) (h : Fin 32)
  /-- HAND_CTL_FIFOCLR (R302): Write that empties both stagehand FIFOs. -/
  | handCtlFifoclr (id : Ident) (h : Fin 32)
  /-- HAND_CTL_COMMIT (R298): Commit of divider, wrap, shift configuration and hold values. -/
  | handCtlCommit (id : Ident) (h : Fin 32)
  /-- HAND_CTL_ARM (R297): Arm a stagehand to be synced by the next firing of its trigger. -/
  | handCtlArm (id : Ident) (h : Fin 32) (k : Fin 8)
  /-- HAND_CTL_CNTCLR (R295): Write that clears HANDnn_DROP. -/
  | handCtlCntclr (id : Ident) (h : Fin 32)
  /-- HAND_TXF_WRITE (R295): Write acting as a non-blocking push into the transmit FIFO. -/
  | handTxfWrite (id : Ident) (h : Fin 32) (v : Word)
  /-- HAND_RXF_READ (R295): Read acting as a non-blocking pop from the receive FIFO. -/
  | handRxfRead (id : Ident) (h : Fin 32)
  /-- HAND_IMEM_WRITE (R299): Write of an instruction, refused and flagged while the stagehand is enabled. -/
  | handImemWrite (id : Ident) (h : Fin 32) (i : Fin 32) (v : BitVec 16)
  /-- HAND_A_B_TSR_WRITE (R299): Write of A, B or TSR, refused and flagged while the stagehand is enabled. -/
  | handABTsrWrite (id : Ident) (h : Fin 32) (r : Fin 3) (v : Word)
  /-- LINE_CTL_COMMIT (R307): Commit of a serial line's mode and requests a calibration pass. -/
  | lineCtlCommit (id : Ident) (n : Fin 48)
  /-- LINE_CTL_CALREQ (R324): Write that requests a calibration pass. -/
  | lineCtlCalreq (id : Ident) (n : Fin 48)
  /-- LINE_CTL_CNTCLR (R332): Write that clears a line's counters. -/
  | lineCtlCntclr (id : Ident) (n : Fin 48)
  /-- PASS_REQUEST_PERIOD (R324): Calibration period elapses since the last apply and a pass is requested. -/
  | passRequestPeriod (u : Fin 128)
  /-- PASS_REQUEST_TDELTA (R324): Group temperature change by tdelta requests a pass. -/
  | passRequestTdelta (u : Fin 128)
  /-- CALIBRATION_STEP (R320): A pending calibration step starts on an idle line or in a window. -/
  | calibrationStep (u : Fin 128)
  /-- STEP_DONE (R325): Calibration step completes, possibly out of range, and the next step or apply follows. -/
  | stepDone (u : Fin 128) (trim : Word) (out : Bool) (agree : Bool)
  /-- FOREGROUND_EVENT (R321): Signal change passes undelayed and aborts a running step within 40 ns. -/
  | foregroundEvent (u : Fin 128) (b : Bool)
  /-- PASS_APPLY (R323): Candidate set copied into the operating set in a cycle without foreground event. -/
  | passApply (u : Fin 128)
  /-- STARVED_INTERVAL (R324): A waiting step counts one starved interval. -/
  | starvedInterval (u : Fin 128)
  /-- MAINTENANCE_WINDOW_END (R327): Maintenance window duration ends and running steps or echo tests abort. -/
  | maintenanceWindowEnd (u : Fin 128)
  /-- DRIVER_CURRENT_LIMIT (R312): Serial driver in current limit for 1 ms sets drvlim. -/
  | driverCurrentLimit (n : Fin 48)
  /-- QUAD_OVERTEMPERATURE (R312): Quad sensor above 165 °C turns its drivers off until below 150 °C. -/
  | quadOvertemperature (q : Fin 12)
  /-- COMMON_MODE_FAULT (R312): Common mode outside −7 to +12 V sets cmr. -/
  | commonModeFault (n : Fin 48) (out : Bool) (lvl : Bool)
  /-- DOMINANT_TIMEOUT (R312): TXD dominant over 4 ms in CAN mode releases the driver. -/
  | dominantTimeout (n : Fin 48)
  /-- DIO_CTL_COMMIT (R313): Commit of an octet's line configurations. -/
  | dioCtlCommit (id : Ident) (k : Fin 8)
  /-- DIO_CTL_CNTCLR (R332): Write that clears the discrete line counters. -/
  | dioCtlCntclr (id : Ident)
  /-- FILTERED_EDGE (R315): Input filter passes a new level, which is stamped in DIO_STAMPnn. -/
  | filteredEdge (n : Fin 64) (b : Bool)
  /-- DIO_STAMP_READ (R315): Read of DIO_STAMPnn word +0x08 clears valid and ovr. -/
  | dioStampRead (id : Ident) (n : Fin 64)
  /-- OUTPUT_SHORT (R316): Output in current limit for 1 ms or over temperature switches off and latches short. -/
  | outputShort (n : Fin 64)
  /-- OCTET_OVERCURRENT (R316): Octet current above 2 A over 10 ms switches the octet off and latches. -/
  | octetOvercurrent (k : Fin 8)
  /-- TOTAL_OVERCURRENT (R316): Total output current above 12 A over 10 ms switches every output off and latches. -/
  | totalOvercurrent
  /-- OPEN_LOAD (R316): Output on with under 4 mA for 100 ms sets openload. -/
  | openLoad (n : Fin 64)
  /-- OPEN_LOAD_CLEAR (R316): 100 ms at or above 6 mA clears openload. -/
  | openLoadClear (n : Fin 64)
  /-- VFLD_LOW (R317): VFLD below 16 V turns every output off. -/
  | vfldLow
  /-- VFLD_RECOVERY (R317): VFLD back at 17 V restores commanded output levels. -/
  | vfldRecovery
  /-- CAN_CTL_COMMIT (R337): Request to commit mode and timing at the next bus idle. -/
  | canCtlCommit (id : Ident) (n : Fin 16)
  /-- COMMIT_AT_BUS_IDLE (R337): Committed CAN values take effect at the first bus-idle cycle. -/
  | commitAtBusIdle (n : Fin 16)
  /-- CAN_CTL_FLTCOMMIT (R346): Filters take effect between two acceptance decisions. -/
  | canCtlFltcommit (id : Ident) (n : Fin 16)
  /-- CAN_CTL_RECOVER (R350): Write that starts bus-off recovery. -/
  | canCtlRecover (id : Ident) (n : Fin 16)
  /-- CAN_CTL_CNTCLR (R354): Write that clears a controller's counters. -/
  | canCtlCntclr (id : Ident) (n : Fin 16)
  /-- CAN_TXW (R340): Write of the next word of a transmit record into the transmit queue. -/
  | canTxw (id : Ident) (n : Fin 16) (v : Word)
  /-- CAN_CANCEL (R343): Write that cancels the first queued record with a tag. -/
  | canCancel (id : Ident) (n : Fin 16) (tag : Fin 256)
  /-- CAN_TXEV_READ (R344): Read of CANnn_TXEV word 3 removes the oldest transmit event. -/
  | canTxevRead (id : Ident) (n : Fin 16)
  /-- BUS_INTEGRATION (R334): 11 consecutive recessive bits let the controller take part in traffic. -/
  | busIntegration (n : Fin 16)
  /-- CAN_FRAME_RECEIVED (R345): Valid frame passes the filters into the receive buffer, or is dropped. -/
  | canFrameReceived (n : Fin 16) (w0 : Word) (w1 : Word) (data : List Word) (ago : Nat)
  /-- TRANSMIT_EVENT (R344): Record leaving the transmit queue produces a transmit event with its outcome. -/
  | transmitEvent (n : Fin 16) (won : Bool)
  /-- ERROR_STATE_CHANGE (R349): Change among error-active, error-passive and bus-off sets errst and sends a side-band event. -/
  | errorStateChange (n : Fin 16) (st : Fin 2) (tec : Fin 256) (rec_ : Fin 256)
  /-- BUS_OFF (R350): Controller stops contending, optionally flushes, and starts or awaits recovery. -/
  | busOff (n : Fin 16)
  /-- BUS_OFF_RECOVERY_END (R350): 128 recessive sequences end recovery in error-active with zero counters. -/
  | busOffRecoveryEnd (n : Fin 16)
  /-- ETHERNET_FRAME_RECEIVED (R361): MAC accepts a frame, strips its tag, classifies, learns and forwards it. -/
  | ethernetFrameReceived (m : Fin 4) (fcs : Bool) (bs : List Byte)
  /-- TIER_LINK_FRAME (R359): Tier-link frame handed to ring egress as if inserted. -/
  | tierLinkFrame (m : Fin 4) (fcs : Bool) (bs : List Byte)
  /-- PAUSE_FRAME (R364): PAUSE frame dropped and counted, or obeyed for its quanta. -/
  | pauseFrame (m : Fin 4) (fcs : Bool) (quanta : Fin 65536)
  /-- PAUSE_END (R364): Requested pause quanta elapse and transmission resumes. -/
  | pauseEnd (m : Fin 4)
  /-- EGRESS_FRAME_START (R369): MAC starts the head of its highest open queue that fits before its gate closes. -/
  | egressFrameStart (m : Fin 4) (subtick : Fin 32)
  /-- GATE_CONTROL_LIST_INTERVAL (R370): Gate control list entry interval ends and the next entry opens its queues. -/
  | gateControlListInterval (m : Fin 4)
  /-- LINK_DOWN (R372): MAC link goes down and its queues are flushed. -/
  | linkDown (m : Fin 4)
  /-- LINK_UP (R372): MAC link comes up and admission resumes. -/
  | linkUp (m : Fin 4) (neg : Fin 3)
  /-- LEARNED_ENTRY_AGING (R363): Learned entry not refreshed for SW_AGE is removed. -/
  | learnedEntryAging (i : Fin 8192)
  /-- PLCA_DUPLICATE_NODE (R357): Duplicate PLCA node ID detected; MAC falls back to CSMA/CD. -/
  | plcaDuplicateNode (m : Fin 4)
  /-- MAC_CTL_COMMIT (R356): Commit of a MAC's RWC fields. -/
  | macCtlCommit (id : Ident) (m : Fin 4)
  /-- MAC_CTL_GCOMMIT (R370): New gate control list takes effect at the next cycle start. -/
  | macCtlGcommit (id : Ident) (m : Fin 4)
  /-- MAC_CTL_CNTCLR (R377): Write that clears a MAC's counters. -/
  | macCtlCntclr (id : Ident) (m : Fin 4)
  /-- SW_CTL_COMMIT (R366): Switch limits take effect together. -/
  | swCtlCommit (id : Ident)
  /-- SW_CTL_CNTCLR (R378): Write that clears the switch counters. -/
  | swCtlCntclr (id : Ident)
  /-- SW_HTX_INDEX_WRITE (R373): Software index write that offers host transmit descriptors to the device. -/
  | swHtxIndexWrite (id : Ident) (v : Fin 4096) (env : Env)
  /-- SW_HRX_INDEX_WRITE (R373): Software index write that returns host receive descriptors to the device. -/
  | swHrxIndexWrite (id : Ident) (v : Fin 4096) (env : Env)
  /-- STEP_TIMER_EXPIRY (R383): Step timer expires, issuing one step and reloading the interval. -/
  | stepTimerExpiry (n : Fin 8)
  /-- LIMIT_SWITCH (R390): Active limit switch stops motion toward it at ESTOP. -/
  | limitSwitch (n : Fin 8) (up : Bool)
  /-- HOME_SWITCH (R392): Home switch edge advances the homing sequence or latches the edge. -/
  | homeSwitch (n : Fin 8)
  /-- INDEX_EDGE (R392): Index edge latches the position during homing. -/
  | indexEdge (n : Fin 8)
  /-- HOMING_SET (R392): Standstill in SET redefines the position and completes MOT.HOME. -/
  | homingSet (n : Fin 8)
  /-- SEARCH_LIMIT (R392): Homing passes its search limit and stops with a failure. -/
  | searchLimit (n : Fin 8)
  /-- MOT_CTL_COMMIT (R382): Commit of a generator's limits, route and switches. -/
  | motCtlCommit (id : Ident) (n : Fin 8)
  /-- MOT_CTL_STOP (R391): Write that acts as an emergency stop. -/
  | motCtlStop (id : Ident) (n : Fin 8)
  /-- MOT_CTL_CNTCLR (R402): Write that clears a generator's counters. -/
  | motCtlCntclr (id : Ident) (n : Fin 8)
  /-- MOT_TGT_WRITE (R381): Write of a differing target that starts a move under the configured limits. -/
  | motTgtWrite (id : Ident) (n : Fin 8) (v : Word)
  /-- MOT_LATT_WRITE (R394): Write of the ns word that latches the position at a presented time. -/
  | motLattWrite (id : Ident) (n : Fin 8) (v : Word)
  /-- MOT_LATRAW_HI_READ (R393): Read of MOTn_LATRAW_HI clears the latch's valid bit. -/
  | motLatrawHiRead (id : Ident) (n : Fin 8)
  /-- DRV_CTL_EN (R396): Enable or disable of a bridge, enable measuring the coil first. -/
  | drvCtlEn (id : Ident) (b : Fin 8) (on : Bool)
  /-- DRV_CTL_COMMIT (R401): Commit of a bridge's RWC fields. -/
  | drvCtlCommit (id : Ident) (b : Fin 8)
  /-- DRV_CTL_CLEAR (R398): Write that clears a bridge's latched faults. -/
  | drvCtlClear (id : Ident) (b : Fin 8)
  /-- DRV_CTL_CNTCLR (R403): Write that clears a bridge's counters. -/
  | drvCtlCntclr (id : Ident) (b : Fin 8)
  /-- COIL_MEASUREMENT_DONE (R396): 2 ms coil measurement ends and steps may proceed, or open coil is flagged. -/
  | coilMeasurementDone (b : Fin 8) (r : Nat) (l : Nat)
  /-- DRIVE_FAULT (R398): Latched bridge fault disables the bridge pair and puts the generator in FAULT. -/
  | driveFault (b : Fin 8) (k : Fin 4)
  /-- HOLD_DELAY_EXPIRY (R395): Standstill for the hold delay switches the pair to hold current. -/
  | holdDelayExpiry (k : Fin 4)
  /-- PULL_IN_TIME_END (R399): Coil-mode bridge switches from pull-in to hold current. -/
  | pullInTimeEnd (b : Fin 8) (rise : Fin 65536) (dip : Fin 65536)
  /-- BANK_WAKE (R405): Bank in RETENTION wakes to ON on an access and the access proceeds. -/
  | bankWake (k : Fin 64)
  /-- BANK_INIT_DONE (R405): Every word of a powered-on bank written zero; the bank becomes ON. -/
  | bankInitDone (k : Fin 64)
  /-- CORRECTABLE_WRITE_BACK (R415): Corrected word written back in a class 4 cycle, or discarded after a later write. -/
  | correctableWriteBack
  /-- REMAP (R417): Word with three counted errors is copied to a spare and redirected. -/
  | remap
  /-- REMAP_TABLE_RECORD (R418): Command core records a bank's remap table in the store within 100 ms of a remap. -/
  | remapTableRecord (env : Env)
  /-- SCRUB_STEP (R416): Scrubber reads one word of its region each interval, queuing write-backs and logging errors. -/
  | scrubStep (r : Fin 4)
  /-- MEM_DMA_START (R421): Write that starts a DMA channel at its first descriptor. -/
  | memDmaStart (id : Ident) (c : Fin 8)
  /-- MEM_DMA_ABORT (R422): Write that stops a DMA channel after the word in progress, cause 5. -/
  | memDmaAbort (id : Ident) (c : Fin 8)
  /-- DMA_DESCRIPTOR_END (R421): DMA descriptor ends, raising its event and following the chain, or the channel stops on error. -/
  | dmaDescriptorEnd (c : Fin 8)
  /-- MEM_CTL_CNTCLR (R430): Write that clears the MEM counters. -/
  | memCtlCntclr (id : Ident)
  /-- MEM_CTL_LOGCLR (R413): Write that empties the memory error log. -/
  | memCtlLogclr (id : Ident)
  /-- PCIE_MEMORY_READ (R449): PCIe read of BAR0 served as ascending word reads with split completions. -/
  | pcieMemoryRead (fn : Fin 2) (x : Fin 0x20000000) (n : Fin 4097)
  /-- PCIE_MEMORY_WRITE (R449): PCIe write of BAR0 carried out as ascending word writes. -/
  | pcieMemoryWrite (fn : Fin 2) (x : Fin 0x20000000) (bs : List Byte)
  /-- PCIE_ATOMICOP (R450): 32-bit FetchAdd or Swap executed at house memory or through the aperture. -/
  | pcieAtomicop (fn : Fin 2) (x : Fin 0x20000000) (kind : Fin 3) (wide : Bool) (v : Word)
  /-- PCIE_UNSUPPORTED_REQUEST (R449): I/O request or non-32-bit BAR2 access completes as Unsupported Request. -/
  | pcieUnsupportedRequest (fn : Fin 2)
  /-- BUS_MASTER_ENABLE (R451): Bus Master Enable set releases waiting host-memory requests. -/
  | busMasterEnable (fn : Fin 2) (on_ : Bool)
  /-- HOST_READ_TIMEOUT (R451): Host-memory read unanswered within 50 ms fails its purpose. -/
  | hostReadTimeout (ring : Bool) (seq : Nat)
  /-- FUNCTION_LOSS (R461): DL_Down or function-level reset fences the identity and halts its queues. -/
  | functionLoss (down : Bool) (perst : Bool) (fn : Fin 2)
  /-- HOST_FENCE_CLEAR (R463): W1C of HOST_FENCE that clears a function's fence. -/
  | hostFenceClear (id : Ident) (fn : Fin 2)
  /-- HOST_CTL_COMMIT (R447): Commit of HOST_CFG. -/
  | hostCtlCommit (id : Ident)
  /-- HOST_CTL_CNTCLR (R466): Write that clears the host counters. -/
  | hostCtlCntclr (id : Ident)
  /-- QSPI_READ (R455): 1-1-1 read transaction: all word reads, then a ready byte and data. -/
  | qspiRead (w : Fin 0x40000000) (n : Fin 64)
  /-- QSPI_QUAD_READ (R455): 1-4-4 read transaction on IO0–IO3. -/
  | qspiQuadRead (w : Fin 0x40000000) (n : Fin 64)
  /-- QSPI_WRITE (R456): 1-1-1 write transaction carried out after its last data byte. -/
  | qspiWrite (w : Fin 0x40000000) (n : Fin 64) (ds : List Word)
  /-- QSPI_QUAD_WRITE (R456): 1-4-4 write transaction carried out after its last data byte. -/
  | qspiQuadWrite (w : Fin 0x40000000) (n : Fin 64) (ds : List Word)
  /-- QSPI_STATUS (R456): Status transaction returning busy, err and irq, clearing err. -/
  | qspiStatus
  /-- QSPI_UNKNOWN_INSTRUCTION (R454): Unknown instruction ignored until CS_N rises and counted. -/
  | qspiUnknownInstruction (code : BitVec 8)
  /-- PAR_POINTER_WRITE (R458): Write of a pointer half that empties a full write latch. -/
  | parPointerWrite (hi : Bool) (v : BitVec 16)
  /-- PAR_CONTROL_WRITE (R457): Write of the autoinc control bit. -/
  | parControlWrite (v : BitVec 16)
  /-- PAR_STATUS_READ (R457): Read of the status half-word that clears err. -/
  | parStatusRead
  /-- PAR_DATA_LOW_READ (R458): Word read at the pointer, returning the low half and latching the high half. -/
  | parDataLowRead
  /-- PAR_DATA_HIGH_READ (R458): Read of the latched high half, then autoincrement. -/
  | parDataHighRead
  /-- PAR_DATA_LOW_WRITE (R458): Write that loads the write latch. -/
  | parDataLowWrite (v : BitVec 16)
  /-- PAR_DATA_HIGH_WRITE (R458): Write that commits the 32-bit word at the pointer, then autoincrement. -/
  | parDataHighWrite (v : BitVec 16)
  /-- HOT_SWAP_GOOD (R464): Gate reaches VIN + 10 V and the module regulators start. -/
  | hotSwapGood
  /-- HOT_SWAP_FAULT (R464): Current limit held past t_F or 100 mV across the shunt pulls the gate low and latches a fault. -/
  | hotSwapFault
  /-- POWER_ON_RESET (R468): VIN rises above the turn-on threshold and a power-on reset starts. -/
  | powerOnReset (cmos : Bool)
  /-- UNDERVOLTAGE_LOCKOUT (R468): VIN falls below the lockout; the MRAM write completes and all rails are removed. -/
  | undervoltageLockout
  /-- POWER_FAIL_WARNING (R469): VIN below the warning threshold stops consumption and trips the gate as selected. -/
  | powerFailWarning
  /-- VIN_RECOVERY (R469): VIN back above turn-on before lockout clears pfw. -/
  | vinRecovery
  /-- CONSUMPTION_RESUME (R469): 10 ms after VIN recovery the command core resumes consuming slots. -/
  | consumptionResume
  /-- COLD_RESET (R475): PORST_N low for 1 µs or SYS.RESET cold resets everything but regulators and hot-swap state. -/
  | coldReset (pin : Bool)
  /-- WARM_RESET (R475): Warm reset halts processors while the ring, sequencers and memories run on. -/
  | warmReset
  /-- PLL_LOCK (R473): Core PLL locks and units leave reset. -/
  | pllLock
  /-- START_UP (R481): Start-up sequence: self-test, boot, book scan, store, ring role, stored commands, stage pairs, ready. -/
  | startUp (bist : Word) (bad : Bool)
  /-- READY_TIMEOUT (R479): Firmware not ready within 1 s causes a warm reset into the other slot. -/
  | readyTimeout
  /-- DOMAIN_WAKE (R472): Retained engine or stage-pair domain wakes to ON on a delivery or access. -/
  | domainWake (code : Fin 64)
  /-- CLOCK_MONITOR_WINDOW (R474): Clock deviation over 2 % in a 10 µs window flags the clock and trips the gate. -/
  | clockMonitorWindow (i : Fin 8) (dev : BitVec 16)
  /-- REFERENCE_LOSS (R474): Reference off by 10 % or missing for 1 µs holds the PLL and trips the gate. -/
  | referenceLoss (lost : Bool)
  /-- RAIL_OUT_OF_WINDOW (R486): Rail outside its window for 2 µs trips the gate with cause rail. -/
  | railOutOfWindow (r : Fin 7) (mv : Fin 65536)
  /-- TEMPERATURE_MONITOR (R485): Sensor above 140 °C warns and above 150 °C trips the gate. -/
  | temperatureMonitor (k : Fin 6) (t : BitVec 16)
  /-- SAFE_TRIP (R490): Write that sets cause soft and trips the gate. -/
  | safeTrip (id : Ident)
  /-- SAFE_CTL_COMMIT (R492): Commit of the safe-state table, refused while tripped or testing. -/
  | safeCtlCommit (id : Ident)
  /-- SAFE_LOCK_TABLE (R494): Write that locks the safe-state table until cold reset. -/
  | safeLockTable (id : Ident)
  /-- SAFE_LOCK_INJ (R497): Write that locks fault injection until cold reset. -/
  | safeLockInj (id : Ident)
  /-- SAFE_LOCK_DBG (R497): Write that disables the debug port until cold reset. -/
  | safeLockDbg (id : Ident)
  /-- DELAY_REQUEST_INTERVAL (R99): While no lap runs, each ring port sends a delay request every 10 µs of raw time. -/
  | delayRequestInterval (sub0 : Fin 32) (sub1 : Fin 32)
  /-- LOCKSTEP_MISMATCH (R209): The two cores of a stage pair or of the command core disagree, halting them, putting the pair in FAULT or the core in cmdcore, and tripping the gate. -/
  | lockstepMismatch (who : Fin 3)
  /-- QUAD_TEMPERATURE_RECOVERY (R312): A quad sensor falls below 150 °C and the quad's drivers are switched back on. -/
  | quadTemperatureRecovery (q : Fin 12)
  /-- DRIVE_TEMPERATURE_WARNING (R398): A bridge sensor rises above 145 °C or falls below 135 °C and sets or clears DRVn_FAULT.twarn. -/
  | driveTemperatureWarning (b : Fin 8) (hot : Bool)
  /-- RAIL_BACK_IN_WINDOW (R490): A rail returns inside its window and the cause rail stops being present. -/
  | railBackInWindow (r : Fin 7)
  /-- CAN_TRANSMIT_START (R343): The head record contends for the bus and the controller drives start-of-frame dominant, so the head is on the bus and a later cancel is too late. -/
  | canTransmitStart (n : Fin 16) (delay : Nat)
  /-- CAN_BUS_ERROR (R333): A protocol error on the bus updates TEC or REC, counts an error frame and makes the head contend again. -/
  | canBusError (n : Fin 16) (tec : Fin 256) (rec_ : Fin 256)
  /-- CAN_DETECT_DWELL (R352): The dwell of a rate-detection candidate runs out and the next candidate or pass is committed, or the detection fails. -/
  | canDetectDwell (n : Fin 16)
  /-- LINE_CAL_TIME_LIMIT (R330): The time limit of LINE.CAL runs out and the command ends, reporting the lines not done. -/
  | lineCalTimeLimit (seq : Nat)
  /-- LINE_SCOPE_TIMEOUT (R326): An equivalent-time capture without its 16 repetitions after 100 ms fails with status 0x0200. -/
  | lineScopeTimeout (seq : Nat)
  /-- PCIE_LINK_UP (R447): Link training completes, DL_Up is reached, HOST_STAT.link, gen and width are set and HOST_EVT.linkup is set. -/
  | pcieLinkUp (gen : Fin 5) (two : Bool)
  /-- HOST_READ_COMPLETION (R451): A completion for a device read of host memory arrives, delivering the slot, buffer or descriptor, or failing it when answered with an error. -/
  | hostReadCompletion (what : Fin 4) (seq : Nat) (env : Env)
  /-- MSIX_MASK_CHANGE (R452): A host write to the MSI-X table or capability unmasks a vector or enables MSI-X, and a pending message is sent. -/
  | msixMaskChange (fn : Fin 2) (en : Bool) (fmask : Bool) (mask : BitVec 64)
  /-- DEBUGGER_ATTACH (R254): A debugger connects to or disconnects from the debug pads, changing DBG_CTL.attached and whether brk halts or traps. -/
  | debuggerAttach (on : Bool)
  /-- TRIGGER_PULSE_END (R118): A trigger's pin pulse width elapses and TRIGn returns to its inactive level. -/
  | triggerPulseEnd (n : Fin 8)
  deriving DecidableEq, Repr

end Sys2Proof
end

