-- ==== Sys2Proof/Decode.lean ====
section
/-! DEFINITION. Commands by the bits of the opcode table. No row of spec/opcode_table.json has fields: its rows are commands, bus events and events
on pins, and none is spelled by a word (notes/assumptions/2.md). The encodings that the station itself reads (stage instructions, packets, frames)
are read by the meanings in Machine/. -/
namespace Sys2Proof

/-- The command that a word of the table spells: none. -/
def decodeTableWord (_nbits _w : Nat) : Option Instr := none

end Sys2Proof
end

