-- ==== Sys2Proof/Config.lean ====
section
/-! DEFINITION. What an implementation fixes, the world outside decides or the spec leaves open: free values, with no body, so that no proof can
see what they are. Each is named in the assumption log. -/
namespace Sys2Proof.Config

/-- A fresh open value: `n` is the count of open values used so far (State.free) (notes/assumptions/5.md). -/
opaque freeWord : Nat → Word

/-- The plan of a profile generator (R380), which the spec bounds and does not fix (notes/assumptions/24.md). `key` holds what the plan starts from and
its limits. The ideal position in 1/256 microstep unit, the velocity and the acceleration `t` CLK_ENG ticks after the plan's start. -/
opaque planState : (key : List Int) → (t : Nat) → Int × Int × Int

/-- CLK_ENG ticks from the plan's start to the tick nearest to the instant, after tick `t`, at which the ideal position first reaches `x`, in 1/256 microstep
unit; none where it never does (notes/assumptions/24.md). -/
opaque planReach : (key : List Int) → (t : Nat) → (x : Int) → Option Nat

/-- CLK_ENG ticks from the plan's start to its end: the target reached, the target velocity reached, or standstill (notes/assumptions/24.md). -/
opaque planTicks : (key : List Int) → Nat

end Sys2Proof.Config
end

