-- ==== Sys2Proof/Machine/Fields.lean ====
section
/-! DEFINITION. The names of the register fields: one address, low bit and width for each field of each register (R5, R25), by instance number. -/
namespace Sys2Proof.Machine.F
open Sys2Proof

def SYS_ID_part : Fld := ⟨0x04000000, 16, 16⟩
def SYS_ID_revision : Fld := ⟨0x04000000, 8, 8⟩
def SYS_ID_code : Fld := ⟨0x04000000, 0, 1⟩
def SYS_FWVER : Fld := ⟨0x04000004, 0, 32⟩
def SYS_FWVERA : Fld := ⟨0x04000008, 0, 32⟩
def SYS_FWVERB : Fld := ⟨0x0400000C, 0, 32⟩
def SYS_RSTCAUSE_cause : Fld := ⟨0x04000010, 0, 3⟩
def SYS_BOOT_validb : Fld := ⟨0x04000014, 9, 1⟩
def SYS_BOOT_valida : Fld := ⟨0x04000014, 8, 1⟩
def SYS_BOOT_next : Fld := ⟨0x04000014, 4, 2⟩
def SYS_BOOT_fallback : Fld := ⟨0x04000014, 1, 1⟩
def SYS_BOOT_slot : Fld := ⟨0x04000014, 0, 1⟩
def SYS_DECERR_ADDR : Fld := ⟨0x04000020, 0, 32⟩
def SYS_DECERR_INFO_valid : Fld := ⟨0x04000024, 31, 1⟩
def SYS_DECERR_INFO_ovf : Fld := ⟨0x04000024, 30, 1⟩
def SYS_DECERR_INFO_write : Fld := ⟨0x04000024, 29, 1⟩
def SYS_DECERR_INFO_identity : Fld := ⟨0x04000024, 0, 6⟩
def SYS_LINKERR_phy : Fld := ⟨0x04000030, 16, 16⟩
def SYS_LINKERR_die : Fld := ⟨0x04000030, 0, 16⟩
def SYS_LINKERRCLR : Fld := ⟨0x04000034, 0, 32⟩
def PWR_STAT_vioabs : Fld := ⟨0x04010000, 3, 1⟩
def PWR_STAT_vfldlow : Fld := ⟨0x04010000, 2, 1⟩
def PWR_STAT_pfw : Fld := ⟨0x04010000, 1, 1⟩
def PWR_STAT_gated : Fld := ⟨0x04010000, 0, 1⟩
def PWR_VIN : Fld := ⟨0x04010004, 0, 16⟩
def PWR_VFLD : Fld := ⟨0x04010008, 0, 16⟩
def PWR_VIO : Fld := ⟨0x0401000C, 0, 16⟩
def PWR_TEMP (i : Nat) : Fld := ⟨0x04010010 + i * 0x4, 0, 16⟩
def PWR_HOLDUP_gate : Fld := ⟨0x04010030, 1, 1⟩
def PWR_HOLDUP_stopacc : Fld := ⟨0x04010030, 0, 1⟩
def PWR_EVT_vfldlow : Fld := ⟨0x04010040, 3, 1⟩
def PWR_EVT_wake : Fld := ⟨0x04010040, 2, 1⟩
def PWR_EVT_vinrec : Fld := ⟨0x04010040, 1, 1⟩
def PWR_EVT_pfw : Fld := ⟨0x04010040, 0, 1⟩
def PWR_EVTEN_vfldlow : Fld := ⟨0x04010044, 3, 1⟩
def PWR_EVTEN_wake : Fld := ⟨0x04010044, 2, 1⟩
def PWR_EVTEN_vinrec : Fld := ⟨0x04010044, 1, 1⟩
def PWR_EVTEN_pfw : Fld := ⟨0x04010044, 0, 1⟩
def PWR_DOMST (i : Nat) : Fld := ⟨0x04010080 + i * 0x4, 0, 32⟩
def CLK_STAT_mon : Fld := ⟨0x04020000, 4, 8⟩
def CLK_STAT_refloss : Fld := ⟨0x04020000, 2, 1⟩
def CLK_STAT_refcmos : Fld := ⟨0x04020000, 1, 1⟩
def CLK_STAT_lock : Fld := ⟨0x04020000, 0, 1⟩
def CLK_EVT_mon : Fld := ⟨0x04020004, 4, 8⟩
def CLK_EVT_refloss : Fld := ⟨0x04020004, 2, 1⟩
def CLK_EVTEN_mon : Fld := ⟨0x04020008, 4, 8⟩
def CLK_EVTEN_refloss : Fld := ⟨0x04020008, 2, 1⟩
def CLK_DEV (i : Nat) : Fld := ⟨0x04020010 + i * 0x4, 0, 16⟩
def SAFE_STATE_dbglock : Fld := ⟨0x04030000, 10, 1⟩
def SAFE_STATE_injlock : Fld := ⟨0x04030000, 9, 1⟩
def SAFE_STATE_tablock : Fld := ⟨0x04030000, 8, 1⟩
def SAFE_STATE_pending : Fld := ⟨0x04030000, 2, 1⟩
def SAFE_STATE_state : Fld := ⟨0x04030000, 0, 2⟩
def SAFE_CAUSE : Fld := ⟨0x04030004, 0, 10⟩
def SAFE_CAUSENOW : Fld := ⟨0x04030008, 0, 10⟩
def SAFE_FIRST_INFO : Fld := ⟨0x0403000C, 0, 4⟩
def SAFE_FIRST_LO : Fld := ⟨0x04030010, 0, 32⟩
def SAFE_FIRST_HI : Fld := ⟨0x04030014, 0, 32⟩
def SAFE_TRIP_trip : Fld := ⟨0x04030018, 0, 1⟩
def SAFE_CTL_commit : Fld := ⟨0x0403001C, 0, 1⟩
def SAFE_LOCK_dbg : Fld := ⟨0x04030020, 2, 1⟩
def SAFE_LOCK_inj : Fld := ⟨0x04030020, 1, 1⟩
def SAFE_LOCK_table : Fld := ⟨0x04030020, 0, 1⟩
def SAFE_EVT_loopfail : Fld := ⟨0x04030024, 3, 1⟩
def SAFE_EVT_bistfail : Fld := ⟨0x04030024, 2, 1⟩
def SAFE_EVT_twarn : Fld := ⟨0x04030024, 1, 1⟩
def SAFE_EVT_trip : Fld := ⟨0x04030024, 0, 1⟩
def SAFE_EVTEN_loopfail : Fld := ⟨0x04030028, 3, 1⟩
def SAFE_EVTEN_bistfail : Fld := ⟨0x04030028, 2, 1⟩
def SAFE_EVTEN_twarn : Fld := ⟨0x04030028, 1, 1⟩
def SAFE_EVTEN_trip : Fld := ⟨0x04030028, 0, 1⟩
def SAFE_BIST_block : Fld := ⟨0x0403002C, 8, 8⟩
def SAFE_BIST_pass : Fld := ⟨0x0403002C, 0, 1⟩
def SAFE_DIO (i : Nat) : Fld := ⟨0x04030100 + i * 0x4, 0, 16⟩
def SAFE_DRV : Fld := ⟨0x04030120, 0, 16⟩
def SAFE_MISC_motstop : Fld := ⟨0x04030124, 24, 8⟩
def SAFE_MISC_lapsafe : Fld := ⟨0x04030124, 16, 2⟩
def SAFE_MISC_quadrel : Fld := ⟨0x04030124, 0, 12⟩
def CMD_STATUS_inflight : Fld := ⟨0x04040000, 16, 7⟩
def CMD_STATUS_bookstall : Fld := ⟨0x04040000, 2, 1⟩
def CMD_STATUS_pending : Fld := ⟨0x04040000, 1, 1⟩
def CMD_STATUS_ready : Fld := ⟨0x04040000, 0, 1⟩
def CMD_FINAL_final : Fld := ⟨0x04040004, 0, 8⟩
def CMD_BOOKHEAD_LO : Fld := ⟨0x04040008, 0, 32⟩
def CMD_BOOKHEAD_HI : Fld := ⟨0x0404000C, 0, 16⟩
def CMD_BOOKOLD_LO : Fld := ⟨0x04040010, 0, 32⟩
def CMD_BOOKOLD_HI : Fld := ⟨0x04040014, 0, 16⟩
def CMD_QCFG_maxfly (i : Nat) : Fld := ⟨0x04040100 + i * 0x40, 24, 6⟩
def CMD_QCFG_weight (i : Nat) : Fld := ⟨0x04040100 + i * 0x40, 16, 4⟩
def CMD_QCFG_loc (i : Nat) : Fld := ⟨0x04040100 + i * 0x40, 12, 1⟩
def CMD_QCFG_size (i : Nat) : Fld := ⟨0x04040100 + i * 0x40, 8, 4⟩
def CMD_QCFG_owner (i : Nat) : Fld := ⟨0x04040100 + i * 0x40, 0, 6⟩
def CMD_QSQBASE_LO (i : Nat) : Fld := ⟨0x04040104 + i * 0x40, 8, 24⟩
def CMD_QSQBASE_HI (i : Nat) : Fld := ⟨0x04040108 + i * 0x40, 0, 32⟩
def CMD_QCQBASE_LO (i : Nat) : Fld := ⟨0x0404010C + i * 0x40, 5, 27⟩
def CMD_QCQBASE_HI (i : Nat) : Fld := ⟨0x04040110 + i * 0x40, 0, 32⟩
def CMD_QCQCFG_holdoff (i : Nat) : Fld := ⟨0x04040114 + i * 0x40, 16, 16⟩
def CMD_QCQCFG_coalesce (i : Nat) : Fld := ⟨0x04040114 + i * 0x40, 8, 8⟩
def CMD_QCQCFG_inten (i : Nat) : Fld := ⟨0x04040114 + i * 0x40, 6, 1⟩
def CMD_QCQCFG_vector (i : Nat) : Fld := ⟨0x04040114 + i * 0x40, 0, 6⟩
def CMD_QCTL_reset (i : Nat) : Fld := ⟨0x04040118 + i * 0x40, 2, 1⟩
def CMD_QCTL_commit (i : Nat) : Fld := ⟨0x04040118 + i * 0x40, 1, 1⟩
def CMD_QCTL_enable (i : Nat) : Fld := ⟨0x04040118 + i * 0x40, 0, 1⟩
def CMD_QEPOCH (i : Nat) : Fld := ⟨0x0404011C + i * 0x40, 0, 32⟩
def CMD_QPTR_tail (i : Nat) : Fld := ⟨0x04040120 + i * 0x40, 16, 12⟩
def CMD_QPTR_head (i : Nat) : Fld := ⟨0x04040120 + i * 0x40, 0, 12⟩
def CMD_QCQPTR_phase (i : Nat) : Fld := ⟨0x04040124 + i * 0x40, 31, 1⟩
def CMD_QCQPTR_head (i : Nat) : Fld := ⟨0x04040124 + i * 0x40, 16, 12⟩
def CMD_QCQPTR_tail (i : Nat) : Fld := ⟨0x04040124 + i * 0x40, 0, 12⟩
def CMD_QSTAT_inflight (i : Nat) : Fld := ⟨0x04040128 + i * 0x40, 16, 7⟩
def CMD_QSTAT_cfgerr (i : Nat) : Fld := ⟨0x04040128 + i * 0x40, 10, 1⟩
def CMD_QSTAT_cqerr (i : Nat) : Fld := ⟨0x04040128 + i * 0x40, 9, 1⟩
def CMD_QSTAT_dberr (i : Nat) : Fld := ⟨0x04040128 + i * 0x40, 8, 1⟩
def CMD_QSTAT_halted (i : Nat) : Fld := ⟨0x04040128 + i * 0x40, 2, 1⟩
def CMD_QSTAT_idle (i : Nat) : Fld := ⟨0x04040128 + i * 0x40, 1, 1⟩
def CMD_QSTAT_enabled (i : Nat) : Fld := ⟨0x04040128 + i * 0x40, 0, 1⟩
def CALL_LOCK_lock : Fld := ⟨0x04050000, 0, 1⟩
def CALL_PEND (i : Nat) : Fld := ⟨0x04050010 + i * 0x4, 0, 32⟩
def CALL_ERR_ADDR : Fld := ⟨0x04050020, 0, 32⟩
def CALL_ERR_INFO_valid : Fld := ⟨0x04050024, 31, 1⟩
def CALL_ERR_INFO_ovf : Fld := ⟨0x04050024, 30, 1⟩
def CALL_ERR_INFO_write : Fld := ⟨0x04050024, 29, 1⟩
def CALL_ERR_INFO_identity : Fld := ⟨0x04050024, 0, 6⟩
def CALL_EVT_refused : Fld := ⟨0x04050030, 1, 1⟩
def CALL_EVT_binderr : Fld := ⟨0x04050030, 0, 1⟩
def CALL_EVTEN_refused : Fld := ⟨0x04050034, 1, 1⟩
def CALL_EVTEN_binderr : Fld := ⟨0x04050034, 0, 1⟩
def CALL_CNT_EVDROP : Fld := ⟨0x04050080, 0, 32⟩
def CALL_CNT_EVDROPCLR : Fld := ⟨0x04050084, 0, 32⟩
def CALL_BIND_valid (i : Nat) : Fld := ⟨0x04050100 + i * 0x4, 31, 1⟩
def CALL_BIND_hwev (i : Nat) : Fld := ⟨0x04050100 + i * 0x4, 30, 1⟩
def CALL_BIND_recv (i : Nat) : Fld := ⟨0x04050100 + i * 0x4, 16, 6⟩
def CALL_BIND_send (i : Nat) : Fld := ⟨0x04050100 + i * 0x4, 8, 6⟩
def CALL_MSG (i : Nat) (j : Nat) : Fld := ⟨0x04051000 + i * 0x80 + j * 0x4, 0, 32⟩
def CALL_DB (i : Nat) : Fld := ⟨0x04051040 + i * 0x80, 0, 32⟩
def CALL_ACK_done (i : Nat) : Fld := ⟨0x04051044 + i * 0x80, 31, 1⟩
def CALL_ACK_evclr (i : Nat) : Fld := ⟨0x04051044 + i * 0x80, 17, 1⟩
def CALL_ACK_ack (i : Nat) : Fld := ⟨0x04051044 + i * 0x80, 16, 1⟩
def CALL_ACK_code (i : Nat) : Fld := ⟨0x04051044 + i * 0x80, 0, 16⟩
def CALL_STAT_busy (i : Nat) : Fld := ⟨0x04051048 + i * 0x80, 31, 1⟩
def CALL_STAT_coal (i : Nat) : Fld := ⟨0x04051048 + i * 0x80, 16, 8⟩
def CALL_STAT_evcnt (i : Nat) : Fld := ⟨0x04051048 + i * 0x80, 8, 8⟩
def CALL_CFG_irqen (i : Nat) : Fld := ⟨0x0405104C + i * 0x80, 8, 1⟩
def CALL_CFG_vector (i : Nat) : Fld := ⟨0x0405104C + i * 0x80, 0, 6⟩
def VIEW_LOCK_lock : Fld := ⟨0x04060000, 0, 1⟩
def VIEW_FAULT_ADDR : Fld := ⟨0x04060010, 0, 32⟩
def VIEW_FAULT_INFO_valid : Fld := ⟨0x04060014, 31, 1⟩
def VIEW_FAULT_INFO_ovf : Fld := ⟨0x04060014, 30, 1⟩
def VIEW_FAULT_INFO_write : Fld := ⟨0x04060014, 29, 1⟩
def VIEW_FAULT_INFO_mram : Fld := ⟨0x04060014, 28, 1⟩
def VIEW_FAULT_INFO_identity : Fld := ⟨0x04060014, 0, 6⟩
def VIEW_EVT_fault : Fld := ⟨0x04060020, 0, 1⟩
def VIEW_EVTEN_fault : Fld := ⟨0x04060024, 0, 1⟩
def VIEW_CNT_FAULT : Fld := ⟨0x04060080, 0, 32⟩
def VIEW_IDT_fixed (i : Nat) : Fld := ⟨0x04060100 + i * 0x4, 31, 1⟩
def VIEW_IDT_mramrd (i : Nat) : Fld := ⟨0x04060100 + i * 0x4, 1, 1⟩
def VIEW_IDT_bs (i : Nat) : Fld := ⟨0x04060100 + i * 0x4, 0, 1⟩
def MEM_CTL_logclr : Fld := ⟨0x04070000, 1, 1⟩
def MEM_CTL_cntclr : Fld := ⟨0x04070000, 0, 1⟩
def MEM_BANKST (i : Nat) : Fld := ⟨0x04070010 + i * 0x4, 0, 32⟩
def MEM_SCRUB_en (i : Nat) : Fld := ⟨0x04070020 + i * 0x4, 31, 1⟩
def MEM_SCRUB_interval (i : Nat) : Fld := ⟨0x04070020 + i * 0x4, 0, 16⟩
def MEM_PASS_LO (i : Nat) : Fld := ⟨0x04070030 + i * 0x8, 0, 32⟩
def MEM_PASS_HI (i : Nat) : Fld := ⟨0x04070034 + i * 0x8, 0, 32⟩
def MEM_EVT_wake : Fld := ⟨0x04070050, 5, 1⟩
def MEM_EVT_remapfull : Fld := ⟨0x04070050, 4, 1⟩
def MEM_EVT_remap : Fld := ⟨0x04070050, 3, 1⟩
def MEM_EVT_narrow : Fld := ⟨0x04070050, 2, 1⟩
def MEM_EVT_uncorr : Fld := ⟨0x04070050, 1, 1⟩
def MEM_EVT_corr : Fld := ⟨0x04070050, 0, 1⟩
def MEM_EVTEN_wake : Fld := ⟨0x04070054, 5, 1⟩
def MEM_EVTEN_remapfull : Fld := ⟨0x04070054, 4, 1⟩
def MEM_EVTEN_remap : Fld := ⟨0x04070054, 3, 1⟩
def MEM_EVTEN_narrow : Fld := ⟨0x04070054, 2, 1⟩
def MEM_EVTEN_uncorr : Fld := ⟨0x04070054, 1, 1⟩
def MEM_EVTEN_corr : Fld := ⟨0x04070054, 0, 1⟩
def MEM_REMAP (i : Nat) : Fld := ⟨0x04070060 + i * 0x4, 0, 32⟩
def MEM_ELOGSTAT_ovf : Fld := ⟨0x04070080, 8, 1⟩
def MEM_ELOGSTAT_held : Fld := ⟨0x04070080, 0, 5⟩
def MEM_CNT_CORRH : Fld := ⟨0x04070100, 0, 32⟩
def MEM_CNT_CORRT : Fld := ⟨0x04070104, 0, 32⟩
def MEM_CNT_CORRL : Fld := ⟨0x04070108, 0, 32⟩
def MEM_CNT_CORRM : Fld := ⟨0x0407010C, 0, 32⟩
def MEM_CNT_CORRO : Fld := ⟨0x04070110, 0, 32⟩
def MEM_CNT_UNCORR : Fld := ⟨0x04070114, 0, 32⟩
def MEM_CNT_NARROW : Fld := ⟨0x04070118, 0, 32⟩
def MEM_CNT_WBDISC : Fld := ⟨0x0407011C, 0, 32⟩
def MEM_CNT_FORCED : Fld := ⟨0x04070120, 0, 32⟩
def MEM_CNT_REMAP : Fld := ⟨0x04070124, 0, 32⟩
def MEM_DMA0_chan (i : Nat) : Fld := ⟨0x04070200 + i * 0x20, 8, 6⟩
def MEM_DMA0_abort (i : Nat) : Fld := ⟨0x04070200 + i * 0x20, 1, 1⟩
def MEM_DMA0_start (i : Nat) : Fld := ⟨0x04070200 + i * 0x20, 0, 1⟩
def MEM_DMA1_desc (i : Nat) : Fld := ⟨0x04070204 + i * 0x20, 4, 28⟩
def MEM_DMA2_cause (i : Nat) : Fld := ⟨0x04070208 + i * 0x20, 8, 3⟩
def MEM_DMA2_err (i : Nat) : Fld := ⟨0x04070208 + i * 0x20, 2, 1⟩
def MEM_DMA2_done (i : Nat) : Fld := ⟨0x04070208 + i * 0x20, 1, 1⟩
def MEM_DMA2_busy (i : Nat) : Fld := ⟨0x04070208 + i * 0x20, 0, 1⟩
def MEM_DMA3_moved (i : Nat) : Fld := ⟨0x0407020C + i * 0x20, 0, 32⟩
def MEM_ELOG (i : Nat) (j : Nat) : Fld := ⟨0x04070400 + i * 0x10 + j * 0x4, 0, 32⟩
def STORE_STAT_busy : Fld := ⟨0x04080000, 4, 1⟩
def STORE_STAT_fresh : Fld := ⟨0x04080000, 3, 1⟩
def STORE_STAT_validb : Fld := ⟨0x04080000, 2, 1⟩
def STORE_STAT_valida : Fld := ⟨0x04080000, 1, 1⟩
def STORE_STAT_active : Fld := ⟨0x04080000, 0, 1⟩
def STORE_SEQA : Fld := ⟨0x04080004, 0, 32⟩
def STORE_SEQB : Fld := ⟨0x04080008, 0, 32⟩
def STORE_USED : Fld := ⟨0x0408000C, 0, 21⟩
def STORE_EVT_wrfail : Fld := ⟨0x04080010, 2, 1⟩
def STORE_EVT_invalid : Fld := ⟨0x04080010, 1, 1⟩
def STORE_EVT_written : Fld := ⟨0x04080010, 0, 1⟩
def STORE_EVTEN_wrfail : Fld := ⟨0x04080014, 2, 1⟩
def STORE_EVTEN_invalid : Fld := ⟨0x04080014, 1, 1⟩
def STORE_EVTEN_written : Fld := ⟨0x04080014, 0, 1⟩
def TIME_STATE_src : Fld := ⟨0x04090000, 14, 2⟩
def TIME_STATE_rank : Fld := ⟨0x04090000, 12, 2⟩
def TIME_STATE_asymok : Fld := ⟨0x04090000, 11, 1⟩
def TIME_STATE_linkw : Fld := ⟨0x04090000, 10, 1⟩
def TIME_STATE_linke : Fld := ⟨0x04090000, 9, 1⟩
def TIME_STATE_synced : Fld := ⟨0x04090000, 8, 1⟩
def TIME_STATE_holdover : Fld := ⟨0x04090000, 7, 1⟩
def TIME_STATE_role : Fld := ⟨0x04090000, 0, 3⟩
def TIME_STARTER_prio : Fld := ⟨0x04090004, 8, 8⟩
def TIME_STARTER_cand : Fld := ⟨0x04090004, 0, 1⟩
def TIME_CLAIMCFG_settle : Fld := ⟨0x04090008, 8, 8⟩
def TIME_CLAIMCFG_base : Fld := ⟨0x04090008, 0, 8⟩
def TIME_RESERVE_A_r2 : Fld := ⟨0x0409000C, 16, 12⟩
def TIME_RESERVE_A_r1 : Fld := ⟨0x0409000C, 0, 12⟩
def TIME_RESERVE_B_r3 : Fld := ⟨0x04090010, 0, 12⟩
def TIME_SERVO_synclim : Fld := ⟨0x04090014, 16, 8⟩
def TIME_SERVO_steplim : Fld := ⟨0x04090014, 8, 8⟩
def TIME_SERVO_bw : Fld := ⟨0x04090014, 4, 3⟩
def TIME_SERVO_upd : Fld := ⟨0x04090014, 1, 3⟩
def TIME_SERVO_en : Fld := ⟨0x04090014, 0, 1⟩
def TIME_LINKCFG_outlier : Fld := ⟨0x04090018, 8, 8⟩
def TIME_LINKCFG_avg : Fld := ⟨0x04090018, 0, 3⟩
def TIME_UTC : Fld := ⟨0x0409001C, 0, 16⟩
def TIME_SNAPCTL_cntclr : Fld := ⟨0x04090020, 1, 1⟩
def TIME_SNAPCTL_cap : Fld := ⟨0x04090020, 0, 1⟩
def TIME_SNAP_RAW_LO : Fld := ⟨0x04090024, 0, 32⟩
def TIME_SNAP_RAW_HI : Fld := ⟨0x04090028, 0, 32⟩
def TIME_SNAP_SEC_LO : Fld := ⟨0x0409002C, 0, 32⟩
def TIME_SNAP_SEC_HI : Fld := ⟨0x04090030, 0, 32⟩
def TIME_SNAP_NS : Fld := ⟨0x04090034, 0, 30⟩
def TIME_SNAP_FRAC : Fld := ⟨0x04090038, 0, 16⟩
def TIME_SET (i : Nat) : Fld := ⟨0x04090040 + i * 0x4, 0, 32⟩
def TIME_HIST (i : Nat) (j : Nat) : Fld := ⟨0x04091000 + i * 0x20 + j * 0x4, 0, 32⟩
def TIME_OFFSET : Fld := ⟨0x04090060, 0, 32⟩
def TIME_LINK (i : Nat) : Fld := ⟨0x04090064 + i * 0x4, 0, 32⟩
def TIME_ASYM (i : Nat) : Fld := ⟨0x0409006C + i * 0x4, 0, 32⟩
def TIME_EVT_linkinval : Fld := ⟨0x04090074, 10, 1⟩
def TIME_EVT_tsqovf : Fld := ⟨0x04090074, 9, 1⟩
def TIME_EVT_captovf : Fld := ⟨0x04090074, 8, 1⟩
def TIME_EVT_trigmiss : Fld := ⟨0x04090074, 7, 1⟩
def TIME_EVT_asymdone : Fld := ⟨0x04090074, 6, 1⟩
def TIME_EVT_newstarter : Fld := ⟨0x04090074, 5, 1⟩
def TIME_EVT_synclost : Fld := ⟨0x04090074, 4, 1⟩
def TIME_EVT_lapmiss : Fld := ⟨0x04090074, 3, 1⟩
def TIME_EVT_startconf : Fld := ⟨0x04090074, 2, 1⟩
def TIME_EVT_takeover : Fld := ⟨0x04090074, 1, 1⟩
def TIME_EVT_step : Fld := ⟨0x04090074, 0, 1⟩
def TIME_EVTEN_linkinval : Fld := ⟨0x04090078, 10, 1⟩
def TIME_EVTEN_tsqovf : Fld := ⟨0x04090078, 9, 1⟩
def TIME_EVTEN_captovf : Fld := ⟨0x04090078, 8, 1⟩
def TIME_EVTEN_trigmiss : Fld := ⟨0x04090078, 7, 1⟩
def TIME_EVTEN_asymdone : Fld := ⟨0x04090078, 6, 1⟩
def TIME_EVTEN_newstarter : Fld := ⟨0x04090078, 5, 1⟩
def TIME_EVTEN_synclost : Fld := ⟨0x04090078, 4, 1⟩
def TIME_EVTEN_lapmiss : Fld := ⟨0x04090078, 3, 1⟩
def TIME_EVTEN_startconf : Fld := ⟨0x04090078, 2, 1⟩
def TIME_EVTEN_takeover : Fld := ⟨0x04090078, 1, 1⟩
def TIME_EVTEN_step : Fld := ⟨0x04090078, 0, 1⟩
def TIME_CNT_LAPMISS : Fld := ⟨0x04090080, 0, 32⟩
def TIME_CNT_OUTLIER : Fld := ⟨0x04090084, 0, 32⟩
def TIME_CNT_NOANSWER : Fld := ⟨0x04090088, 0, 32⟩
def TIME_CNT_STEP : Fld := ⟨0x0409008C, 0, 32⟩
def TIME_CNT_LAPSLIP : Fld := ⟨0x04090090, 0, 32⟩
def TIME_TRIG0_commit (i : Nat) : Fld := ⟨0x04090100 + i * 0x20, 31, 1⟩
def TIME_TRIG0_late (i : Nat) : Fld := ⟨0x04090100 + i * 0x20, 5, 1⟩
def TIME_TRIG0_missed (i : Nat) : Fld := ⟨0x04090100 + i * 0x20, 4, 1⟩
def TIME_TRIG0_pol (i : Nat) : Fld := ⟨0x04090100 + i * 0x20, 3, 1⟩
def TIME_TRIG0_pin (i : Nat) : Fld := ⟨0x04090100 + i * 0x20, 2, 1⟩
def TIME_TRIG0_periodic (i : Nat) : Fld := ⟨0x04090100 + i * 0x20, 1, 1⟩
def TIME_TRIG0_en (i : Nat) : Fld := ⟨0x04090100 + i * 0x20, 0, 1⟩
def TIME_TRIG1_ssec_lo (i : Nat) : Fld := ⟨0x04090104 + i * 0x20, 0, 32⟩
def TIME_TRIG2_ssec_hi (i : Nat) : Fld := ⟨0x04090108 + i * 0x20, 0, 32⟩
def TIME_TRIG3_sns (i : Nat) : Fld := ⟨0x0409010C + i * 0x20, 0, 30⟩
def TIME_TRIG4_sfrac (i : Nat) : Fld := ⟨0x04090110 + i * 0x20, 0, 16⟩
def TIME_TRIG5_pns (i : Nat) : Fld := ⟨0x04090114 + i * 0x20, 0, 32⟩
def TIME_TRIG6_width (i : Nat) : Fld := ⟨0x04090118 + i * 0x20, 16, 16⟩
def TIME_TRIG6_pfrac (i : Nat) : Fld := ⟨0x04090118 + i * 0x20, 0, 16⟩
def TIME_TRIG7_count (i : Nat) : Fld := ⟨0x0409011C + i * 0x20, 0, 32⟩
def TIME_CAPT0_count (i : Nat) : Fld := ⟨0x04090200 + i * 0x10, 9, 3⟩
def TIME_CAPT0_ovf (i : Nat) : Fld := ⟨0x04090200 + i * 0x10, 8, 1⟩
def TIME_CAPT0_edge (i : Nat) : Fld := ⟨0x04090200 + i * 0x10, 1, 2⟩
def TIME_CAPT0_en (i : Nat) : Fld := ⟨0x04090200 + i * 0x10, 0, 1⟩
def TIME_CAPT1 (i : Nat) : Fld := ⟨0x04090204 + i * 0x10, 0, 32⟩
def TIME_CAPT2 (i : Nat) : Fld := ⟨0x04090208 + i * 0x10, 0, 32⟩
def TIME_CAPT3 (i : Nat) : Fld := ⟨0x0409020C + i * 0x10, 0, 32⟩
def TIME_TSQ (i : Nat) (j : Nat) : Fld := ⟨0x04090300 + i * 0x10 + j * 0x4, 0, 32⟩
def TIME_TSQSTAT_valid : Fld := ⟨0x04090360, 16, 6⟩
def TIME_TSQSTAT_ovf : Fld := ⟨0x04090360, 0, 6⟩
def RING_ID_station : Fld := ⟨0x040A0000, 16, 12⟩
def RING_ID_ring : Fld := ⟨0x040A0000, 0, 8⟩
def RING_SID_LO : Fld := ⟨0x040A0004, 0, 32⟩
def RING_SID_HI : Fld := ⟨0x040A0008, 0, 32⟩
def RING_CFG_tiermac : Fld := ⟨0x040A0010, 12, 2⟩
def RING_CFG_role : Fld := ⟨0x040A0010, 8, 2⟩
def RING_CFG_wen : Fld := ⟨0x040A0010, 5, 1⟩
def RING_CFG_een : Fld := ⟨0x040A0010, 4, 1⟩
def RING_CFG_rate : Fld := ⟨0x040A0010, 0, 2⟩
def RING_CTL_cntclr : Fld := ⟨0x040A0014, 2, 1⟩
def RING_CTL_splitcommit : Fld := ⟨0x040A0014, 1, 1⟩
def RING_CTL_commit : Fld := ⟨0x040A0014, 0, 1⟩
def RING_STATE_pending : Fld := ⟨0x040A0018, 12, 1⟩
def RING_STATE_genmiss : Fld := ⟨0x040A0018, 11, 1⟩
def RING_STATE_starter : Fld := ⟨0x040A0018, 10, 1⟩
def RING_STATE_wrapw : Fld := ⟨0x040A0018, 9, 1⟩
def RING_STATE_wrape : Fld := ⟨0x040A0018, 8, 1⟩
def RING_STATE_edgew : Fld := ⟨0x040A0018, 7, 1⟩
def RING_STATE_edgee : Fld := ⟨0x040A0018, 6, 1⟩
def RING_STATE_lockw : Fld := ⟨0x040A0018, 5, 1⟩
def RING_STATE_locke : Fld := ⟨0x040A0018, 4, 1⟩
def RING_STATE_join : Fld := ⟨0x040A0018, 0, 3⟩
def RING_LAPCFG_len : Fld := ⟨0x040A0020, 0, 26⟩
def RING_HOPLIM_limit : Fld := ⟨0x040A0024, 0, 12⟩
def RING_GEN_shadow : Fld := ⟨0x040A0028, 16, 16⟩
def RING_GEN_active : Fld := ⟨0x040A0028, 0, 16⟩
def RING_LAPNUM_LO : Fld := ⟨0x040A0030, 0, 32⟩
def RING_LAPNUM_HI : Fld := ⟨0x040A0034, 0, 16⟩
def RING_LAPSTAT_running : Fld := ⟨0x040A0038, 16, 1⟩
def RING_LAPSTAT_pubdone : Fld := ⟨0x040A0038, 0, 16⟩
def RING_LAPFRONT_front : Fld := ⟨0x040A003C, 0, 1⟩
def RING_OPENCFG_gap : Fld := ⟨0x040A0040, 0, 6⟩
def RING_CREDIT_resp (i : Nat) : Fld := ⟨0x040A0044 + i * 0x4, 16, 16⟩
def RING_CREDIT_req (i : Nat) : Fld := ⟨0x040A0044 + i * 0x4, 0, 16⟩
def RING_JOINCFG_lead : Fld := ⟨0x040A004C, 0, 8⟩
def RING_PUBCOMMIT_pub : Fld := ⟨0x040A0050, 0, 16⟩
def RING_EVT_cfgerr : Fld := ⟨0x040A0054, 8, 1⟩
def RING_EVT_genmiss : Fld := ⟨0x040A0054, 7, 1⟩
def RING_EVT_transovf : Fld := ⟨0x040A0054, 6, 1⟩
def RING_EVT_ownwr : Fld := ⟨0x040A0054, 5, 1⟩
def RING_EVT_misspub : Fld := ⟨0x040A0054, 4, 1⟩
def RING_EVT_left : Fld := ⟨0x040A0054, 3, 1⟩
def RING_EVT_member : Fld := ⟨0x040A0054, 2, 1⟩
def RING_EVT_locklossw : Fld := ⟨0x040A0054, 1, 1⟩
def RING_EVT_locklosse : Fld := ⟨0x040A0054, 0, 1⟩
def RING_EVTEN_cfgerr : Fld := ⟨0x040A0058, 8, 1⟩
def RING_EVTEN_genmiss : Fld := ⟨0x040A0058, 7, 1⟩
def RING_EVTEN_transovf : Fld := ⟨0x040A0058, 6, 1⟩
def RING_EVTEN_ownwr : Fld := ⟨0x040A0058, 5, 1⟩
def RING_EVTEN_misspub : Fld := ⟨0x040A0058, 4, 1⟩
def RING_EVTEN_left : Fld := ⟨0x040A0058, 3, 1⟩
def RING_EVTEN_member : Fld := ⟨0x040A0058, 2, 1⟩
def RING_EVTEN_locklossw : Fld := ⟨0x040A0058, 1, 1⟩
def RING_EVTEN_locklosse : Fld := ⟨0x040A0058, 0, 1⟩
def RING_CNT_FWD : Fld := ⟨0x040A0080, 0, 32⟩
def RING_CNT_RXGOOD (i : Nat) : Fld := ⟨0x040A0084 + i * 0x4, 0, 32⟩
def RING_CNT_CRCERR (i : Nat) : Fld := ⟨0x040A008C + i * 0x4, 0, 32⟩
def RING_CNT_HDRERR (i : Nat) : Fld := ⟨0x040A0094 + i * 0x4, 0, 32⟩
def RING_CNT_LATE : Fld := ⟨0x040A009C, 0, 32⟩
def RING_CNT_WRONGLAP : Fld := ⟨0x040A00A0, 0, 32⟩
def RING_CNT_HOPSTRIP : Fld := ⟨0x040A00A4, 0, 32⟩
def RING_CNT_BADADDR : Fld := ⟨0x040A00A8, 0, 32⟩
def RING_CNT_MISSPUB : Fld := ⟨0x040A00AC, 0, 32⟩
def RING_CNT_TRANSOVF : Fld := ⟨0x040A00B0, 0, 32⟩
def RING_CNT_HOLD : Fld := ⟨0x040A00B4, 0, 32⟩
def RING_CNT_RANGE : Fld := ⟨0x040A00B8, 0, 32⟩
def RING_CNT_GENDROP : Fld := ⟨0x040A00BC, 0, 32⟩
def RING_CNT_WRAP : Fld := ⟨0x040A00C0, 0, 32⟩
def RING_CNT_UNWRAP : Fld := ⟨0x040A00C4, 0, 32⟩
def RING_CNT_MARKER : Fld := ⟨0x040A00C8, 0, 32⟩
def RING_CNT_REPLAYED : Fld := ⟨0x040A00CC, 0, 32⟩
def RING_CNT_RPLREQ : Fld := ⟨0x040A00D0, 0, 32⟩
def RING_CNT_DUP : Fld := ⟨0x040A00D4, 0, 32⟩
def RING_CNT_GAPDISC : Fld := ⟨0x040A00D8, 0, 32⟩
def RING_CNT_FENCEREJ : Fld := ⟨0x040A00DC, 0, 32⟩
def RING_CNT_WRAPDROP : Fld := ⟨0x040A00E0, 0, 32⟩
def RING_CNT_STREAMFULL : Fld := ⟨0x040A00E4, 0, 32⟩
def RING_CNT_RPLQOVF : Fld := ⟨0x040A00E8, 0, 32⟩
def RING_WIN0_start (i : Nat) (j : Nat) : Fld := ⟨0x040A0400 + i * 0x80 + j * 0x10, 0, 32⟩
def RING_WIN1_bytes (i : Nat) (j : Nat) : Fld := ⟨0x040A0404 + i * 0x80 + j * 0x10, 16, 16⟩
def RING_WIN1_quanta (i : Nat) (j : Nat) : Fld := ⟨0x040A0404 + i * 0x80 + j * 0x10, 0, 16⟩
def RING_WIN2_offset (i : Nat) (j : Nat) : Fld := ⟨0x040A0408 + i * 0x80 + j * 0x10, 0, 18⟩
def RING_WIN3_phase (i : Nat) (j : Nat) : Fld := ⟨0x040A040C + i * 0x80 + j * 0x10, 8, 7⟩
def RING_WIN3_period (i : Nat) (j : Nat) : Fld := ⟨0x040A040C + i * 0x80 + j * 0x10, 4, 3⟩
def RING_WIN3_auto (i : Nat) (j : Nat) : Fld := ⟨0x040A040C + i * 0x80 + j * 0x10, 1, 1⟩
def RING_WIN3_en (i : Nat) (j : Nat) : Fld := ⟨0x040A040C + i * 0x80 + j * 0x10, 0, 1⟩
def RING_BUSY0_start (i : Nat) (j : Nat) : Fld := ⟨0x040A0500 + i * 0x20 + j * 0x8, 0, 32⟩
def RING_BUSY1_end (i : Nat) (j : Nat) : Fld := ⟨0x040A0504 + i * 0x20 + j * 0x8, 0, 32⟩
def RING_SPLIT0_en (i : Nat) : Fld := ⟨0x040A0600 + i * 0x10, 31, 1⟩
def RING_SPLIT0_offset (i : Nat) : Fld := ⟨0x040A0600 + i * 0x10, 0, 26⟩
def RING_SPLIT1_hands (i : Nat) : Fld := ⟨0x040A0604 + i * 0x10, 0, 32⟩
def RING_SPLIT2_phase (i : Nat) : Fld := ⟨0x040A0608 + i * 0x10, 24, 7⟩
def RING_SPLIT2_target (i : Nat) : Fld := ⟨0x040A0608 + i * 0x10, 16, 6⟩
def RING_SPLIT2_period (i : Nat) : Fld := ⟨0x040A0608 + i * 0x10, 13, 3⟩
def RING_SPLIT2_callev (i : Nat) : Fld := ⟨0x040A0608 + i * 0x10, 9, 1⟩
def RING_SPLIT2_irq (i : Nat) : Fld := ⟨0x040A0608 + i * 0x10, 8, 1⟩
def RING_SPLIT2_motion (i : Nat) : Fld := ⟨0x040A0608 + i * 0x10, 0, 8⟩
def RING_HEALCFG_window : Fld := ⟨0x040A0700, 16, 16⟩
def RING_HEALCFG_stable : Fld := ⟨0x040A0700, 8, 8⟩
def RING_HEALCFG_odir : Fld := ⟨0x040A0700, 0, 1⟩
def RING_HEALSTAT_westst : Fld := ⟨0x040A0704, 28, 3⟩
def RING_HEALSTAT_eastst : Fld := ⟨0x040A0704, 24, 3⟩
def RING_HEALSTAT_wraps : Fld := ⟨0x040A0704, 16, 4⟩
def RING_HEALSTAT_rplq : Fld := ⟨0x040A0704, 8, 5⟩
def RING_HEALSTAT_odira : Fld := ⟨0x040A0704, 3, 1⟩
def RING_HEALSTAT_pending : Fld := ⟨0x040A0704, 2, 1⟩
def RING_HEALSTAT_replaying : Fld := ⟨0x040A0704, 1, 1⟩
def RING_HEALSTAT_ringwrap : Fld := ⟨0x040A0704, 0, 1⟩
def RING_HEALEVT_bufage : Fld := ⟨0x040A0708, 7, 1⟩
def RING_HEALEVT_rplqovf : Fld := ⟨0x040A0708, 6, 1⟩
def RING_HEALEVT_streamfull : Fld := ⟨0x040A0708, 5, 1⟩
def RING_HEALEVT_fremote : Fld := ⟨0x040A0708, 4, 1⟩
def RING_HEALEVT_fence : Fld := ⟨0x040A0708, 3, 1⟩
def RING_HEALEVT_marker : Fld := ⟨0x040A0708, 2, 1⟩
def RING_HEALEVT_unwrap : Fld := ⟨0x040A0708, 1, 1⟩
def RING_HEALEVT_wrap : Fld := ⟨0x040A0708, 0, 1⟩
def RING_HEALEVTEN_bufage : Fld := ⟨0x040A070C, 7, 1⟩
def RING_HEALEVTEN_rplqovf : Fld := ⟨0x040A070C, 6, 1⟩
def RING_HEALEVTEN_streamfull : Fld := ⟨0x040A070C, 5, 1⟩
def RING_HEALEVTEN_fremote : Fld := ⟨0x040A070C, 4, 1⟩
def RING_HEALEVTEN_fence : Fld := ⟨0x040A070C, 3, 1⟩
def RING_HEALEVTEN_marker : Fld := ⟨0x040A070C, 2, 1⟩
def RING_HEALEVTEN_unwrap : Fld := ⟨0x040A070C, 1, 1⟩
def RING_HEALEVTEN_wrap : Fld := ⟨0x040A070C, 0, 1⟩
def RING_HEALLAST0_valid : Fld := ⟨0x040A0710, 31, 1⟩
def RING_HEALLAST0_fnote : Fld := ⟨0x040A0710, 30, 1⟩
def RING_HEALLAST0_kind : Fld := ⟨0x040A0710, 21, 3⟩
def RING_HEALLAST0_port : Fld := ⟨0x040A0710, 12, 1⟩
def RING_HEALLAST0_station : Fld := ⟨0x040A0710, 0, 12⟩
def RING_HEALLAST1_raw : Fld := ⟨0x040A0714, 0, 32⟩
def RING_FENCE (i : Nat) (j : Nat) : Fld := ⟨0x040A0800 + i * 0x8 + j * 0x4, 0, 32⟩
def RING_FENCESTAT_ovf : Fld := ⟨0x040A0A00, 8, 1⟩
def RING_FENCESTAT_held : Fld := ⟨0x040A0A00, 0, 7⟩
def RING_RXMAP (i : Nat) : Fld := ⟨0x040A1000 + i * 0x4, 0, 32⟩
def MRSH_STATE_cuts : Fld := ⟨0x040B0000, 16, 8⟩
def MRSH_STATE_mode : Fld := ⟨0x040B0000, 8, 2⟩
def MRSH_STATE_pending : Fld := ⟨0x040B0000, 3, 1⟩
def MRSH_STATE_state : Fld := ⟨0x040B0000, 0, 3⟩
def MRSH_CFG_cutwin : Fld := ⟨0x040B0004, 24, 8⟩
def MRSH_CFG_cutlim : Fld := ⟨0x040B0004, 16, 8⟩
def MRSH_CFG_guard : Fld := ⟨0x040B0004, 0, 7⟩
def MRSH_CTL_rejoin : Fld := ⟨0x040B0008, 1, 1⟩
def MRSH_CTL_commit : Fld := ⟨0x040B0008, 0, 1⟩
def MRSH_MODE_mode : Fld := ⟨0x040B000C, 0, 2⟩
def MRSH_EVT_unlock : Fld := ⟨0x040B0010, 5, 1⟩
def MRSH_EVT_out : Fld := ⟨0x040B0010, 4, 1⟩
def MRSH_EVT_desync : Fld := ⟨0x040B0010, 3, 1⟩
def MRSH_EVT_wouldcut : Fld := ⟨0x040B0010, 2, 1⟩
def MRSH_EVT_cut : Fld := ⟨0x040B0010, 1, 1⟩
def MRSH_EVT_edgewarn : Fld := ⟨0x040B0010, 0, 1⟩
def MRSH_EVTEN_unlock : Fld := ⟨0x040B0014, 5, 1⟩
def MRSH_EVTEN_out : Fld := ⟨0x040B0014, 4, 1⟩
def MRSH_EVTEN_desync : Fld := ⟨0x040B0014, 3, 1⟩
def MRSH_EVTEN_wouldcut : Fld := ⟨0x040B0014, 2, 1⟩
def MRSH_EVTEN_cut : Fld := ⟨0x040B0014, 1, 1⟩
def MRSH_EVTEN_edgewarn : Fld := ⟨0x040B0014, 0, 1⟩
def MRSH_SELF (i : Nat) : Fld := ⟨0x040B0020 + i * 0x4, 0, 32⟩
def MRSH_SELFMAX (i : Nat) : Fld := ⟨0x040B0028 + i * 0x4, 0, 32⟩
def MRSH_LEGACY_station : Fld := ⟨0x040B0030, 16, 12⟩
def MRSH_LEGACY_ring : Fld := ⟨0x040B0030, 0, 8⟩
def MRSH_CNT_CUT : Fld := ⟨0x040B0080, 0, 32⟩
def MRSH_CNT_WARN : Fld := ⟨0x040B0084, 0, 32⟩
def MRSH_CNT_WOULDCUT : Fld := ⟨0x040B0088, 0, 32⟩
def MRSH_CNT_DESYNC : Fld := ⟨0x040B008C, 0, 32⟩
def MRSH_CNT_LAPMISS : Fld := ⟨0x040B0090, 0, 32⟩
def MRSH_WATCH0_en (i : Nat) : Fld := ⟨0x040B0100 + i * 0x10, 31, 1⟩
def MRSH_WATCH0_dir (i : Nat) : Fld := ⟨0x040B0100 + i * 0x10, 30, 1⟩
def MRSH_WATCH0_station (i : Nat) : Fld := ⟨0x040B0100 + i * 0x10, 0, 12⟩
def MRSH_WATCH1_expect (i : Nat) : Fld := ⟨0x040B0104 + i * 0x10, 0, 32⟩
def MRSH_WATCH2_last (i : Nat) : Fld := ⟨0x040B0108 + i * 0x10, 0, 32⟩
def MRSH_WATCH3_max (i : Nat) : Fld := ⟨0x040B010C + i * 0x10, 0, 32⟩
def MRSH_WLOG0 : Fld := ⟨0x040B0200, 0, 32⟩
def MRSH_WLOG1 : Fld := ⟨0x040B0204, 0, 32⟩
def MRSH_WLOGSTAT_count : Fld := ⟨0x040B0208, 8, 5⟩
def MRSH_WLOGSTAT_ovf : Fld := ⟨0x040B0208, 0, 1⟩
def FAB_CTL_cntclr : Fld := ⟨0x040C0000, 16, 1⟩
def FAB_CTL_wincommit : Fld := ⟨0x040C0000, 0, 16⟩
def FAB_STAT_pending : Fld := ⟨0x040C0004, 16, 16⟩
def FAB_STAT_tags : Fld := ⟨0x040C0004, 0, 7⟩
def FAB_INCTL_atomics : Fld := ⟨0x040C0008, 2, 1⟩
def FAB_INCTL_ringonly : Fld := ⟨0x040C0008, 1, 1⟩
def FAB_INCTL_en : Fld := ⟨0x040C0008, 0, 1⟩
def FAB_PFCFG_age : Fld := ⟨0x040C000C, 0, 16⟩
def FAB_SEMAP0_start (i : Nat) : Fld := ⟨0x040C0020 + i * 0x8, 2, 30⟩
def FAB_SEMAP1_end (i : Nat) : Fld := ⟨0x040C0024 + i * 0x8, 2, 30⟩
def FAB_ELOGSTAT_ovf : Fld := ⟨0x040C0060, 8, 1⟩
def FAB_ELOGSTAT_held : Fld := ⟨0x040C0060, 0, 6⟩
def FAB_DLOGSTAT_ovf : Fld := ⟨0x040C0064, 8, 1⟩
def FAB_DLOGSTAT_held : Fld := ⟨0x040C0064, 0, 6⟩
def FAB_EVT_inbusy : Fld := ⟨0x040C0068, 3, 1⟩
def FAB_EVT_latecpl : Fld := ⟨0x040C0068, 2, 1⟩
def FAB_EVT_dlog : Fld := ⟨0x040C0068, 1, 1⟩
def FAB_EVT_errlog : Fld := ⟨0x040C0068, 0, 1⟩
def FAB_EVTEN_inbusy : Fld := ⟨0x040C006C, 3, 1⟩
def FAB_EVTEN_latecpl : Fld := ⟨0x040C006C, 2, 1⟩
def FAB_EVTEN_dlog : Fld := ⟨0x040C006C, 1, 1⟩
def FAB_EVTEN_errlog : Fld := ⟨0x040C006C, 0, 1⟩
def FAB_CNT_NPREQ : Fld := ⟨0x040C0080, 0, 32⟩
def FAB_CNT_POSTED : Fld := ⟨0x040C0084, 0, 32⟩
def FAB_CNT_TIMEOUT : Fld := ⟨0x040C0088, 0, 32⟩
def FAB_CNT_LATECPL : Fld := ⟨0x040C008C, 0, 32⟩
def FAB_CNT_INREQ : Fld := ⟨0x040C0090, 0, 32⟩
def FAB_CNT_INBUSY : Fld := ⟨0x040C0094, 0, 32⟩
def FAB_CNT_INERR : Fld := ⟨0x040C0098, 0, 32⟩
def FAB_CNT_PFHIT : Fld := ⟨0x040C009C, 0, 32⟩
def FAB_WIN0_en (i : Nat) : Fld := ⟨0x040C0100 + i * 0x10, 31, 1⟩
def FAB_WIN0_np (i : Nat) : Fld := ⟨0x040C0100 + i * 0x10, 30, 1⟩
def FAB_WIN0_pf (i : Nat) : Fld := ⟨0x040C0100 + i * 0x10, 29, 1⟩
def FAB_WIN0_stamp (i : Nat) : Fld := ⟨0x040C0100 + i * 0x10, 28, 1⟩
def FAB_WIN0_timeout (i : Nat) : Fld := ⟨0x040C0100 + i * 0x10, 0, 14⟩
def FAB_WIN1_ring (i : Nat) : Fld := ⟨0x040C0104 + i * 0x10, 24, 8⟩
def FAB_WIN1_station (i : Nat) : Fld := ⟨0x040C0104 + i * 0x10, 12, 12⟩
def FAB_WIN1_hi (i : Nat) : Fld := ⟨0x040C0104 + i * 0x10, 0, 8⟩
def FAB_WIN2_end (i : Nat) : Fld := ⟨0x040C0108 + i * 0x10, 16, 13⟩
def FAB_WIN2_start (i : Nat) : Fld := ⟨0x040C0108 + i * 0x10, 0, 12⟩
def FAB_WIN3_out (i : Nat) : Fld := ⟨0x040C010C + i * 0x10, 0, 7⟩
def FAB_ELOG (i : Nat) (j : Nat) : Fld := ⟨0x040C0400 + i * 0x10 + j * 0x4, 0, 32⟩
def FAB_DLOG (i : Nat) (j : Nat) : Fld := ⟨0x040C0600 + i * 0x10 + j * 0x4, 0, 32⟩
def GATE_CTL_logclr : Fld := ⟨0x040D0000, 2, 1⟩
def GATE_CTL_cntclr : Fld := ⟨0x040D0000, 1, 1⟩
def GATE_CTL_en : Fld := ⟨0x040D0000, 0, 1⟩
def GATE_STAT_rates : Fld := ⟨0x040D0004, 16, 11⟩
def GATE_STAT_routes : Fld := ⟨0x040D0004, 0, 13⟩
def GATE_CFG_logmiss : Fld := ⟨0x040D0008, 31, 1⟩
def GATE_CFG_txlim : Fld := ⟨0x040D0008, 16, 12⟩
def GATE_CFG_wait : Fld := ⟨0x040D0008, 0, 16⟩
def GATE_OPEN : Fld := ⟨0x040D000C, 0, 7⟩
def GATE_LOGSTAT_ovf : Fld := ⟨0x040D0010, 8, 1⟩
def GATE_LOGSTAT_held : Fld := ⟨0x040D0010, 0, 6⟩
def GATE_RX0_base (i : Nat) : Fld := ⟨0x040D0020 + i * 0x10, 8, 24⟩
def GATE_RX1_tail (i : Nat) : Fld := ⟨0x040D0024 + i * 0x10, 16, 12⟩
def GATE_RX1_head (i : Nat) : Fld := ⟨0x040D0024 + i * 0x10, 0, 12⟩
def GATE_RX2_en (i : Nat) : Fld := ⟨0x040D0028 + i * 0x10, 16, 1⟩
def GATE_RX2_chan (i : Nat) : Fld := ⟨0x040D0028 + i * 0x10, 8, 8⟩
def GATE_RX2_size (i : Nat) : Fld := ⟨0x040D0028 + i * 0x10, 0, 4⟩
def GATE_CNT_MISS : Fld := ⟨0x040D0080, 0, 32⟩
def GATE_CNT_QDROP : Fld := ⟨0x040D0084, 0, 32⟩
def GATE_CNT_RXDROP : Fld := ⟨0x040D0088, 0, 32⟩
def GATE_CNT_RATESENT : Fld := ⟨0x040D008C, 0, 32⟩
def GATE_CNT_CACHEANS : Fld := ⟨0x040D0090, 0, 32⟩
def GATE_CNT_BUSY : Fld := ⟨0x040D0094, 0, 32⟩
def GATE_PARTY (i : Nat) : Fld := ⟨0x040D0100 + i * 0x4, 0, 32⟩
def GATE_HELD (i : Nat) : Fld := ⟨0x040D0200 + i * 0x4, 0, 32⟩
def GATE_LOG (i : Nat) (j : Nat) : Fld := ⟨0x040D0400 + i * 0x10 + j * 0x4, 0, 32⟩
def SW_CTL_cntclr : Fld := ⟨0x040E0000, 1, 1⟩
def SW_CTL_commit : Fld := ⟨0x040E0000, 0, 1⟩
def SW_STAT_pending : Fld := ⟨0x040E0004, 16, 1⟩
def SW_STAT_free : Fld := ⟨0x040E0004, 0, 13⟩
def SW_AGE_age : Fld := ⟨0x040E0008, 0, 16⟩
def SW_FLOOD_mcast : Fld := ⟨0x040E000C, 8, 8⟩
def SW_FLOOD_ucast : Fld := ⟨0x040E000C, 0, 8⟩
def SW_MIRCFG_en : Fld := ⟨0x040E0010, 31, 1⟩
def SW_MIRCFG_egress : Fld := ⟨0x040E0010, 16, 8⟩
def SW_MIRCFG_ingress : Fld := ⟨0x040E0010, 8, 8⟩
def SW_MIRCFG_port : Fld := ⟨0x040E0010, 0, 3⟩
def SW_HOSTCFG_owner : Fld := ⟨0x040E0014, 0, 6⟩
def SW_PLIM_cells (i : Nat) : Fld := ⟨0x040E0040 + i * 0x4, 0, 13⟩
def SW_CNT_FLOOD : Fld := ⟨0x040E0080, 0, 32⟩
def SW_CNT_LEARNFULL : Fld := ⟨0x040E0084, 0, 32⟩
def SW_CNT_HOSTDROP : Fld := ⟨0x040E0088, 0, 32⟩
def SW_CNT_MIRDROP : Fld := ⟨0x040E008C, 0, 32⟩
def SW_CNT_DROP (i : Nat) : Fld := ⟨0x040E00A0 + i * 0x4, 0, 32⟩
def SW_HR0_base (i : Nat) : Fld := ⟨0x040E0100 + i * 0x10, 5, 27⟩
def SW_HR1_base (i : Nat) : Fld := ⟨0x040E0104 + i * 0x10, 0, 32⟩
def SW_HR2_en (i : Nat) : Fld := ⟨0x040E0108 + i * 0x10, 8, 1⟩
def SW_HR2_loc (i : Nat) : Fld := ⟨0x040E0108 + i * 0x10, 4, 1⟩
def SW_HR2_size (i : Nat) : Fld := ⟨0x040E0108 + i * 0x10, 0, 4⟩
def SW_HR3_dev (i : Nat) : Fld := ⟨0x040E010C + i * 0x10, 16, 12⟩
def SW_HR3_sw (i : Nat) : Fld := ⟨0x040E010C + i * 0x10, 0, 12⟩
def SW_CLIM (i : Nat) (j : Nat) : Fld := ⟨0x040E0200 + i * 0x8 + j * 0x4, 0, 32⟩
def MAC_CFG_maxlen (i : Nat) : Fld := ⟨0x040F0000 + i * 0x1000, 16, 12⟩
def MAC_CFG_resv (i : Nat) : Fld := ⟨0x040F0000 + i * 0x1000, 5, 1⟩
def MAC_CFG_pause (i : Nat) : Fld := ⟨0x040F0000 + i * 0x1000, 4, 1⟩
def MAC_CFG_phy (i : Nat) : Fld := ⟨0x040F0000 + i * 0x1000, 0, 3⟩
def MAC_CTL_cntclr (i : Nat) : Fld := ⟨0x040F0004 + i * 0x1000, 2, 1⟩
def MAC_CTL_gcommit (i : Nat) : Fld := ⟨0x040F0004 + i * 0x1000, 1, 1⟩
def MAC_CTL_commit (i : Nat) : Fld := ⟨0x040F0004 + i * 0x1000, 0, 1⟩
def MAC_STAT_plcaerr (i : Nat) : Fld := ⟨0x040F0008 + i * 0x1000, 7, 1⟩
def MAC_STAT_noalign (i : Nat) : Fld := ⟨0x040F0008 + i * 0x1000, 6, 1⟩
def MAC_STAT_gpending (i : Nat) : Fld := ⟨0x040F0008 + i * 0x1000, 5, 1⟩
def MAC_STAT_pending (i : Nat) : Fld := ⟨0x040F0008 + i * 0x1000, 4, 1⟩
def MAC_STAT_paused (i : Nat) : Fld := ⟨0x040F0008 + i * 0x1000, 3, 1⟩
def MAC_STAT_speed (i : Nat) : Fld := ⟨0x040F0008 + i * 0x1000, 1, 2⟩
def MAC_STAT_link (i : Nat) : Fld := ⟨0x040F0008 + i * 0x1000, 0, 1⟩
def MAC_VLAN_tag (i : Nat) : Fld := ⟨0x040F000C + i * 0x1000, 16, 2⟩
def MAC_VLAN_pcp (i : Nat) : Fld := ⟨0x040F000C + i * 0x1000, 12, 3⟩
def MAC_VLAN_pvid (i : Nat) : Fld := ⟨0x040F000C + i * 0x1000, 0, 12⟩
def MAC_PCPMAP (i : Nat) : Fld := ⟨0x040F0010 + i * 0x1000, 0, 24⟩
def MAC_PLCA_burst (i : Nat) : Fld := ⟨0x040F0014 + i * 0x1000, 24, 4⟩
def MAC_PLCA_tot (i : Nat) : Fld := ⟨0x040F0014 + i * 0x1000, 16, 8⟩
def MAC_PLCA_count (i : Nat) : Fld := ⟨0x040F0014 + i * 0x1000, 8, 8⟩
def MAC_PLCA_node (i : Nat) : Fld := ⟨0x040F0014 + i * 0x1000, 0, 8⟩
def MAC_GCFG_entries (i : Nat) : Fld := ⟨0x040F0020 + i * 0x1000, 8, 7⟩
def MAC_GCFG_per (i : Nat) : Fld := ⟨0x040F0020 + i * 0x1000, 4, 3⟩
def MAC_GCFG_align (i : Nat) : Fld := ⟨0x040F0020 + i * 0x1000, 1, 1⟩
def MAC_GCFG_en (i : Nat) : Fld := ⟨0x040F0020 + i * 0x1000, 0, 1⟩
def MAC_GBASE_SLO (i : Nat) : Fld := ⟨0x040F0024 + i * 0x1000, 0, 32⟩
def MAC_GBASE_SHI (i : Nat) : Fld := ⟨0x040F0028 + i * 0x1000, 0, 32⟩
def MAC_GBASE_NS (i : Nat) : Fld := ⟨0x040F002C + i * 0x1000, 0, 32⟩
def MAC_GCYCLE (i : Nat) : Fld := ⟨0x040F0030 + i * 0x1000, 0, 32⟩
def MAC_CNT_RXOK (i : Nat) : Fld := ⟨0x040F0080 + i * 0x1000, 0, 32⟩
def MAC_CNT_TXOK (i : Nat) : Fld := ⟨0x040F0084 + i * 0x1000, 0, 32⟩
def MAC_CNT_RXBAD (i : Nat) : Fld := ⟨0x040F0088 + i * 0x1000, 0, 32⟩
def MAC_CNT_PAUSEIGN (i : Nat) : Fld := ⟨0x040F008C + i * 0x1000, 0, 32⟩
def MAC_CNT_TXLONG (i : Nat) : Fld := ⟨0x040F0090 + i * 0x1000, 0, 32⟩
def MAC_CNT_TXFLUSH (i : Nat) : Fld := ⟨0x040F0094 + i * 0x1000, 0, 32⟩
def MAC_GCL (i : Nat) (j : Nat) : Fld := ⟨0x040F0100 + i * 0x1000 + j * 0x4, 0, 32⟩
def CAN_CFG_defrej (i : Nat) : Fld := ⟨0x04100000 + i * 0x1000, 13, 1⟩
def CAN_CFG_paired (i : Nat) : Fld := ⟨0x04100000 + i * 0x1000, 12, 1⟩
def CAN_CFG_rxpartner (i : Nat) : Fld := ⟨0x04100000 + i * 0x1000, 11, 1⟩
def CAN_CFG_boflush (i : Nat) : Fld := ⟨0x04100000 + i * 0x1000, 10, 1⟩
def CAN_CFG_autorec (i : Nat) : Fld := ⟨0x04100000 + i * 0x1000, 9, 1⟩
def CAN_CFG_pxhd (i : Nat) : Fld := ⟨0x04100000 + i * 0x1000, 8, 1⟩
def CAN_CFG_fden (i : Nat) : Fld := ⟨0x04100000 + i * 0x1000, 4, 1⟩
def CAN_CFG_mode (i : Nat) : Fld := ⟨0x04100000 + i * 0x1000, 0, 3⟩
def CAN_CTL_cntclr (i : Nat) : Fld := ⟨0x04100004 + i * 0x1000, 3, 1⟩
def CAN_CTL_recover (i : Nat) : Fld := ⟨0x04100004 + i * 0x1000, 2, 1⟩
def CAN_CTL_fltcommit (i : Nat) : Fld := ⟨0x04100004 + i * 0x1000, 1, 1⟩
def CAN_CTL_commit (i : Nat) : Fld := ⟨0x04100004 + i * 0x1000, 0, 1⟩
def CAN_STAT_rec (i : Nat) : Fld := ⟨0x04100008 + i * 0x1000, 24, 8⟩
def CAN_STAT_tec (i : Nat) : Fld := ⟨0x04100008 + i * 0x1000, 16, 8⟩
def CAN_STAT_fltpend (i : Nat) : Fld := ⟨0x04100008 + i * 0x1000, 11, 1⟩
def CAN_STAT_pending (i : Nat) : Fld := ⟨0x04100008 + i * 0x1000, 10, 1⟩
def CAN_STAT_recovering (i : Nat) : Fld := ⟨0x04100008 + i * 0x1000, 9, 1⟩
def CAN_STAT_integ (i : Nat) : Fld := ⟨0x04100008 + i * 0x1000, 8, 1⟩
def CAN_STAT_mode (i : Nat) : Fld := ⟨0x04100008 + i * 0x1000, 4, 3⟩
def CAN_STAT_errst (i : Nat) : Fld := ⟨0x04100008 + i * 0x1000, 0, 2⟩
def CAN_EVT_busoff (i : Nat) : Fld := ⟨0x0410000C + i * 0x1000, 4, 1⟩
def CAN_EVT_txevovf (i : Nat) : Fld := ⟨0x0410000C + i * 0x1000, 3, 1⟩
def CAN_EVT_rxovf (i : Nat) : Fld := ⟨0x0410000C + i * 0x1000, 2, 1⟩
def CAN_EVT_cfgerr (i : Nat) : Fld := ⟨0x0410000C + i * 0x1000, 1, 1⟩
def CAN_EVT_errst (i : Nat) : Fld := ⟨0x0410000C + i * 0x1000, 0, 1⟩
def CAN_EVTEN_busoff (i : Nat) : Fld := ⟨0x04100010 + i * 0x1000, 4, 1⟩
def CAN_EVTEN_txevovf (i : Nat) : Fld := ⟨0x04100010 + i * 0x1000, 3, 1⟩
def CAN_EVTEN_rxovf (i : Nat) : Fld := ⟨0x04100010 + i * 0x1000, 2, 1⟩
def CAN_EVTEN_cfgerr (i : Nat) : Fld := ⟨0x04100010 + i * 0x1000, 1, 1⟩
def CAN_EVTEN_errst (i : Nat) : Fld := ⟨0x04100010 + i * 0x1000, 0, 1⟩
def CAN_NBT_sjw (i : Nat) : Fld := ⟨0x04100020 + i * 0x1000, 25, 7⟩
def CAN_NBT_tseg1 (i : Nat) : Fld := ⟨0x04100020 + i * 0x1000, 17, 8⟩
def CAN_NBT_tseg2 (i : Nat) : Fld := ⟨0x04100020 + i * 0x1000, 10, 7⟩
def CAN_NBT_brp (i : Nat) : Fld := ⟨0x04100020 + i * 0x1000, 0, 8⟩
def CAN_DBT_brp (i : Nat) : Fld := ⟨0x04100024 + i * 0x1000, 24, 5⟩
def CAN_DBT_tseg1 (i : Nat) : Fld := ⟨0x04100024 + i * 0x1000, 16, 5⟩
def CAN_DBT_tseg2 (i : Nat) : Fld := ⟨0x04100024 + i * 0x1000, 8, 4⟩
def CAN_DBT_sjw (i : Nat) : Fld := ⟨0x04100024 + i * 0x1000, 0, 4⟩
def CAN_TDC_filter (i : Nat) : Fld := ⟨0x04100028 + i * 0x1000, 16, 7⟩
def CAN_TDC_offset (i : Nat) : Fld := ⟨0x04100028 + i * 0x1000, 8, 7⟩
def CAN_TDC_en (i : Nat) : Fld := ⟨0x04100028 + i * 0x1000, 0, 1⟩
def CAN_TXW (i : Nat) : Fld := ⟨0x04100030 + i * 0x1000, 0, 32⟩
def CAN_TXSTAT_cres (i : Nat) : Fld := ⟨0x04100034 + i * 0x1000, 16, 2⟩
def CAN_TXSTAT_evcount (i : Nat) : Fld := ⟨0x04100034 + i * 0x1000, 11, 5⟩
def CAN_TXSTAT_evovf (i : Nat) : Fld := ⟨0x04100034 + i * 0x1000, 10, 1⟩
def CAN_TXSTAT_ovr (i : Nat) : Fld := ⟨0x04100034 + i * 0x1000, 9, 1⟩
def CAN_TXSTAT_active (i : Nat) : Fld := ⟨0x04100034 + i * 0x1000, 8, 1⟩
def CAN_TXSTAT_queued (i : Nat) : Fld := ⟨0x04100034 + i * 0x1000, 0, 7⟩
def CAN_CANCEL_tag (i : Nat) : Fld := ⟨0x04100038 + i * 0x1000, 0, 8⟩
def CAN_TXEV (i : Nat) (j : Nat) : Fld := ⟨0x04100040 + i * 0x1000 + j * 0x4, 0, 32⟩
def CAN_CNT_RXOK (i : Nat) : Fld := ⟨0x04100080 + i * 0x1000, 0, 32⟩
def CAN_CNT_TXOK (i : Nat) : Fld := ⟨0x04100084 + i * 0x1000, 0, 32⟩
def CAN_CNT_ERRFRM (i : Nat) : Fld := ⟨0x04100088 + i * 0x1000, 0, 32⟩
def CAN_CNT_FILTERED (i : Nat) : Fld := ⟨0x0410008C + i * 0x1000, 0, 32⟩
def CAN_CNT_RXOVF (i : Nat) : Fld := ⟨0x04100090 + i * 0x1000, 0, 32⟩
def CAN_CNT_TXBAD (i : Nat) : Fld := ⟨0x04100094 + i * 0x1000, 0, 32⟩
def CAN_CNT_TDCSAT (i : Nat) : Fld := ⟨0x04100098 + i * 0x1000, 0, 32⟩
def CAN_FLT0_en (i : Nat) (j : Nat) : Fld := ⟨0x04100400 + i * 0x1000 + j * 0x8, 31, 1⟩
def CAN_FLT0_ide (i : Nat) (j : Nat) : Fld := ⟨0x04100400 + i * 0x1000 + j * 0x8, 30, 1⟩
def CAN_FLT0_reject (i : Nat) (j : Nat) : Fld := ⟨0x04100400 + i * 0x1000 + j * 0x8, 29, 1⟩
def CAN_FLT0_id (i : Nat) (j : Nat) : Fld := ⟨0x04100400 + i * 0x1000 + j * 0x8, 0, 29⟩
def CAN_FLT1_mask (i : Nat) (j : Nat) : Fld := ⟨0x04100404 + i * 0x1000 + j * 0x8, 0, 29⟩
def LINE_MODE_cansel (i : Nat) : Fld := ⟨0x04110000 + i * 0x400, 16, 4⟩
def LINE_MODE_bias (i : Nat) : Fld := ⟨0x04110000 + i * 0x400, 12, 1⟩
def LINE_MODE_term (i : Nat) : Fld := ⟨0x04110000 + i * 0x400, 8, 2⟩
def LINE_MODE_slew (i : Nat) : Fld := ⟨0x04110000 + i * 0x400, 4, 2⟩
def LINE_MODE_mode (i : Nat) : Fld := ⟨0x04110000 + i * 0x400, 0, 3⟩
def LINE_CTL_cntclr (i : Nat) : Fld := ⟨0x04110004 + i * 0x400, 2, 1⟩
def LINE_CTL_calreq (i : Nat) : Fld := ⟨0x04110004 + i * 0x400, 1, 1⟩
def LINE_CTL_commit (i : Nat) : Fld := ⟨0x04110004 + i * 0x400, 0, 1⟩
def LINE_OUT_de (i : Nat) : Fld := ⟨0x04110008 + i * 0x400, 1, 1⟩
def LINE_OUT_txd (i : Nat) : Fld := ⟨0x04110008 + i * 0x400, 0, 1⟩
def LINE_STAT_domto (i : Nat) : Fld := ⟨0x0411000C + i * 0x400, 11, 1⟩
def LINE_STAT_cmr (i : Nat) : Fld := ⟨0x0411000C + i * 0x400, 10, 1⟩
def LINE_STAT_thermal (i : Nat) : Fld := ⟨0x0411000C + i * 0x400, 9, 1⟩
def LINE_STAT_drvlim (i : Nat) : Fld := ⟨0x0411000C + i * 0x400, 8, 1⟩
def LINE_STAT_maint (i : Nat) : Fld := ⟨0x0411000C + i * 0x400, 6, 1⟩
def LINE_STAT_calst (i : Nat) : Fld := ⟨0x0411000C + i * 0x400, 4, 2⟩
def LINE_STAT_pending (i : Nat) : Fld := ⟨0x0411000C + i * 0x400, 2, 1⟩
def LINE_STAT_de (i : Nat) : Fld := ⟨0x0411000C + i * 0x400, 1, 1⟩
def LINE_STAT_rxd (i : Nat) : Fld := ⟨0x0411000C + i * 0x400, 0, 1⟩
def LINE_CALT_LO (i : Nat) : Fld := ⟨0x04110010 + i * 0x400, 0, 32⟩
def LINE_CALT_HI (i : Nat) : Fld := ⟨0x04110014 + i * 0x400, 0, 32⟩
def LINE_CNT_ABORT (i : Nat) : Fld := ⟨0x04110040 + i * 0x400, 0, 32⟩
def LINE_CNT_STARVE (i : Nat) : Fld := ⟨0x04110044 + i * 0x400, 0, 32⟩
def LINE_CNT_PASS (i : Nat) : Fld := ⟨0x04110048 + i * 0x400, 0, 32⟩
def LINE_CNT_MAINTIGN (i : Nat) : Fld := ⟨0x0411004C + i * 0x400, 0, 32⟩
def LINE_CALCFG_period : Fld := ⟨0x0411C000, 16, 16⟩
def LINE_CALCFG_guard : Fld := ⟨0x0411C000, 0, 16⟩
def LINE_CALCFG2_tdelta : Fld := ⟨0x0411C004, 8, 8⟩
def LINE_CALCFG2_starve : Fld := ⟨0x0411C004, 0, 8⟩
def LINE_MAINT0 : Fld := ⟨0x0411C010, 0, 32⟩
def LINE_MAINT1 : Fld := ⟨0x0411C014, 0, 16⟩
def LINE_EVT_fault : Fld := ⟨0x0411C020, 2, 1⟩
def LINE_EVT_starved : Fld := ⟨0x0411C020, 1, 1⟩
def LINE_EVT_outrange : Fld := ⟨0x0411C020, 0, 1⟩
def LINE_EVTEN_fault : Fld := ⟨0x0411C024, 2, 1⟩
def LINE_EVTEN_starved : Fld := ⟨0x0411C024, 1, 1⟩
def LINE_EVTEN_outrange : Fld := ⟨0x0411C024, 0, 1⟩
def DIO_CTL_cntclr : Fld := ⟨0x04120000, 8, 1⟩
def DIO_CTL_commit : Fld := ⟨0x04120000, 0, 8⟩
def DIO_OUT_out (i : Nat) : Fld := ⟨0x04120010 + i * 0x4, 0, 8⟩
def DIO_IN_unfilt (i : Nat) : Fld := ⟨0x04120030 + i * 0x4, 8, 8⟩
def DIO_IN_filt (i : Nat) : Fld := ⟨0x04120030 + i * 0x4, 0, 8⟩
def DIO_OWN : Fld := ⟨0x04120050, 0, 16⟩
def DIO_FAULT_octet (i : Nat) : Fld := ⟨0x04120060 + i * 0x4, 16, 1⟩
def DIO_FAULT_openload (i : Nat) : Fld := ⟨0x04120060 + i * 0x4, 8, 8⟩
def DIO_FAULT_short (i : Nat) : Fld := ⟨0x04120060 + i * 0x4, 0, 8⟩
def DIO_GSTAT_itotal : Fld := ⟨0x04120080, 16, 16⟩
def DIO_GSTAT_vfldlow : Fld := ⟨0x04120080, 1, 1⟩
def DIO_GSTAT_total : Fld := ⟨0x04120080, 0, 1⟩
def DIO_EVT_vfldlow : Fld := ⟨0x04120090, 4, 1⟩
def DIO_EVT_total : Fld := ⟨0x04120090, 3, 1⟩
def DIO_EVT_octet : Fld := ⟨0x04120090, 2, 1⟩
def DIO_EVT_openload : Fld := ⟨0x04120090, 1, 1⟩
def DIO_EVT_short : Fld := ⟨0x04120090, 0, 1⟩
def DIO_EVTEN_vfldlow : Fld := ⟨0x04120094, 4, 1⟩
def DIO_EVTEN_total : Fld := ⟨0x04120094, 3, 1⟩
def DIO_EVTEN_octet : Fld := ⟨0x04120094, 2, 1⟩
def DIO_EVTEN_openload : Fld := ⟨0x04120094, 1, 1⟩
def DIO_EVTEN_short : Fld := ⟨0x04120094, 0, 1⟩
def DIO_CFG_openld (i : Nat) : Fld := ⟨0x04120100 + i * 0x4, 18, 1⟩
def DIO_CFG_sbev (i : Nat) : Fld := ⟨0x04120100 + i * 0x4, 16, 2⟩
def DIO_CFG_filter (i : Nat) : Fld := ⟨0x04120100 + i * 0x4, 4, 12⟩
def DIO_CFG_unit (i : Nat) : Fld := ⟨0x04120100 + i * 0x4, 3, 1⟩
def DIO_CFG_mode (i : Nat) : Fld := ⟨0x04120100 + i * 0x4, 0, 3⟩
def DIO_CUR (i : Nat) : Fld := ⟨0x04120200 + i * 0x4, 0, 16⟩
def DIO_CALT_LO (i : Nat) : Fld := ⟨0x04120300 + i * 0x8, 0, 32⟩
def DIO_CALT_HI (i : Nat) : Fld := ⟨0x04120304 + i * 0x8, 0, 32⟩
def DIO_STAMP0 (i : Nat) : Fld := ⟨0x04120600 + i * 0x10, 0, 32⟩
def DIO_STAMP1 (i : Nat) : Fld := ⟨0x04120604 + i * 0x10, 0, 32⟩
def DIO_STAMP2_valid (i : Nat) : Fld := ⟨0x04120608 + i * 0x10, 31, 1⟩
def DIO_STAMP2_ovr (i : Nat) : Fld := ⟨0x04120608 + i * 0x10, 1, 1⟩
def DIO_STAMP2_level (i : Nat) : Fld := ⟨0x04120608 + i * 0x10, 0, 1⟩
def DIO_CNT_ABORT (i : Nat) : Fld := ⟨0x04120C00 + i * 0x10, 0, 32⟩
def DIO_CNT_STARVE (i : Nat) : Fld := ⟨0x04120C04 + i * 0x10, 0, 32⟩
def DIO_CNT_PASS (i : Nat) : Fld := ⟨0x04120C08 + i * 0x10, 0, 32⟩
def DIO_CNT_MAINTIGN (i : Nat) : Fld := ⟨0x04120C0C + i * 0x10, 0, 32⟩
def ENG_STATE_script (i : Nat) : Fld := ⟨0x04130000 + i * 0x1000, 16, 16⟩
def ENG_STATE_cause (i : Nat) : Fld := ⟨0x04130000 + i * 0x1000, 8, 4⟩
def ENG_STATE_state (i : Nat) : Fld := ⟨0x04130000 + i * 0x1000, 0, 3⟩
def ENG_EVT (i : Nat) : Fld := ⟨0x04130004 + i * 0x1000, 0, 32⟩
def ENG_IEN (i : Nat) : Fld := ⟨0x04130008 + i * 0x1000, 0, 32⟩
def ENG_TCMP (i : Nat) : Fld := ⟨0x04130010 + i * 0x1000, 0, 32⟩
def ENG_TCTL_en (i : Nat) : Fld := ⟨0x04130014 + i * 0x1000, 0, 1⟩
def ENG_SYNC (i : Nat) : Fld := ⟨0x04130018 + i * 0x1000, 0, 32⟩
def ENG_WDKICK (i : Nat) : Fld := ⟨0x0413001C + i * 0x1000, 0, 32⟩
def ENG_GRXCFG_en (i : Nat) : Fld := ⟨0x04130020 + i * 0x1000, 31, 1⟩
def ENG_GRXCFG_base (i : Nat) : Fld := ⟨0x04130020 + i * 0x1000, 8, 9⟩
def ENG_GRXCFG_size (i : Nat) : Fld := ⟨0x04130020 + i * 0x1000, 0, 3⟩
def ENG_GRXPTR_tail (i : Nat) : Fld := ⟨0x04130024 + i * 0x1000, 16, 6⟩
def ENG_GRXPTR_head (i : Nat) : Fld := ⟨0x04130024 + i * 0x1000, 0, 6⟩
def ENG_GTX_off (i : Nat) : Fld := ⟨0x04130028 + i * 0x1000, 2, 15⟩
def ENG_GTXSTAT_ovr (i : Nat) : Fld := ⟨0x0413002C + i * 0x1000, 2, 1⟩
def ENG_GTXSTAT_err (i : Nat) : Fld := ⟨0x0413002C + i * 0x1000, 1, 1⟩
def ENG_GTXSTAT_busy (i : Nat) : Fld := ⟨0x0413002C + i * 0x1000, 0, 1⟩
def ENG_CHCFG_unit (i : Nat) (j : Nat) : Fld := ⟨0x04130040 + i * 0x1000 + j * 0x8, 8, 4⟩
def ENG_CHCFG_endpoint (i : Nat) (j : Nat) : Fld := ⟨0x04130040 + i * 0x1000 + j * 0x8, 4, 2⟩
def ENG_CHSTAT_drops (i : Nat) (j : Nat) : Fld := ⟨0x04130044 + i * 0x1000 + j * 0x8, 24, 8⟩
def ENG_CHSTAT_err (i : Nat) (j : Nat) : Fld := ⟨0x04130044 + i * 0x1000 + j * 0x8, 18, 1⟩
def ENG_CHSTAT_drop (i : Nat) (j : Nat) : Fld := ⟨0x04130044 + i * 0x1000 + j * 0x8, 17, 1⟩
def ENG_CHSTAT_stale (i : Nat) (j : Nat) : Fld := ⟨0x04130044 + i * 0x1000 + j * 0x8, 16, 1⟩
def ENG_CHSTAT_txfree (i : Nat) (j : Nat) : Fld := ⟨0x04130044 + i * 0x1000 + j * 0x8, 8, 5⟩
def ENG_CHSTAT_rxwords (i : Nat) (j : Nat) : Fld := ⟨0x04130044 + i * 0x1000 + j * 0x8, 0, 5⟩
def ENG_CNT_PARITY (i : Nat) : Fld := ⟨0x041300C0 + i * 0x1000, 0, 32⟩
def ENG_CNT_TRAP (i : Nat) : Fld := ⟨0x041300C4 + i * 0x1000, 0, 32⟩
def ENG_CNT_STOP (i : Nat) : Fld := ⟨0x041300C8 + i * 0x1000, 0, 32⟩
def ENG_CNT_GTXERR (i : Nat) : Fld := ⟨0x041300CC + i * 0x1000, 0, 32⟩
def ENG_CNTCLR (i : Nat) : Fld := ⟨0x041300FC + i * 0x1000, 0, 32⟩
def ENG_STOPEPC (i : Nat) : Fld := ⟨0x04130080 + i * 0x1000, 0, 32⟩
def ENG_STOPCAUSE (i : Nat) : Fld := ⟨0x04130084 + i * 0x1000, 0, 32⟩
def ENG_STOPTVAL (i : Nat) : Fld := ⟨0x04130088 + i * 0x1000, 0, 32⟩
def HAND_CTL_cntclr (i : Nat) : Fld := ⟨0x04140000 + i * 0x800, 11, 1⟩
def HAND_CTL_trigsel (i : Nat) : Fld := ⟨0x04140000 + i * 0x800, 8, 3⟩
def HAND_CTL_arm (i : Nat) : Fld := ⟨0x04140000 + i * 0x800, 7, 1⟩
def HAND_CTL_commit (i : Nat) : Fld := ⟨0x04140000 + i * 0x800, 3, 1⟩
def HAND_CTL_fifoclr (i : Nat) : Fld := ⟨0x04140000 + i * 0x800, 2, 1⟩
def HAND_CTL_restart (i : Nat) : Fld := ⟨0x04140000 + i * 0x800, 1, 1⟩
def HAND_CTL_en (i : Nat) : Fld := ⟨0x04140000 + i * 0x800, 0, 1⟩
def HAND_STAT_owner (i : Nat) : Fld := ⟨0x04140004 + i * 0x800, 28, 4⟩
def HAND_STAT_rxwords (i : Nat) : Fld := ⟨0x04140004 + i * 0x800, 24, 4⟩
def HAND_STAT_txwords (i : Nat) : Fld := ⟨0x04140004 + i * 0x800, 20, 4⟩
def HAND_STAT_pendhold (i : Nat) : Fld := ⟨0x04140004 + i * 0x800, 14, 1⟩
def HAND_STAT_waiting (i : Nat) : Fld := ⟨0x04140004 + i * 0x800, 13, 1⟩
def HAND_STAT_illegal (i : Nat) : Fld := ⟨0x04140004 + i * 0x800, 12, 1⟩
def HAND_STAT_pinerr (i : Nat) : Fld := ⟨0x04140004 + i * 0x800, 11, 1⟩
def HAND_STAT_imemerr (i : Nat) : Fld := ⟨0x04140004 + i * 0x800, 10, 1⟩
def HAND_STAT_rxstale (i : Nat) : Fld := ⟨0x04140004 + i * 0x800, 9, 1⟩
def HAND_STAT_txstale (i : Nat) : Fld := ⟨0x04140004 + i * 0x800, 8, 1⟩
def HAND_STAT_pending (i : Nat) : Fld := ⟨0x04140004 + i * 0x800, 5, 3⟩
def HAND_STAT_pc (i : Nat) : Fld := ⟨0x04140004 + i * 0x800, 0, 5⟩
def HAND_DIV_int (i : Nat) : Fld := ⟨0x04140008 + i * 0x800, 8, 16⟩
def HAND_DIV_frac (i : Nat) : Fld := ⟨0x04140008 + i * 0x800, 0, 8⟩
def HAND_WRAP_top (i : Nat) : Fld := ⟨0x0414000C + i * 0x800, 8, 5⟩
def HAND_WRAP_bottom (i : Nat) : Fld := ⟨0x0414000C + i * 0x800, 0, 5⟩
def HAND_SHCFG_ibase (i : Nat) : Fld := ⟨0x04140010 + i * 0x800, 24, 3⟩
def HAND_SHCFG_obase (i : Nat) : Fld := ⟨0x04140010 + i * 0x800, 20, 3⟩
def HAND_SHCFG_rdir (i : Nat) : Fld := ⟨0x04140010 + i * 0x800, 17, 1⟩
def HAND_SHCFG_tdir (i : Nat) : Fld := ⟨0x04140010 + i * 0x800, 16, 1⟩
def HAND_SHCFG_rlen (i : Nat) : Fld := ⟨0x04140010 + i * 0x800, 8, 5⟩
def HAND_SHCFG_tlen (i : Nat) : Fld := ⟨0x04140010 + i * 0x800, 0, 5⟩
def HAND_A (i : Nat) : Fld := ⟨0x04140014 + i * 0x800, 0, 32⟩
def HAND_B (i : Nat) : Fld := ⟨0x04140018 + i * 0x800, 0, 32⟩
def HAND_TSR (i : Nat) : Fld := ⟨0x0414001C + i * 0x800, 0, 32⟩
def HAND_RSR (i : Nat) : Fld := ⟨0x04140020 + i * 0x800, 0, 32⟩
def HAND_CNT_rcnt (i : Nat) : Fld := ⟨0x04140024 + i * 0x800, 8, 6⟩
def HAND_CNT_tcnt (i : Nat) : Fld := ⟨0x04140024 + i * 0x800, 0, 6⟩
def HAND_TXF (i : Nat) : Fld := ⟨0x04140028 + i * 0x800, 0, 32⟩
def HAND_RXF (i : Nat) : Fld := ⟨0x0414002C + i * 0x800, 0, 32⟩
def HAND_DROP_rx (i : Nat) : Fld := ⟨0x04140030 + i * 0x800, 16, 16⟩
def HAND_DROP_tx (i : Nat) : Fld := ⟨0x04140030 + i * 0x800, 0, 16⟩
def HAND_HOLD_h3 (i : Nat) : Fld := ⟨0x04140034 + i * 0x800, 24, 8⟩
def HAND_HOLD_h2 (i : Nat) : Fld := ⟨0x04140034 + i * 0x800, 16, 8⟩
def HAND_HOLD_h1 (i : Nat) : Fld := ⟨0x04140034 + i * 0x800, 8, 8⟩
def HAND_HOLD_h0 (i : Nat) : Fld := ⟨0x04140034 + i * 0x800, 0, 8⟩
def HAND_DMASK_mask (i : Nat) : Fld := ⟨0x04140038 + i * 0x800, 0, 8⟩
def HAND_PIN_rest (i : Nat) (j : Nat) : Fld := ⟨0x04140040 + i * 0x800 + j * 0x4, 31, 1⟩
def HAND_PIN_invout (i : Nat) (j : Nat) : Fld := ⟨0x04140040 + i * 0x800 + j * 0x4, 30, 1⟩
def HAND_PIN_invin (i : Nat) (j : Nat) : Fld := ⟨0x04140040 + i * 0x800 + j * 0x4, 29, 1⟩
def HAND_PIN_in (i : Nat) (j : Nat) : Fld := ⟨0x04140040 + i * 0x800 + j * 0x4, 16, 9⟩
def HAND_PIN_out (i : Nat) (j : Nat) : Fld := ⟨0x04140040 + i * 0x800 + j * 0x4, 0, 9⟩
def HAND_TPIN_slot (i : Nat) : Fld := ⟨0x04140060 + i * 0x800, 0, 3⟩
def HAND_IMEM (i : Nat) (j : Nat) : Fld := ⟨0x04140100 + i * 0x800 + j * 0x4, 0, 16⟩
def STG_CTL_commit : Fld := ⟨0x04150000, 8, 2⟩
def STG_CTL_cntclr : Fld := ⟨0x04150000, 0, 1⟩
def STG_STATE_phase (i : Nat) : Fld := ⟨0x04150100 + i * 0x100, 16, 3⟩
def STG_STATE_ohold (i : Nat) : Fld := ⟨0x04150100 + i * 0x100, 11, 1⟩
def STG_STATE_pending (i : Nat) : Fld := ⟨0x04150100 + i * 0x100, 10, 1⟩
def STG_STATE_cuepend (i : Nat) : Fld := ⟨0x04150100 + i * 0x100, 9, 1⟩
def STG_STATE_armed (i : Nat) : Fld := ⟨0x04150100 + i * 0x100, 8, 1⟩
def STG_STATE_slot (i : Nat) : Fld := ⟨0x04150100 + i * 0x100, 4, 1⟩
def STG_STATE_midhold (i : Nat) : Fld := ⟨0x04150100 + i * 0x100, 3, 1⟩
def STG_STATE_state (i : Nat) : Fld := ⟨0x04150100 + i * 0x100, 0, 3⟩
def STG_CFG_boot (i : Nat) : Fld := ⟨0x04150104 + i * 0x100, 4, 2⟩
def STG_CFG_freeze (i : Nat) : Fld := ⟨0x04150104 + i * 0x100, 1, 1⟩
def STG_CFG_holdout (i : Nat) : Fld := ⟨0x04150104 + i * 0x100, 0, 1⟩
def STG_CYC_phase (i : Nat) : Fld := ⟨0x04150108 + i * 0x100, 8, 8⟩
def STG_CYC_len (i : Nat) : Fld := ⟨0x04150108 + i * 0x100, 0, 8⟩
def STG_OUTOFS_ofs (i : Nat) : Fld := ⟨0x0415010C + i * 0x100, 0, 26⟩
def STG_WDOG_limit (i : Nat) : Fld := ⟨0x04150110 + i * 0x100, 0, 26⟩
def STG_OHOLD_count (i : Nat) : Fld := ⟨0x04150114 + i * 0x100, 8, 8⟩
def STG_OHOLD_laps (i : Nat) : Fld := ⟨0x04150114 + i * 0x100, 0, 8⟩
def STG_CYCNUM_LO (i : Nat) : Fld := ⟨0x04150118 + i * 0x100, 0, 32⟩
def STG_CYCNUM_HI (i : Nat) : Fld := ⟨0x0415011C + i * 0x100, 0, 32⟩
def STG_LOGIC (i : Nat) : Fld := ⟨0x04150120 + i * 0x100, 0, 32⟩
def STG_LOGICMAX (i : Nat) : Fld := ⟨0x04150124 + i * 0x100, 0, 32⟩
def STG_GAP (i : Nat) : Fld := ⟨0x04150128 + i * 0x100, 0, 16⟩
def STG_PTOFS_LO (i : Nat) : Fld := ⟨0x0415012C + i * 0x100, 0, 32⟩
def STG_PTOFS_HI (i : Nat) : Fld := ⟨0x04150130 + i * 0x100, 0, 32⟩
def STG_EVT_ohold (i : Nat) : Fld := ⟨0x04150134 + i * 0x100, 6, 1⟩
def STG_EVT_retovf (i : Nat) : Fld := ⟨0x04150134 + i * 0x100, 5, 1⟩
def STG_EVT_undel (i : Nat) : Fld := ⟨0x04150134 + i * 0x100, 4, 1⟩
def STG_EVT_stale (i : Nat) : Fld := ⟨0x04150134 + i * 0x100, 3, 1⟩
def STG_EVT_wdog (i : Nat) : Fld := ⟨0x04150134 + i * 0x100, 2, 1⟩
def STG_EVT_cue (i : Nat) : Fld := ⟨0x04150134 + i * 0x100, 1, 1⟩
def STG_EVT_state (i : Nat) : Fld := ⟨0x04150134 + i * 0x100, 0, 1⟩
def STG_EVTEN_ohold (i : Nat) : Fld := ⟨0x04150138 + i * 0x100, 6, 1⟩
def STG_EVTEN_retovf (i : Nat) : Fld := ⟨0x04150138 + i * 0x100, 5, 1⟩
def STG_EVTEN_undel (i : Nat) : Fld := ⟨0x04150138 + i * 0x100, 4, 1⟩
def STG_EVTEN_stale (i : Nat) : Fld := ⟨0x04150138 + i * 0x100, 3, 1⟩
def STG_EVTEN_wdog (i : Nat) : Fld := ⟨0x04150138 + i * 0x100, 2, 1⟩
def STG_EVTEN_cue (i : Nat) : Fld := ⟨0x04150138 + i * 0x100, 1, 1⟩
def STG_EVTEN_state (i : Nat) : Fld := ⟨0x04150138 + i * 0x100, 0, 1⟩
def STG_CNT_STALE (i : Nat) : Fld := ⟨0x04150180 + i * 0x100, 0, 32⟩
def STG_CNT_UNDEL (i : Nat) : Fld := ⟨0x04150184 + i * 0x100, 0, 32⟩
def STG_CNT_OHOLD (i : Nat) : Fld := ⟨0x04150188 + i * 0x100, 0, 32⟩
def STG_CNT_WDOG (i : Nat) : Fld := ⟨0x0415018C + i * 0x100, 0, 32⟩
def STG_CNT_CUE (i : Nat) : Fld := ⟨0x04150190 + i * 0x100, 0, 32⟩
def STG_CNT_RETOVF (i : Nat) : Fld := ⟨0x04150194 + i * 0x100, 0, 32⟩
def MOT_STATE_hstate (i : Nat) : Fld := ⟨0x04160000 + i * 0x1000, 12, 4⟩
def MOT_STATE_pending (i : Nat) : Fld := ⟨0x04160000 + i * 0x1000, 11, 1⟩
def MOT_STATE_mres (i : Nat) : Fld := ⟨0x04160000 + i * 0x1000, 8, 3⟩
def MOT_STATE_band (i : Nat) : Fld := ⟨0x04160000 + i * 0x1000, 7, 1⟩
def MOT_STATE_dir (i : Nat) : Fld := ⟨0x04160000 + i * 0x1000, 6, 1⟩
def MOT_STATE_state (i : Nat) : Fld := ⟨0x04160000 + i * 0x1000, 0, 3⟩
def MOT_CFG_dirinv (i : Nat) : Fld := ⟨0x04160004 + i * 0x1000, 24, 1⟩
def MOT_CFG_mresmax (i : Nat) : Fld := ⟨0x04160004 + i * 0x1000, 20, 3⟩
def MOT_CFG_mresmin (i : Nat) : Fld := ⟨0x04160004 + i * 0x1000, 16, 3⟩
def MOT_CFG_fmax (i : Nat) : Fld := ⟨0x04160004 + i * 0x1000, 8, 8⟩
def MOT_CFG_pair (i : Nat) : Fld := ⟨0x04160004 + i * 0x1000, 4, 2⟩
def MOT_CFG_src (i : Nat) : Fld := ⟨0x04160004 + i * 0x1000, 2, 1⟩
def MOT_CFG_route (i : Nat) : Fld := ⟨0x04160004 + i * 0x1000, 0, 2⟩
def MOT_VMAX (i : Nat) : Fld := ⟨0x04160008 + i * 0x1000, 0, 28⟩
def MOT_AMAX (i : Nat) : Fld := ⟨0x0416000C + i * 0x1000, 0, 24⟩
def MOT_DMAX (i : Nat) : Fld := ⟨0x04160010 + i * 0x1000, 0, 24⟩
def MOT_JMAX (i : Nat) : Fld := ⟨0x04160014 + i * 0x1000, 0, 32⟩
def MOT_ESTOP (i : Nat) : Fld := ⟨0x04160018 + i * 0x1000, 0, 24⟩
def MOT_STEPIO_setup (i : Nat) : Fld := ⟨0x0416001C + i * 0x1000, 24, 8⟩
def MOT_STEPIO_width (i : Nat) : Fld := ⟨0x0416001C + i * 0x1000, 16, 8⟩
def MOT_STEPIO_dirio (i : Nat) : Fld := ⟨0x0416001C + i * 0x1000, 8, 8⟩
def MOT_STEPIO_step (i : Nat) : Fld := ⟨0x0416001C + i * 0x1000, 0, 8⟩
def MOT_SW_idxen (i : Nat) : Fld := ⟨0x04160020 + i * 0x1000, 31, 1⟩
def MOT_SW_idxkind (i : Nat) : Fld := ⟨0x04160020 + i * 0x1000, 30, 1⟩
def MOT_SW_idxnum (i : Nat) : Fld := ⟨0x04160020 + i * 0x1000, 24, 6⟩
def MOT_SW_neglvl (i : Nat) : Fld := ⟨0x04160020 + i * 0x1000, 23, 1⟩
def MOT_SW_negen (i : Nat) : Fld := ⟨0x04160020 + i * 0x1000, 22, 1⟩
def MOT_SW_negline (i : Nat) : Fld := ⟨0x04160020 + i * 0x1000, 16, 6⟩
def MOT_SW_poslvl (i : Nat) : Fld := ⟨0x04160020 + i * 0x1000, 15, 1⟩
def MOT_SW_posen (i : Nat) : Fld := ⟨0x04160020 + i * 0x1000, 14, 1⟩
def MOT_SW_posline (i : Nat) : Fld := ⟨0x04160020 + i * 0x1000, 8, 6⟩
def MOT_SW_homelvl (i : Nat) : Fld := ⟨0x04160020 + i * 0x1000, 7, 1⟩
def MOT_SW_homeen (i : Nat) : Fld := ⟨0x04160020 + i * 0x1000, 6, 1⟩
def MOT_SW_homeline (i : Nat) : Fld := ⟨0x04160020 + i * 0x1000, 0, 6⟩
def MOT_FSPO_en (i : Nat) : Fld := ⟨0x04160024 + i * 0x1000, 31, 1⟩
def MOT_FSPO_offset (i : Nat) : Fld := ⟨0x04160024 + i * 0x1000, 0, 18⟩
def MOT_FSPI_station (i : Nat) : Fld := ⟨0x04160028 + i * 0x1000, 18, 12⟩
def MOT_FSPI_offset (i : Nat) : Fld := ⟨0x04160028 + i * 0x1000, 0, 18⟩
def MOT_POS (i : Nat) : Fld := ⟨0x04160040 + i * 0x1000, 0, 32⟩
def MOT_TARGET (i : Nat) : Fld := ⟨0x04160044 + i * 0x1000, 0, 32⟩
def MOT_VEL (i : Nat) : Fld := ⟨0x04160048 + i * 0x1000, 0, 32⟩
def MOT_ACC (i : Nat) : Fld := ⟨0x0416004C + i * 0x1000, 0, 32⟩
def MOT_LATCTL_err (i : Nat) : Fld := ⟨0x04160050 + i * 0x1000, 1, 1⟩
def MOT_LATCTL_valid (i : Nat) : Fld := ⟨0x04160050 + i * 0x1000, 0, 1⟩
def MOT_LATPOS_LO (i : Nat) : Fld := ⟨0x04160054 + i * 0x1000, 0, 32⟩
def MOT_LATPOS_HI (i : Nat) : Fld := ⟨0x04160058 + i * 0x1000, 0, 8⟩
def MOT_LATRAW_LO (i : Nat) : Fld := ⟨0x0416005C + i * 0x1000, 0, 32⟩
def MOT_LATRAW_HI (i : Nat) : Fld := ⟨0x04160060 + i * 0x1000, 0, 32⟩
def MOT_LATT (i : Nat) (j : Nat) : Fld := ⟨0x04160064 + i * 0x1000 + j * 0x4, 0, 32⟩
def MOT_TGT (i : Nat) : Fld := ⟨0x04160070 + i * 0x1000, 0, 32⟩
def MOT_EVT_latch (i : Nat) : Fld := ⟨0x04160074 + i * 0x1000, 5, 1⟩
def MOT_EVT_cfgerr (i : Nat) : Fld := ⟨0x04160074 + i * 0x1000, 4, 1⟩
def MOT_EVT_spstale (i : Nat) : Fld := ⟨0x04160074 + i * 0x1000, 3, 1⟩
def MOT_EVT_fault (i : Nat) : Fld := ⟨0x04160074 + i * 0x1000, 2, 1⟩
def MOT_EVT_limit (i : Nat) : Fld := ⟨0x04160074 + i * 0x1000, 1, 1⟩
def MOT_EVT_done (i : Nat) : Fld := ⟨0x04160074 + i * 0x1000, 0, 1⟩
def MOT_EVTEN_latch (i : Nat) : Fld := ⟨0x04160078 + i * 0x1000, 5, 1⟩
def MOT_EVTEN_cfgerr (i : Nat) : Fld := ⟨0x04160078 + i * 0x1000, 4, 1⟩
def MOT_EVTEN_spstale (i : Nat) : Fld := ⟨0x04160078 + i * 0x1000, 3, 1⟩
def MOT_EVTEN_fault (i : Nat) : Fld := ⟨0x04160078 + i * 0x1000, 2, 1⟩
def MOT_EVTEN_limit (i : Nat) : Fld := ⟨0x04160078 + i * 0x1000, 1, 1⟩
def MOT_EVTEN_done (i : Nat) : Fld := ⟨0x04160078 + i * 0x1000, 0, 1⟩
def MOT_CTL_cntclr (i : Nat) : Fld := ⟨0x0416007C + i * 0x1000, 2, 1⟩
def MOT_CTL_stop (i : Nat) : Fld := ⟨0x0416007C + i * 0x1000, 1, 1⟩
def MOT_CTL_commit (i : Nat) : Fld := ⟨0x0416007C + i * 0x1000, 0, 1⟩
def MOT_CNT_STEPS (i : Nat) : Fld := ⟨0x04160080 + i * 0x1000, 0, 32⟩
def MOT_CNT_RESCHG (i : Nat) : Fld := ⟨0x04160084 + i * 0x1000, 0, 32⟩
def MOT_CNT_LIMIT (i : Nat) : Fld := ⟨0x04160088 + i * 0x1000, 0, 32⟩
def DRV_CFG_pwm (i : Nat) : Fld := ⟨0x04170000 + i * 0x800, 16, 8⟩
def DRV_CFG_toff (i : Nat) : Fld := ⟨0x04170000 + i * 0x800, 8, 7⟩
def DRV_CFG_mix (i : Nat) : Fld := ⟨0x04170000 + i * 0x800, 4, 4⟩
def DRV_CFG_mode (i : Nat) : Fld := ⟨0x04170000 + i * 0x800, 0, 2⟩
def DRV_CUR_hold (i : Nat) : Fld := ⟨0x04170004 + i * 0x800, 16, 12⟩
def DRV_CUR_run (i : Nat) : Fld := ⟨0x04170004 + i * 0x800, 0, 12⟩
def DRV_HOLD_pullin (i : Nat) : Fld := ⟨0x04170008 + i * 0x800, 16, 16⟩
def DRV_HOLD_delay (i : Nat) : Fld := ⟨0x04170008 + i * 0x800, 0, 16⟩
def DRV_BAND_hyst (i : Nat) : Fld := ⟨0x0417000C + i * 0x800, 16, 16⟩
def DRV_BAND_vq (i : Nat) : Fld := ⟨0x0417000C + i * 0x800, 0, 16⟩
def DRV_FF_ke (i : Nat) : Fld := ⟨0x04170010 + i * 0x800, 0, 16⟩
def DRV_CTL_cntclr (i : Nat) : Fld := ⟨0x04170014 + i * 0x800, 3, 1⟩
def DRV_CTL_clear (i : Nat) : Fld := ⟨0x04170014 + i * 0x800, 2, 1⟩
def DRV_CTL_commit (i : Nat) : Fld := ⟨0x04170014 + i * 0x800, 1, 1⟩
def DRV_CTL_en (i : Nat) : Fld := ⟨0x04170014 + i * 0x800, 0, 1⟩
def DRV_STAT_imeas (i : Nat) : Fld := ⟨0x04170018 + i * 0x800, 16, 16⟩
def DRV_STAT_coil (i : Nat) : Fld := ⟨0x04170018 + i * 0x800, 4, 2⟩
def DRV_STAT_pending (i : Nat) : Fld := ⟨0x04170018 + i * 0x800, 3, 1⟩
def DRV_STAT_band (i : Nat) : Fld := ⟨0x04170018 + i * 0x800, 2, 1⟩
def DRV_STAT_forced (i : Nat) : Fld := ⟨0x04170018 + i * 0x800, 1, 1⟩
def DRV_STAT_enabled (i : Nat) : Fld := ⟨0x04170018 + i * 0x800, 0, 1⟩
def DRV_FAULT_twarn (i : Nat) : Fld := ⟨0x0417001C + i * 0x800, 4, 1⟩
def DRV_FAULT_overload (i : Nat) : Fld := ⟨0x0417001C + i * 0x800, 3, 1⟩
def DRV_FAULT_overtemp (i : Nat) : Fld := ⟨0x0417001C + i * 0x800, 2, 1⟩
def DRV_FAULT_open (i : Nat) : Fld := ⟨0x0417001C + i * 0x800, 1, 1⟩
def DRV_FAULT_ocp (i : Nat) : Fld := ⟨0x0417001C + i * 0x800, 0, 1⟩
def DRV_MEAS_l (i : Nat) : Fld := ⟨0x04170020 + i * 0x800, 16, 16⟩
def DRV_MEAS_r (i : Nat) : Fld := ⟨0x04170020 + i * 0x800, 0, 16⟩
def DRV_COILT_dip (i : Nat) : Fld := ⟨0x04170024 + i * 0x800, 16, 16⟩
def DRV_COILT_rise (i : Nat) : Fld := ⟨0x04170024 + i * 0x800, 0, 16⟩
def DRV_TEMP (i : Nat) : Fld := ⟨0x04170028 + i * 0x800, 0, 16⟩
def DRV_CNT_FAULT (i : Nat) : Fld := ⟨0x04170080 + i * 0x800, 0, 32⟩
def DRV_CNT_BANDSW (i : Nat) : Fld := ⟨0x04170084 + i * 0x800, 0, 32⟩
def HOST_CFG_maxwidth : Fld := ⟨0x04180000, 12, 2⟩
def HOST_CFG_maxgen : Fld := ⟨0x04180000, 8, 4⟩
def HOST_CFG_splitfn : Fld := ⟨0x04180000, 4, 1⟩
def HOST_CFG_paren : Fld := ⟨0x04180000, 2, 1⟩
def HOST_CFG_qspien : Fld := ⟨0x04180000, 1, 1⟩
def HOST_CFG_pcien : Fld := ⟨0x04180000, 0, 1⟩
def HOST_CTL_cntclr : Fld := ⟨0x04180004, 1, 1⟩
def HOST_CTL_commit : Fld := ⟨0x04180004, 0, 1⟩
def HOST_STAT_pending : Fld := ⟨0x04180008, 11, 1⟩
def HOST_STAT_bme : Fld := ⟨0x04180008, 9, 2⟩
def HOST_STAT_perst : Fld := ⟨0x04180008, 8, 1⟩
def HOST_STAT_width : Fld := ⟨0x04180008, 4, 2⟩
def HOST_STAT_gen : Fld := ⟨0x04180008, 1, 3⟩
def HOST_STAT_link : Fld := ⟨0x04180008, 0, 1⟩
def HOST_FENCE_f1 : Fld := ⟨0x0418000C, 1, 1⟩
def HOST_FENCE_f0 : Fld := ⟨0x0418000C, 0, 1⟩
def HOST_EVT_hsfault : Fld := ⟨0x04180010, 5, 1⟩
def HOST_EVT_qspiovr : Fld := ⟨0x04180010, 4, 1⟩
def HOST_EVT_flr : Fld := ⟨0x04180010, 3, 1⟩
def HOST_EVT_fence : Fld := ⟨0x04180010, 2, 1⟩
def HOST_EVT_linkup : Fld := ⟨0x04180010, 1, 1⟩
def HOST_EVT_linkdown : Fld := ⟨0x04180010, 0, 1⟩
def HOST_EVTEN_hsfault : Fld := ⟨0x04180014, 5, 1⟩
def HOST_EVTEN_qspiovr : Fld := ⟨0x04180014, 4, 1⟩
def HOST_EVTEN_flr : Fld := ⟨0x04180014, 3, 1⟩
def HOST_EVTEN_fence : Fld := ⟨0x04180014, 2, 1⟩
def HOST_EVTEN_linkup : Fld := ⟨0x04180014, 1, 1⟩
def HOST_EVTEN_linkdown : Fld := ⟨0x04180014, 0, 1⟩
def HOST_HSSTAT_vinma : Fld := ⟨0x04180018, 16, 16⟩
def HOST_HSSTAT_fault : Fld := ⟨0x04180018, 1, 1⟩
def HOST_HSSTAT_good : Fld := ⟨0x04180018, 0, 1⟩
def HOST_CNT_UR : Fld := ⟨0x04180080, 0, 32⟩
def HOST_CNT_FENCEREJ : Fld := ⟨0x04180084, 0, 32⟩
def HOST_CNT_IRQDROP : Fld := ⟨0x04180088, 0, 32⟩
def HOST_CNT_QSPIOVR : Fld := ⟨0x0418008C, 0, 32⟩
def HOST_CNT_QSPIBAD : Fld := ⟨0x04180090, 0, 32⟩
def HOST_CNT_PARDISC : Fld := ⟨0x04180094, 0, 32⟩
def HOST_CNT_LINKDOWN : Fld := ⟨0x04180098, 0, 32⟩
def HOST_IRQMAP_dest (i : Nat) : Fld := ⟨0x04180100 + i * 0x4, 6, 2⟩
def HOST_IRQMAP_vector (i : Nat) : Fld := ⟨0x04180100 + i * 0x4, 0, 6⟩
def DBG_CTL_halt1 : Fld := ⟨0x04190000, 2, 1⟩
def DBG_CTL_halt0 : Fld := ⟨0x04190000, 1, 1⟩
def DBG_CTL_attached : Fld := ⟨0x04190000, 0, 1⟩

end Sys2Proof.Machine.F
end

