-- ==== Sys2Proof/Machine/RegMap.lean ====
section
/-! DEFINITION. The register map of the station (R5, R25): every register of the chapters' register sections with its address, instances, view and
fields, and for each field its type (R6), its Cold and Warm values (R7) and its legal encodings (R8).
A Cold value the spec loads from the store, the factory region, a pad or the boot carries the value that notes/assumptions/4.md names. -/
namespace Sys2Proof.Machine

/-- The SYS block (R25), registers of chapter 18. -/
def rowsSYS : List RegRow := [
  reg 0x04000000 1 0x4 1 0x4 false [
    fld 16 16 .ro 0x7748 (.to 0x7748),
    fld 8 8 .ro 0x02 (.to 0x02),
    fld 0 1 .ro 0 .kept],
  reg 0x04000004 1 0x4 1 0x4 false [
    fld 0 32 .ro 0 .kept],
  reg 0x04000008 1 0x4 1 0x4 false [
    fld 0 32 .ro 0 .kept],
  reg 0x0400000C 1 0x4 1 0x4 false [
    fld 0 32 .ro 0 .kept],
  reg 0x04000010 1 0x4 1 0x4 false [
    fld 0 3 .ro 0 .kept],
  reg 0x04000014 1 0x4 1 0x4 false [
    fld 9 1 .ro 0 .kept,
    fld 8 1 .ro 0 .kept,
    fld 4 2 .ro 0 .kept,
    fld 1 1 .ro 0 .kept,
    fld 0 1 .ro 0 .kept],
  reg 0x04000020 1 0x4 1 0x4 false [
    fld 0 32 .ro 0 .kept],
  reg 0x04000024 1 0x4 1 0x4 false [
    fld 31 1 .w1c 0 .kept,
    fld 30 1 .ro 0 .kept,
    fld 29 1 .ro 0 .kept,
    fld 0 6 .ro 0 .kept],
  reg 0x04000030 1 0x4 1 0x4 false [
    fld 16 16 .ro 0 .kept,
    fld 0 16 .ro 0 .kept],
  reg 0x04000034 1 0x4 1 0x4 false [
    fld 0 32 .wo 0 (.to 0)]]

/-- The PWR block (R25), registers of chapter 18. -/
def rowsPWR : List RegRow := [
  reg 0x04010000 1 0x4 1 0x4 false [
    fld 3 1 .ro 0 (.to 0),
    fld 2 1 .ro 0 (.to 0),
    fld 1 1 .ro 0 (.to 0),
    fld 0 1 .ro 0 .kept],
  reg 0x04010004 1 0x4 1 0x4 false [
    fld 0 16 .ro 0 (.to 0)],
  reg 0x04010008 1 0x4 1 0x4 false [
    fld 0 16 .ro 0 (.to 0)],
  reg 0x0401000C 1 0x4 1 0x4 false [
    fld 0 16 .ro 0 (.to 0)],
  reg 0x04010010 6 0x4 1 0x4 false [
    fld 0 16 .ro 0 (.to 0)],
  reg 0x04010030 1 0x4 1 0x4 true [
    fld 1 1 .rw 1 .kept,
    fld 0 1 .rw 1 .kept],
  reg 0x04010040 1 0x4 1 0x4 false [
    fld 3 1 .w1c 0 .kept,
    fld 2 1 .w1c 0 .kept,
    fld 1 1 .w1c 0 .kept,
    fld 0 1 .w1c 0 .kept],
  reg 0x04010044 1 0x4 1 0x4 true [
    fld 3 1 .rw 0 .kept,
    fld 2 1 .rw 0 .kept,
    fld 1 1 .rw 0 .kept,
    fld 0 1 .rw 0 .kept],
  reg 0x04010080 4 0x4 1 0x4 false [
    fld 0 32 .ro 0 .kept]]

/-- The CLK block (R25), registers of chapter 18. -/
def rowsCLK : List RegRow := [
  reg 0x04020000 1 0x4 1 0x4 false [
    fld 4 8 .ro 0 (.to 0),
    fld 2 1 .ro 0 (.to 0),
    fld 1 1 .ro 0 .kept,
    fld 0 1 .ro 0 .kept],
  reg 0x04020004 1 0x4 1 0x4 false [
    fld 4 8 .w1c 0 .kept,
    fld 2 1 .w1c 0 .kept],
  reg 0x04020008 1 0x4 1 0x4 true [
    fld 4 8 .rw 0 .kept,
    fld 2 1 .rw 0 .kept],
  reg 0x04020010 8 0x4 1 0x4 false [
    fld 0 16 .ro 0 (.to 0)]]

/-- The SAFE block (R25), registers of chapter 19. -/
def rowsSAFE : List RegRow := [
  reg 0x04030000 1 0x4 1 0x4 false [
    fld 10 1 .ro 0 .kept,
    fld 9 1 .ro 0 .kept,
    fld 8 1 .ro 0 .kept,
    fld 2 1 .ro 0 (.to 0),
    fld 0 2 .ro 0 .kept],
  reg 0x04030004 1 0x4 1 0x4 false [
    fld 0 10 .ro 0x200 .kept],
  reg 0x04030008 1 0x4 1 0x4 false [
    fld 0 10 .ro 0x200 .kept],
  reg 0x0403000C 1 0x4 1 0x4 false [
    fld 0 4 .ro 0 .kept],
  reg 0x04030010 1 0x4 1 0x4 false [
    fld 0 32 .ro 0 .kept],
  reg 0x04030014 1 0x4 1 0x4 false [
    fld 0 32 .ro 0 .kept],
  reg 0x04030018 1 0x4 1 0x4 false [
    fld 0 1 .wo 0 (.to 0)],
  reg 0x0403001C 1 0x4 1 0x4 true [
    fld 0 1 .wo 0 (.to 0)],
  reg 0x04030020 1 0x4 1 0x4 true [
    fld 2 1 .w1s 0 .kept,
    fld 1 1 .w1s 0 .kept,
    fld 0 1 .w1s 0 .kept],
  reg 0x04030024 1 0x4 1 0x4 false [
    fld 3 1 .w1c 0 .kept,
    fld 2 1 .w1c 0 .kept,
    fld 1 1 .w1c 0 .kept,
    fld 0 1 .w1c 0 .kept],
  reg 0x04030028 1 0x4 1 0x4 true [
    fld 3 1 .rw 0 .kept,
    fld 2 1 .rw 0 .kept,
    fld 1 1 .rw 0 .kept,
    fld 0 1 .rw 0 .kept],
  reg 0x0403002C 1 0x4 1 0x4 false [
    fld 8 8 .ro 0 .kept,
    fld 0 1 .ro 0 .kept],
  reg 0x04030100 8 0x4 1 0x4 true [
    fldIn 0 2 .rwc 0 .kept 0 2,
    fldIn 2 2 .rwc 0 .kept 0 2,
    fldIn 4 2 .rwc 0 .kept 0 2,
    fldIn 6 2 .rwc 0 .kept 0 2,
    fldIn 8 2 .rwc 0 .kept 0 2,
    fldIn 10 2 .rwc 0 .kept 0 2,
    fldIn 12 2 .rwc 0 .kept 0 2,
    fldIn 14 2 .rwc 0 .kept 0 2],
  reg 0x04030120 1 0x4 1 0x4 true [
    fldIn 0 2 .rwc 0 .kept 0 1,
    fldIn 2 2 .rwc 0 .kept 0 1,
    fldIn 4 2 .rwc 0 .kept 0 1,
    fldIn 6 2 .rwc 0 .kept 0 1,
    fldIn 8 2 .rwc 0 .kept 0 1,
    fldIn 10 2 .rwc 0 .kept 0 1,
    fldIn 12 2 .rwc 0 .kept 0 1,
    fldIn 14 2 .rwc 0 .kept 0 1],
  reg 0x04030124 1 0x4 1 0x4 true [
    fld 24 8 .rwc 0 .kept,
    fld 16 2 .rwc 0 .kept,
    fld 0 12 .rwc 0 .kept]]

/-- The CMD block (R25), registers of chapter 02. -/
def rowsCMD : List RegRow := [
  reg 0x04040000 1 0x4 1 0x4 false [
    fld 16 7 .ro 0 (.to 0),
    fld 2 1 .ro 0 (.to 0),
    fld 1 1 .ro 0 (.to 0),
    fld 0 1 .ro 0 (.to 0)],
  reg 0x04040004 1 0x4 1 0x4 false [
    fld 0 8 .w1c 0 (.to 0)],
  reg 0x04040008 1 0x4 1 0x4 false [
    fld 0 32 .ro 0 .kept],
  reg 0x0404000C 1 0x4 1 0x4 false [
    fld 0 16 .ro 0 .kept],
  reg 0x04040010 1 0x4 1 0x4 false [
    fld 0 32 .ro 0 .kept],
  reg 0x04040014 1 0x4 1 0x4 false [
    fld 0 16 .ro 0 .kept],
  reg 0x04040100 8 0x40 1 0x4 true [
    fld 24 6 .rwc 15 .kept,
    fld 16 4 .rwc 0 .kept,
    fld 12 1 .rwc 0 .kept,
    fldIn 8 4 .rwc 4 .kept 4 12,
    fld 0 6 .rwc 1 .kept],
  reg 0x04040104 8 0x40 1 0x4 true [
    fld 8 24 .rwc 0 .kept],
  reg 0x04040108 8 0x40 1 0x4 true [
    fld 0 32 .rwc 0 .kept],
  reg 0x0404010C 8 0x40 1 0x4 true [
    fld 5 27 .rwc 0 .kept],
  reg 0x04040110 8 0x40 1 0x4 true [
    fld 0 32 .rwc 0 .kept],
  reg 0x04040114 8 0x40 1 0x4 true [
    fld 16 16 .rwc 0 .kept,
    fld 8 8 .rwc 0 .kept,
    fld 6 1 .rwc 0 .kept,
    fld 0 6 .rwc 0 .kept],
  reg 0x04040118 8 0x40 1 0x4 true [
    fld 2 1 .wo 0 (.to 0),
    fld 1 1 .wo 0 (.to 0),
    fld 0 1 .rw 0 .kept],
  reg 0x0404011C 8 0x40 1 0x4 false [
    fld 0 32 .ro 0 .kept],
  reg 0x04040120 8 0x40 1 0x4 false [
    fld 16 12 .ro 0 (.to 0),
    fld 0 12 .ro 0 (.to 0)],
  reg 0x04040124 8 0x40 1 0x4 false [
    fld 31 1 .ro 1 (.to 1),
    fld 16 12 .ro 0 (.to 0),
    fld 0 12 .ro 0 (.to 0)],
  reg 0x04040128 8 0x40 1 0x4 false [
    fld 16 7 .ro 0 (.to 0),
    fld 10 1 .w1c 0 (.to 0),
    fld 9 1 .w1c 0 (.to 0),
    fld 8 1 .w1c 0 (.to 0),
    fld 2 1 .ro 0 (.to 0),
    fld 1 1 .ro 1 (.to 1),
    fld 0 1 .ro 0 .kept]]

/-- The CALL block (R25), registers of chapter 16. -/
def rowsCALL : List RegRow := [
  reg 0x04050000 1 0x4 1 0x4 true [
    fld 0 1 .w1s 0 .kept],
  reg 0x04050010 2 0x4 1 0x4 false [
    fld 0 32 .ro 0 (.to 0)],
  reg 0x04050020 1 0x4 1 0x4 false [
    fld 0 32 .ro 0 .kept],
  reg 0x04050024 1 0x4 1 0x4 false [
    fld 31 1 .w1c 0 .kept,
    fld 30 1 .ro 0 .kept,
    fld 29 1 .ro 0 .kept,
    fld 0 6 .ro 0 .kept],
  reg 0x04050030 1 0x4 1 0x4 false [
    fld 1 1 .w1c 0 .kept,
    fld 0 1 .w1c 0 .kept],
  reg 0x04050034 1 0x4 1 0x4 true [
    fld 1 1 .rw 0 .kept,
    fld 0 1 .rw 0 .kept],
  reg 0x04050080 1 0x4 1 0x4 false [
    fld 0 32 .ro 0 .kept],
  reg 0x04050084 1 0x4 1 0x4 false [
    fld 0 32 .wo 0 (.to 0)],
  reg 0x04050100 64 0x4 1 0x4 true [
    fld 31 1 .rw 0 .kept,
    fld 30 1 .rw 0 .kept,
    fld 16 6 .rw 0 .kept,
    fld 8 6 .rw 0 .kept],
  reg 0x04051000 64 0x80 16 0x4 false [
    fld 0 32 .rw 0 (.to 0)],
  reg 0x04051040 64 0x80 1 0x4 false [
    fld 0 32 .rw 0 (.to 0)],
  reg 0x04051044 64 0x80 1 0x4 false [
    fld 31 1 .ro 0 (.to 0),
    fld 17 1 .wo 0 (.to 0),
    fld 16 1 .wo 0 (.to 0),
    fld 0 16 .rw 0 (.to 0)],
  reg 0x04051048 64 0x80 1 0x4 false [
    fld 31 1 .ro 0 (.to 0),
    fld 16 8 .ro 0 (.to 0),
    fld 8 8 .ro 0 (.to 0)],
  reg 0x0405104C 64 0x80 1 0x4 true [
    fld 8 1 .rw 0 .kept,
    fld 0 6 .rw 0 .kept]]

/-- The VIEW block (R25), registers of chapter 16. -/
def rowsVIEW : List RegRow := [
  reg 0x04060000 1 0x4 1 0x4 true [
    fld 0 1 .w1s 0 .kept],
  reg 0x04060010 1 0x4 1 0x4 true [
    fld 0 32 .ro 0 .kept],
  reg 0x04060014 1 0x4 1 0x4 true [
    fld 31 1 .w1c 0 .kept,
    fld 30 1 .ro 0 .kept,
    fld 29 1 .ro 0 .kept,
    fld 28 1 .ro 0 .kept,
    fld 0 6 .ro 0 .kept],
  reg 0x04060020 1 0x4 1 0x4 false [
    fld 0 1 .w1c 0 .kept],
  reg 0x04060024 1 0x4 1 0x4 true [
    fld 0 1 .rw 0 .kept],
  reg 0x04060080 1 0x4 1 0x4 true [
    fld 0 32 .ro 0 .kept],
  reg 0x04060100 64 0x4 1 0x4 true [
    fld 31 1 .ro 0 .kept,
    fld 1 1 .rw 0 .kept,
    fld 0 1 .rw 0 .kept]]

/-- The MEM block (R25), registers of chapter 15. -/
def rowsMEM : List RegRow := [
  reg 0x04070000 1 0x4 1 0x4 true [
    fld 1 1 .wo 0 (.to 0),
    fld 0 1 .wo 0 (.to 0)],
  reg 0x04070010 4 0x4 1 0x4 false [
    fld 0 32 .ro 0 .kept],
  reg 0x04070020 4 0x4 1 0x4 true [
    fld 31 1 .rw 1 .kept,
    fldIn 0 16 .rw 64 .kept 16 65535],
  reg 0x04070030 4 0x8 1 0x4 false [
    fld 0 32 .ro 0 .kept],
  reg 0x04070034 4 0x8 1 0x4 false [
    fld 0 32 .ro 0 .kept],
  reg 0x04070050 1 0x4 1 0x4 false [
    fld 5 1 .w1c 0 .kept,
    fld 4 1 .w1c 0 .kept,
    fld 3 1 .w1c 0 .kept,
    fld 2 1 .w1c 0 .kept,
    fld 1 1 .w1c 0 .kept,
    fld 0 1 .w1c 0 .kept],
  reg 0x04070054 1 0x4 1 0x4 true [
    fld 5 1 .rw 0 .kept,
    fld 4 1 .rw 0 .kept,
    fld 3 1 .rw 0 .kept,
    fld 2 1 .rw 0 .kept,
    fld 1 1 .rw 0 .kept,
    fld 0 1 .rw 0 .kept],
  reg 0x04070060 8 0x4 1 0x4 false [
    fld 0 32 .ro 0 .kept],
  reg 0x04070080 1 0x4 1 0x4 false [
    fld 8 1 .w1c 0 .kept,
    fld 0 5 .ro 0 .kept],
  reg 0x04070100 1 0x4 1 0x4 false [
    fld 0 32 .ro 0 .kept],
  reg 0x04070104 1 0x4 1 0x4 false [
    fld 0 32 .ro 0 .kept],
  reg 0x04070108 1 0x4 1 0x4 false [
    fld 0 32 .ro 0 .kept],
  reg 0x0407010C 1 0x4 1 0x4 false [
    fld 0 32 .ro 0 .kept],
  reg 0x04070110 1 0x4 1 0x4 false [
    fld 0 32 .ro 0 .kept],
  reg 0x04070114 1 0x4 1 0x4 false [
    fld 0 32 .ro 0 .kept],
  reg 0x04070118 1 0x4 1 0x4 false [
    fld 0 32 .ro 0 .kept],
  reg 0x0407011C 1 0x4 1 0x4 false [
    fld 0 32 .ro 0 .kept],
  reg 0x04070120 1 0x4 1 0x4 false [
    fld 0 32 .ro 0 .kept],
  reg 0x04070124 1 0x4 1 0x4 false [
    fld 0 32 .ro 0 .kept],
  reg 0x04070200 8 0x20 1 0x4 false [
    fld 8 6 .rw 0 .kept,
    fld 1 1 .wo 0 (.to 0),
    fld 0 1 .wo 0 (.to 0)],
  reg 0x04070204 8 0x20 1 0x4 false [
    fld 4 28 .rw 0 (.to 0)],
  reg 0x04070208 8 0x20 1 0x4 false [
    fld 8 3 .ro 0 (.to 0),
    fld 2 1 .w1c 0 (.to 0),
    fld 1 1 .w1c 0 (.to 0),
    fld 0 1 .ro 0 (.to 0)],
  reg 0x0407020C 8 0x20 1 0x4 false [
    fld 0 32 .ro 0 (.to 0)],
  reg 0x04070400 16 0x10 4 0x4 false [
    fld 0 32 .ro 0 .kept]]

/-- The STORE block (R25), registers of chapter 15. -/
def rowsSTORE : List RegRow := [
  reg 0x04080000 1 0x4 1 0x4 false [
    fld 4 1 .ro 0 (.to 0),
    fld 3 1 .ro 0 .kept,
    fld 2 1 .ro 0 .kept,
    fld 1 1 .ro 0 .kept,
    fld 0 1 .ro 0 .kept],
  reg 0x04080004 1 0x4 1 0x4 false [
    fld 0 32 .ro 0 .kept],
  reg 0x04080008 1 0x4 1 0x4 false [
    fld 0 32 .ro 0 .kept],
  reg 0x0408000C 1 0x4 1 0x4 false [
    fld 0 21 .ro 0 .kept],
  reg 0x04080010 1 0x4 1 0x4 false [
    fld 2 1 .w1c 0 .kept,
    fld 1 1 .w1c 0 .kept,
    fld 0 1 .w1c 0 .kept],
  reg 0x04080014 1 0x4 1 0x4 true [
    fld 2 1 .rw 0 .kept,
    fld 1 1 .rw 0 .kept,
    fld 0 1 .rw 0 .kept]]

/-- The TIME block (R25), registers of chapter 04. -/
def rowsTIME : List RegRow := [
  reg 0x04090000 1 0x4 1 0x4 false [
    fld 14 2 .ro 0 .kept,
    fld 12 2 .ro 0 .kept,
    fld 11 1 .ro 0 .kept,
    fld 10 1 .ro 0 .kept,
    fld 9 1 .ro 0 .kept,
    fld 8 1 .ro 0 .kept,
    fld 7 1 .ro 0 .kept,
    fld 0 3 .ro 0 .kept],
  reg 0x04090004 1 0x4 1 0x4 true [
    fldIn 8 8 .rw 0 .kept 0 254,
    fld 0 1 .rw 0 .kept],
  reg 0x04090008 1 0x4 1 0x4 true [
    fldIn 8 8 .rw 20 .kept 1 255,
    fldIn 0 8 .rw 100 .kept 1 255],
  reg 0x0409000C 1 0x4 1 0x4 false [
    fld 16 12 .ro 0 .kept,
    fld 0 12 .ro 0 .kept],
  reg 0x04090010 1 0x4 1 0x4 false [
    fld 0 12 .ro 0 .kept],
  reg 0x04090014 1 0x4 1 0x4 true [
    fldIn 16 8 .rw 10 .kept 1 255,
    fldIn 8 8 .rw 10 .kept 1 255,
    fld 4 3 .rw 2 .kept,
    fld 1 3 .rw 3 .kept,
    fld 0 1 .rw 1 .kept],
  reg 0x04090018 1 0x4 1 0x4 true [
    fldIn 8 8 .rw 2 .kept 1 255,
    fldIn 0 3 .rw 4 .kept 0 6],
  reg 0x0409001C 1 0x4 1 0x4 false [
    fld 0 16 .ro 0 .kept],
  reg 0x04090020 1 0x4 1 0x4 false [
    fld 1 1 .wo 0 (.to 0),
    fld 0 1 .wo 0 (.to 0)],
  reg 0x04090024 1 0x4 1 0x4 false [
    fld 0 32 .ro 0 (.to 0)],
  reg 0x04090028 1 0x4 1 0x4 false [
    fld 0 32 .ro 0 (.to 0)],
  reg 0x0409002C 1 0x4 1 0x4 false [
    fld 0 32 .ro 0 (.to 0)],
  reg 0x04090030 1 0x4 1 0x4 false [
    fld 0 32 .ro 0 (.to 0)],
  reg 0x04090034 1 0x4 1 0x4 false [
    fld 0 30 .ro 0 (.to 0)],
  reg 0x04090038 1 0x4 1 0x4 false [
    fld 0 16 .ro 0 (.to 0)],
  reg 0x04090040 8 0x4 1 0x4 false [
    fld 0 32 .ro 0 .kept],
  reg 0x04091000 32 0x20 8 0x4 false [
    fld 0 32 .ro 0 .kept],
  reg 0x04090060 1 0x4 1 0x4 false [
    fld 0 32 .ro 0 .kept],
  reg 0x04090064 2 0x4 1 0x4 false [
    fld 0 32 .ro 0 .kept],
  reg 0x0409006C 2 0x4 1 0x4 true [
    fld 0 32 .ro 0 .kept],
  reg 0x04090074 1 0x4 1 0x4 false [
    fld 10 1 .w1c 0 .kept,
    fld 9 1 .w1c 0 .kept,
    fld 8 1 .w1c 0 .kept,
    fld 7 1 .w1c 0 .kept,
    fld 6 1 .w1c 0 .kept,
    fld 5 1 .w1c 0 .kept,
    fld 4 1 .w1c 0 .kept,
    fld 3 1 .w1c 0 .kept,
    fld 2 1 .w1c 0 .kept,
    fld 1 1 .w1c 0 .kept,
    fld 0 1 .w1c 0 .kept],
  reg 0x04090078 1 0x4 1 0x4 true [
    fld 10 1 .rw 0 .kept,
    fld 9 1 .rw 0 .kept,
    fld 8 1 .rw 0 .kept,
    fld 7 1 .rw 0 .kept,
    fld 6 1 .rw 0 .kept,
    fld 5 1 .rw 0 .kept,
    fld 4 1 .rw 0 .kept,
    fld 3 1 .rw 0 .kept,
    fld 2 1 .rw 0 .kept,
    fld 1 1 .rw 0 .kept,
    fld 0 1 .rw 0 .kept],
  reg 0x04090080 1 0x4 1 0x4 false [
    fld 0 32 .ro 0 .kept],
  reg 0x04090084 1 0x4 1 0x4 false [
    fld 0 32 .ro 0 .kept],
  reg 0x04090088 1 0x4 1 0x4 false [
    fld 0 32 .ro 0 .kept],
  reg 0x0409008C 1 0x4 1 0x4 false [
    fld 0 32 .ro 0 .kept],
  reg 0x04090090 1 0x4 1 0x4 false [
    fld 0 32 .ro 0 .kept],
  reg 0x04090100 8 0x20 1 0x4 false [
    fld 31 1 .wo 0 (.to 0),
    fld 5 1 .w1c 0 .kept,
    fld 4 1 .w1c 0 .kept,
    fld 3 1 .rwc 0 .kept,
    fld 2 1 .rwc 0 .kept,
    fld 1 1 .rwc 0 .kept,
    fld 0 1 .rwc 0 .kept],
  reg 0x04090104 8 0x20 1 0x4 false [
    fld 0 32 .rwc 0 .kept],
  reg 0x04090108 8 0x20 1 0x4 false [
    fld 0 32 .rwc 0 .kept],
  reg 0x0409010C 8 0x20 1 0x4 false [
    fld 0 30 .rwc 0 .kept],
  reg 0x04090110 8 0x20 1 0x4 false [
    fld 0 16 .rwc 0 .kept],
  reg 0x04090114 8 0x20 1 0x4 false [
    fld 0 32 .rwc 0 .kept],
  reg 0x04090118 8 0x20 1 0x4 false [
    fldIn 16 16 .rwc 0 .kept 1 65535,
    fld 0 16 .rwc 0 .kept],
  reg 0x0409011C 8 0x20 1 0x4 false [
    fld 0 32 .rwc 0 .kept],
  reg 0x04090200 8 0x10 1 0x4 false [
    fld 9 3 .ro 0 .kept,
    fld 8 1 .w1c 0 .kept,
    fldIn 1 2 .rw 0 .kept 1 3,
    fld 0 1 .rw 0 .kept],
  reg 0x04090204 8 0x10 1 0x4 false [
    fld 0 32 .ro 0 (.to 0)],
  reg 0x04090208 8 0x10 1 0x4 false [
    fld 0 32 .ro 0 (.to 0)],
  reg 0x0409020C 8 0x10 1 0x4 false [
    fld 0 32 .ro 0 (.to 0)],
  reg 0x04090300 6 0x10 4 0x4 false [
    fld 0 32 .ro 0 (.to 0)],
  reg 0x04090360 1 0x4 1 0x4 false [
    fld 16 6 .ro 0 (.to 0),
    fld 0 6 .w1c 0 .kept]]

/-- The RING block (R25), registers of chapter 03. -/
def rowsRING : List RegRow := [
  reg 0x040A0000 1 0x4 1 0x4 false [
    fld 16 12 .ro 0 .kept,
    fld 0 8 .ro 0xFF .kept],
  reg 0x040A0004 1 0x4 1 0x4 false [
    fld 0 32 .ro 0 .kept],
  reg 0x040A0008 1 0x4 1 0x4 false [
    fld 0 32 .ro 0 .kept],
  reg 0x040A0010 1 0x4 1 0x4 true [
    fld 12 2 .rwc 0 .kept,
    fldIn 8 2 .rwc 0 .kept 0 1,
    fld 5 1 .rwc 0 .kept,
    fld 4 1 .rwc 0 .kept,
    fldIn 0 2 .rwc 0 .kept 0 2],
  reg 0x040A0014 1 0x4 1 0x4 true [
    fld 2 1 .wo 0 (.to 0),
    fld 1 1 .wo 0 (.to 0),
    fld 0 1 .wo 0 (.to 0)],
  reg 0x040A0018 1 0x4 1 0x4 false [
    fld 12 1 .ro 0 (.to 0),
    fld 11 1 .ro 0 .kept,
    fld 10 1 .ro 0 .kept,
    fld 9 1 .ro 0 .kept,
    fld 8 1 .ro 0 .kept,
    fld 7 1 .ro 0 .kept,
    fld 6 1 .ro 0 .kept,
    fld 5 1 .ro 0 .kept,
    fld 4 1 .ro 0 .kept,
    fld 0 3 .ro 0 .kept],
  reg 0x040A0020 1 0x4 1 0x4 true [
    fldIn 0 26 .rwc 20000 .kept 2000 40000000],
  reg 0x040A0024 1 0x4 1 0x4 true [
    fld 0 12 .rwc 4094 .kept],
  reg 0x040A0028 1 0x4 1 0x4 false [
    fld 16 16 .ro 0 .kept,
    fld 0 16 .ro 0 .kept],
  reg 0x040A0030 1 0x4 1 0x4 false [
    fld 0 32 .ro 0 .kept],
  reg 0x040A0034 1 0x4 1 0x4 false [
    fld 0 16 .ro 0 .kept],
  reg 0x040A0038 1 0x4 1 0x4 false [
    fld 16 1 .ro 0 .kept,
    fld 0 16 .ro 0 (.to 0)],
  reg 0x040A003C 1 0x4 1 0x4 false [
    fld 0 1 .ro 0 .kept],
  reg 0x040A0040 1 0x4 1 0x4 true [
    fldIn 0 6 .rw 2 .kept 1 63],
  reg 0x040A0044 2 0x4 1 0x4 true [
    fld 16 16 .rw 0 .kept,
    fld 0 16 .rw 0 .kept],
  reg 0x040A004C 1 0x4 1 0x4 true [
    fldIn 0 8 .rw 4 .kept 2 255],
  reg 0x040A0050 1 0x4 1 0x4 false [
    fld 0 16 .wo 0 (.to 0)],
  reg 0x040A0054 1 0x4 1 0x4 false [
    fld 8 1 .w1c 0 (.to 0),
    fld 7 1 .w1c 0 .kept,
    fld 6 1 .w1c 0 .kept,
    fld 5 1 .w1c 0 (.to 0),
    fld 4 1 .w1c 0 (.to 0),
    fld 3 1 .w1c 0 .kept,
    fld 2 1 .w1c 0 .kept,
    fld 1 1 .w1c 0 .kept,
    fld 0 1 .w1c 0 .kept],
  reg 0x040A0058 1 0x4 1 0x4 true [
    fld 8 1 .rw 0 .kept,
    fld 7 1 .rw 0 .kept,
    fld 6 1 .rw 0 .kept,
    fld 5 1 .rw 0 .kept,
    fld 4 1 .rw 0 .kept,
    fld 3 1 .rw 0 .kept,
    fld 2 1 .rw 0 .kept,
    fld 1 1 .rw 0 .kept,
    fld 0 1 .rw 0 .kept],
  reg 0x040A0080 1 0x4 1 0x4 false [
    fld 0 32 .ro 0 .kept],
  reg 0x040A0084 2 0x4 1 0x4 false [
    fld 0 32 .ro 0 .kept],
  reg 0x040A008C 2 0x4 1 0x4 false [
    fld 0 32 .ro 0 .kept],
  reg 0x040A0094 2 0x4 1 0x4 false [
    fld 0 32 .ro 0 .kept],
  reg 0x040A009C 1 0x4 1 0x4 false [
    fld 0 32 .ro 0 .kept],
  reg 0x040A00A0 1 0x4 1 0x4 false [
    fld 0 32 .ro 0 .kept],
  reg 0x040A00A4 1 0x4 1 0x4 false [
    fld 0 32 .ro 0 .kept],
  reg 0x040A00A8 1 0x4 1 0x4 false [
    fld 0 32 .ro 0 .kept],
  reg 0x040A00AC 1 0x4 1 0x4 false [
    fld 0 32 .ro 0 .kept],
  reg 0x040A00B0 1 0x4 1 0x4 false [
    fld 0 32 .ro 0 .kept],
  reg 0x040A00B4 1 0x4 1 0x4 false [
    fld 0 32 .ro 0 .kept],
  reg 0x040A00B8 1 0x4 1 0x4 false [
    fld 0 32 .ro 0 .kept],
  reg 0x040A00BC 1 0x4 1 0x4 false [
    fld 0 32 .ro 0 .kept],
  reg 0x040A00C0 1 0x4 1 0x4 false [
    fld 0 32 .ro 0 .kept],
  reg 0x040A00C4 1 0x4 1 0x4 false [
    fld 0 32 .ro 0 .kept],
  reg 0x040A00C8 1 0x4 1 0x4 false [
    fld 0 32 .ro 0 .kept],
  reg 0x040A00CC 1 0x4 1 0x4 false [
    fld 0 32 .ro 0 .kept],
  reg 0x040A00D0 1 0x4 1 0x4 false [
    fld 0 32 .ro 0 .kept],
  reg 0x040A00D4 1 0x4 1 0x4 false [
    fld 0 32 .ro 0 .kept],
  reg 0x040A00D8 1 0x4 1 0x4 false [
    fld 0 32 .ro 0 .kept],
  reg 0x040A00DC 1 0x4 1 0x4 false [
    fld 0 32 .ro 0 .kept],
  reg 0x040A00E0 1 0x4 1 0x4 false [
    fld 0 32 .ro 0 .kept],
  reg 0x040A00E4 1 0x4 1 0x4 false [
    fld 0 32 .ro 0 .kept],
  reg 0x040A00E8 1 0x4 1 0x4 false [
    fld 0 32 .ro 0 .kept],
  reg 0x040A0400 2 0x80 8 0x10 true [
    fld 0 32 .rwc 0 .kept],
  reg 0x040A0404 2 0x80 8 0x10 true [
    fldIn 16 16 .rwc 0 .kept 4 2048,
    fldIn 0 16 .rwc 0 .kept 1 65535],
  reg 0x040A0408 2 0x80 8 0x10 true [
    fld 0 18 .rwc 0 .kept],
  reg 0x040A040C 2 0x80 8 0x10 true [
    fld 8 7 .rwc 0 .kept,
    fld 4 3 .rwc 0 .kept,
    fld 1 1 .rwc 0 .kept,
    fld 0 1 .rwc 0 .kept],
  reg 0x040A0500 2 0x20 4 0x8 true [
    fld 0 32 .rwc 0 .kept],
  reg 0x040A0504 2 0x20 4 0x8 true [
    fld 0 32 .rwc 0 .kept],
  reg 0x040A0600 16 0x10 1 0x4 true [
    fld 31 1 .rwc 0 .kept,
    fld 0 26 .rwc 0 .kept],
  reg 0x040A0604 16 0x10 1 0x4 true [
    fld 0 32 .rwc 0 .kept],
  reg 0x040A0608 16 0x10 1 0x4 true [
    fld 24 7 .rwc 0 .kept,
    fld 16 6 .rwc 0 .kept,
    fld 13 3 .rwc 0 .kept,
    fld 9 1 .rwc 0 .kept,
    fld 8 1 .rwc 0 .kept,
    fld 0 8 .rwc 0 .kept],
  reg 0x040A0700 1 0x4 1 0x4 true [
    fldIn 16 16 .rw 1000 .kept 1 65535,
    fldIn 8 8 .rw 4 .kept 1 255,
    fld 0 1 .rwc 0 .kept],
  reg 0x040A0704 1 0x4 1 0x4 false [
    fld 28 3 .ro 0 .kept,
    fld 24 3 .ro 0 .kept,
    fld 16 4 .ro 0 .kept,
    fld 8 5 .ro 0 .kept,
    fld 3 1 .ro 0 .kept,
    fld 2 1 .ro 0 (.to 0),
    fld 1 1 .ro 0 .kept,
    fld 0 1 .ro 0 .kept],
  reg 0x040A0708 1 0x4 1 0x4 false [
    fld 7 1 .w1c 0 .kept,
    fld 6 1 .w1c 0 .kept,
    fld 5 1 .w1c 0 .kept,
    fld 4 1 .w1c 0 .kept,
    fld 3 1 .w1c 0 .kept,
    fld 2 1 .w1c 0 .kept,
    fld 1 1 .w1c 0 .kept,
    fld 0 1 .w1c 0 .kept],
  reg 0x040A070C 1 0x4 1 0x4 true [
    fld 7 1 .rw 0 .kept,
    fld 6 1 .rw 0 .kept,
    fld 5 1 .rw 0 .kept,
    fld 4 1 .rw 0 .kept,
    fld 3 1 .rw 0 .kept,
    fld 2 1 .rw 0 .kept,
    fld 1 1 .rw 0 .kept,
    fld 0 1 .rw 0 .kept],
  reg 0x040A0710 1 0x4 1 0x4 false [
    fld 31 1 .ro 0 .kept,
    fld 30 1 .ro 0 .kept,
    fld 21 3 .ro 0 .kept,
    fld 12 1 .ro 0 .kept,
    fld 0 12 .ro 0 .kept],
  reg 0x040A0714 1 0x4 1 0x4 false [
    fld 0 32 .ro 0 .kept],
  reg 0x040A0800 64 0x8 2 0x4 false [
    fld 0 32 .ro 0 .kept],
  reg 0x040A0A00 1 0x4 1 0x4 false [
    fld 8 1 .ro 0 .kept,
    fld 0 7 .ro 0 .kept],
  reg 0x040A1000 128 0x4 1 0x4 false [
    fld 0 32 .ro 0 .kept]]

/-- The MRSH block (R25), registers of chapter 05. -/
def rowsMRSH : List RegRow := [
  reg 0x040B0000 1 0x4 1 0x4 false [
    fld 16 8 .ro 0 .kept,
    fld 8 2 .ro 0 .kept,
    fld 3 1 .ro 0 (.to 0),
    fld 0 3 .ro 0 .kept],
  reg 0x040B0004 1 0x4 1 0x4 true [
    fldIn 24 8 .rwc 8 .kept 1 255,
    fldIn 16 8 .rwc 3 .kept 1 255,
    fldIn 0 7 .rwc 1 .kept 1 64],
  reg 0x040B0008 1 0x4 1 0x4 true [
    fld 1 1 .wo 0 (.to 0),
    fld 0 1 .wo 0 (.to 0)],
  reg 0x040B000C 1 0x4 1 0x4 true [
    fldIn 0 2 .rw 0 .kept 0 1],
  reg 0x040B0010 1 0x4 1 0x4 false [
    fld 5 1 .w1c 0 .kept,
    fld 4 1 .w1c 0 .kept,
    fld 3 1 .w1c 0 .kept,
    fld 2 1 .w1c 0 .kept,
    fld 1 1 .w1c 0 .kept,
    fld 0 1 .w1c 0 .kept],
  reg 0x040B0014 1 0x4 1 0x4 true [
    fld 5 1 .rw 0 .kept,
    fld 4 1 .rw 0 .kept,
    fld 3 1 .rw 0 .kept,
    fld 2 1 .rw 0 .kept,
    fld 1 1 .rw 0 .kept,
    fld 0 1 .rw 0 .kept],
  reg 0x040B0020 2 0x4 1 0x4 false [
    fld 0 32 .ro 0 .kept],
  reg 0x040B0028 2 0x4 1 0x4 false [
    fld 0 32 .ro 0 .kept],
  reg 0x040B0030 1 0x4 1 0x4 true [
    fld 16 12 .rw 0 .kept,
    fld 0 8 .rw 0 .kept],
  reg 0x040B0080 1 0x4 1 0x4 false [
    fld 0 32 .ro 0 .kept],
  reg 0x040B0084 1 0x4 1 0x4 false [
    fld 0 32 .ro 0 .kept],
  reg 0x040B0088 1 0x4 1 0x4 false [
    fld 0 32 .ro 0 .kept],
  reg 0x040B008C 1 0x4 1 0x4 false [
    fld 0 32 .ro 0 .kept],
  reg 0x040B0090 1 0x4 1 0x4 false [
    fld 0 32 .ro 0 .kept],
  reg 0x040B0100 16 0x10 1 0x4 true [
    fld 31 1 .rwc 0 .kept,
    fld 30 1 .rwc 0 .kept,
    fld 0 12 .rwc 0 .kept],
  reg 0x040B0104 16 0x10 1 0x4 true [
    fld 0 32 .rwc 0 .kept],
  reg 0x040B0108 16 0x10 1 0x4 true [
    fld 0 32 .ro 0 (.to 0)],
  reg 0x040B010C 16 0x10 1 0x4 true [
    fld 0 32 .ro 0 (.to 0)],
  reg 0x040B0200 1 0x4 1 0x4 false [
    fld 0 32 .ro 0 (.to 0)],
  reg 0x040B0204 1 0x4 1 0x4 false [
    fld 0 32 .ro 0 (.to 0)],
  reg 0x040B0208 1 0x4 1 0x4 false [
    fld 8 5 .ro 0 (.to 0),
    fld 0 1 .w1c 0 .kept]]

/-- The FAB block (R25), registers of chapter 07. -/
def rowsFAB : List RegRow := [
  reg 0x040C0000 1 0x4 1 0x4 true [
    fld 16 1 .wo 0 (.to 0),
    fld 0 16 .wo 0 (.to 0)],
  reg 0x040C0004 1 0x4 1 0x4 false [
    fld 16 16 .ro 0 (.to 0),
    fld 0 7 .ro 0 (.to 0)],
  reg 0x040C0008 1 0x4 1 0x4 true [
    fld 2 1 .rw 0 .kept,
    fld 1 1 .rw 0 .kept,
    fld 0 1 .rw 0 .kept],
  reg 0x040C000C 1 0x4 1 0x4 true [
    fldIn 0 16 .rw 10 .kept 1 65535],
  reg 0x040C0020 8 0x8 1 0x4 true [
    fld 2 30 .rw 0 .kept],
  reg 0x040C0024 8 0x8 1 0x4 true [
    fld 2 30 .rw 0 .kept],
  reg 0x040C0060 1 0x4 1 0x4 false [
    fld 8 1 .w1c 0 .kept,
    fld 0 6 .ro 0 .kept],
  reg 0x040C0064 1 0x4 1 0x4 false [
    fld 8 1 .w1c 0 .kept,
    fld 0 6 .ro 0 .kept],
  reg 0x040C0068 1 0x4 1 0x4 false [
    fld 3 1 .w1c 0 .kept,
    fld 2 1 .w1c 0 .kept,
    fld 1 1 .w1c 0 .kept,
    fld 0 1 .w1c 0 .kept],
  reg 0x040C006C 1 0x4 1 0x4 true [
    fld 3 1 .rw 0 .kept,
    fld 2 1 .rw 0 .kept,
    fld 1 1 .rw 0 .kept,
    fld 0 1 .rw 0 .kept],
  reg 0x040C0080 1 0x4 1 0x4 false [
    fld 0 32 .ro 0 .kept],
  reg 0x040C0084 1 0x4 1 0x4 false [
    fld 0 32 .ro 0 .kept],
  reg 0x040C0088 1 0x4 1 0x4 false [
    fld 0 32 .ro 0 .kept],
  reg 0x040C008C 1 0x4 1 0x4 false [
    fld 0 32 .ro 0 .kept],
  reg 0x040C0090 1 0x4 1 0x4 false [
    fld 0 32 .ro 0 .kept],
  reg 0x040C0094 1 0x4 1 0x4 false [
    fld 0 32 .ro 0 .kept],
  reg 0x040C0098 1 0x4 1 0x4 false [
    fld 0 32 .ro 0 .kept],
  reg 0x040C009C 1 0x4 1 0x4 false [
    fld 0 32 .ro 0 .kept],
  reg 0x040C0100 16 0x10 1 0x4 true [
    fld 31 1 .rwc 0 .kept,
    fld 30 1 .rwc 0 .kept,
    fld 29 1 .rwc 0 .kept,
    fld 28 1 .rwc 0 .kept,
    fldIn 0 14 .rwc 0 .kept 1 10000],
  reg 0x040C0104 16 0x10 1 0x4 true [
    fld 24 8 .rwc 0 .kept,
    fld 12 12 .rwc 0 .kept,
    fld 0 8 .rwc 0 .kept],
  reg 0x040C0108 16 0x10 1 0x4 true [
    fld 16 13 .rwc 0 .kept,
    fld 0 12 .rwc 0 .kept],
  reg 0x040C010C 16 0x10 1 0x4 true [
    fld 0 7 .ro 0 (.to 0)],
  reg 0x040C0400 32 0x10 4 0x4 false [
    fld 0 32 .ro 0 .kept],
  reg 0x040C0600 16 0x10 4 0x4 false [
    fld 0 32 .ro 0 .kept]]

/-- The GATE block (R25), registers of chapter 07. -/
def rowsGATE : List RegRow := [
  reg 0x040D0000 1 0x4 1 0x4 true [
    fld 2 1 .wo 0 (.to 0),
    fld 1 1 .wo 0 (.to 0),
    fld 0 1 .rw 0 .kept],
  reg 0x040D0004 1 0x4 1 0x4 false [
    fld 16 11 .ro 0 .kept,
    fld 0 13 .ro 0 .kept],
  reg 0x040D0008 1 0x4 1 0x4 true [
    fld 31 1 .rw 0 .kept,
    fldIn 16 12 .rw 1000 .kept 1 4095,
    fldIn 0 16 .rw 1000 .kept 1 65535],
  reg 0x040D000C 1 0x4 1 0x4 false [
    fld 0 7 .ro 0 (.to 0)],
  reg 0x040D0010 1 0x4 1 0x4 false [
    fld 8 1 .w1c 0 .kept,
    fld 0 6 .ro 0 .kept],
  reg 0x040D0020 3 0x10 1 0x4 true [
    fld 8 24 .rw 0 .kept],
  reg 0x040D0024 3 0x10 1 0x4 false [
    fld 16 12 .ro 0 (.to 0),
    fld 0 12 .rw 0 (.to 0)],
  reg 0x040D0028 3 0x10 1 0x4 true [
    fld 16 1 .rw 0 .kept,
    fld 8 8 .rw 0 .kept,
    fldIn 0 4 .rw 4 .kept 4 12],
  reg 0x040D0080 1 0x4 1 0x4 false [
    fld 0 32 .ro 0 .kept],
  reg 0x040D0084 1 0x4 1 0x4 false [
    fld 0 32 .ro 0 .kept],
  reg 0x040D0088 1 0x4 1 0x4 false [
    fld 0 32 .ro 0 .kept],
  reg 0x040D008C 1 0x4 1 0x4 false [
    fld 0 32 .ro 0 .kept],
  reg 0x040D0090 1 0x4 1 0x4 false [
    fld 0 32 .ro 0 .kept],
  reg 0x040D0094 1 0x4 1 0x4 false [
    fld 0 32 .ro 0 .kept],
  reg 0x040D0100 64 0x4 1 0x4 true [
    fld 0 32 .rw 0 .kept],
  reg 0x040D0200 8 0x4 1 0x4 false [
    fld 0 32 .ro 0 (.to 0)],
  reg 0x040D0400 32 0x10 4 0x4 false [
    fld 0 32 .ro 0 .kept]]

/-- The SW block (R25), registers of chapter 13. -/
def rowsSW : List RegRow := [
  reg 0x040E0000 1 0x4 1 0x4 true [
    fld 1 1 .wo 0 (.to 0),
    fld 0 1 .wo 0 (.to 0)],
  reg 0x040E0004 1 0x4 1 0x4 false [
    fld 16 1 .ro 0 (.to 0),
    fld 0 13 .ro 6144 (.to 6144)],
  reg 0x040E0008 1 0x4 1 0x4 true [
    fldIn 0 16 .rw 300 .kept 1 65535],
  reg 0x040E000C 1 0x4 1 0x4 true [
    fld 8 8 .rw 0x7C .kept,
    fld 0 8 .rw 0x3C .kept],
  reg 0x040E0010 1 0x4 1 0x4 true [
    fld 31 1 .rw 0 .kept,
    fld 16 8 .rw 0 .kept,
    fld 8 8 .rw 0 .kept,
    fld 0 3 .rw 0 .kept],
  reg 0x040E0014 1 0x4 1 0x4 true [
    fldIn 0 6 .rw 1 .kept 1 4],
  reg 0x040E0040 8 0x4 1 0x4 true [
    fld 0 13 .rwc 6144 .kept],
  reg 0x040E0080 1 0x4 1 0x4 false [
    fld 0 32 .ro 0 .kept],
  reg 0x040E0084 1 0x4 1 0x4 false [
    fld 0 32 .ro 0 .kept],
  reg 0x040E0088 1 0x4 1 0x4 false [
    fld 0 32 .ro 0 .kept],
  reg 0x040E008C 1 0x4 1 0x4 false [
    fld 0 32 .ro 0 .kept],
  reg 0x040E00A0 8 0x4 1 0x4 false [
    fld 0 32 .ro 0 .kept],
  reg 0x040E0100 2 0x10 1 0x4 true [
    fld 5 27 .rw 0 .kept],
  reg 0x040E0104 2 0x10 1 0x4 true [
    fld 0 32 .rw 0 .kept],
  reg 0x040E0108 2 0x10 1 0x4 true [
    fld 8 1 .rw 0 .kept,
    fld 4 1 .rw 0 .kept,
    fldIn 0 4 .rw 0 .kept 4 12],
  reg 0x040E010C 2 0x10 1 0x4 false [
    fld 16 12 .ro 0 (.to 0),
    fld 0 12 .rw 0 (.to 0)],
  reg 0x040E0200 8 0x8 2 0x4 true [
    fld 0 32 .rwc 0xFFFFFFFF .kept]]

/-- The MAC block (R25), registers of chapter 13. -/
def rowsMAC : List RegRow := [
  reg 0x040F0000 4 0x1000 1 0x4 true [
    fldIn 16 12 .rwc 1522 .kept 1522 4095,
    fld 5 1 .rwc 0 .kept,
    fld 4 1 .rwc 0 .kept,
    fldIn 0 3 .rwc 0 .kept 0 6],
  reg 0x040F0004 4 0x1000 1 0x4 true [
    fld 2 1 .wo 0 (.to 0),
    fld 1 1 .wo 0 (.to 0),
    fld 0 1 .wo 0 (.to 0)],
  reg 0x040F0008 4 0x1000 1 0x4 false [
    fld 7 1 .w1c 0 .kept,
    fld 6 1 .ro 0 (.to 0),
    fld 5 1 .ro 0 (.to 0),
    fld 4 1 .ro 0 (.to 0),
    fld 3 1 .ro 0 (.to 0),
    fld 1 2 .ro 0 (.to 0),
    fld 0 1 .ro 0 (.to 0)],
  reg 0x040F000C 4 0x1000 1 0x4 true [
    fldIn 16 2 .rwc 0 .kept 0 2,
    fld 12 3 .rwc 0 .kept,
    fld 0 12 .rwc 0 .kept],
  reg 0x040F0010 4 0x1000 1 0x4 true [
    fld 0 24 .rwc 0xFAC688 .kept],
  reg 0x040F0014 4 0x1000 1 0x4 true [
    fld 24 4 .rwc 0 .kept,
    fld 16 8 .rwc 0 .kept,
    fld 8 8 .rwc 0 .kept,
    fld 0 8 .rwc 0 .kept],
  reg 0x040F0020 4 0x1000 1 0x4 true [
    fldIn 8 7 .rwc 0 .kept 1 64,
    fld 4 3 .rwc 0 .kept,
    fld 1 1 .rwc 0 .kept,
    fld 0 1 .rwc 0 .kept],
  reg 0x040F0024 4 0x1000 1 0x4 true [
    fld 0 32 .rwc 0 .kept],
  reg 0x040F0028 4 0x1000 1 0x4 true [
    fld 0 32 .rwc 0 .kept],
  reg 0x040F002C 4 0x1000 1 0x4 true [
    fld 0 32 .rwc 0 .kept],
  reg 0x040F0030 4 0x1000 1 0x4 true [
    fld 0 32 .rwc 0 .kept],
  reg 0x040F0080 4 0x1000 1 0x4 false [
    fld 0 32 .ro 0 .kept],
  reg 0x040F0084 4 0x1000 1 0x4 false [
    fld 0 32 .ro 0 .kept],
  reg 0x040F0088 4 0x1000 1 0x4 false [
    fld 0 32 .ro 0 .kept],
  reg 0x040F008C 4 0x1000 1 0x4 false [
    fld 0 32 .ro 0 .kept],
  reg 0x040F0090 4 0x1000 1 0x4 false [
    fld 0 32 .ro 0 .kept],
  reg 0x040F0094 4 0x1000 1 0x4 false [
    fld 0 32 .ro 0 .kept],
  reg 0x040F0100 4 0x1000 64 0x4 true [
    fld 0 32 .rwc 0 .kept]]

/-- The CAN block (R25), registers of chapter 12. -/
def rowsCAN : List RegRow := [
  reg 0x04100000 16 0x1000 1 0x4 true [
    fld 13 1 .rw 0 .kept,
    fld 12 1 .ro 0 .kept,
    fld 11 1 .rw 0 .kept,
    fld 10 1 .rw 0 .kept,
    fld 9 1 .rw 0 .kept,
    fld 8 1 .rwc 0 .kept,
    fld 4 1 .rwc 0 .kept,
    fldIn 0 3 .rwc 0 (.to 0) 0 4],
  reg 0x04100004 16 0x1000 1 0x4 true [
    fld 3 1 .wo 0 (.to 0),
    fld 2 1 .wo 0 (.to 0),
    fld 1 1 .wo 0 (.to 0),
    fld 0 1 .wo 0 (.to 0)],
  reg 0x04100008 16 0x1000 1 0x4 false [
    fld 24 8 .ro 0 (.to 0),
    fld 16 8 .ro 0 (.to 0),
    fld 11 1 .ro 0 (.to 0),
    fld 10 1 .ro 0 (.to 0),
    fld 9 1 .ro 0 (.to 0),
    fld 8 1 .ro 0 (.to 0),
    fld 4 3 .ro 0 (.to 0),
    fld 0 2 .ro 0 (.to 0)],
  reg 0x0410000C 16 0x1000 1 0x4 false [
    fld 4 1 .w1c 0 .kept,
    fld 3 1 .w1c 0 .kept,
    fld 2 1 .w1c 0 .kept,
    fld 1 1 .w1c 0 .kept,
    fld 0 1 .w1c 0 .kept],
  reg 0x04100010 16 0x1000 1 0x4 true [
    fld 4 1 .rw 0 .kept,
    fld 3 1 .rw 0 .kept,
    fld 2 1 .rw 0 .kept,
    fld 1 1 .rw 0 .kept,
    fld 0 1 .rw 0 .kept],
  reg 0x04100020 16 0x1000 1 0x4 true [
    fld 25 7 .rwc 0 .kept,
    fld 17 8 .rwc 0 .kept,
    fld 10 7 .rwc 0 .kept,
    fld 0 8 .rwc 0 .kept],
  reg 0x04100024 16 0x1000 1 0x4 true [
    fld 24 5 .rwc 0 .kept,
    fld 16 5 .rwc 0 .kept,
    fld 8 4 .rwc 0 .kept,
    fld 0 4 .rwc 0 .kept],
  reg 0x04100028 16 0x1000 1 0x4 true [
    fld 16 7 .rwc 0 .kept,
    fld 8 7 .rwc 0 .kept,
    fld 0 1 .rwc 0 .kept],
  reg 0x04100030 16 0x1000 1 0x4 false [
    fld 0 32 .wo 0 (.to 0)],
  reg 0x04100034 16 0x1000 1 0x4 false [
    fld 16 2 .ro 0 (.to 0),
    fld 11 5 .ro 0 (.to 0),
    fld 10 1 .w1c 0 (.to 0),
    fld 9 1 .w1c 0 (.to 0),
    fld 8 1 .ro 0 (.to 0),
    fld 0 7 .ro 0 (.to 0)],
  reg 0x04100038 16 0x1000 1 0x4 false [
    fld 0 8 .wo 0 (.to 0)],
  reg 0x04100040 16 0x1000 4 0x4 false [
    fld 0 32 .ro 0 (.to 0)],
  reg 0x04100080 16 0x1000 1 0x4 false [
    fld 0 32 .ro 0 .kept],
  reg 0x04100084 16 0x1000 1 0x4 false [
    fld 0 32 .ro 0 .kept],
  reg 0x04100088 16 0x1000 1 0x4 false [
    fld 0 32 .ro 0 .kept],
  reg 0x0410008C 16 0x1000 1 0x4 false [
    fld 0 32 .ro 0 .kept],
  reg 0x04100090 16 0x1000 1 0x4 false [
    fld 0 32 .ro 0 .kept],
  reg 0x04100094 16 0x1000 1 0x4 false [
    fld 0 32 .ro 0 .kept],
  reg 0x04100098 16 0x1000 1 0x4 false [
    fld 0 32 .ro 0 .kept],
  reg 0x04100400 16 0x1000 128 0x8 true [
    fld 31 1 .rwc 0 .kept,
    fld 30 1 .rwc 0 .kept,
    fld 29 1 .rwc 0 .kept,
    fld 0 29 .rwc 0 .kept],
  reg 0x04100404 16 0x1000 128 0x8 true [
    fld 0 29 .rwc 0 .kept]]

/-- The LINE block (R25), registers of chapter 11. -/
def rowsLINE : List RegRow := [
  reg 0x04110000 48 0x400 1 0x4 true [
    fld 16 4 .rwc 0 .kept,
    fld 12 1 .rwc 0 .kept,
    fldIn 8 2 .rwc 0 .kept 0 2,
    fld 4 2 .rwc 0 .kept,
    fldIn 0 3 .rwc 0 .kept 0 3],
  reg 0x04110004 48 0x400 1 0x4 true [
    fld 2 1 .wo 0 (.to 0),
    fld 1 1 .wo 0 (.to 0),
    fld 0 1 .wo 0 (.to 0)],
  reg 0x04110008 48 0x400 1 0x4 false [
    fld 1 1 .rw 0 .kept,
    fld 0 1 .rw 1 .kept],
  reg 0x0411000C 48 0x400 1 0x4 false [
    fld 11 1 .w1c 0 .kept,
    fld 10 1 .w1c 0 .kept,
    fld 9 1 .w1c 0 .kept,
    fld 8 1 .w1c 0 .kept,
    fld 6 1 .ro 0 .kept,
    fld 4 2 .ro 3 .kept,
    fld 2 1 .ro 0 (.to 0),
    fld 1 1 .ro 0 (.to 0),
    fld 0 1 .ro 1 (.to 1)],
  reg 0x04110010 48 0x400 1 0x4 false [
    fld 0 32 .ro 0 .kept],
  reg 0x04110014 48 0x400 1 0x4 false [
    fld 0 32 .ro 0 .kept],
  reg 0x04110040 48 0x400 1 0x4 false [
    fld 0 32 .ro 0 .kept],
  reg 0x04110044 48 0x400 1 0x4 false [
    fld 0 32 .ro 0 .kept],
  reg 0x04110048 48 0x400 1 0x4 false [
    fld 0 32 .ro 0 .kept],
  reg 0x0411004C 48 0x400 1 0x4 false [
    fld 0 32 .ro 0 .kept],
  reg 0x0411C000 1 0x4 1 0x4 true [
    fld 16 16 .rw 3600 .kept,
    fldIn 0 16 .rw 20 .kept 1 65535],
  reg 0x0411C004 1 0x4 1 0x4 true [
    fld 8 8 .rw 10 .kept,
    fldIn 0 8 .rw 100 .kept 1 255],
  reg 0x0411C010 1 0x4 1 0x4 false [
    fld 0 32 .ro 0 .kept],
  reg 0x0411C014 1 0x4 1 0x4 false [
    fld 0 16 .ro 0 .kept],
  reg 0x0411C020 1 0x4 1 0x4 false [
    fld 2 1 .w1c 0 .kept,
    fld 1 1 .w1c 0 .kept,
    fld 0 1 .w1c 0 .kept],
  reg 0x0411C024 1 0x4 1 0x4 true [
    fld 2 1 .rw 0 .kept,
    fld 1 1 .rw 0 .kept,
    fld 0 1 .rw 0 .kept]]

/-- The DIO block (R25), registers of chapter 11. -/
def rowsDIO : List RegRow := [
  reg 0x04120000 1 0x4 1 0x4 true [
    fld 8 1 .wo 0 (.to 0),
    fld 0 8 .wo 0 (.to 0)],
  reg 0x04120010 8 0x4 1 0x4 false [
    fld 0 8 .rw 0 .kept],
  reg 0x04120030 8 0x4 1 0x4 false [
    fld 8 8 .ro 0 (.to 0),
    fld 0 8 .ro 0 (.to 0)],
  reg 0x04120050 1 0x4 1 0x4 false [
    fld 0 16 .ro 0 .kept],
  reg 0x04120060 8 0x4 1 0x4 false [
    fld 16 1 .w1c 0 .kept,
    fld 8 8 .ro 0 (.to 0),
    fld 0 8 .w1c 0 .kept],
  reg 0x04120080 1 0x4 1 0x4 false [
    fld 16 16 .ro 0 (.to 0),
    fld 1 1 .ro 0 (.to 0),
    fld 0 1 .w1c 0 .kept],
  reg 0x04120090 1 0x4 1 0x4 false [
    fld 4 1 .w1c 0 .kept,
    fld 3 1 .w1c 0 .kept,
    fld 2 1 .w1c 0 .kept,
    fld 1 1 .w1c 0 .kept,
    fld 0 1 .w1c 0 .kept],
  reg 0x04120094 1 0x4 1 0x4 true [
    fld 4 1 .rw 0 .kept,
    fld 3 1 .rw 0 .kept,
    fld 2 1 .rw 0 .kept,
    fld 1 1 .rw 0 .kept,
    fld 0 1 .rw 0 .kept],
  reg 0x04120100 64 0x4 1 0x4 true [
    fld 18 1 .rwc 0 .kept,
    fld 16 2 .rwc 0 .kept,
    fld 4 12 .rwc 0 .kept,
    fld 3 1 .rwc 0 .kept,
    fldIn 0 3 .rwc 0 .kept 0 4],
  reg 0x04120200 64 0x4 1 0x4 false [
    fld 0 16 .ro 0 (.to 0)],
  reg 0x04120300 64 0x8 1 0x4 false [
    fld 0 32 .ro 0 .kept],
  reg 0x04120304 64 0x8 1 0x4 false [
    fld 0 32 .ro 0 .kept],
  reg 0x04120600 64 0x10 1 0x4 false [
    fld 0 32 .ro 0 (.to 0)],
  reg 0x04120604 64 0x10 1 0x4 false [
    fld 0 32 .ro 0 (.to 0)],
  reg 0x04120608 64 0x10 1 0x4 false [
    fld 31 1 .ro 0 (.to 0),
    fld 1 1 .ro 0 (.to 0),
    fld 0 1 .ro 0 (.to 0)],
  reg 0x04120C00 64 0x10 1 0x4 false [
    fld 0 32 .ro 0 .kept],
  reg 0x04120C04 64 0x10 1 0x4 false [
    fld 0 32 .ro 0 .kept],
  reg 0x04120C08 64 0x10 1 0x4 false [
    fld 0 32 .ro 0 .kept],
  reg 0x04120C0C 64 0x10 1 0x4 false [
    fld 0 32 .ro 0 .kept]]

/-- The ENG block (R25), registers of chapter 10. -/
def rowsENG : List RegRow := [
  reg 0x04130000 16 0x1000 1 0x4 false [
    fld 16 16 .ro 0 (.to 0),
    fld 8 4 .ro 0 (.to 5),
    fld 0 3 .ro 0 (.to 0)],
  reg 0x04130004 16 0x1000 1 0x4 false [
    fld 0 32 .w1c 0 (.to 0)],
  reg 0x04130008 16 0x1000 1 0x4 false [
    fld 0 32 .rw 0 (.to 0)],
  reg 0x04130010 16 0x1000 1 0x4 false [
    fld 0 32 .rw 0 (.to 0)],
  reg 0x04130014 16 0x1000 1 0x4 false [
    fld 0 1 .rw 0 (.to 0)],
  reg 0x04130018 16 0x1000 1 0x4 false [
    fld 0 32 .wo 0 (.to 0)],
  reg 0x0413001C 16 0x1000 1 0x4 false [
    fld 0 32 .wo 0 (.to 0)],
  reg 0x04130020 16 0x1000 1 0x4 false [
    fld 31 1 .rw 0 (.to 0),
    fld 8 9 .rw 0 (.to 0),
    fldIn 0 3 .rw 0 (.to 0) 2 6],
  reg 0x04130024 16 0x1000 1 0x4 false [
    fld 16 6 .ro 0 (.to 0),
    fld 0 6 .rw 0 (.to 0)],
  reg 0x04130028 16 0x1000 1 0x4 false [
    fld 2 15 .wo 0 (.to 0)],
  reg 0x0413002C 16 0x1000 1 0x4 false [
    fld 2 1 .w1c 0 (.to 0),
    fld 1 1 .w1c 0 (.to 0),
    fld 0 1 .ro 0 (.to 0)],
  reg 0x04130040 16 0x1000 8 0x8 false [
    fld 8 4 .ro 0 .kept,
    fld 4 2 .ro 0 .kept],
  reg 0x04130044 16 0x1000 8 0x8 false [
    fld 24 8 .ro 0 (.to 0),
    fld 18 1 .w1c 0 (.to 0),
    fld 17 1 .w1c 0 (.to 0),
    fld 16 1 .w1c 0 (.to 0),
    fld 8 5 .ro 16 (.to 16),
    fld 0 5 .ro 0 (.to 0)],
  reg 0x041300C0 16 0x1000 1 0x4 false [
    fld 0 32 .ro 0 .kept],
  reg 0x041300C4 16 0x1000 1 0x4 false [
    fld 0 32 .ro 0 .kept],
  reg 0x041300C8 16 0x1000 1 0x4 false [
    fld 0 32 .ro 0 .kept],
  reg 0x041300CC 16 0x1000 1 0x4 false [
    fld 0 32 .ro 0 .kept],
  reg 0x041300FC 16 0x1000 1 0x4 false [
    fld 0 32 .wo 0 (.to 0)],
  reg 0x04130080 16 0x1000 1 0x4 false [
    fld 0 32 .ro 0 .kept],
  reg 0x04130084 16 0x1000 1 0x4 false [
    fld 0 32 .ro 0 .kept],
  reg 0x04130088 16 0x1000 1 0x4 false [
    fld 0 32 .ro 0 .kept]]

/-- The HAND block (R25), registers of chapter 10. -/
def rowsHAND : List RegRow := [
  reg 0x04140000 32 0x800 1 0x4 false [
    fld 11 1 .wo 0 (.to 0),
    fld 8 3 .rw 0 (.to 0),
    fld 7 1 .rw 0 (.to 0),
    fld 3 1 .wo 0 (.to 0),
    fld 2 1 .wo 0 (.to 0),
    fld 1 1 .wo 0 (.to 0),
    fld 0 1 .rw 0 (.to 0)],
  reg 0x04140004 32 0x800 1 0x4 false [
    fld 28 4 .ro 0 .kept,
    fld 24 4 .ro 0 (.to 0),
    fld 20 4 .ro 0 (.to 0),
    fld 14 1 .ro 0 (.to 0),
    fld 13 1 .ro 0 (.to 0),
    fld 12 1 .w1c 0 (.to 0),
    fld 11 1 .w1c 0 (.to 0),
    fld 10 1 .w1c 0 (.to 0),
    fld 9 1 .w1c 0 (.to 0),
    fld 8 1 .w1c 0 (.to 0),
    fld 5 3 .ro 0 (.to 0),
    fld 0 5 .ro 0 .kept],
  reg 0x04140008 32 0x800 1 0x4 false [
    fldIn 8 16 .rwc 1 .kept 1 65535,
    fld 0 8 .rwc 0 .kept],
  reg 0x0414000C 32 0x800 1 0x4 false [
    fld 8 5 .rwc 31 .kept,
    fld 0 5 .rwc 0 .kept],
  reg 0x04140010 32 0x800 1 0x4 false [
    fld 24 3 .rwc 0 .kept,
    fld 20 3 .rwc 0 .kept,
    fld 17 1 .rwc 0 .kept,
    fld 16 1 .rwc 0 .kept,
    fld 8 5 .rwc 31 .kept,
    fld 0 5 .rwc 31 .kept],
  reg 0x04140014 32 0x800 1 0x4 false [
    fld 0 32 .rw 0 (.to 0)],
  reg 0x04140018 32 0x800 1 0x4 false [
    fld 0 32 .rw 0 (.to 0)],
  reg 0x0414001C 32 0x800 1 0x4 false [
    fld 0 32 .rw 0 (.to 0)],
  reg 0x04140020 32 0x800 1 0x4 false [
    fld 0 32 .ro 0 (.to 0)],
  reg 0x04140024 32 0x800 1 0x4 false [
    fld 8 6 .ro 0 (.to 0),
    fld 0 6 .ro 0 (.to 0)],
  reg 0x04140028 32 0x800 1 0x4 false [
    fld 0 32 .wo 0 (.to 0)],
  reg 0x0414002C 32 0x800 1 0x4 false [
    fld 0 32 .ro 0 (.to 0)],
  reg 0x04140030 32 0x800 1 0x4 false [
    fld 16 16 .ro 0 .kept,
    fld 0 16 .ro 0 .kept],
  reg 0x04140034 32 0x800 1 0x4 false [
    fld 24 8 .rwc 7 .kept,
    fld 16 8 .rwc 3 .kept,
    fld 8 8 .rwc 1 .kept,
    fld 0 8 .rwc 0 .kept],
  reg 0x04140038 32 0x800 1 0x4 false [
    fld 0 8 .rw 0xFF .kept],
  reg 0x04140040 32 0x800 8 0x4 false [
    fld 31 1 .rw 0 .kept,
    fld 30 1 .rw 0 .kept,
    fld 29 1 .rw 0 .kept,
    fld 16 9 .rw 0 .kept,
    fld 0 9 .rw 0 .kept],
  reg 0x04140060 32 0x800 1 0x4 false [
    fld 0 3 .rw 0 .kept],
  reg 0x04140100 32 0x800 32 0x4 false [
    fld 0 16 .rw 0 .kept]]

/-- The STG block (R25), registers of chapter 08. -/
def rowsSTG : List RegRow := [
  reg 0x04150000 1 0x4 1 0x4 true [
    fld 8 2 .wo 0 (.to 0),
    fld 0 1 .wo 0 (.to 0)],
  reg 0x04150100 2 0x100 1 0x4 false [
    fld 16 3 .ro 0 (.to 0),
    fld 11 1 .ro 0 .kept,
    fld 10 1 .ro 0 (.to 0),
    fld 9 1 .ro 0 (.to 0),
    fld 8 1 .ro 0 (.to 0),
    fld 4 1 .ro 0 .kept,
    fld 3 1 .ro 0 (.to 0),
    fld 0 3 .ro 0 (.to 0)],
  reg 0x04150104 2 0x100 1 0x4 true [
    fldIn 4 2 .rw 0 .kept 0 2,
    fld 1 1 .rw 0 .kept,
    fld 0 1 .rw 0 .kept],
  reg 0x04150108 2 0x100 1 0x4 true [
    fld 8 8 .rwc 0 .kept,
    fldIn 0 8 .rwc 1 .kept 1 255],
  reg 0x0415010C 2 0x100 1 0x4 true [
    fld 0 26 .rwc 0 .kept],
  reg 0x04150110 2 0x100 1 0x4 true [
    fldIn 0 26 .rwc 1 .kept 1 67108863],
  reg 0x04150114 2 0x100 1 0x4 true [
    fld 8 8 .ro 0 .kept,
    fld 0 8 .rw 0 .kept],
  reg 0x04150118 2 0x100 1 0x4 false [
    fld 0 32 .ro 0 (.to 0)],
  reg 0x0415011C 2 0x100 1 0x4 false [
    fld 0 32 .ro 0 (.to 0)],
  reg 0x04150120 2 0x100 1 0x4 false [
    fld 0 32 .ro 0 (.to 0)],
  reg 0x04150124 2 0x100 1 0x4 false [
    fld 0 32 .ro 0 .kept],
  reg 0x04150128 2 0x100 1 0x4 false [
    fld 0 16 .ro 0 .kept],
  reg 0x0415012C 2 0x100 1 0x4 false [
    fld 0 32 .ro 0 .kept],
  reg 0x04150130 2 0x100 1 0x4 false [
    fld 0 32 .ro 0 .kept],
  reg 0x04150134 2 0x100 1 0x4 false [
    fld 6 1 .w1c 0 .kept,
    fld 5 1 .w1c 0 .kept,
    fld 4 1 .w1c 0 .kept,
    fld 3 1 .w1c 0 (.to 0),
    fld 2 1 .w1c 0 .kept,
    fld 1 1 .w1c 0 .kept,
    fld 0 1 .w1c 0 .kept],
  reg 0x04150138 2 0x100 1 0x4 true [
    fld 6 1 .rw 0 .kept,
    fld 5 1 .rw 0 .kept,
    fld 4 1 .rw 0 .kept,
    fld 3 1 .rw 0 .kept,
    fld 2 1 .rw 0 .kept,
    fld 1 1 .rw 0 .kept,
    fld 0 1 .rw 0 .kept],
  reg 0x04150180 2 0x100 1 0x4 false [
    fld 0 32 .ro 0 .kept],
  reg 0x04150184 2 0x100 1 0x4 false [
    fld 0 32 .ro 0 .kept],
  reg 0x04150188 2 0x100 1 0x4 false [
    fld 0 32 .ro 0 .kept],
  reg 0x0415018C 2 0x100 1 0x4 false [
    fld 0 32 .ro 0 .kept],
  reg 0x04150190 2 0x100 1 0x4 false [
    fld 0 32 .ro 0 .kept],
  reg 0x04150194 2 0x100 1 0x4 false [
    fld 0 32 .ro 0 .kept]]

/-- The MOT block (R25), registers of chapter 14. -/
def rowsMOT : List RegRow := [
  reg 0x04160000 8 0x1000 1 0x4 false [
    fld 12 4 .ro 0 (.to 0),
    fld 11 1 .ro 0 (.to 0),
    fld 8 3 .ro 0 .kept,
    fld 7 1 .ro 0 (.to 0),
    fld 6 1 .ro 0 .kept,
    fld 0 3 .ro 0 (.to 0)],
  reg 0x04160004 8 0x1000 1 0x4 true [
    fld 24 1 .rwc 0 .kept,
    fldIn 20 3 .rwc 5 .kept 0 5,
    fldIn 16 3 .rwc 0 .kept 0 5,
    fldIn 8 8 .rwc 10 .kept 1 255,
    fld 4 2 .rwc 0 .kept,
    fld 2 1 .rwc 0 .kept,
    fldIn 0 2 .rwc 0 .kept 0 2],
  reg 0x04160008 8 0x1000 1 0x4 true [
    fldIn 0 28 .rwc 1 .kept 1 268435455],
  reg 0x0416000C 8 0x1000 1 0x4 true [
    fldIn 0 24 .rwc 1 .kept 1 16777215],
  reg 0x04160010 8 0x1000 1 0x4 true [
    fldIn 0 24 .rwc 1 .kept 1 16777215],
  reg 0x04160014 8 0x1000 1 0x4 true [
    fldIn 0 32 .rwc 1 .kept 1 4294967295],
  reg 0x04160018 8 0x1000 1 0x4 true [
    fldIn 0 24 .rwc 1 .kept 1 16777215],
  reg 0x0416001C 8 0x1000 1 0x4 true [
    fldIn 24 8 .rwc 1 .kept 1 255,
    fldIn 16 8 .rwc 1 .kept 1 255,
    fld 8 8 .rwc 0 .kept,
    fld 0 8 .rwc 0 .kept],
  reg 0x04160020 8 0x1000 1 0x4 true [
    fld 31 1 .rwc 0 .kept,
    fld 30 1 .rwc 0 .kept,
    fld 24 6 .rwc 0 .kept,
    fld 23 1 .rwc 0 .kept,
    fld 22 1 .rwc 0 .kept,
    fld 16 6 .rwc 0 .kept,
    fld 15 1 .rwc 0 .kept,
    fld 14 1 .rwc 0 .kept,
    fld 8 6 .rwc 0 .kept,
    fld 7 1 .rwc 0 .kept,
    fld 6 1 .rwc 0 .kept,
    fld 0 6 .rwc 0 .kept],
  reg 0x04160024 8 0x1000 1 0x4 true [
    fld 31 1 .rwc 0 .kept,
    fld 0 18 .rwc 0 .kept],
  reg 0x04160028 8 0x1000 1 0x4 true [
    fld 18 12 .rwc 0 .kept,
    fld 0 18 .rwc 0 .kept],
  reg 0x04160040 8 0x1000 1 0x4 false [
    fld 0 32 .ro 0 .kept],
  reg 0x04160044 8 0x1000 1 0x4 false [
    fld 0 32 .ro 0 .kept],
  reg 0x04160048 8 0x1000 1 0x4 false [
    fld 0 32 .ro 0 (.to 0)],
  reg 0x0416004C 8 0x1000 1 0x4 false [
    fld 0 32 .ro 0 (.to 0)],
  reg 0x04160050 8 0x1000 1 0x4 false [
    fld 1 1 .w1c 0 (.to 0),
    fld 0 1 .ro 0 (.to 0)],
  reg 0x04160054 8 0x1000 1 0x4 false [
    fld 0 32 .ro 0 (.to 0)],
  reg 0x04160058 8 0x1000 1 0x4 false [
    fld 0 8 .ro 0 (.to 0)],
  reg 0x0416005C 8 0x1000 1 0x4 false [
    fld 0 32 .ro 0 (.to 0)],
  reg 0x04160060 8 0x1000 1 0x4 false [
    fld 0 32 .ro 0 (.to 0)],
  reg 0x04160064 8 0x1000 3 0x4 false [
    fld 0 32 .rw 0 (.to 0)],
  reg 0x04160070 8 0x1000 1 0x4 false [
    fld 0 32 .rw 0 .kept],
  reg 0x04160074 8 0x1000 1 0x4 false [
    fld 5 1 .w1c 0 .kept,
    fld 4 1 .w1c 0 .kept,
    fld 3 1 .w1c 0 .kept,
    fld 2 1 .w1c 0 .kept,
    fld 1 1 .w1c 0 .kept,
    fld 0 1 .w1c 0 .kept],
  reg 0x04160078 8 0x1000 1 0x4 true [
    fld 5 1 .rw 0 .kept,
    fld 4 1 .rw 0 .kept,
    fld 3 1 .rw 0 .kept,
    fld 2 1 .rw 0 .kept,
    fld 1 1 .rw 0 .kept,
    fld 0 1 .rw 0 .kept],
  reg 0x0416007C 8 0x1000 1 0x4 true [
    fld 2 1 .wo 0 (.to 0),
    fld 1 1 .wo 0 (.to 0),
    fld 0 1 .wo 0 (.to 0)],
  reg 0x04160080 8 0x1000 1 0x4 false [
    fld 0 32 .ro 0 .kept],
  reg 0x04160084 8 0x1000 1 0x4 false [
    fld 0 32 .ro 0 .kept],
  reg 0x04160088 8 0x1000 1 0x4 false [
    fld 0 32 .ro 0 .kept]]

/-- The DRV block (R25), registers of chapter 14. -/
def rowsDRV : List RegRow := [
  reg 0x04170000 8 0x800 1 0x4 true [
    fldIn 16 8 .rwc 40 .kept 20 80,
    fldIn 8 7 .rwc 8 .kept 1 80,
    fld 4 4 .rwc 4 .kept,
    fldIn 0 2 .rwc 0 .kept 0 2],
  reg 0x04170004 8 0x800 1 0x4 true [
    fldIn 16 12 .rwc 0 .kept 0 2500,
    fldIn 0 12 .rwc 0 .kept 0 2500],
  reg 0x04170008 8 0x800 1 0x4 true [
    fld 16 16 .rwc 0 .kept,
    fld 0 16 .rwc 0 .kept],
  reg 0x0417000C 8 0x800 1 0x4 true [
    fld 16 16 .rwc 0 .kept,
    fld 0 16 .rwc 0 .kept],
  reg 0x04170010 8 0x800 1 0x4 true [
    fld 0 16 .rwc 0 .kept],
  reg 0x04170014 8 0x800 1 0x4 false [
    fld 3 1 .wo 0 (.to 0),
    fld 2 1 .wo 0 (.to 0),
    fld 1 1 .wo 0 (.to 0),
    fld 0 1 .rw 0 (.to 0)],
  reg 0x04170018 8 0x800 1 0x4 false [
    fld 16 16 .ro 0 (.to 0),
    fld 4 2 .ro 0 (.to 0),
    fld 3 1 .ro 0 (.to 0),
    fld 2 1 .ro 0 (.to 0),
    fld 1 1 .ro 0 .kept,
    fld 0 1 .ro 0 (.to 0)],
  reg 0x0417001C 8 0x800 1 0x4 false [
    fld 4 1 .ro 0 (.to 0),
    fld 3 1 .w1c 0 .kept,
    fld 2 1 .w1c 0 .kept,
    fld 1 1 .w1c 0 .kept,
    fld 0 1 .w1c 0 .kept],
  reg 0x04170020 8 0x800 1 0x4 false [
    fld 16 16 .ro 0 .kept,
    fld 0 16 .ro 0 .kept],
  reg 0x04170024 8 0x800 1 0x4 false [
    fld 16 16 .ro 0 (.to 0),
    fld 0 16 .ro 0 (.to 0)],
  reg 0x04170028 8 0x800 1 0x4 false [
    fld 0 16 .ro 0 (.to 0)],
  reg 0x04170080 8 0x800 1 0x4 false [
    fld 0 32 .ro 0 .kept],
  reg 0x04170084 8 0x800 1 0x4 false [
    fld 0 32 .ro 0 .kept]]

/-- The HOST block (R25), registers of chapter 17. -/
def rowsHOST : List RegRow := [
  reg 0x04180000 1 0x4 1 0x4 true [
    fldIn 12 2 .rwc 1 .kept 0 1,
    fldIn 8 4 .rwc 4 .kept 1 4,
    fld 4 1 .rw 0 .kept,
    fld 2 1 .rw 1 .kept,
    fld 1 1 .rw 1 .kept,
    fld 0 1 .rw 1 .kept],
  reg 0x04180004 1 0x4 1 0x4 true [
    fld 1 1 .wo 0 (.to 0),
    fld 0 1 .wo 0 (.to 0)],
  reg 0x04180008 1 0x4 1 0x4 false [
    fld 11 1 .ro 0 (.to 0),
    fld 9 2 .ro 0 .kept,
    fld 8 1 .ro 0 (.to 0),
    fld 4 2 .ro 0 .kept,
    fld 1 3 .ro 0 .kept,
    fld 0 1 .ro 0 .kept],
  reg 0x0418000C 1 0x4 1 0x4 true [
    fld 1 1 .w1c 0 .kept,
    fld 0 1 .w1c 0 .kept],
  reg 0x04180010 1 0x4 1 0x4 false [
    fld 5 1 .w1c 0 .kept,
    fld 4 1 .w1c 0 .kept,
    fld 3 1 .w1c 0 .kept,
    fld 2 1 .w1c 0 .kept,
    fld 1 1 .w1c 0 .kept,
    fld 0 1 .w1c 0 .kept],
  reg 0x04180014 1 0x4 1 0x4 true [
    fld 5 1 .rw 0 .kept,
    fld 4 1 .rw 0 .kept,
    fld 3 1 .rw 0 .kept,
    fld 2 1 .rw 0 .kept,
    fld 1 1 .rw 0 .kept,
    fld 0 1 .rw 0 .kept],
  reg 0x04180018 1 0x4 1 0x4 false [
    fld 16 16 .ro 0 (.to 0),
    fld 1 1 .ro 0 .kept,
    fld 0 1 .ro 0 .kept],
  reg 0x04180080 1 0x4 1 0x4 false [
    fld 0 32 .ro 0 .kept],
  reg 0x04180084 1 0x4 1 0x4 false [
    fld 0 32 .ro 0 .kept],
  reg 0x04180088 1 0x4 1 0x4 false [
    fld 0 32 .ro 0 .kept],
  reg 0x0418008C 1 0x4 1 0x4 false [
    fld 0 32 .ro 0 .kept],
  reg 0x04180090 1 0x4 1 0x4 false [
    fld 0 32 .ro 0 .kept],
  reg 0x04180094 1 0x4 1 0x4 false [
    fld 0 32 .ro 0 .kept],
  reg 0x04180098 1 0x4 1 0x4 false [
    fld 0 32 .ro 0 .kept],
  reg 0x04180100 32 0x4 1 0x4 true [
    fld 6 2 .rw 0 .kept,
    fld 0 6 .rw 0 .kept]]

/-- The DBG block (R25), registers of chapter 19. -/
def rowsDBG : List RegRow := [
  reg 0x04190000 1 0x4 1 0x4 true [
    fld 2 1 .wo 0 (.to 0),
    fld 1 1 .wo 0 (.to 0),
    fld 0 1 .ro 0 (.to 0)]]

/-- The rows of register block `n` (R25). -/
def blockRows (n : Nat) : List RegRow :=
  match n with
  | 0x00 => rowsSYS
  | 0x01 => rowsPWR
  | 0x02 => rowsCLK
  | 0x03 => rowsSAFE
  | 0x04 => rowsCMD
  | 0x05 => rowsCALL
  | 0x06 => rowsVIEW
  | 0x07 => rowsMEM
  | 0x08 => rowsSTORE
  | 0x09 => rowsTIME
  | 0x0A => rowsRING
  | 0x0B => rowsMRSH
  | 0x0C => rowsFAB
  | 0x0D => rowsGATE
  | 0x0E => rowsSW
  | 0x0F => rowsMAC
  | 0x10 => rowsCAN
  | 0x11 => rowsLINE
  | 0x12 => rowsDIO
  | 0x13 => rowsENG
  | 0x14 => rowsHAND
  | 0x15 => rowsSTG
  | 0x16 => rowsMOT
  | 0x17 => rowsDRV
  | 0x18 => rowsHOST
  | 0x19 => rowsDBG
  | _ => []

end Sys2Proof.Machine
end

