-- ==== Sys2Proof/Machine/Sparse.lean ====
section
/-! DEFINITION. Sparse data by key in one canonical form: a list of (key, value) pairs with strictly rising keys in which no entry equals what
its key reads as when it is not listed. Also the bit-field access of a word. -/
namespace Sys2Proof.Machine
open Sys2Proof

/-- An address less `q` times `k`, for an address of at least that, by quotient and remainder. -/
def lessMul (a k q : Nat) : Nat := (a / k - q) * k + a % k

/-- The value at key `a`; `d` is what an unlisted key reads as. -/
def sget {α : Type} (d : α) (m : List (Nat × α)) (a : Nat) : α :=
  match m with
  | [] => d
  | (k, v) :: t => if k = a then v else sget d t a

/-- The entry at key `a`, if one is listed. -/
def slook {α : Type} (m : List (Nat × α)) (a : Nat) : Option α :=
  match m with
  | [] => none
  | (k, v) :: t => if k = a then some v else slook t a

/-- Insert `(a, v)` before the first larger key. -/
def sins {α : Type} (m : List (Nat × α)) (a : Nat) (v : α) : List (Nat × α) :=
  match m with
  | [] => [(a, v)]
  | (k, w) :: t => if a < k then (a, v) :: (k, w) :: t else (k, w) :: sins t a v

/-- Write `v` at key `a`; writing the unlisted value `d` removes the entry. -/
def sset {α : Type} [DecidableEq α] (d : α) (m : List (Nat × α)) (a : Nat) (v : α) : List (Nat × α) :=
  let m' := m.filter (fun e => e.1 ≠ a)
  if v = d then m' else sins m' a v

/-- Remove key `a`. -/
def sdel {α : Type} (m : List (Nat × α)) (a : Nat) : List (Nat × α) := m.filter (fun e => e.1 ≠ a)

/-- The canonical form: strictly rising keys, and no entry equal to what its key reads as unlisted (`d` by key). -/
def swf {α : Type} [DecidableEq α] (d : Nat → α) (m : List (Nat × α)) : Bool :=
  match m with
  | [] => true
  | (k, v) :: t => decide (v ≠ d k) && t.all (fun e => decide (k < e.1)) && swf d t

/-- Bits [lo + w − 1 : lo] of a word, as a number. -/
def getF (x : Word) (lo w : Nat) : Nat := x.toNat / 2 ^ lo % 2 ^ w

/-- Ones in bits [lo + w − 1 : lo]. -/
def fmask (lo w : Nat) : Word := BitVec.ofNat 32 ((2 ^ w - 1) * 2 ^ lo)

/-- The word with bits [lo + w − 1 : lo] replaced by the low `w` bits of `v`. -/
def setF (x : Word) (lo w v : Nat) : Word :=
  (x &&& ~~~ fmask lo w) ||| (BitVec.ofNat 32 (v % 2 ^ w * 2 ^ lo) &&& fmask lo w)

/-- Replace position `i` of a list by `f` of what it holds; nothing where the list is shorter. -/
def updAt {α : Type} (l : List α) (i : Nat) (f : α → α) : List α :=
  match l, i with
  | [], _ => []
  | x :: t, 0 => f x :: t
  | x :: t, i + 1 => x :: updAt t i f

/-- The two's complement value of the low `w` bits of `v`. -/
def sgn (w v : Nat) : Int := if v % 2 ^ w < 2 ^ (w - 1) then (v % 2 ^ w : Nat) else (v % 2 ^ w : Nat) - (2 ^ w : Nat)

/-- The low `w` bits of an integer, as a number. -/
def wrapI (w : Nat) (z : Int) : Nat := (z % (2 ^ w : Nat)).toNat

/-- An integer confined to the signed range of `w` bits. -/
def satI (w : Nat) (z : Int) : Int := max (-(2 ^ (w - 1) : Nat)) (min z ((2 ^ (w - 1) : Nat) - 1))

/-- Bit `i` of a number. -/
def bit (v i : Nat) : Bool := v.testBit i

/-- The positions of the ones in the low `n` bits of a mask, ascending. -/
def ones (n v : Nat) : List Nat := (List.range n).filter (fun i => v.testBit i)

/-- A word from four bytes, least significant first (R4). -/
def wordOf (b0 b1 b2 b3 : Byte) : Word := b3 ++ b2 ++ b1 ++ b0

/-- Byte `i` of a word, byte 0 the least significant (R4). -/
def byteOf (x : Word) (i : Nat) : Byte := (x >>> (8 * i)).setWidth 8

/-- The little-endian bytes of a list of words. -/
def wordsToBytes (ws : List Word) : List Byte :=
  ws.flatMap (fun x => [byteOf x 0, byteOf x 1, byteOf x 2, byteOf x 3])

/-- The words of a list of bytes, little-endian; a short tail is filled with zeros. -/
def bytesToWords : List Byte → List Word
  | b0 :: b1 :: b2 :: b3 :: t => wordOf b0 b1 b2 b3 :: bytesToWords t
  | [] => []
  | b0 :: b1 :: b2 :: [] => [wordOf b0 b1 b2 0]
  | b0 :: b1 :: [] => [wordOf b0 b1 0 0]
  | b0 :: [] => [wordOf b0 0 0 0]

/-- Append the values of a list, if shorter than `n`, with the new entry; a full list loses the new entry. -/
def pushTo {α : Type} (n : Nat) (l : List α) (x : α) : List α := if l.length < n then l ++ [x] else l

/-- Word `i` of a list, zero beyond its end. -/
def wAt (l : List Word) (i : Nat) : Word := l.getD i 0

/-- Word `i` of a list as a number, zero beyond its end. -/
def nAt (l : List Word) (i : Nat) : Nat := (l.getD i 0).toNat

end Sys2Proof.Machine
end

