-- ==== Sys2Proof/Machine/RegLookup.lean ====
section
/-! DEFINITION. Finding the register at an address, and the word each register holds after power-on or cold reset (R7). -/
namespace Sys2Proof.Machine
open Sys2Proof

/-- Does the register row cover address `a` (R5, R25)? -/
def rowMatch (r : RegRow) (a : Nat) : Bool :=
  if a < r.base then false
  else
    let d := a - r.base
    let i := if r.n1 = 1 then 0 else d / r.s1
    let e := d - i * r.s1
    let j := if r.n2 = 1 then 0 else e / r.s2
    decide (i < r.n1) && decide (j < r.n2) && decide (e = j * r.s2)

/-- The row of the register at backstage address `a`, if the offset is implemented. -/
def findRow (a : Nat) : Option RegRow := (blockRows (a / 0x10000 % 0x400)).find? (fun r => rowMatch r a)

/-- The Cold word of a row (R7). -/
def rowCold (r : RegRow) : Word := r.fields.foldl (fun x f => x ||| BitVec.ofNat 32 (f.cold * 2 ^ f.lo)) 0#32

/-- The identity table at cold reset (R443), entry by entry; identities that no access carries read 0. -/
def coldIdt (i : Nat) : Word :=
  if i = 0x00 then 0x80000003#32
  else if i = 0x01 then 0x3#32
  else if i = 0x03 then 0x3#32
  else if i = 0x04 then 0x3#32
  else if i = 0x08 then 0x2#32
  else if i = 0x09 then 0x2#32
  else if i = 0x27 then 0x80000002#32
  else if i = 0x29 then 0x80000000#32
  else if i = 0x2A then 0x80000000#32
  else if i = 0x2B then 0x80000000#32
  else if i = 0x3F then 0x80000003#32
  else 0#32

/-- The word the register at `a` holds after power-on or cold reset: its row's Cold values, with the three registers whose Cold value
depends on the instance (MEM_SCRUB3, HANDnn_STAT.owner = nn ÷ 2, VIEW_IDTi). -/
def coldWord (a : Nat) : Word :=
  if a = 0x0407002C then 0x80000400#32
  else if 0x04060100 ≤ a ∧ a < 0x04060200 then coldIdt ((a % 0x10000 - 0x100) / 4)
  else match findRow a with
    | none => 0#32
    | some r =>
      if r.base = 0x04140004 then BitVec.ofNat 32 ((a % 0x10000 / 0x800 / 2) * 2 ^ 28)
      else rowCold r

/-- The mask of the fields of a row that have type `t`. -/
def tyMask (t : FldTy) (r : RegRow) : Word :=
  r.fields.foldl (fun x f => if f.ty = t then x ||| fmask f.lo f.w else x) 0#32

end Sys2Proof.Machine
end

