-- ==== Sys2Proof/Machine/UnitsCore.lean ====
section
/-! DEFINITION. The state, beside its registers, of the command core, the callboard, memory, the host interfaces, power and the fault gate. -/
namespace Sys2Proof.Machine
open Sys2Proof

/-- A command the core has accepted and not yet seen to its final state (R37–R40). -/
structure CmdRec where
  /-- prompt-book sequence number (R46) -/
  seq : Nat
  /-- 0–7, or 8 for an internal entry (R47) -/
  queue : Nat
  /-- originator identity -/
  ident : Nat
  /-- the queue owner received the backstage view at acceptance (R444) -/
  bs : Bool
  /-- its opcode (R32) -/
  opcode : Nat
  /-- its flags F0 to F3 (R34) -/
  flags : Nat
  /-- its tag (R32) -/
  tag : Word
  /-- packet length in words (R32) -/
  len : Nat
  /-- parameter words 0 to len − 5 -/
  params : List Word
  /-- raw time of acceptance -/
  acc : Nat
  /-- recorded STARTED (R39) -/
  started : Bool
  /-- raw time of the start -/
  startRaw : Nat
  /-- its opcode's own step has been taken -/
  ran : Bool
  /-- final status and result words, once it has them -/
  fin : Option (Nat × List Word)
  /-- the command may still post its completion: no queue reset or enable since acceptance (R57, R58) -/
  postable : Bool
  /-- submission head after its acceptance (R36) -/
  headAfter : Nat
  /-- the units it holds from start to end (R517) -/
  units : List (Nat × Nat)
  /-- a stored command's entry data, within which its direction-0 buffers lie (R424) -/
  inner : Option (List Byte)
  deriving DecidableEq, Repr

/-- A place in the completion order of one queue (R40): posted once its outcome is known. -/
structure PostItem where
  /-- sequence number of the command -/
  seq : Nat
  /-- its tag -/
  tag : Word
  /-- its opcode -/
  opcode : Nat
  /-- its flags -/
  flags : Nat
  /-- the queue's head after the slot was consumed (R36) -/
  headAfter : Nat
  /-- status and result words -/
  res : Option (Nat × List Word)
  deriving DecidableEq, Repr

/-- The command core's own state for one queue. -/
structure QueueSt where
  /-- completions in the order of starts and refusals, not yet posted (R40) -/
  order : List PostItem
  /-- completions posted since the last completion interrupt (R519) -/
  unsig : Nat
  /-- raw time of the first of them -/
  firstRaw : Nat
  /-- a signal sent under R519 and not yet answered by a head doorbell (R453) -/
  sig : Bool
  /-- a signal raised by R40 or R58 and not yet cleared in CMD_FINAL (R453) -/
  sigFinal : Bool
  /-- an epoch that awaits its record in the store (R31) -/
  epochWait : Option Nat
  deriving DecidableEq, Repr

/-- The command core (chapter 02). -/
structure CmdSt where
  /-- commands that are ACCEPTED or STARTED, oldest first (R38, R39) -/
  cmds : List CmdRec
  /-- sequence number of the newest prompt-book entry (R46) -/
  book : Nat
  /-- the queues beside their registers (R28) -/
  queues : List QueueSt
  /-- the queue whose turn it is, and the turns it has left (R37) -/
  turn : Nat
  /-- consumptions the queue whose turn it is has left (R37) -/
  turns : Nat
  /-- per-command limits of kinds S and Q in ms (R488) -/
  limS : Nat
  /-- watchdog limit of kind Q in ms (R488) -/
  limQ : Nat
  /-- the cores are halted by a lockstep mismatch (R485) -/
  halted : Bool
  /-- no further slot is consumed (R469) -/
  accStop : Bool
  /-- raw time at which VIN recovered, while consumption waits to resume (R469) -/
  recoverRaw : Option Nat
  /-- a reset that a command asked for: its cause code (R51, R54) -/
  resetReq : Option Nat
  /-- an injected fault that takes effect after its completion (R497) -/
  inject : List Nat
  deriving DecidableEq, Repr

/-- A counted error address of a bank's tracker (R417). -/
structure TrackEnt where
  /-- address of the word -/
  addr : Nat
  /-- correctable errors seen -/
  count : Nat
  deriving DecidableEq, Repr

/-- One DMA channel beside its registers (R421). -/
structure DmaSt where
  /-- address of the descriptor in progress, and its words once it has been read -/
  desc : Nat
  /-- the descriptor's words (R420) -/
  words : List Word
  /-- bytes of it already moved -/
  done : Nat
  /-- an access through the aperture is outstanding (R190) -/
  waiting : Bool
  deriving DecidableEq, Repr

/-- The memories beside their contents (chapter 15). -/
structure MemSt where
  /-- inverted bits of stored words: (word address, bit 0–38) (R413, R497) -/
  flips : List (Nat × Nat)
  /-- trackers of all banks, oldest entry first (R417) -/
  track : List TrackEnt
  /-- addresses whose error has been counted and that have not been written since (R417) -/
  cntd : List Nat
  /-- remapped house-memory addresses in the order their spares were taken (R417) -/
  remapped : List Nat
  /-- addresses with a remap due (R417) -/
  remapDue : List Nat
  /-- banks with a remap not yet recorded in the store (R418) -/
  recordDue : List Nat
  /-- correction write-backs requested, and whether a later write has reached the word (R415) -/
  wbq : List (Nat × Bool)
  /-- next word of each scrub walk (R416) -/
  scrub : List Nat
  /-- duration of the last full walk of each region, in ticks (R416, R428) -/
  passDur : List Nat
  /-- the DMA channels (R419) -/
  dma : List DmaSt
  /-- words whose uncorrectable error tripped the gate and that have not been rewritten (R487) -/
  tripWords : List Nat
  deriving DecidableEq, Repr

/-- One PCIe function (R448, R452). -/
structure FnSt where
  /-- MSI-X Enable (R452) -/
  msixEn : Bool
  /-- the function mask (R452) -/
  fmask : Bool
  /-- masked vectors -/
  vmask : List Nat
  /-- pending bit array -/
  pba : List Nat
  /-- messages waiting for Bus Master Enable (R451) -/
  waiting : List Nat
  deriving DecidableEq, Repr

/-- A write to host memory that waits for Bus Master Enable (R451). -/
structure HostWr where
  /-- the function that writes -/
  fn : Nat
  /-- host address -/
  addr : Nat
  /-- the bytes -/
  data : List Byte
  deriving DecidableEq, Repr

/-- A request of a host interface that waits for a memory to wake (R405, R472): identity, 0 read, 1 write, 2 fetch-and-add or 3 swap, the accesses
still to make (address, bytes), the words to write or those read so far, and whether one of them was uncorrectable. -/
structure HostReq where
  /-- identity of the interface -/
  ident : Nat
  /-- 0 read, 1 write, 2 add, 3 swap -/
  kind : Nat
  /-- addresses and lengths still to be made -/
  todo : List (Nat × Nat)
  /-- words read so far, or still to be written -/
  data : List Word
  /-- an access so far has failed -/
  bad : Bool
  deriving DecidableEq, Repr

/-- The host interfaces (chapter 17). -/
structure HostSt where
  /-- the PCIe functions (R448) -/
  fns : List FnSt
  /-- writes to the host that wait for Bus Master Enable (R451) -/
  writes : List HostWr
  /-- QSPI: a write still being carried out, and the error bit of its status byte (R456) -/
  qbusy : Bool
  /-- the err bit of the QSPI status (R456) -/
  qerr : Bool
  /-- parallel bus: pointer, autoinc, write latch, high half latched by the last data-low read, err (R457, R458) -/
  ptr : Nat
  /-- autoincrement of the parallel pointer (R458) -/
  autoinc : Bool
  /-- the low half held by the parallel write latch (R457) -/
  latch : Option Nat
  /-- the high half latched by the last data-low read (R458) -/
  rdHigh : Nat
  /-- the err bit of the parallel status (R457) -/
  perr : Bool
  /-- requests that wait for a memory to wake, oldest first -/
  pend : List HostReq
  deriving DecidableEq, Repr

/-- A step of start-up still to come (R481): a stored command by its entry's data (R427), or the start of a stage pair (R221). -/
inductive BootStep where
  | stored (data : List Word)
  | pair (p : Nat)
  deriving DecidableEq, Repr

/-- Supply, clocks and start-up (chapter 18). -/
structure PowerSt where
  /-- internal rails are up -/
  on : Bool
  /-- the core PLL has locked and units are out of reset (R473) -/
  pll : Bool
  /-- the reset whose start-up is still to end: its cause code; none when start-up is done (R481) -/
  starting : Option Nat
  /-- the start-up is that of a power-on or cold reset -/
  full : Bool
  /-- the command core runs firmware (R479) -/
  booted : Bool
  /-- raw time at which the firmware was started (R479) -/
  bootRaw : Nat
  /-- the steps from 6 on that are still to come, and the sequence number of the internal command in hand (R427, R481) -/
  todo : List BootStep
  /-- sequence number of the start-up command in hand (R481) -/
  cur : Option Nat
  /-- VIN is below the power-fail warning threshold (R469) -/
  low : Bool
  /-- 10 µs windows seen good since the clock was flagged, by bit of CLK_STAT.mon, then of the reference (R474) -/
  goodWin : List Nat
  /-- monitors whose limit an injection has moved (R497): 5 clock, 6 rail, 7 temperature -/
  moved : List Nat
  /-- rails out of their window (R486) -/
  railsOut : List Nat
  /-- temperature sensors above the trip limit (R485) -/
  hot : List Nat
  deriving DecidableEq, Repr

/-- What leaves the station: the model's own record of it, newest first (notes/assumptions/3.md). -/
inductive Emit where
  /-- bytes of a frame sent from a ring port: port, header words 0–3, payload -/
  | ringFrame (port : Nat) (w0 w1 w2 w3 : Word) (payload : List Byte)
  /-- a scheduled or open frame cut by the marshal on a port -/
  | ringCut (port : Nat)
  /-- a delay marker or a link signal on a ring port: kind and value -/
  | ringMark (port kind value : Nat)
  | msix (fn vec : Nat)
  | hostWrite (fn addr : Nat) (data : List Byte)
  /-- an answer on a host interface: identity, data, poisoned or failed -/
  | answer (ident : Nat) (data : List Word) (bad : Bool)
  /-- a PCIe request completed as Unsupported Request, or as Completer Abort -/
  | reject (ident : Nat) (abort : Bool)
  | ethFrame (port : Nat) (data : List Byte)
  | canFrame (ctl : Nat) (words : List Word)
  /-- a pin driven: kind, number, level -/
  | pin (kind num level : Nat)
  /-- a step of a profile generator: generator, direction -/
  | motStep (gen dir : Nat)
  /-- a debugger halt: processor number -/
  | halt (proc : Nat)
  deriving DecidableEq, Repr

end Sys2Proof.Machine
end

