-- ==== Sys2Proof/Machine/UnitsFab.lean ====
section
/-! DEFINITION. The state, beside their registers, of the fabric requester, the target port and the gate (chapter 07). -/
namespace Sys2Proof.Machine
open Sys2Proof

/-- What an initiator asked for (R177). -/
inductive AccKind where
  | read | write | add | swap
  deriving DecidableEq, Repr

/-- Where the outcome of an aperture access goes (R190). -/
inductive Ret where
  /-- nobody waits: a posted write, or a speculative read -/
  | drop
  /-- the instruction in hand of a processor -/
  | proc (p : Nat)
  /-- a host interface (identity) -/
  | host (ident : Nat)
  /-- DMA channel, with the destination of the word read -/
  | dmaRead (c dst : Nat)
  | dmaWrite (c : Nat)
  deriving DecidableEq, Repr

/-- An aperture access (R170, R174). -/
structure FabAcc where
  /-- identity of the requester (R26) -/
  ident : Nat
  /-- read, write or atomic -/
  kind : AccKind
  /-- local address in the aperture (R170) -/
  addr : Nat
  /-- number of bytes, a multiple of 4 -/
  bytes : Nat
  /-- byte enables of the first word -/
  fbe : Nat
  /-- byte enables of the last word -/
  lbe : Nat
  /-- words to write; for a read its length in zeros -/
  data : List Word
  /-- who waits for the outcome -/
  ret : Ret
  deriving DecidableEq, Repr

/-- A held tag (R175). -/
structure TagEnt where
  /-- the access the tag is held for -/
  acc : FabAcc
  /-- ring it was sent to -/
  ring : Nat
  /-- station it was sent to -/
  station : Nat
  /-- address at that station -/
  daddr : Nat
  /-- window it went through -/
  window : Nat
  /-- raw time at which its timer started (R176) -/
  start : Nat
  /-- a speculative read (R183) -/
  spec : Bool
  deriving DecidableEq, Repr

/-- The prefetch buffer of a window (R183): fabric start address by aperture address, its words, the se flag, how far it has been read and when it
was filled. -/
structure PfBuf where
  /-- aperture address of its first word -/
  addr : Nat
  /-- its words -/
  data : List Word
  /-- bit 21 of the control word of the completion that filled it (R183) -/
  se : Bool
  /-- words not yet read -/
  left : List Nat
  /-- raw time at which it was filled -/
  raw : Nat
  /-- the speculative read that filled it: initiator, tag, destination ring and station -/
  ident : Nat
  /-- tag of the read that filled it -/
  tag : Nat
  /-- ring it was read from -/
  ring : Nat
  /-- station it was read from -/
  station : Nat
  /-- address at that station -/
  daddr : Nat
  deriving DecidableEq, Repr

/-- An accepted inbound request in the inbound buffer (R188): source, destination local address, control word and the payload's words. -/
structure InReq where
  /-- ring of the source -/
  ring : Nat
  /-- station of the source -/
  station : Nat
  /-- address at this station -/
  daddr : Nat
  /-- its frame type: 2 write, 3 read request, 7 atomic, 5 or 6 a message behind writes of its source (R187) -/
  typ : Nat
  /-- control word of the frame -/
  ctl : Word
  /-- payload words -/
  words : List Word
  deriving DecidableEq, Repr

structure FabSt where
  /-- accesses not yet granted, in order of arrival -/
  reqs : List FabAcc
  /-- identity granted last (R174) -/
  last : Nat
  /-- the 64 tags that are held (R175) -/
  tags : List (Option TagEnt)
  /-- generation of each tag (R175) -/
  tgens : List Nat
  /-- the prefetch buffer of each window (R183) -/
  pf : List (Option PfBuf)
  /-- aperture address at which the previous read through each window ended (R183) -/
  lastEnd : List Nat
  /-- windows whose commit waits for outstanding accesses (R173) -/
  commitWait : List Nat
  /-- the inbound buffer, oldest first (R188) -/
  inbound : List InReq
  deriving DecidableEq, Repr

/-- A message in the gate (R196). -/
structure Msg where
  /-- port it comes from -/
  srcPort : Nat
  /-- port it goes to -/
  dstPort : Nat
  /-- identifier of the source -/
  srcId : Word
  /-- identifier of the destination -/
  dstId : Word
  /-- a request -/
  req : Bool
  /-- an answer -/
  ans : Bool
  /-- transaction number -/
  tx : Nat
  /-- raw time of its entry -/
  raw : Nat
  /-- its data bytes -/
  data : List Byte
  /-- the answer is a busy answer (R202) -/
  busy : Bool
  deriving DecidableEq, Repr

/-- An open gate transaction (R200). -/
structure GateTx where
  /-- transaction number (R199) -/
  num : Nat
  /-- port that asked -/
  srcPort : Nat
  /-- port that is asked -/
  dstPort : Nat
  /-- identifier of the source -/
  srcId : Word
  /-- identifier of the destination -/
  dstId : Word
  /-- raw time at which it opened (R200) -/
  start : Nat
  /-- the request still waits for its held destination port -/
  waiting : Option Msg
  /-- the rate entry that answers of this route refresh (R194 cache) -/
  cacheIdx : Option Nat
  /-- destination ring and station; 0 local -/
  ring : Nat
  /-- station that asked -/
  station : Nat
  /-- the requester is on another station: ring, station and its transaction number (R196) -/
  remote : Option (Nat × Nat × Nat)
  deriving DecidableEq, Repr

/-- The cached value of a rate entry (R197). -/
structure CacheEnt where
  /-- source port of the message that brought the value -/
  src : Nat
  /-- the latest value (R197) -/
  val : List Byte
  /-- raw time at which it came -/
  arrived : Nat
  /-- raw time of the event that the value carries -/
  raw : Nat
  /-- a value has arrived since the last send -/
  fresh : Bool
  /-- raw time of the last send -/
  sent : Option Nat
  deriving DecidableEq, Repr

structure GateSt where
  /-- messages accepted at a source port and not yet routed, oldest first -/
  inq : List Msg
  /-- the route table: its words by entry (R192) -/
  routes : List (Nat × List Word)
  /-- the rate table: its words by entry (R197) -/
  rates : List (Nat × List Word)
  /-- the latest value of each rate entry (R197) -/
  cache : List (Nat × CacheEnt)
  /-- open transactions; requests waiting at a held port stand here in order of arrival (R200) -/
  txs : List GateTx
  deriving DecidableEq, Repr

end Sys2Proof.Machine
end

