-- ==== Sys2Proof/Machine/UnitsField.lean ====
section
/-! DEFINITION. The state, beside their registers, of the lines, discrete lines, CAN controllers, Ethernet ports and switch, profile generators and
drive stages (chapters 11–14). -/
namespace Sys2Proof.Machine
open Sys2Proof

/-- The calibration of one line (R319–R325). -/
structure CalSt where
  /-- 0 CAL, 1 calibrating, 2 OUTR, 3 NONE (R325) -/
  st : Nat
  /-- steps still to come, the one in hand first -/
  steps : List Nat
  /-- the step in hand is running; its first result where that lay outside its limits (R322) -/
  running : Bool
  /-- the first result of a step out of its limits (R322) -/
  first : Option Word
  /-- a step of the pass was out of range; every step is done and the apply is due -/
  bad : Bool
  /-- every step of the pass is done and the apply is due (R323) -/
  applyDue : Bool
  /-- candidate and operating trims by step -/
  cand : List (Nat × Word)
  /-- the operating trims by step (R319) -/
  oper : List (Nat × Word)
  /-- raw time of the last apply, and of the last foreground event (R320) -/
  applied : Nat
  /-- raw time of the last foreground event (R320) -/
  since : Nat
  /-- transmitted edges recorded since the previous pass (R319) -/
  edges : Nat
  deriving DecidableEq, Repr

structure LineSt where
  /-- its calibration (R319) -/
  cal : CalSt
  /-- owner by the line matrix: engine (R270) -/
  owner : Option Nat
  /-- maintenance window: raw time at which it ends (R327) -/
  window : Option Nat
  /-- level at the receiver (R307) -/
  rx : Bool
  deriving DecidableEq, Repr

/-- A discrete line beside its registers (R313–R318). -/
structure DioSt where
  /-- its calibration (R319) -/
  cal : CalSt
  /-- owner by the line matrix: engine (R270) -/
  owner : Option Nat
  /-- end of its maintenance window (R327) -/
  window : Option Nat
  /-- level at the pad -/
  pad : Bool
  deriving DecidableEq, Repr

/-- A LINE.CAL command that waits (R324): unit codes named (R330), of these the ones whose pass completed, and the ones out of range. -/
structure LineWait where
  /-- sequence number of the command that waits (R330) -/
  seq : Nat
  /-- units whose pass it waits for -/
  units : List Nat
  /-- units whose pass ended in limits -/
  done : List Nat
  /-- units with a step out of its limits (R330) -/
  oor : List Nat
  deriving DecidableEq, Repr

structure FieldSt where
  /-- the discrete lines (R313) -/
  dios : List DioSt
  /-- LINE.CAL commands that wait for passes (R330) -/
  waits : List LineWait
  /-- quads whose drivers are off for temperature (R312) -/
  hotQuads : List Nat
  /-- output signals of the line matrix as last written, by code (R287, R288); 0 where never written -/
  sigs : List (Nat × Bool)
  /-- levels at the pads of CAPT0–CAPT7 -/
  capPins : List Bool
  deriving DecidableEq, Repr

/-- A rate detection in progress (R352). -/
structure CanDetect where
  /-- sequence number of CAN.DETECT (R352) -/
  seq : Nat
  /-- candidates as nominal and data timing words -/
  cands : List (Word × Word)
  /-- candidate in hand -/
  cur : Nat
  /-- pass in hand -/
  pass : Nat
  /-- passes asked for -/
  passes : Nat
  /-- good frames seen at the candidate -/
  good : Nat
  /-- good frames with a rate switch -/
  brs : Nat
  /-- errors seen at each candidate -/
  errs : List Nat
  /-- dwell time in ms -/
  dwell : Nat
  /-- raw time at which the candidate was committed -/
  t0 : Nat
  /-- mode to enter at the end -/
  final : Nat
  /-- mode and timing words in effect before -/
  prior : Nat × Word × Word
  deriving DecidableEq, Repr

structure CanSt where
  /-- owner by the line matrix: engine (R270) -/
  owner : Option Nat
  /-- transmit queue: records, oldest first (R340) -/
  txq : List (List Word)
  /-- words of a record being assembled (R340) -/
  txw : List Word
  /-- receive buffer: records, the oldest perhaps taken in part (R347) -/
  rxb : List (List Word)
  /-- transmit events of a controller without owner (R344) -/
  evq : List (List Word)
  /-- the head record's attempt is on the bus since this raw time (R343) -/
  onBus : Option Nat
  /-- start-of-frame stamp of the head's last attempt; a cancel came too late for the attempt on the bus -/
  sof : Nat
  /-- a cancel came too late for the attempt on the bus (R344) -/
  late : Bool
  /-- a commit waits for bus idle (R337), with the commands that asked and their result words -/
  commitReq : Bool
  /-- commands that wait for the commit, with their results (R337) -/
  commitSeqs : List (Nat × List Word)
  /-- the rate detection in hand (R352) -/
  detect : Option CanDetect
  deriving DecidableEq, Repr

/-- An address-table entry (R362): VID, address, port mask, static, raw time of the last refresh. -/
structure FdbEnt where
  /-- VLAN -/
  vid : Nat
  /-- address -/
  mac : Nat
  /-- its ports, a bit each -/
  port : Nat
  /-- a static entry -/
  static : Bool
  /-- engine endpoint for port 7 -/
  ep : Nat
  /-- raw time of the last refresh (R363) -/
  raw : Nat
  deriving DecidableEq, Repr

/-- A frame in a MAC's egress queue: bytes from the destination address on (untagged), VID, PCP, class, stamp identifier where a transmit stamp is
asked for, and the number of the frame whose cells it shares (R368). -/
structure SwFrame where
  /-- its bytes -/
  data : List Byte
  /-- its VLAN -/
  vid : Nat
  /-- its priority code -/
  pcp : Nat
  /-- its class (R369) -/
  cls : Nat
  /-- identifier of a transmit stamp that is asked for (R371) -/
  stamp : Option Word
  /-- number of the frame whose cells it shares (R368) -/
  id : Nat
  deriving DecidableEq, Repr

structure MacSt where
  /-- egress queues by class, oldest first (R369) -/
  queues : List (List SwFrame)
  /-- gate list: entry in force, none while no list runs; presented time of the cycle's start, in 2^-16 ns (R370) -/
  gpos : Option Nat
  /-- presented start of the gate list's cycle (R370) -/
  gstart : Int
  /-- presented time at which a list by base time is to start -/
  gdue : Option Int
  /-- a committed list waits for the next cycle start -/
  greq : Bool
  /-- raw time at which a pause ends (R364) -/
  pauseEnd : Nat
  /-- fallen back to CSMA/CD (R357) -/
  plcaFall : Bool
  deriving DecidableEq, Repr

structure NetSt where
  /-- the MACs (R355) -/
  macs : List MacSt
  /-- address table (R362) -/
  fdb : List FdbEnt
  /-- classifier entries by index (R375) -/
  classifier : List (Nat × List Word)
  /-- endpoint filters: endpoint and EtherType (R374) -/
  filters : List (Nat × Nat)
  /-- MAC address of the tier partner, learned from its 802.1AS exchange (R359) -/
  partner : Nat
  /-- number of the next frame written into the pool (R368) -/
  nextId : Nat
  /-- queue of the engine port: endpoint, frame, and the words of its record not yet in the channel FIFO (R374) -/
  engq : List (Nat × SwFrame × List Word)
  /-- transmit records being assembled, by endpoint (R374) -/
  txw : List (Nat × List Word)
  /-- receive descriptors of a ring in host memory that have been fetched (R373) -/
  hdesc : List (List Word)
  deriving DecidableEq, Repr

/-- A plan of a profile generator (R380). -/
inductive Plan where
  | none
  /-- to a position -/
  | pos (target : Int)
  /-- to a velocity, held -/
  | vel (v : Int)
  /-- to standstill under DMAX and JMAX -/
  | stop
  /-- to standstill at ESTOP -/
  | estop
  /-- linear, to a set-point at the raw time of a lap boundary (R389) -/
  | follow (p : Int) (at_ : Nat)
  deriving DecidableEq, Repr

/-- A homing sequence in progress (R392). -/
structure Homing where
  /-- sequence number of MOT.HOME (R392) -/
  seq : Nat
  /-- an index edge ends it -/
  index : Bool
  /-- the direction of the search -/
  up : Bool
  /-- fast velocity -/
  fast : Nat
  /-- slow velocity -/
  slow : Nat
  /-- distance beyond the release -/
  back : Nat
  /-- search limit -/
  limit : Nat
  /-- position of the latched edge -/
  offset : Int
  /-- position from which the search limit counts -/
  start : Int
  /-- position at which the switch released -/
  release : Option Int
  /-- latched position, 1/256 unit -/
  latched : Option Int
  deriving DecidableEq, Repr

/-- A queued move (R381): start kind (1 split point, 2 trigger), number, plan, VMAX of the move. -/
structure QMove where
  /-- its start: 1 a split point, 2 a trigger (R381) -/
  kind : Nat
  /-- number of the split point or trigger -/
  k : Nat
  /-- the move -/
  plan : Plan
  /-- its velocity limit -/
  vmax : Nat
  deriving DecidableEq, Repr

/-- A latch that waits for the next step (R393): its instant, the command that asked, and whether it is of a homing. -/
structure LatReq where
  /-- its instant (R393) -/
  raw : Nat
  /-- command that waits for it -/
  seq : Option Nat
  /-- asked by the homing -/
  home : Bool
  deriving DecidableEq, Repr

structure MotSt where
  /-- plan in force and its VMAX, and the plan that the next step-interval computation takes up (R381) -/
  plan : Plan
  /-- its VMAX -/
  vmax : Nat
  /-- the plan, and its VMAX, that the next step-interval computation takes up (R381) -/
  next : Option (Plan × Nat)
  /-- what the plan starts from and its limits: ideal position in 1/256 unit, velocity, acceleration, kind, goal, VMAX, AMAX, DMAX, JMAX, ESTOP -/
  key : List Int
  /-- raw time at which the plan started (R380) -/
  startRaw : Nat
  /-- the step timer runs, since when and with which interval in CLK_ENG ticks; dry: it expires without a step (R383) -/
  armed : Bool
  /-- raw time since which the step timer runs (R383) -/
  armRaw : Nat
  /-- its interval in CLK_ENG ticks (R383) -/
  interval : Nat
  /-- the step timer expires without a step (R383) -/
  dry : Bool
  /-- raw time of the last standstill (R395) -/
  stillRaw : Nat
  /-- the move that waits for its start (R381) -/
  queued : Option QMove
  /-- the homing in hand (R392) -/
  home : Option Homing
  /-- latches that wait for the next step (R393) -/
  latReq : List LatReq
  /-- latch armed on an edge: source, number, rising, command (R394) -/
  latArm : Option (Nat × Nat × Bool × Nat)
  /-- raw time and position after each of the last 1,024 steps, newest first -/
  hist : List (Nat × Int)
  /-- MOT.STOP commands that wait for standstill -/
  stopSeqs : List Nat
  /-- FAULT follows at standstill (R494); the limit event follows at standstill (R390) -/
  faultAfter : Bool
  /-- the limit event follows at standstill (R390) -/
  limitAfter : Bool
  deriving DecidableEq, Repr

structure DrvSt where
  /-- coil measurement running (R396) -/
  measuring : Bool
  /-- raw time at which the coil current was switched on (R399) -/
  coilRaw : Nat
  /-- hold current in use in phase mode (R395) -/
  holding : Bool
  deriving DecidableEq, Repr

def CalSt.init : CalSt := ⟨3, [], false, none, false, false, [], [], 0, 0, 0⟩
def LineSt.init : LineSt := ⟨CalSt.init, none, none, true⟩
def DioSt.init : DioSt := ⟨CalSt.init, none, none, false⟩
def FieldSt.init : FieldSt := ⟨List.replicate 64 DioSt.init, [], [], [], List.replicate 8 false⟩
def CanSt.init : CanSt := ⟨none, [], [], [], [], none, 0, false, false, [], none⟩
def MacSt.init : MacSt := ⟨List.replicate 8 [], none, 0, none, false, 0, false⟩
def NetSt.init : NetSt := ⟨List.replicate 4 MacSt.init, [], [], [], 0, 0, [], [], []⟩
def MotSt.init : MotSt :=
  { plan := .none, vmax := 0, next := none, key := [], startRaw := 0, armed := false, armRaw := 0, interval := 0, dry := false, stillRaw := 0,
    queued := none, home := none, latReq := [], latArm := none, hist := [], stopSeqs := [], faultAfter := false, limitAfter := false }
def DrvSt.init : DrvSt := ⟨false, 0, false⟩

end Sys2Proof.Machine
end

