-- ==== Sys2Proof/Machine/UnitsRing.lean ====
section
/-! DEFINITION. The state, beside their registers, of the ring unit, network time, the marshal and the heal unit (chapters 03–06).
Direction 0 is primary (egress east, ingress west), direction 1 secondary; port 0 is east, port 1 west. -/
namespace Sys2Proof.Machine
open Sys2Proof

/-- A frame in one direction's insertion queue (R77). -/
structure InsFrame where
  /-- the frame -/
  frame : RFrame
  /-- a transmit stamp is asked for (R121) -/
  stamp : Bool
  /-- frame from a replay, which draws on no credit pool (R158) -/
  replay : Bool
  deriving DecidableEq, Repr

/-- What waits in a transit buffer: a forwarded open frame (R76), or a heal marker behind it (R153). -/
inductive TransItem where
  | frame (f : RFrame)
  | mark (value : Nat)
  deriving DecidableEq, Repr

/-- An entry of the starter's grant table (R85). -/
structure GrantEnt where
  /-- station identifier [31:0] -/
  sidLo : Word
  /-- station identifier [63:32] -/
  sidHi : Word
  /-- the address granted -/
  addr : Nat
  /-- generation of its configuration -/
  gen : Nat
  /-- its ring schedule image (R85) -/
  image : List Word
  deriving DecidableEq, Repr

/-- A commit of the shadow schedule generation that waits for its lap (R89, R90). -/
structure CommitReq where
  /-- generation to commit (R89) -/
  gen : Nat
  /-- lap of the commit -/
  lap : Nat
  /-- a commit of the whole ring (R89) -/
  wide : Bool
  /-- the RING.COMMIT command that asked for it, if one did -/
  seq : Option Nat
  deriving DecidableEq, Repr

structure RingSt where
  /-- consecutive good lap frames by port while in LISTEN (R87) -/
  good : List Nat
  /-- the RING.JOIN command in progress -/
  joinSeq : Option Nat
  /-- the RING.LEAVE command in progress and the generation it names -/
  leaveSeq : Option Nat
  /-- laps without an answer, busy answers and silent periods of the request (R87) -/
  silentLaps : Nat
  /-- busy answers to the request (R87) -/
  busyAns : Nat
  /-- silent periods of the request (R87) -/
  silent : Nat
  /-- close or leave lap of this station (R87) -/
  closeLap : Option Nat
  /-- leave lap of this station (R87) -/
  leaveLap : Option Nat
  /-- the starter's grant table (R85) -/
  grants : List GrantEnt
  /-- the station IDs the starter has granted membership to, with their addresses (R85) -/
  members : List (Word × Word × Nat)
  /-- the lap until which the starter handles one join or leave (R86) -/
  handling : Option Nat
  /-- commits that wait for their lap (R89) -/
  commit : List CommitReq
  /-- regions published for the lap (R72): bit d × 8 + n -/
  published : Nat
  /-- splitcommit waits for the boundary (R82) -/
  splitReq : Bool
  /-- insertion queues of the two directions (R77), oldest first -/
  insq : List (List InsFrame)
  /-- transit buffers of the two directions (R76), oldest first -/
  transit : List (List TransItem)
  /-- credit pools: request primary, request secondary, response primary, response secondary (R77) -/
  credit : List Int
  /-- stations whose process frame was written into the back half (R78) -/
  backMap : List Nat
  /-- insertion sequence counters (R65), keyed by (ring × 4096 + station) × 4 + class -/
  seqs : List (Nat × Nat)
  /-- ports enabled for this membership (R87) -/
  portOn : List Bool
  /-- the station stopped inserting at a generation mismatch or left the ring (R87, R89) -/
  mute : Bool
  /-- the generation the ring runs in, where this station missed it (R89) -/
  ringGen : Nat
  /-- address and ring of the starter, from the lap frames (R86) -/
  starterRing : Nat
  /-- station address of the starter (R86) -/
  starterStation : Nat
  /-- split points that have fired in this lap (R81) -/
  splitFired : Nat
  /-- the ring-role entry of the store is due: 1 to be written, 2 to be removed (R482) -/
  recDue : Nat
  deriving DecidableEq, Repr

/-- A start claim recorded (R109): priority, station ID, station address, schedule generation. -/
structure Claim where
  /-- starter priority (R109) -/
  prio : Nat
  /-- station identifier -/
  sid : Nat
  /-- station address -/
  station : Nat
  /-- generation -/
  gen : Nat
  deriving DecidableEq, Repr

/-- A usable copy of the current lap's lap frame (R104): hops, direction, ingress stamp in 78.125 ps, reference arrival and offset, both in
2^-16 ns; correction plus fibre delay, in 2^-16 ns. -/
structure LapCopy where
  /-- hops travelled -/
  hops : Nat
  /-- direction it travelled in -/
  dir : Nat
  /-- receive stamp -/
  stamp : Int
  /-- offset it gives (R104) -/
  theta : Int
  /-- correction field -/
  cf : Int
  deriving DecidableEq, Repr

/-- One link's delay measurement (R98–R100). -/
structure LinkSt where
  /-- sequence number of the next request -/
  seq : Nat
  /-- the request that awaits its response: its sequence number and departure t1, in 78.125 ps -/
  asked : Option (Nat × Int)
  /-- accepted samples held, in 2^-16 ns, newest first -/
  samples : List Int
  deriving DecidableEq, Repr

/-- One trigger beside its registers (R118, R119). -/
structure TrigSt where
  /-- next occurrence, in 2^-16 ns of presented time -/
  next : Option Int
  /-- firings left; none without end -/
  left : Option Nat
  /-- the pin is driven active -/
  active : Bool
  deriving DecidableEq, Repr

/-- One MAC's precision-time role (R122). -/
structure PtpSt where
  /-- role (R122) -/
  role : Nat
  /-- profile -/
  profile : Nat
  /-- domain number -/
  domain : Nat
  /-- message intervals -/
  intervals : Word
  /-- the latest offset -/
  offset : Word
  deriving DecidableEq, Repr

/-- A measurement of ring asymmetry in progress (R116): its command, laps left, this lap's results by direction, the sum of their differences
and the laps that gave one. -/
structure AsymRun where
  /-- sequence number of TIME.ASYM (R116) -/
  seq : Nat
  /-- laps left -/
  left : Nat
  /-- the offsets of the lap in hand, by port -/
  got : List (Option Int)
  /-- sum of the differences -/
  sum : Int
  /-- laps that gave one -/
  used : Nat
  deriving DecidableEq, Repr

structure TimeSt where
  /-- the integral of the servo (R105), 2^-40 -/
  integral : Int
  /-- offsets summed since the last update, and how many laps gave one -/
  acc : Int
  /-- offsets in acc -/
  accN : Nat
  /-- laps that have given an offset since the last update (R105) -/
  laps : Nat
  /-- the next offset is stepped whatever its size (R105) -/
  first : Bool
  /-- consecutive laps within synclim (R105) -/
  inSync : Nat
  /-- presented start of the current lap and of the next, in 2^-16 ns (R106) -/
  lapStart : Int
  /-- presented start of the next lap, in 2^-16 ns (R106) -/
  nextStart : Int
  /-- number of the next lap (R106) -/
  nextLap : Nat
  /-- a copy of the current lap's lap frame has been taken in -/
  taken : Bool
  /-- the copy chosen by R104 -/
  copy : Option LapCopy
  /-- consecutive missed laps (R111) -/
  missed : Nat
  /-- laps of the last two in which a lap frame was received -/
  ran : List Bool
  /-- the claims held (R109) -/
  claims : List Claim
  /-- raw time at which LISTEN began (R111) -/
  listenRaw : Option Nat
  /-- raw time at which CLAIM settles (R111) -/
  settleRaw : Option Nat
  /-- a step announced for a lap (R107): lap, amount in 2^-16 ns -/
  step : Option (Nat × Int)
  /-- the next lap frame carries stepped, or takeover -/
  stepped : Bool
  /-- the next lap frame carries takeover (R113) -/
  tookOver : Bool
  /-- values that take effect at the next boundary (R96, R116, R124) -/
  rateReq : Option Int
  /-- servo setting that takes effect at the next boundary (R105) -/
  servoReq : Option Nat
  /-- asymmetries that take effect at the next boundary (R116) -/
  asymReq : List (Nat × Word)
  /-- ports whose asymmetry has been set (R116) -/
  asymSet : List Nat
  /-- measurement of TIME.ASYM mode 1 (R116) -/
  asymRun : Option AsymRun
  /-- the starter stops sending lap frames from its next boundary (R115) -/
  yield : Bool
  /-- the ports' links (R98) -/
  links : List LinkSt
  /-- raw time of the last delay request sent while no lap ran -/
  reqRaw : Nat
  /-- the triggers beside their registers (R118) -/
  trigs : List TrigSt
  /-- capture queues: raw and auxiliary word -/
  capts : List (List (Nat × Word))
  /-- transmit stamp queues: raw, identifier, auxiliary word -/
  tsqs : List (List (Nat × Word × Word))
  /-- the PTP ports (R122) -/
  ptp : List PtpSt
  deriving DecidableEq, Repr

structure MrshSt where
  /-- references M_n in 78.125 ps, newest first (R126) -/
  refs : List Int
  /-- laps with a reference, consecutive, while UNLOCKED or DESYNC -/
  held : Nat
  /-- references taken in this lap -/
  took : Bool
  /-- laps missed in a row -/
  missed : Nat
  /-- the rate k as a fraction -/
  kNum : Int
  /-- denominator of the rate k -/
  kDen : Int
  /-- predicted boundary P_n of the current lap (R127) -/
  cur : Int
  /-- predicted boundary P_(n+1) -/
  next : Int
  /-- cuts of past laps, newest first, the current lap at the head (R135) -/
  cuts : List Nat
  /-- lap numbers of the last desynchronisations -/
  desyncs : List Nat
  /-- raw time at which the idle period of a desynchronisation ends -/
  idleEnd : Option Nat
  /-- a commit of the marshal's fields waits for the boundary (R140) -/
  commitReq : Bool
  /-- a mode that takes effect at the next boundary (R127) -/
  modeReq : Option Nat
  /-- the window log: time and entry (R133) -/
  wlog : List (Word × Word)
  /-- watch entries that have seen their frame this lap -/
  seen : List Nat
  deriving DecidableEq, Repr

/-- Receive state per source (R161). -/
inductive RxSt where
  | normal | hold | holdReplay | recover | recoverReplay | fenced
  deriving DecidableEq, Repr

/-- One entry of the receive stream table (R145). -/
structure Stream where
  /-- ring of the source (R145) -/
  ring : Nat
  /-- station of the source -/
  station : Nat
  /-- expected numbers of unicast class 1, unicast class 2, broadcast class 1; none accepts the next frame whatever its seq -/
  exp : List (Option Nat)
  /-- state of the stream (R157) -/
  st : RxSt
  /-- a gap was found in the replay -/
  gap : Bool
  /-- a frame was discarded in HOLD -/
  disc : Bool
  /-- requests sent and unanswered (R160) -/
  tries : Nat
  /-- raw time of the last marker or request -/
  since : Nat
  /-- cause of its fence (R164) -/
  cause : Nat
  deriving DecidableEq, Repr

/-- A replay waiting its turn (R158, R160): none for a marker replay, or the requester and its mask and expected numbers. -/
structure ReplayReq where
  /-- raw time of the marker, for a marker replay -/
  marker : Option Nat
  /-- ring of the requester (R158) -/
  ring : Nat
  /-- station of the requester -/
  station : Nat
  /-- streams asked for -/
  mask : Nat
  /-- sequence number expected of each stream -/
  exp : List Nat
  deriving DecidableEq, Repr

/-- A frame kept for replay (R156). -/
structure Kept where
  /-- the frame kept -/
  frame : RFrame
  /-- raw time at which it was sent -/
  raw : Nat
  deriving DecidableEq, Repr

structure HealSt where
  /-- the receive stream table (R145) -/
  streams : List Stream
  /-- the wraps known of: station and port (R152) -/
  wrapTab : List (Nat × Nat)
  /-- entries an unwrap notice removes at the next boundary (R153) -/
  wrapGone : List (Nat × Nat)
  /-- the replay buffers, oldest first (R156) -/
  rbuf : List (List Kept)
  /-- replays that wait (R158) -/
  queue : List ReplayReq
  /-- markers forwarded lately and when (R153) -/
  recent : List (Nat × Nat)
  /-- laps each wrapped port has been ready (R154) -/
  ready : List Nat
  /-- unwrap lap agreed or proposed, by port -/
  lapU : List (Option Nat)
  /-- ports held failed by RING.HEAL mode 1 (R168) -/
  forced : List Bool
  /-- ports receiving Remote Fault -/
  remote : List Bool
  deriving DecidableEq, Repr

end Sys2Proof.Machine
end

