-- ==== Sys2Proof/Machine/UnitsStage.lean ====
section
/-! DEFINITION. The state, beside their registers, of the processors (stage pairs and engines), the stage sequencers and the stagehands
(chapters 08–10). Processor numbers: 0 and 1 are the stage pairs, 2 + n is ENGn. -/
namespace Sys2Proof.Machine
open Sys2Proof

/-- Why a processor does not execute at present. An instruction that waits for something else (a FIFO, an event, a bank, its own stores) leaves the
processor as it was, at the same address (R262, R263). -/
inductive Stall where
  /-- it executes -/
  | none
  /-- an access through the aperture has not finished (R190) -/
  | fabric
  /-- it waits for its next entry: the cycle has ended, or it is halted (R212, R217) -/
  | cycle
  /-- halted by a debugger (R254) -/
  | debug
  deriving DecidableEq, Repr

/-- A processor's registers (R233, R235): w1–w31, pc, and the special registers by their numbers. -/
structure Proc where
  /-- w0–w31; w0 reads 0 -/
  w : List Word
  /-- the program counter (R233) -/
  pc : Nat
  /-- special registers by number (R235) -/
  sr : List Word
  /-- why it waits (R243) -/
  stall : Stall
  /-- what the finished aperture accesses of the instruction in hand have returned, oldest first (R190) -/
  got : List Word
  deriving DecidableEq, Repr

/-- A section of a stage image as the sequencer uses it (R210): image slot and the section header's 32 words. -/
structure Section where
  /-- the slot that holds it (R210) -/
  slot : Nat
  /-- its header words -/
  hdr : List Word
  deriving DecidableEq, Repr

/-- One stage pair and its sequencer beside their registers. -/
structure PairSt where
  /-- the running section -/
  sect : Option Section
  /-- code half in use (R208) -/
  half : Nat
  /-- state the pair is to enter at the next cycle boundary (R217): 2 STOP, 3 RUN, 4 HOLD, 5 one step then HOLD; and the command that waits -/
  want : Option (Nat × Option Nat)
  /-- a step cycle is running -/
  step1 : Bool
  /-- raw time of the cycle boundary, and laps begun since it -/
  cycRaw : Nat
  /-- laps begun since the cycle boundary (R214) -/
  cycLaps : Nat
  /-- raw time at which the logic phase began -/
  logicFrom : Nat
  /-- a cycle is in its logic phase without watchdog and output offset (R217, HOLD resumed) -/
  free : Bool
  /-- logic has ended and write outputs waits for the offset (R212) -/
  wrDue : Bool
  /-- the load's init entry is running: the restart command, and the state requested after it (R220) -/
  loading : Option (Option Nat × Nat)
  /-- load time of the restart, in µs -/
  loadUs : Word
  /-- a restart waits for write outputs: its command -/
  restart : Option Nat
  /-- the cycle fields committed wait for the boundary (R230) -/
  cycReq : Bool
  /-- age of each input entry (R213) -/
  ages : List Nat
  /-- retained write buffer: word address and value (R219), oldest first -/
  rbuf : List (Nat × Word)
  /-- journal record written and not yet applied: address and value, and its cycle number -/
  jpend : List (Nat × Word)
  /-- the cycle number of that record (R228) -/
  jcyc : Nat
  /-- journal slot that the next record takes -/
  jslot : Nat
  /-- slot verified for the pair, and slot of the armed understudy (R225) -/
  verified : Option Nat
  /-- slot of the armed understudy (R225) -/
  armed : Option Nat
  /-- cue commanded: command, lap (R226) -/
  cue : Option (Nat × Nat)
  /-- the sequencer has refreshed in this lap (R215) -/
  refreshed : Bool
  /-- lap-image outputs were published in this lap, for the undelivered check (R228) -/
  published : Bool
  /-- lap-image words of safe actions, by offset, that the next refresh writes (R217) -/
  safeImg : List (Nat × Word)
  /-- event word bits for `wev` (R263) -/
  ev : Nat
  deriving DecidableEq, Repr

/-- One script engine beside its registers. -/
structure EngSt where
  /-- code length of the script in use (R272) -/
  codeLen : Nat
  /-- raw time of the last watchdog restart, and the period in 10 µs units; 0 disables (R278, R497) -/
  wdRaw : Nat
  /-- watchdog period in 10 µs units; 0 disables (R278, R497) -/
  wdPeriod : Nat
  /-- channel transmit and receive FIFOs (R279) -/
  tx : List (List Word)
  /-- channel receive FIFOs (R279) -/
  rx : List (List Word)
  /-- last word popped of each unit, for stale pops (R262) -/
  lastPop : List (Nat × Word)
  /-- message offset handed to the gate and not yet taken (R281) -/
  gtx : Option Nat
  /-- byte addresses with a parity error (R273) -/
  parity : List Nat
  /-- the ENG.START whose script is being loaded (R276, R284) -/
  loadSeq : Option Nat
  deriving DecidableEq, Repr

/-- One stagehand beside its registers (R290–R303). -/
structure HandSt where
  /-- fraction accumulator of the divider (R290) -/
  acc : Nat
  /-- further ticks the present instruction holds (R291) -/
  hold : Nat
  /-- a wait has begun at the instruction at the PC (WAITFOR of a trigger, SIGNAL act 2) -/
  waitOn : Bool
  /-- TRIGEV bits seen since the wait began -/
  trigSeen : Nat
  /-- the transmit FIFO (R293) -/
  txf : List Word
  /-- the receive FIFO (R293) -/
  rxf : List Word
  /-- last word TAKE took (R295) -/
  last : Word
  /-- last word popped by the engine side -/
  lastRx : Word
  /-- output levels of P0–P7 -/
  out : Nat
  /-- a commit waits for the next tick (R298) -/
  commitReq : Bool
  deriving DecidableEq, Repr

/-- A script image held in the library (R283): ID, version, address and length in bytes. -/
structure LibEnt where
  /-- script identifier (R283) -/
  id : Nat
  /-- its version -/
  version : Nat
  /-- address of its image -/
  addr : Nat
  /-- its length -/
  len : Nat
  deriving DecidableEq, Repr

/-- The ad-lib decode table entry (R265–R268): its words. -/
structure AdlibSt where
  /-- the ad-lib decode table: the words of each entry (R265) -/
  entries : List (Nat × List Word)
  /-- locked until reset (R268) -/
  locked : Bool
  deriving DecidableEq, Repr

end Sys2Proof.Machine
end

