-- ==== Sys2Proof/Machine/State.lean ====
section
/-! DEFINITION. The station's state as plain data: registers, memory, the state of each unit beside its registers, and the queue of waiting
commands; why a step stops; and the state right after power-on reset. -/
namespace Sys2Proof.Machine
open Sys2Proof

/-- A fault of the model: no command of the station ends in one; where the spec stops a unit, the unit's own state says so. -/
inductive Fault where
  /-- never raised by a command; kept so that the type is not empty. Safe. -/
  | stopped
  deriving DecidableEq, Repr

/-- Why the model gives no meaning. -/
inductive Refusal where
  /-- raised by `exec` for a command whose meaning is not written yet. Safe. -/
  | notModelled (mnemonic : String)
  deriving DecidableEq, Repr

structure State where
  /-- committed value of each register, by backstage address; an unlisted one holds its Cold value (R7) -/
  regs : List (Nat × Word)
  /-- shadow value of each register with RWC fields written since the last commit (R9) -/
  shadow : List (Nat × Word)
  /-- bytes of house memory, engine local memory, stage TCMs, lap buffer and MRAM, by local address; an unlisted byte reads 0 -/
  mem : List Host.Cell
  /-- the raw counter, in CLK_FAB ticks of 2.5 ns, modulo 2^64 (R92) -/
  raw : Nat
  cmd : CmdSt
  memu : MemSt
  host : HostSt
  power : PowerSt
  ring : RingSt
  time : TimeSt
  mrsh : MrshSt
  heal : HealSt
  fab : FabSt
  gate : GateSt
  pairs : List PairSt
  procs : List Proc
  engs : List EngSt
  hands : List HandSt
  adlib : AdlibSt
  /-- the script library's directory, in the order of loading (R283) -/
  lib : List LibEnt
  lines : List LineSt
  field : FieldSt
  cans : List CanSt
  net : NetSt
  mots : List MotSt
  drvs : List DrvSt
  /-- what has left the station, newest first (notes/assumptions/3.md): the model's own field -/
  out : List Emit
  /-- how many open values have been used (notes/assumptions/5.md): the model's own field -/
  free : Nat
  /-- commands waiting, first in, first out -/
  pending : List Instr
  deriving DecidableEq, Repr

/-- What a command's meaning answers. -/
abbrev Out := Host.Outcome State Fault Refusal

def QueueSt.init : QueueSt := ⟨[], 0, 0, false, false, none⟩

def CmdSt.init : CmdSt := ⟨[], 0, List.replicate 8 QueueSt.init, 0, 1, 100, 10, false, false, none, none, []⟩

def MemSt.init : MemSt := ⟨[], [], [], [], [], [], [], [0, 0x01400000, 0x01800000, 0x02000000], [0, 0, 0, 0], List.replicate 8 ⟨0, [], 0, false⟩, []⟩

def FnSt.init : FnSt := ⟨false, false, [], [], []⟩

def HostSt.init : HostSt := ⟨[FnSt.init, FnSt.init], [], false, false, 0, false, none, 0, false, []⟩

def PowerSt.init : PowerSt :=
  { on := true, pll := false, starting := some 1, full := true, booted := false, bootRaw := 0, todo := [], cur := none, low := false,
    goodWin := List.replicate 9 0, moved := [], railsOut := [], hot := [] }

def RingSt.init : RingSt :=
  ⟨[0, 0], none, none, 0, 0, 0, none, none, [], [], none, [], 0, false, [[], []], [[], []], [0, 0, 0, 0], [], [], [false, false], false, 0, 0, 0, 0, 0⟩

def LinkSt.init : LinkSt := ⟨0, none, []⟩

def TrigSt.init : TrigSt := ⟨none, none, false⟩

def PtpSt.init : PtpSt := ⟨0, 0, 0, 0, 0⟩

def TimeSt.init : TimeSt :=
  { integral := 0, acc := 0, accN := 0, laps := 0, first := true, inSync := 0, lapStart := 0, nextStart := 0, nextLap := 0, taken := false,
    copy := none, missed := 0, ran := [], claims := [], listenRaw := none, settleRaw := none, step := none, stepped := false,
    tookOver := false, rateReq := none, servoReq := none, asymReq := [], asymSet := [], asymRun := none, yield := false,
    links := [LinkSt.init, LinkSt.init], reqRaw := 0, trigs := List.replicate 8 TrigSt.init, capts := List.replicate 8 [],
    tsqs := List.replicate 6 [], ptp := List.replicate 4 PtpSt.init }

def MrshSt.init : MrshSt := ⟨[], 0, false, 0, 1, 1, 0, 0, [], [], none, false, none, [], []⟩

def HealSt.init : HealSt := ⟨[], [], [], [[], []], [], [], [0, 0], [none, none], [false, false], [false, false]⟩

def FabSt.init : FabSt :=
  ⟨[], 0, List.replicate 64 none, List.replicate 64 0, List.replicate 16 none, List.replicate 16 0, [], []⟩

def GateSt.init : GateSt := ⟨[], [], [], [], []⟩

def PairSt.init : PairSt :=
  { sect := none, half := 0, want := none, step1 := false, cycRaw := 0, cycLaps := 0, logicFrom := 0, free := false, wrDue := false, loading := none,
    loadUs := 0, restart := none, cycReq := false, ages := [], rbuf := [], jpend := [], jcyc := 0, jslot := 0, verified := none, armed := none,
    cue := none, refreshed := false, published := false, safeImg := [], ev := 0 }

def Proc.init : Proc := ⟨List.replicate 32 0, 0, List.replicate 16 0, .cycle, []⟩

def EngSt.init : EngSt := ⟨0, 0, 0, List.replicate 8 [], List.replicate 8 [], [], none, [], none⟩

def HandSt.init : HandSt := ⟨0, 0, false, 0, [], [], 0, 0, 0, false⟩

/-- The station right after power-on reset: every register at its Cold value, house memory, TCMs and lap buffer zero, the gate TESTING, the core
PLL not yet locked and the start-up still to come (R475). -/
def State.reset : State :=
  { regs := [], shadow := [], mem := [], raw := 0, cmd := CmdSt.init, memu := MemSt.init, host := HostSt.init, power := PowerSt.init,
    ring := RingSt.init, time := TimeSt.init, mrsh := MrshSt.init, heal := HealSt.init, fab := FabSt.init, gate := GateSt.init,
    pairs := List.replicate 2 PairSt.init, procs := List.replicate 18 Proc.init, engs := List.replicate 16 EngSt.init,
    hands := List.replicate 32 HandSt.init, adlib := ⟨[], false⟩, lib := [], lines := List.replicate 48 LineSt.init, field := FieldSt.init,
    cans := List.replicate 16 CanSt.init, net := NetSt.init, mots := List.replicate 8 MotSt.init, drvs := List.replicate 8 DrvSt.init,
    out := [], free := 0, pending := [] }

end Sys2Proof.Machine
end

