-- ==== Sys2Proof/Machine/Ops.lean ====
section
/-! DEFINITION. The named operations over registers (R6–R9), counters, open values and what leaves the station. -/
namespace Sys2Proof.Machine
open Sys2Proof

/-- Is any unit out of reset: the internal rails are up and the core PLL has locked (R468, R473)? -/
def State.alive (s : State) : Bool := s.power.on && s.power.pll

/-- The committed value of the register at backstage address `a`. -/
def State.reg (s : State) (a : Nat) : Word := sget (coldWord a) s.regs a

/-- Set the committed value of the register at `a`. -/
def State.setReg (s : State) (a : Nat) (v : Word) : State := { s with regs := sset (coldWord a) s.regs a v }

/-- A committed field as a number. -/
def State.rd (s : State) (f : Fld) : Nat := getF (s.reg f.addr) f.lo f.w

/-- Is a field not zero? -/
def State.on (s : State) (f : Fld) : Bool := decide (s.rd f ≠ 0)

/-- Set a committed field. -/
def State.wr (s : State) (f : Fld) (v : Nat) : State := s.setReg f.addr (setF (s.reg f.addr) f.lo f.w v)

/-- Add to a counter that saturates at its largest value. -/
def State.addc (s : State) (f : Fld) (n : Nat) : State := s.wr f (min (s.rd f + n) (2 ^ f.w - 1))

/-- Count one in a saturating counter. -/
def State.inc (s : State) (f : Fld) : State := s.addc f 1

/-- A field held in two's complement. -/
def State.rdI (s : State) (f : Fld) : Int := sgn f.w (s.rd f)

/-- Set a field to the low bits of an integer. -/
def State.wrI (s : State) (f : Fld) (z : Int) : State := s.wr f (wrapI f.w z)

/-- Bit `i` of a field. -/
def State.bitOf (s : State) (f : Fld) (i : Nat) : Bool := (s.rd f).testBit i

/-- One bit of a field as a field. -/
def bitFld (f : Fld) (i : Nat) : Fld := ⟨f.addr, f.lo + i, 1⟩

/-- Sub-field `i` of width `w` of a field. -/
def subFld (f : Fld) (lo w : Nat) : Fld := ⟨f.addr, f.lo + lo, w⟩

/-- What a read of the register at `a` sees: the shadow of its RWC fields where one is pending (R6). -/
def State.shown (s : State) (a : Nat) : Word :=
  match slook s.shadow a, findRow a with
  | some v, some r => (s.reg a &&& ~~~ tyMask .rwc r) ||| (v &&& tyMask .rwc r)
  | _, _ => s.reg a

/-- A field as a read sees it: the shadow value of an RWC field (R6). -/
def State.rdS (s : State) (f : Fld) : Nat := getF (s.shown f.addr) f.lo f.w

/-- Hold a shadow word for the register at `a` until its commit (R9). -/
def State.setShadow (s : State) (a : Nat) (v : Word) : State := { s with shadow := sins (sdel s.shadow a) a v }

/-- Set a shadow field (R9). -/
def State.wrS (s : State) (f : Fld) (v : Nat) : State := s.setShadow f.addr (setF (s.shown f.addr) f.lo f.w v)

/-- Commit one register: its RWC fields take their shadow values (R9). -/
def State.commitReg (s : State) (a : Nat) : State :=
  match slook s.shadow a with
  | none => s
  | some v =>
    match findRow a with
    | none => s
    | some r =>
      let m := tyMask .rwc r
      { s.setReg a ((s.reg a &&& ~~~ m) ||| (v &&& m)) with shadow := sdel s.shadow a }

/-- Commit the registers of a unit together (R9). -/
def State.commitRegs (s : State) (as : List Nat) : State := as.foldl State.commitReg s

/-- Discard the shadow values of the registers of a unit (R9). -/
def State.dropShadow (s : State) (as : List Nat) : State := { s with shadow := s.shadow.filter (fun e => !as.contains e.1) }

/-- Do the registers of a unit hold uncommitted values? -/
def State.anyShadow (s : State) (as : List Nat) : Bool := s.shadow.any (fun e => as.contains e.1)

/-- Apply a state change for each item of a list, in order. -/
def State.each {α : Type} (s : State) (l : List α) (f : α → State → State) : State := l.foldl (fun t x => f x t) s

/-- Apply a state change if a condition holds. -/
def State.when (s : State) (c : Bool) (f : State → State) : State := if c then f s else s

/-- Record something that leaves the station (notes/assumptions/3.md). -/
def State.emit (s : State) (e : Emit) : State := { s with out := e :: s.out }

/-- A word the spec leaves open (notes/assumptions/5.md). -/
def State.freeW (s : State) : Word := Config.freeWord s.free

/-- Step past an open value that has been used. -/
def State.useFree (s : State) : State := { s with free := s.free + 1 }

/-- The next raw-counter tick (R92). -/
def State.tick (s : State) : State := { s with raw := (s.raw + 1) % 2 ^ 64 }

/-- Raw-counter words [31:0] and [63:32]. -/
def State.rawLo (s : State) : Nat := s.raw % 2 ^ 32
def State.rawHi (s : State) : Nat := s.raw / 2 ^ 32 % 2 ^ 32

/-- CLK_FAB ticks in a microsecond and in a millisecond (R17). -/
def tickUs : Nat := 400
def tickMs : Nat := 400000

/-- A processor, by number: 0 and 1 the stage pairs, 2 + n ENGn. -/
def State.setProc (s : State) (p : Nat) (f : Proc → Proc) : State := { s with procs := updAt s.procs p f }
def State.proc (s : State) (p : Nat) : Proc := s.procs.getD p Proc.init
/-- The special registers after a restart or a cue of a pair or a start of an engine: every RW field 0, and no handler runs (R235,
notes/assumptions/26.md). -/
def startSr (l : List Word) : List Word :=
  (List.range 16).map (fun i => if i = 0 then wAt l 0 &&& 0x00000304#32 else if i = 1 ∨ i = 4 ∨ i = 5 then 0#32 else wAt l i)
/-- A processor that starts anew gets no outcome of an access it made before: nobody waits for those any more. -/
def Ret.forget (p : Nat) (r : Ret) : Ret := if r = .proc p then .drop else r
def State.forgetProc (s : State) (p : Nat) : State :=
  { s with fab := { s.fab with reqs := s.fab.reqs.map (fun a => { a with ret := a.ret.forget p }),
                               tags := s.fab.tags.map (fun t => t.map (fun e => { e with acc := { e.acc with ret := e.acc.ret.forget p } })) } }
def State.setPair (s : State) (p : Nat) (f : PairSt → PairSt) : State := { s with pairs := updAt s.pairs p f }
def State.pair (s : State) (p : Nat) : PairSt := s.pairs.getD p PairSt.init
def State.setEng (s : State) (n : Nat) (f : EngSt → EngSt) : State := { s with engs := updAt s.engs n f }
def State.eng (s : State) (n : Nat) : EngSt := s.engs.getD n EngSt.init
def State.setHand (s : State) (h : Nat) (f : HandSt → HandSt) : State := { s with hands := updAt s.hands h f }
def State.hand (s : State) (h : Nat) : HandSt := s.hands.getD h HandSt.init
def State.setMot (s : State) (n : Nat) (f : MotSt → MotSt) : State := { s with mots := updAt s.mots n f }
def State.mot (s : State) (n : Nat) : MotSt := s.mots.getD n MotSt.init
def State.setDrv (s : State) (n : Nat) (f : DrvSt → DrvSt) : State := { s with drvs := updAt s.drvs n f }
def State.drv (s : State) (n : Nat) : DrvSt := s.drvs.getD n DrvSt.init
def State.setQueue (s : State) (q : Nat) (f : QueueSt → QueueSt) : State :=
  { s with cmd := { s.cmd with queues := updAt s.cmd.queues q f } }
def State.queue (s : State) (q : Nat) : QueueSt := s.cmd.queues.getD q QueueSt.init

end Sys2Proof.Machine
end

