-- ==== Sys2Proof/Machine/Flags.lean ====
section
/-! DEFINITION. Event flags, unit interrupts and their routes: MSI-X messages and the host interrupt pin (R452, R453). -/
namespace Sys2Proof.Machine
open Sys2Proof

/-- The unit interrupt source of the event register at `a` (R453). -/
def irqSource (a : Nat) : Nat :=
  match a / 0x10000 % 0x400 with
  | 0x01 => 15
  | 0x02 => 15
  | 0x03 => 14
  | 0x05 => 12
  | 0x06 => 13
  | 0x07 => 11
  | 0x08 => 11
  | 0x09 => 2
  | 0x0A => 0
  | 0x0B => 1
  | 0x0C => 3
  | 0x10 => 9
  | 0x11 => 6
  | 0x12 => 7
  | 0x13 => 8
  | 0x15 => if a < 0x04150200 then 4 else 5
  | 0x16 => 10
  | 0x18 => 16
  | _ => 31

/-- The host function a PCIe identity names (R431). -/
def fnOf (ident : Nat) : Nat := ident - 1

/-- Is the PCIe function fenced (R462)? -/
def State.fenced (s : State) (fn : Nat) : Bool := if fn = 0 then s.on F.HOST_FENCE_f0 else s.on F.HOST_FENCE_f1

/-- Bus Master Enable of a function (R451). -/
def State.bme (s : State) (fn : Nat) : Bool := s.bitOf F.HOST_STAT_bme fn

/-- Change what is held of a PCIe function. -/
def State.setFn (s : State) (fn : Nat) (f : FnSt → FnSt) : State := { s with host := { s.host with fns := updAt s.host.fns fn f } }
def State.fn (s : State) (fn : Nat) : FnSt := s.host.fns.getD fn FnSt.init

/-- Send an MSI-X message, or hold it pending while it is masked or Bus Master Enable is 0; for a function that is fenced or whose MSI-X Enable is 0 it
is discarded and counted (R451, R452). -/
def State.msix (s : State) (fn vec : Nat) : State :=
  let f := s.fn fn
  if !f.msixEn || s.fenced fn then s.inc F.HOST_CNT_IRQDROP
  else if f.fmask || f.vmask.contains vec then
    s.setFn fn (fun g => if g.pba.contains vec then g else { g with pba := g.pba ++ [vec] })
  else if s.bme fn then s.emit (.msix fn vec)
  else s.setFn fn (fun g => { g with waiting := g.waiting ++ [vec] })

/-- Raise a unit interrupt: a message to the function its route names; a route to the pin needs nothing, since the pin shows what is pending (R453). -/
def State.unitIrq (s : State) (src : Nat) : State :=
  match s.rd (F.HOST_IRQMAP_dest src) with
  | 1 => s.msix 0 (s.rd (F.HOST_IRQMAP_vector src))
  | 2 => s.msix 1 (s.rd (F.HOST_IRQMAP_vector src))
  | _ => s

/-- Set an event flag; where the enable register 4 bytes on has the same bit set and the flag was clear, raise the unit's interrupt
(notes/assumptions/6.md). -/
def State.event (s : State) (f : Fld) : State :=
  let was := s.on f
  let s := s.wr f 1
  if !was && s.on ⟨f.addr + 4, f.lo, f.w⟩ then s.unitIrq (irqSource f.addr) else s

/-- Event registers of each unit interrupt source (R453). -/
def evtRegs (src : Nat) : List Nat :=
  match src with
  | 0 => [0x040A0054, 0x040A0708]
  | 1 => [0x040B0010]
  | 2 => [0x04090074]
  | 3 => [0x040C0068]
  | 4 => [0x04150134]
  | 5 => [0x04150234]
  | 6 => [0x0411C020]
  | 7 => [0x04120090]
  | 9 => (List.range 16).map (fun i => 0x0410000C + i * 0x1000)
  | 10 => (List.range 8).map (fun i => 0x04160074 + i * 0x1000)
  | 11 => [0x04070050, 0x04080010]
  | 12 => [0x04050030]
  | 13 => [0x04060020]
  | 14 => [0x04030024]
  | 15 => [0x04010040, 0x04020004]
  | 16 => [0x04180010]
  | _ => []

/-- Is an event of the register at `a` set and enabled? -/
def State.evtOn (s : State) (a : Nat) : Bool := decide (s.reg a &&& s.reg (a + 4) ≠ 0)

/-- Is a unit interrupt source pending (R453)? Source 8 has no event register: it is pending while an engine is STOPPED (notes/assumptions/6.md). -/
def State.srcPending (s : State) (src : Nat) : Bool :=
  if src = 8 then (List.range 16).any (fun n => decide (s.rd (F.ENG_STATE_state n) = 3)) else (evtRegs src).any s.evtOn

/-- The owner of a queue, from its committed configuration (R27). -/
def State.owner (s : State) (q : Nat) : Nat := s.rd (F.CMD_QCFG_owner q)

/-- Has the boot ROM found no valid firmware slot (R479)? -/
def State.noFw (s : State) : Bool := !s.power.booted && s.power.starting.isNone

/-- Is HOST_IRQ_N asserted (R453): a source routed to the pin, a completion signal of a QSPI or parallel queue, a pending channel whose receiver is
one of them, or no valid firmware slot (R479)? -/
def State.irqPin (s : State) : Bool :=
  (List.range 17).any (fun i => decide (s.rd (F.HOST_IRQMAP_dest i) = 3) && s.srcPending i)
  || (List.range 8).any (fun q => (s.owner q = 3 || s.owner q = 4) && ((s.queue q).sig || (s.queue q).sigFinal))
  || (List.range 64).any (fun c => s.bitOf (F.CALL_PEND (c / 32)) (c % 32) && s.on (F.CALL_BIND_valid c)
      && (s.rd (F.CALL_BIND_recv c) = 3 || s.rd (F.CALL_BIND_recv c) = 4))
  || s.noFw

/-- The 32-bit pattern of an event register of an engine: set a latched bit (R274). -/
def State.engEvent (s : State) (n bitNo : Nat) : State := s.wr (bitFld (F.ENG_EVT n) bitNo) 1

/-- Set a bit of a stage pair's event word (R263). -/
def State.pairEvent (s : State) (p bitNo : Nat) : State := s.setPair p (fun x => { x with ev := x.ev ||| 2 ^ bitNo })

/-- State of a power domain: 0 ON, 1 RETENTION, 2 OFF, 3 changing (PWR_DOMSTk). -/
def State.domState (s : State) (code : Nat) : Nat := s.rd (subFld (F.PWR_DOMST (code / 16)) (code % 16 * 2) 2)
def State.setDom (s : State) (code st : Nat) : State := s.wr (subFld (F.PWR_DOMST (code / 16)) (code % 16 * 2) 2) st

end Sys2Proof.Machine
end

