-- ==== Sys2Proof/Machine/SafeOps.lean ====
section
/-! DEFINITION. The end of a command, the fault gate (R489–R494), a stage pair's FAULT (R217) and the stop of a profile generator by a fault. -/
namespace Sys2Proof.Machine
open Sys2Proof

/-- Give a started command its final status and result words, once (R48). -/
def State.fin (s : State) (seq st : Nat) (rs : List Word) : State :=
  { s with cmd := { s.cmd with cmds := s.cmd.cmds.map (fun c => if c.seq = seq && c.fin.isNone then { c with fin := some (st, rs) } else c) } }

/-- As `fin` for a command that may be there. -/
def State.finO (s : State) (o : Option Nat) (st : Nat) (rs : List Word) : State :=
  match o with
  | none => s
  | some q => s.fin q st rs

/-- A latch completes (R393): the position in 1/256 unit and its raw time are shown, a homing keeps it, and its command ends. -/
def State.latched (s : State) (n : Nat) (q : LatReq) (p : Int) : State :=
  let s := ((s.wrI (F.MOT_LATPOS_LO n) p).wrI (F.MOT_LATPOS_HI n) (p / 2 ^ 32)).wr (F.MOT_LATRAW_LO n) (q.raw % 2 ^ 32)
  let s := (((s.wr (F.MOT_LATRAW_HI n) (q.raw / 2 ^ 32 % 2 ^ 32)).wr (F.MOT_LATCTL_valid n) 1).event (F.MOT_EVT_latch n))
  let s := s.setMot n (fun x => if q.home then { x with home := x.home.map (fun h => { h with latched := some p }) } else x)
  s.finO q.seq 0x0000 [BitVec.ofInt 32 p, BitVec.ofNat 32 (wrapI 8 (p / 2 ^ 32)), BitVec.ofNat 32 q.raw]

/-- The position at an instant among the steps held, newest first (R393): none before the oldest. -/
def latchAt (t : Nat) : List (Nat × Int) → Option Int
  | (t1, p1) :: (t0, p0) :: rest =>
    if t0 ≤ t then some ((p0 * 256 * (t1 - t0 : Nat) + (p1 - p0) * 256 * (t - t0 : Nat)).tdiv (t1 - t0 : Nat)) else latchAt t ((t0, p0) :: rest)
  | _ => none

/-- Turn an instant into a position (R393): from the steps held; after the newest step, at standstill the present position, otherwise the latch waits. -/
def State.latch (s : State) (n : Nat) (q : LatReq) : State :=
  let x := s.mot n
  let after := match x.hist with | [] => true | (t, _) :: _ => decide (t ≤ q.raw)
  if after then
    if x.plan = .none then s.latched n q (s.rdI (F.MOT_POS n) * 256) else s.setMot n (fun y => { y with latReq := y.latReq ++ [q] })
  else match latchAt q.raw x.hist with
    | some p => s.latched n q p
    | none => (s.wr (F.MOT_LATCTL_err n) 1).finO q.seq 0x0200 []

/-- Take up again the latches that wait. -/
def State.latchAgain (s : State) (n : Nat) : State :=
  let l := (s.mot n).latReq
  (s.setMot n (fun x => { x with latReq := [] })).each l (fun q s => s.latch n q)

/-- A homing in progress fails with a reason (R392). -/
def State.homeFail (s : State) (n reason : Nat) : State :=
  match (s.mot n).home with
  | some h => ((s.setMot n (fun x => { x with home := none })).wr (F.MOT_STATE_hstate n) 0).fin h.seq 0x0200 [BitVec.ofNat 32 reason]
  | none => s

/-- A profile generator enters FAULT: no further step, its position kept, its plan and queued move gone; a homing in progress fails with reason 7
(R392, R398). -/
def State.motFault (s : State) (n : Nat) : State :=
  let s := (s.homeFail n 7).each (s.mot n).stopSeqs (fun q s => s.fin q 0x0200 [])
  let s := s.setMot n (fun x =>
    { x with plan := .none, next := none, armed := false, stillRaw := s.raw, queued := none, stopSeqs := [], faultAfter := false, limitAfter := false })
  ((((s.wr (F.MOT_STATE_state n) 5).wr (F.MOT_VEL n) 0).wr (F.MOT_ACC n) 0).event (F.MOT_EVT_fault n)).latchAgain n

/-- Begin a stop at ESTOP that ends in FAULT (R494). -/
def State.motTripStop (s : State) (n : Nat) : State :=
  if !(s.mot n).armed || s.rd (F.MOT_STATE_state n) = 5 then s.motFault n
  else
    ((s.homeFail n 7).setMot n (fun x => { x with next := some (.estop, 0), queued := none, faultAfter := true })).wr (F.MOT_STATE_state n) 4

/-- The safe-state action of a bridge (R494). -/
def State.drvForce (s : State) (n : Nat) : State :=
  if s.rd (subFld F.SAFE_DRV (2 * n) 2) = 1 && s.rd (F.DRV_CFG_mode n) ≠ 0 then
    ((s.wr (F.DRV_STAT_forced n) 1).wr (F.DRV_STAT_enabled n) 1).wr (F.DRV_STAT_coil n) (if s.rd (F.DRV_CFG_mode n) = 2 then 2 else 0)
  else
    (((s.wr (F.DRV_STAT_forced n) 1).wr (F.DRV_STAT_enabled n) 0).wr (F.DRV_CTL_en n) 0).wr (F.DRV_STAT_coil n) 0

/-- Is the part an FDX-7748-C, without drive stages (R3)? -/
def State.isC (s : State) : Bool := s.on F.SYS_ID_code

/-- The reaction of generator `n` to a trip (R494). -/
def State.motTrip (s : State) (n : Nat) : State :=
  if s.rd (F.MOT_CFG_route n) = 0 then (if s.isC then s else s.motFault n)
  else if s.bitOf F.SAFE_MISC_motstop n then s.motTripStop n
  else s

/-- A trip cause arises: it becomes present and latched; in ARMED the gate forces every output group and records the cause (R489–R491). -/
def State.trip (s : State) (cause : Nat) : State :=
  let s := (s.wr F.SAFE_CAUSE (s.rd F.SAFE_CAUSE ||| 2 ^ cause)).wr F.SAFE_CAUSENOW (s.rd F.SAFE_CAUSENOW ||| 2 ^ cause)
  if s.rd F.SAFE_STATE_state = 1 then
    let s := (((s.wr F.SAFE_STATE_state 2).wr F.SAFE_FIRST_INFO cause).wr F.SAFE_FIRST_LO s.rawLo).wr F.SAFE_FIRST_HI s.rawHi
    let s := s.event F.SAFE_EVT_trip
    let s := s.when (cause = 6) (fun s => s.wr F.PWR_STAT_gated 1)
    let s := s.when (!s.isC) (fun s => s.each (List.range 8) (fun n s => s.drvForce n))
    s.each (List.range 8) (fun n s => s.motTrip n)
  else s

/-- A trip cause stops being present (R490). -/
def State.uncause (s : State) (cause : Nat) : State :=
  s.wr F.SAFE_CAUSENOW (s.rd F.SAFE_CAUSENOW &&& (0x3FF ^^^ 2 ^ cause))

/-- Is the gate forcing its outputs: TESTING or TRIPPED (R491)? -/
def State.forcing (s : State) : Bool := decide (s.rd F.SAFE_STATE_state ≠ 1)

/-- A stage pair enters FAULT: its cores halt, no phase runs, and the gate trips (R217). -/
def State.pairFault (s : State) (p : Nat) : State :=
  let x := s.pair p
  let s := s.finO (x.want.bind (fun w => w.2)) 0x0200 []
  let s := s.finO x.restart 0x0200 []
  let s := s.finO (x.cue.map (fun r => r.1)) 0x0200 []
  let s := s.finO (x.loading.bind (fun r => r.1)) 0x0200 []
  let s := (((s.wr (F.STG_STATE_state p) 5).wr (F.STG_STATE_phase p) 0).wr (F.STG_STATE_midhold p) 0).wr (F.STG_STATE_cuepend p) 0
  let s := s.setPair p (fun y => { y with want := none, restart := none, cue := none, loading := none, wrDue := false, step1 := false, free := false })
  (s.event (F.STG_EVT_state p)).trip p

end Sys2Proof.Machine
end

