-- ==== Sys2Proof/Machine/MemOps.lean ====
section
/-! DEFINITION. The memories: the local address map (R21), stored words and their codes (R413–R415, R417), bank and domain states (R405, R472),
narrow-write faults (R414), decode errors (R22) and MRAM rights (R24). -/
namespace Sys2Proof.Machine
open Sys2Proof

/-- The ranges of the local address map (R21). -/
inductive Area where
  | house | addAlias | swapAlias | engl | tcm | lap | mram | reg | aperture | none
  deriving DecidableEq, Repr

/-- The range an address lies in (R21). -/
def area (a : Nat) : Area :=
  if a < 0x00400000 then .house
  else if a < 0x00800000 then .none
  else if a < 0x00C00000 then .addAlias
  else if a < 0x01000000 then .swapAlias
  else if a < 0x01200000 then .engl
  else if a < 0x01400000 then .none
  else if a < 0x01500000 then .tcm
  else if a < 0x01800000 then .none
  else if a < 0x01880000 then .lap
  else if a < 0x02000000 then .none
  else if a < 0x03000000 then .mram
  else if a < 0x04000000 then .none
  else if a < 0x05000000 then .reg
  else if a < 0x10000000 then .none
  else if a < 0x20000000 then .aperture
  else .none

/-- The last address of the region of the local map that holds `a` (R21, R179 cause 0x07). -/
def areaEnd (a : Nat) : Nat :=
  match area a with
  | .house => 0x00400000
  | .addAlias => 0x00C00000
  | .swapAlias => 0x01000000
  | .engl => 0x01200000
  | .tcm => 0x01500000
  | .lap => 0x01880000
  | .mram => 0x03000000
  | .reg => if a < 0x04800000 then 0x04800000 else 0x05000000
  | .aperture => 0x20000000
  | .none => a

/-- One stored byte. -/
def State.byte (s : State) (a : Nat) : Byte := sget 0 s.mem a

/-- Store one byte. -/
def State.setByte (s : State) (a : Nat) (b : Byte) : State := { s with mem := sset 0 s.mem a b }

/-- The word stored at an aligned address (R4). -/
def State.wordAt (s : State) (a : Nat) : Word := wordOf (s.byte a) (s.byte (a + 1)) (s.byte (a + 2)) (s.byte (a + 3))

/-- Store four bytes (R4). -/
def State.setWord (s : State) (a : Nat) (v : Word) : State :=
  (((s.setByte a (byteOf v 0)).setByte (a + 1) (byteOf v 1)).setByte (a + 2) (byteOf v 2)).setByte (a + 3) (byteOf v 3)

/-- A whole-word write: the word takes a fresh code, and an error counted or a trip it caused is over (R413, R417, R487). -/
def State.putWord (s : State) (a : Nat) (v : Word) : State :=
  let s := s.setWord a v
  let m := s.memu
  let q := m.wbq.map (fun e => if e.1 = a then (a, true) else e)
  let fl := m.flips.filter (fun e => e.1 ≠ a)
  let m' := { m with flips := fl, cntd := m.cntd.filter (· ≠ a), tripWords := m.tripWords.filter (· ≠ a), wbq := q }
  let s := { s with memu := m' }
  if m.tripWords.contains a && s.memu.tripWords.isEmpty then s.uncause 7 else s

/-- Store a list of words from `a` upward. -/
def State.putWords (s : State) (a : Nat) : List Word → State
  | [] => s
  | v :: t => (s.putWord a v).putWords (a + 4) t

/-- `n` words stored from `a` upward. -/
def State.wordsAt (s : State) (a n : Nat) : List Word := (List.range n).map (fun i => s.wordAt (a + 4 * i))

/-- Inverted bits of a stored word. -/
def State.flipsAt (s : State) (a : Nat) : List Nat := (s.memu.flips.filter (fun e => e.1 = a)).map (fun e => e.2)

/-- Record a decode error: the first since SYS_DECERR was cleared is kept, further ones set overflow (R22). -/
def State.decErr (s : State) (ident a : Nat) (write : Bool) : State :=
  if s.on F.SYS_DECERR_INFO_valid then s.wr F.SYS_DECERR_INFO_ovf 1
  else (((s.wr F.SYS_DECERR_ADDR a).wr F.SYS_DECERR_INFO_identity ident).wr F.SYS_DECERR_INFO_write (if write then 1 else 0)).wr
    F.SYS_DECERR_INFO_valid 1

/-- Record a view fault (R445). -/
def State.viewFault (s : State) (ident a : Nat) (write mram : Bool) : State :=
  let s := if s.on F.VIEW_FAULT_INFO_valid then s.wr F.VIEW_FAULT_INFO_ovf 1
    else ((((s.wr F.VIEW_FAULT_ADDR a).wr F.VIEW_FAULT_INFO_identity ident).wr F.VIEW_FAULT_INFO_write (if write then 1 else 0)).wr
      F.VIEW_FAULT_INFO_mram (if mram then 1 else 0)).wr F.VIEW_FAULT_INFO_valid 1
  (s.inc F.VIEW_CNT_FAULT).event F.VIEW_EVT_fault

/-- Does an identity receive the backstage view (R442)? -/
def State.backstage (s : State) (ident : Nat) : Bool := s.on (F.VIEW_IDT_bs ident)

/-- May an identity read MRAM (R443)? -/
def State.mayReadMram (s : State) (ident : Nat) : Bool := s.on (F.VIEW_IDT_mramrd ident)

/-- May an identity write the MRAM word at `a` (R24)? -/
def mayWriteMram (ident a : Nat) : Bool :=
  if 0x02E00000 ≤ a ∧ a < 0x02E40000 then false
  else if 0x02D80000 ≤ a ∧ a < 0x02E00000 then decide (ident = 0 ∨ ident = 8 ∨ ident = 9)
  else decide (ident = 0)

/-- The code of a memory in the error log. -/
def memCode (a : Nat) : Nat :=
  match area a with
  | .tcm => 1
  | .lap => 2
  | .mram => 4
  | _ => 0

/-- Write an entry of the memory error log; a full log loses it (MEM_ELOG). -/
def State.memLog (s : State) (kind : Nat) (scrub : Bool) (ident a synd : Nat) : State :=
  let n := s.rd F.MEM_ELOGSTAT_held
  if n ≥ 16 then s.wr F.MEM_ELOGSTAT_ovf 1
  else
    ((((s.wr (F.MEM_ELOG n 0) (2 ^ 31 + kind * 2 ^ 28 + (if scrub then 2 ^ 27 else 0) + ident % 64)).wr (F.MEM_ELOG n 1) a).wr
      (F.MEM_ELOG n 2) s.rawLo).wr (F.MEM_ELOG n 3) (memCode a * 256 + synd)).wr F.MEM_ELOGSTAT_held (n + 1)

/-- A narrow-write fault (R414). -/
def State.narrowFault (s : State) (ident a : Nat) : State :=
  ((s.memLog 3 false ident a 0).inc F.MEM_CNT_NARROW).event F.MEM_EVT_narrow

/-- The bank of a house memory address (R404). -/
def bankOf (a : Nat) : Nat := a / 0x10000

/-- State of a house memory bank: 0 ON, 1 RETENTION, 2 OFF, 3 INIT (R405). -/
def State.bankState (s : State) (k : Nat) : Nat := s.rd (subFld (F.MEM_BANKST (k / 16)) (k % 16 * 2) 2)
def State.setBank (s : State) (k st : Nat) : State := s.wr (subFld (F.MEM_BANKST (k / 16)) (k % 16 * 2) 2) st

/-- Trackers of the bank of `a`, the error at `a` counted (R417): the entry of `a`, a free one of the bank's four, or the lowest and oldest. -/
def trackAdd (tr : List TrackEnt) (a : Nat) : List TrackEnt :=
  if tr.any (fun e => e.addr = a) then tr.map (fun e => if e.addr = a then { e with count := e.count + 1 } else e)
  else
    let bank := tr.filter (fun e => bankOf e.addr = bankOf a)
    if bank.length < 4 then tr ++ [⟨a, 1⟩]
    else
      let low := bank.foldl (fun m e => min m e.count) 3
      match bank.find? (fun e => e.count = low) with
      | none => tr ++ [⟨a, 1⟩]
      | some v => tr.filter (fun e => e.addr ≠ v.addr) ++ [⟨a, 1⟩]

/-- A counted correctable error of house memory; the third at one address makes its remap due (R417). -/
def State.countErr (s : State) (a : Nat) : State :=
  if s.memu.cntd.contains a then s
  else
    let tr := trackAdd s.memu.track a
    let due := tr.any (fun e => e.addr = a && e.count ≥ 3)
    let rd := if due && !s.memu.remapDue.contains a then s.memu.remapDue ++ [a] else s.memu.remapDue
    { s with memu := { s.memu with track := tr, cntd := s.memu.cntd ++ [a], remapDue := rd } }

/-- The counter of corrected errors of a memory (R430). -/
def corrCounter (a : Nat) : Fld :=
  match area a with
  | .tcm => F.MEM_CNT_CORRT
  | .lap => F.MEM_CNT_CORRL
  | .mram => F.MEM_CNT_CORRM
  | _ => F.MEM_CNT_CORRH

/-- A correctable error: counted, logged, and a write-back queued (R415). -/
def State.corrected (s : State) (scrub : Bool) (ident a pos : Nat) : State :=
  let s := ((s.inc (corrCounter a)).memLog 1 scrub ident a pos).event F.MEM_EVT_corr
  let s := if area a = .house then s.countErr a else s
  if s.memu.wbq.contains (a, false) then s else { s with memu := { s.memu with wbq := s.memu.wbq ++ [(a, false)] } }

/-- The pairs that an uncorrectable error at `a` trips for: the owner of a TCM, of a retained area or of an active image slot, where it is not OFF
(R487). -/
def State.pairOn (s : State) (p : Nat) : Bool := decide (s.rd (F.STG_STATE_state p) ≠ 0)
def State.ueTrips (s : State) (a : Nat) : Bool :=
  if 0x01400000 ≤ a ∧ a < 0x01480000 then s.pairOn 0
  else if 0x01480000 ≤ a ∧ a < 0x01500000 then s.pairOn 1
  else if 0x02D80000 ≤ a ∧ a < 0x02DC0000 then s.pairOn 0
  else if 0x02DC0000 ≤ a ∧ a < 0x02E00000 then s.pairOn 1
  else if 0x02E00000 ≤ a ∧ a < 0x02E40000 then true
  else if 0x02200000 ≤ a ∧ a < 0x02A00000 then
    let slot := (a / 0x00200000 - 17) / 2
    (s.pairOn 0 && decide (s.rd (F.STG_STATE_slot 0) = slot)) || (s.pairOn 1 && decide (s.rd (F.STG_STATE_slot 1) = slot))
  else false

/-- A pair whose TCM holds an uncorrectable word enters FAULT (R413, R487). -/
def State.tcmFault (s : State) (p : Nat) : State := if s.rd (F.STG_STATE_state p) = 5 then s else s.pairFault p

/-- An uncorrectable error: counted, logged, and a trip where R487 asks for one. -/
def State.uncorrected (s : State) (scrub : Bool) (ident a : Nat) : State :=
  let s := ((s.inc F.MEM_CNT_UNCORR).memLog 2 scrub ident a 0x7F).event F.MEM_EVT_uncorr
  if s.ueTrips a then
    let tw := if s.memu.tripWords.contains a then s.memu.tripWords else s.memu.tripWords ++ [a]
    let s := { s with memu := { s.memu with tripWords := tw } }
    let s := s.trip 7
    if area a = .tcm then s.tcmFault (if a < 0x01480000 then 0 else 1) else s
  else s

/-- What an access finds. -/
inductive Found where
  | ok (v : Word)
  /-- uncorrectable (R413) -/
  | bad
  /-- the access waits for a bank or domain (R405, R472): nothing has happened but the request of the wake -/
  | wait
  /-- refused or not assigned: zero (R22, R445) -/
  | none
  deriving DecidableEq, Repr

/-- Read a coded word that is present (R413, R415). -/
def State.rdCoded (s : State) (scrub : Bool) (ident a : Nat) : Found × State :=
  match s.flipsAt a with
  | [] => (.ok (s.wordAt a), s)
  | [b] => (.ok (s.wordAt a), s.corrected scrub ident a b)
  | _ => (.bad, s.uncorrected scrub ident a)

/-- The power domain code of an engine local memory or TCM address (R470). -/
def domOf (a : Nat) : Nat := if a < 0x01200000 then a / 0x20000 - 128 else 0x10 + (a / 0x80000 - 40)

/-- Whether the memory at `a` serves an access: 0 yes, 1 it waits, 2 it is off; a bank in RETENTION wakes for the access (R405, R472). -/
def State.ready (s : State) (a : Nat) : Nat × State :=
  match area a with
  | .house =>
    match s.bankState (bankOf a) with
    | 0 => (0, s)
    | 1 => (0, (s.setBank (bankOf a) 0).event F.MEM_EVT_wake)
    | 2 => (2, s)
    | _ => (1, s)
  | .engl =>
    match s.domState (domOf a) with
    | 0 => (0, s)
    | 1 => (1, s.setDom (domOf a) 3)
    | 2 => (2, s)
    | _ => (1, s)
  | .tcm =>
    match s.domState (domOf a) with
    | 0 => (0, s)
    | 1 => (1, s.setDom (domOf a) 3)
    | 2 => (2, s)
    | _ => (1, s)
  | _ => (0, s)

/-- The engine whose local memory holds `a`, and parity of its bytes (R273). -/
def State.parityBad (s : State) (a n : Nat) : Bool :=
  (List.range n).any (fun i => (s.eng (a / 0x20000 - 128)).parity.contains (a + i))

/-- A parity error found: counted, whoever finds it; the engine itself gets no data, any other initiator the bytes as stored (R273). -/
def State.parityFound (s : State) (ident a : Nat) (v : Word) : Found × State :=
  let e := a / 0x20000 - 128
  (if ident = 0x10 + e then .bad else .ok v, s.inc (F.ENG_CNT_PARITY e))

/-- Read one aligned word of a memory (not a register, alias or aperture) as identity `ident`; MRAM under its read right (R443). -/
def State.rdMem (s : State) (ident a : Nat) : Found × State :=
  match area a with
  | .mram => if s.mayReadMram ident then s.rdCoded false ident a else (.none, s.viewFault ident a false true)
  | .lap => s.rdCoded false ident a
  | .house =>
    match s.ready a with
    | (0, s) => s.rdCoded false ident a
    | (1, s) => (.wait, s)
    | (_, s) => (.none, s.decErr ident a false)
  | .tcm =>
    match s.ready a with
    | (0, s) => s.rdCoded false ident a
    | (1, s) => (.wait, s)
    | (_, s) => (.none, s.decErr ident a false)
  | .engl =>
    match s.ready a with
    | (0, s) => if s.parityBad a 4 then s.parityFound ident a (s.wordAt a) else (.ok (s.wordAt a), s)
    | (1, s) => (.wait, s)
    | (_, s) => (.none, s.decErr ident a false)
  | _ => (.none, s.decErr ident a false)

/-- Does a byte of [a, a + n) of the lap buffer lie in a region committed for publication in the current lap: in the back half, until the next
boundary (R73)? -/
def State.lapOwned (s : State) (a n : Nat) : Bool :=
  let back := if s.on F.RING_LAPFRONT_front then 0x01800000 else 0x01840000
  (ones 16 s.ring.published).any (fun i =>
    let o := back + s.rd (F.RING_WIN2_offset (i / 8) (i % 8))
    decide (a < o + s.rd (F.RING_WIN1_bytes (i / 8) (i % 8)) ∧ o < a + n))

/-- Outcome of a write. -/
inductive Wrote where
  | ok
  | refused
  | wait
  /-- a narrow write to coded memory (R414) -/
  | narrow
  /-- unassigned (R22) -/
  | none
  deriving DecidableEq, Repr

/-- May an identity not write `n` bytes of engine local memory at `a` (R272): while the engine is LOADING or RUN only the engine and the command core do, and
nobody writes the code of the running script. -/
def State.englRefused (s : State) (ident a n : Nat) : Bool :=
  let e := a / 0x20000 - 128
  let o := a % 0x20000
  let st := s.rd (F.ENG_STATE_state e)
  (decide (st = 1 ∨ st = 2) && decide (ident ≠ 0 ∧ ident ≠ 0x10 + e)) || (decide (st = 2) && decide (o < (s.eng e).codeLen ∧ 0 < n))

/-- Write one aligned word of a memory as identity `ident`, under the rules of its area (R22, R24, R73, R272, R405, R472); a stage pair's retained area is
written here as any other MRAM. -/
def State.wrMem (s : State) (ident a : Nat) (v : Word) : Wrote × State :=
  match area a with
  | .mram => if mayWriteMram ident a then (.ok, s.putWord a v) else (.refused, s.decErr ident a true)
  | .lap => if s.lapOwned a 4 then (.ok, s.event F.RING_EVT_ownwr) else (.ok, s.putWord a v)
  | .house =>
    match s.ready a with
    | (0, s) => (.ok, s.putWord a v)
    | (1, s) => (.wait, s)
    | (_, s) => (.none, s.decErr ident a true)
  | .tcm =>
    match s.ready a with
    | (0, s) => (.ok, s.putWord a v)
    | (1, s) => (.wait, s)
    | (_, s) => (.none, s.decErr ident a true)
  | .engl =>
    if s.englRefused ident a 4 then (.refused, s.decErr ident a true) else
    match s.ready a with
    | (0, s) => (.ok, (s.setWord a v).setEng (a / 0x20000 - 128) (fun e =>
        { e with parity := e.parity.filter (fun b => !(a ≤ b && b < a + 4)) }))
    | (1, s) => (.wait, s)
    | (_, s) => (.none, s.decErr ident a true)
  | _ => (.none, s.decErr ident a true)

/-- An atomic operation at a house memory word: the old value, and the new one written with a fresh code; nothing is written over an uncorrectable
word (R408). -/
def State.atomic (s : State) (ident a : Nat) (f : Word → Word) : Found × State :=
  match s.rdMem ident a with
  | (.ok v, s) => (.ok v, s.putWord a (f v))
  | (r, s) => (r, s)

/-- Read `n` words without errors taken as a fault of the reader: `none` where a word is uncorrectable (R518). -/
def State.rdList (s : State) (ident a : Nat) : Nat → Option (List Word) × State
  | 0 => (some [], s)
  | n + 1 =>
    match s.rdMem ident a with
    | (.bad, s) => (none, s)
    | (.ok v, s) =>
      match s.rdList ident (a + 4) n with
      | (some l, s) => (some (v :: l), s)
      | (none, s) => (none, s)
    | (_, s) =>
      match s.rdList ident (a + 4) n with
      | (some l, s) => (some (0 :: l), s)
      | (none, s) => (none, s)

end Sys2Proof.Machine
end

