-- ==== Sys2Proof/Machine/CallOps.lean ====
section
/-! DEFINITION. Callboard channels: pending bits, delivery to the receiver and hardware events (R435–R439). -/
namespace Sys2Proof.Machine
open Sys2Proof

/-- The pending bit of channel `c`: 1 while it is busy or its event count is not zero (R438). -/
def State.callPend (s : State) (c : Nat) : State :=
  s.wr (bitFld (F.CALL_PEND (c / 32)) (c % 32)) (if s.on (F.CALL_STAT_busy c) || s.on (F.CALL_STAT_evcnt c) then 1 else 0)

/-- Notify a stage pair: its event bit, or the request of a wake while its domain is in retention (R438, R439). -/
def State.notifyPair (s : State) (p : Nat) : State :=
  match s.domState (0x10 + p) with
  | 0 => s.pairEvent p 9
  | 1 => s.setDom (0x10 + p) 3
  | _ => s

/-- Notify an engine (R438, R439). -/
def State.notifyEng (s : State) (n : Nat) : State :=
  match s.domState n with
  | 0 => s.engEvent n 18
  | 1 => s.setDom n 3
  | _ => s

/-- Deliver channel `c` to its receiver (R438). -/
def State.deliver (s : State) (c : Nat) : State :=
  let s := s.callPend c
  let r := s.rd (F.CALL_BIND_recv c)
  if r = 8 ∨ r = 9 then s.notifyPair (r - 8)
  else if 0x10 ≤ r ∧ r < 0x20 then s.notifyEng (r - 0x10)
  else if r = 1 ∨ r = 2 then
    if s.on (F.CALL_CFG_irqen c) then s.msix (fnOf r) (s.rd (F.CALL_CFG_vector c)) else s
  else s

/-- A hardware event on channel `c`: accepted where the binding is valid with hwev 1, otherwise dropped and counted (R437). -/
def State.callEvent (s : State) (c : Nat) : State :=
  if s.on (F.CALL_BIND_valid c) && s.on (F.CALL_BIND_hwev c) then (s.inc (F.CALL_STAT_evcnt c)).deliver c
  else s.inc F.CALL_CNT_EVDROP

/-- Signal the completion interrupt of a queue: a message of the owner's function, the host pin, or a callboard event (R453). `fin` marks a signal of
R40 or R58. -/
def State.signalQueue (s : State) (q : Nat) (fin : Bool) : State :=
  let o := s.owner q
  let v := s.rd (F.CMD_QCQCFG_vector q)
  if !s.on (F.CMD_QCQCFG_inten q) then s
  else if o = 1 ∨ o = 2 then s.msix (fnOf o) v
  else if o = 3 ∨ o = 4 then s.setQueue q (fun x => if fin then { x with sigFinal := true } else { x with sig := true })
  else s.callEvent v

/-- Is any channel of the receiver pending? -/
def State.anyPending (s : State) (ident : Nat) : Bool :=
  (List.range 64).any (fun c => s.bitOf (F.CALL_PEND (c / 32)) (c % 32) && decide (s.rd (F.CALL_BIND_recv c) = ident))

/-- A domain returns to ON: the wake is flagged, and the notification that a delivery waited for follows (R439, R472). -/
def State.wakeDom (s : State) (code : Nat) : State :=
  let s := (s.setDom code 0).event F.PWR_EVT_wake
  if code < 0x10 then (if s.anyPending (0x10 + code) then s.engEvent code 18 else s)
  else if code < 0x12 then (if s.anyPending (code - 8) then s.pairEvent (code - 0x10) 9 else s)
  else s

end Sys2Proof.Machine
end

