-- ==== Sys2Proof/Machine/Digest.lean ====
section
/-! DEFINITION. The checks over bytes that the spec names by standard (R10): CRC-32C (R33, R70), SHA-256 and ECDSA over P-256 (R477).
The spec names these standards and gives the CRC polynomial; their constants are PRESUMED from the standards (notes/assumptions/9.md). -/
namespace Sys2Proof.Machine
open Sys2Proof

/-- One bit of the reflected CRC-32C register (polynomial 0x1EDC_6F41, reflected 0x82F6_3B78). -/
def crc32cBit (c : Word) : Word := if c.getLsbD 0 then (c >>> 1) ^^^ 0x82F63B78#32 else c >>> 1

/-- One byte of CRC-32C. -/
def crc32cByte (c : Word) (b : Byte) : Word :=
  crc32cBit (crc32cBit (crc32cBit (crc32cBit (crc32cBit (crc32cBit (crc32cBit (crc32cBit (c ^^^ b.setWidth 32))))))))

/-- CRC-32C of a list of bytes (R10: Castagnoli polynomial), initial value and final inversion of all ones. -/
def crc32c (bs : List Byte) : Word := ~~~ (bs.foldl crc32cByte 0xFFFFFFFF#32)

/-- CRC-32C of words taken as their four bytes in little-endian order (R33). -/
def crc32cWords (ws : List Word) : Word := crc32c (wordsToBytes ws)

/-- One bit of a CRC-8 register with polynomial `p`, most significant bit first. -/
def crc8Bit (p c : Byte) : Byte := if c.getLsbD 7 then (c <<< 1) ^^^ p else c <<< 1

/-- CRC-8 of bytes, most significant bit first, from initial value `i`. -/
def crc8 (p i : Byte) (bs : List Byte) : Byte :=
  bs.foldl (fun c b => crc8Bit p (crc8Bit p (crc8Bit p (crc8Bit p (crc8Bit p (crc8Bit p (crc8Bit p (crc8Bit p (c ^^^ b))))))))) i

/-- The round constants of SHA-256 (FIPS 180-4), first half. -/
def sha256Ka : List Word := [
  0x428a2f98, 0x71374491, 0xb5c0fbcf, 0xe9b5dba5, 0x3956c25b, 0x59f111f1, 0x923f82a4, 0xab1c5ed5,
  0xd807aa98, 0x12835b01, 0x243185be, 0x550c7dc3, 0x72be5d74, 0x80deb1fe, 0x9bdc06a7, 0xc19bf174,
  0xe49b69c1, 0xefbe4786, 0x0fc19dc6, 0x240ca1cc, 0x2de92c6f, 0x4a7484aa, 0x5cb0a9dc, 0x76f988da,
  0x983e5152, 0xa831c66d, 0xb00327c8, 0xbf597fc7, 0xc6e00bf3, 0xd5a79147, 0x06ca6351, 0x14292967]

/-- The round constants of SHA-256 (FIPS 180-4), second half. -/
def sha256Kb : List Word := [
  0x27b70a85, 0x2e1b2138, 0x4d2c6dfc, 0x53380d13, 0x650a7354, 0x766a0abb, 0x81c2c92e, 0x92722c85,
  0xa2bfe8a1, 0xa81a664b, 0xc24b8b70, 0xc76c51a3, 0xd192e819, 0xd6990624, 0xf40e3585, 0x106aa070,
  0x19a4c116, 0x1e376c08, 0x2748774c, 0x34b0bcb5, 0x391c0cb3, 0x4ed8aa4a, 0x5b9cca4f, 0x682e6ff3,
  0x748f82ee, 0x78a5636f, 0x84c87814, 0x8cc70208, 0x90befffa, 0xa4506ceb, 0xbef9a3f7, 0xc67178f2]

/-- The initial hash value of SHA-256. -/
def sha256H0 : List Word := [
  0x6a09e667, 0xbb67ae85, 0x3c6ef372, 0xa54ff53a, 0x510e527f, 0x9b05688c, 0x1f83d9ab, 0x5be0cd19]

def rotr (x : Word) (n : Nat) : Word := x.rotateRight n

/-- The next word of the SHA-256 message schedule from the last sixteen, newest first. -/
def sha256Next (w : List Word) : Word :=
  let x := wAt w 14
  let y := wAt w 1
  let s0 := rotr x 7 ^^^ rotr x 18 ^^^ (x >>> 3)
  let s1 := rotr y 17 ^^^ rotr y 19 ^^^ (y >>> 10)
  s1 + wAt w 6 + s0 + wAt w 15

/-- Extend a schedule (newest first) by `n` words. -/
def sha256Extend : Nat → List Word → List Word
  | 0, w => w
  | n + 1, w => sha256Extend n (sha256Next w :: w)

/-- One SHA-256 round on the eight working words. -/
def sha256Round (h : List Word) (kw : Word × Word) : List Word :=
  let a := wAt h 0; let b := wAt h 1; let c := wAt h 2; let d := wAt h 3
  let e := wAt h 4; let f := wAt h 5; let g := wAt h 6; let i := wAt h 7
  let t1 := i + (rotr e 6 ^^^ rotr e 11 ^^^ rotr e 25) + ((e &&& f) ^^^ (~~~e &&& g)) + kw.1 + kw.2
  let t2 := (rotr a 2 ^^^ rotr a 13 ^^^ rotr a 22) + ((a &&& b) ^^^ (a &&& c) ^^^ (b &&& c))
  [t1 + t2, a, b, c, d + t1, e, f, g]

/-- Absorb one block of sixteen words. -/
def sha256Block (h : List Word) (blk : List Word) : List Word :=
  let w := (sha256Extend 48 blk.reverse).reverse
  let r := ((sha256Ka ++ sha256Kb).zip w).foldl sha256Round h
  (h.zip r).map (fun p => p.1 + p.2)

/-- Words of bytes, most significant byte first. -/
def beWords : List Byte → List Word
  | b0 :: b1 :: b2 :: b3 :: t => wordOf b3 b2 b1 b0 :: beWords t
  | _ => []

/-- Cut a list into blocks of sixteen, with fuel. -/
def blocks16 : Nat → List Word → List (List Word)
  | 0, _ => []
  | n + 1, l => if l.isEmpty then [] else l.take 16 :: blocks16 n (l.drop 16)

/-- The padded message of SHA-256. -/
def sha256Pad (bs : List Byte) : List Byte :=
  let z := (119 - bs.length % 64) % 64
  bs ++ [0x80#8] ++ List.replicate z 0#8 ++
    ((List.range 8).map (fun i => BitVec.ofNat 8 (bs.length * 8 / 2 ^ (8 * (7 - i)))))

/-- SHA-256 as a number. -/
def sha256 (bs : List Byte) : Nat :=
  let ws := beWords (sha256Pad bs)
  ((blocks16 (ws.length + 1) ws).foldl sha256Block sha256H0).foldl (fun n w => n * 2 ^ 32 + w.toNat) 0

/-- The prime of P-256. -/
def p256p : Nat := 0xffffffff00000001000000000000000000000000ffffffffffffffffffffffff
/-- The order of P-256. -/
def p256n : Nat := 0xffffffff00000000ffffffffffffffffbce6faada7179e84f3b9cac2fc632551
/-- The coefficient b of P-256. -/
def p256b : Nat := 0x5ac635d8aa3a93e7b3ebbd55769886bc651d06b0cc53b0f63bce3c3e27d2604b
/-- The base point of P-256. -/
def p256g : Nat × Nat :=
  (0x6b17d1f2e12c4247f8bce6e563a440f277037d812deb33a0f4a13945d898c296,
   0x4fe342e2fe1a7f9b8ee7eb4a7c0f9e162bce33576b315ececbb6406837bf51f5)

/-- Modular power by squaring, `k` bits of exponent. -/
def powMod : Nat → Nat → Nat → Nat → Nat
  | 0, _, _, m => 1 % m
  | k + 1, b, e, m =>
    let r := powMod k (b * b % m) (e / 2) m
    if e % 2 = 1 then r * b % m else r

/-- The inverse modulo a prime below 2^256. -/
def invMod (a m : Nat) : Nat := powMod 256 (a % m) (m - 2) m

/-- Addition of points of P-256; none is the point at infinity. -/
def p256Add (a b : Option (Nat × Nat)) : Option (Nat × Nat) :=
  match a, b with
  | none, b => b
  | a, none => a
  | some (x1, y1), some (x2, y2) =>
    if x1 = x2 ∧ (y1 + y2) % p256p = 0 then none
    else
      let l := if x1 = x2 ∧ y1 = y2
        then (3 * x1 * x1 + (p256p - 3)) * invMod (2 * y1) p256p % p256p
        else (y2 + (p256p - y1)) * invMod (x2 + (p256p - x1)) p256p % p256p
      let x3 := (l * l + (p256p - x1) + (p256p - x2)) % p256p
      some (x3, (l * (x1 + (p256p - x3)) + (p256p - y1)) % p256p)

/-- Scalar multiplication, `k` bits. -/
def p256Mul : Nat → Nat → Option (Nat × Nat) → Option (Nat × Nat)
  | 0, _, _ => none
  | k + 1, e, q =>
    let r := p256Mul k (e / 2) (p256Add q q)
    if e % 2 = 1 then p256Add r q else r

/-- The point (x, y) lies on the curve. -/
def p256On (x y : Nat) : Bool :=
  decide (x < p256p) && decide (y < p256p) && decide (y * y % p256p = (x * x * x + (p256p - 3) * x + p256b) % p256p)

/-- A big-endian number of bytes. -/
def beNat (bs : List Byte) : Nat := bs.foldl (fun n b => n * 256 + b.toNat) 0

/-- ECDSA P-256 over SHA-256 (FIPS 186-4): the 64-byte signature r, s of `msg` under the 64-byte public key x, y. -/
def ecdsaOk (key msg sig : List Byte) : Bool :=
  let x := beNat (key.take 32)
  let y := beNat (key.drop 32)
  let r := beNat (sig.take 32)
  let t := beNat (sig.drop 32)
  if 0 < r ∧ r < p256n ∧ 0 < t ∧ t < p256n ∧ p256On x y then
    let w := invMod t p256n
    let u1 := sha256 msg * w % p256n
    let u2 := r * w % p256n
    match p256Add (p256Mul 256 u1 (some p256g)) (p256Mul 256 u2 (some (x, y))) with
    | none => false
    | some (px, _) => decide (px % p256n = r)
  else false

end Sys2Proof.Machine
end

