-- ==== Sys2Proof/Machine/Operands.lean ====
section
/-! DEFINITION. The operands of commands: parameter words (R32), bulk descriptors and their buffers (R35, R424, R451, R518), and running a started
command's own step once. -/
namespace Sys2Proof.Machine
open Sys2Proof

/-- Parameter word `i` as a word and as a number; zero beyond the packet's length (R32). -/
def CmdRec.pw (c : CmdRec) (i : Nat) : Word := wAt c.params i
def CmdRec.p (c : CmdRec) (i : Nat) : Nat := nAt c.params i

/-- Bits [hi:lo] of parameter word `i`. -/
def CmdRec.f (c : CmdRec) (i hi lo : Nat) : Nat := getF (c.pw i) lo (hi + 1 - lo)

/-- A parameter word as a signed number. -/
def CmdRec.pI (c : CmdRec) (i : Nat) : Int := (c.pw i).toInt

def State.findCmd (s : State) (seq : Nat) : Option CmdRec := s.cmd.cmds.find? (fun c => c.seq = seq)

def State.modCmd (s : State) (seq : Nat) (f : CmdRec → CmdRec) : State :=
  { s with cmd := { s.cmd with cmds := s.cmd.cmds.map (fun c => if c.seq = seq then f c else c) } }

/-- The command ends without error. -/
def State.done (s : State) (c : CmdRec) (rs : List Word) : State := s.fin c.seq 0x0000 rs

/-- The command ends with an error status. -/
def State.fail (s : State) (c : CmdRec) (st : Nat) (rs : List Word) : State := s.fin c.seq st rs

/-- A parameter is out of range: status 0x0103, result word 0 its index (R56). -/
def State.badParam (s : State) (c : CmdRec) (i : Nat) : State := s.fin c.seq 0x0103 [BitVec.ofNat 32 i]

/-- A parameter names a unit beyond the unit's count: status 0x0107 (R56, notes/assumptions/117.md). -/
def State.badUnit (s : State) (c : CmdRec) : State := s.fin c.seq 0x0107 []

/-- A parameter carries a reserved encoding (R8). -/
def State.badEnc (s : State) (c : CmdRec) : State := s.fin c.seq 0x0104 []

/-- The command waits in STARTED: its own step is to be taken again (R451). -/
def State.again (s : State) (c : CmdRec) : State := s.modCmd c.seq (fun x => { x with ran := false })

/-- Run the step of opcode `op` of the started command `seq`, once; otherwise nothing (notes/assumptions/7.md). -/
def State.runCmd (s : State) (op seq : Nat) (body : CmdRec → State → State) : State :=
  match s.findCmd seq with
  | none => s
  | some c =>
    if c.opcode = op ∧ c.started = true ∧ c.ran = false ∧ c.fin.isNone = true ∧ s.alive = true ∧ s.cmd.halted = false then
      body c (s.modCmd seq (fun x => { x with ran := true }))
    else s

/-- A bulk descriptor (R35). -/
structure Bulk where
  addr : Nat
  len : Nat
  host : Bool
  crc : Word
  deriving DecidableEq, Repr

/-- May the queue owner name host memory (R35)? -/
def hostOwner (c : CmdRec) : Bool := (c.ident = 1 || c.ident = 2) && c.inner.isNone

/-- Read and check the descriptor at parameter `i` with direction `dir`: its error status, or the descriptor (R35, R424). -/
def bulkOf (c : CmdRec) (i dir : Nat) : Except Nat Bulk :=
  let w2 := c.pw (i + 2)
  let len := getF w2 0 24
  let host := bit w2.toNat 31
  let lo := c.p i
  if getF w2 24 6 ≠ 0 ∨ getF w2 30 1 ≠ dir ∨ len < 4 ∨ len % 4 ≠ 0 ∨ lo % 4 ≠ 0 then .error 0x0105
  else if host then
    if hostOwner c then .ok ⟨lo + c.p (i + 1) * 2 ^ 32, len, true, c.pw (i + 3)⟩ else .error 0x0106
  else if c.p (i + 1) ≠ 0 then .error 0x0106
  else
    match c.inner, dir with
    | some d, 0 => if lo + len ≤ d.length then .ok ⟨lo, len, false, c.pw (i + 3)⟩ else .error 0x0106
    | _, _ =>
      if lo + len ≤ 0x00400000 then .ok ⟨lo, len, false, c.pw (i + 3)⟩
      else if dir = 0 ∧ 0x02000000 ≤ lo ∧ lo + len ≤ 0x03000000 then .ok ⟨lo, len, false, c.pw (i + 3)⟩
      else .error 0x0106

/-- What reading a buffer gives. -/
inductive BulkIn where
  | data (bs : List Byte)
  | status (st : Nat)
  /-- Bus Master Enable is 0, or the read is not answered yet: the command waits (R451) -/
  | wait
  deriving DecidableEq, Repr

/-- The buffer's bytes against its CRC (R35). -/
def bulkCheck (b : Bulk) (bs : List Byte) : BulkIn := if crc32c bs = b.crc then .data bs else .status 0x0603

/-- Read the buffer of a checked descriptor (R35, R451, R518). -/
def State.readBuf (s : State) (c : CmdRec) (env : Env) (b : Bulk) : BulkIn × State :=
  if b.host then
    if s.bme (fnOf c.ident) then
      if env.hostFail then (.status 0x0105, s)
      else if env.host.isEmpty then (.wait, s)
      else if env.host.length ≠ b.len then (.status 0x0105, s)
      else (bulkCheck b env.host, s)
    else (.wait, s)
  else
    match c.inner with
    | some d => (bulkCheck b ((d.drop b.addr).take b.len), s)
    | none =>
      match s.rdList 0 b.addr (b.len / 4) with
      | (some ws, s) => (bulkCheck b (wordsToBytes ws), s)
      | (none, s) => (.status 0x0603, s)

/-- Read the buffer that the descriptor at parameter `i` names and go on with its bytes; end or wait otherwise. -/
def State.withBuf (s : State) (c : CmdRec) (env : Env) (i : Nat) (k : List Byte → State → State) : State :=
  match bulkOf c i 0 with
  | .error st => s.fail c st []
  | .ok b =>
    match s.readBuf c env b with
    | (.data bs, s) => k bs s
    | (.status st, s) => s.fail c st []
    | (.wait, s) => s.again c

/-- Store one word as the command core; where it has to wait for a bank, the word stands once the bank is ON (R405). -/
def State.coreWord (s : State) (a : Nat) (v : Word) : State :=
  match s.wrMem 0 a v with
  | (.wait, s) => s.putWord a v
  | (_, s) => s

/-- Store words as the command core. -/
def State.coreWords (s : State) (a : Nat) : List Word → State
  | [] => s
  | v :: t => (s.coreWord a v).coreWords (a + 4) t

/-- Write bytes (whole words) to a checked descriptor with direction 1 (R35). -/
def State.writeBuf (s : State) (c : CmdRec) (b : Bulk) (ws : List Word) : State :=
  if b.host then s.emit (.hostWrite (fnOf c.ident) b.addr (wordsToBytes ws)) else s.coreWords b.addr ws

/-- Go on with the checked direction-1 descriptor at parameter `i`; wait for Bus Master Enable where it names host memory (R451). -/
def State.withOut (s : State) (c : CmdRec) (i : Nat) (k : Bulk → State → State) : State :=
  match bulkOf c i 1 with
  | .error st => s.fail c st []
  | .ok b => if b.host && !s.bme (fnOf c.ident) then s.again c else k b s

/-- The prompt-book position of a sequence number (R46). -/
def bookAddr (seq : Nat) : Nat := 0x02D00000 + 32 * (seq % 16384)

/-- Word `w` of the entry of `seq`. -/
def State.bookW (s : State) (seq w : Nat) : Word := s.wordAt (bookAddr seq + 4 * w)

/-- The state and sequence number an entry holds, and whether it is valid for `seq` (R46, R47). -/
def State.bookState (s : State) (seq : Nat) : Nat := getF (s.bookW seq 1) 19 3
def State.bookSeq (s : State) (seq : Nat) : Nat := (s.bookW seq 0).toNat + getF (s.bookW seq 1) 0 16 * 2 ^ 32
def State.bookReadable (s : State) (seq : Nat) : Bool :=
  (List.range 8).all (fun i => decide ((s.flipsAt (bookAddr seq + 4 * i)).length < 2))
def State.bookValid (s : State) (seq : Nat) : Bool :=
  s.bookReadable seq && decide (1 ≤ s.bookState seq ∧ s.bookState seq ≤ 5) && decide (s.bookSeq seq % 16384 = seq % 16384)

/-- Completion delta, scaled (R47). -/
def bookDelta (d : Nat) : Nat :=
  if d < 2 ^ 30 then d
  else if d / 256 < 2 ^ 30 then 2 ^ 30 + d / 256
  else if d / 65536 < 0x3FFFFFFE then 2 * 2 ^ 30 + d / 65536
  else 2 * 2 ^ 30 + 0x3FFFFFFE

/-- Write a prompt-book entry whole (R47, R49). -/
def State.bookPut (s : State) (seq queue ident st opcode status : Nat) (tag : Word) (raw delta : Nat) (digest : Word) : State :=
  s.putWords (bookAddr seq) [BitVec.ofNat 32 seq,
    BitVec.ofNat 32 (ident * 2 ^ 26 + queue * 2 ^ 22 + st * 2 ^ 19 + seq / 2 ^ 32 % 2 ^ 16),
    BitVec.ofNat 32 (opcode * 2 ^ 16 + status), tag, BitVec.ofNat 32 raw, BitVec.ofNat 32 (raw / 2 ^ 32), BitVec.ofNat 32 delta, digest]

/-- Change the state of an entry: offset 0x18, then 0x08, then 0x04 (R49). -/
def State.bookSet (s : State) (seq st status delta : Nat) : State :=
  let a := bookAddr seq
  ((s.putWord (a + 0x18) (BitVec.ofNat 32 delta)).putWord (a + 8) (setF (s.wordAt (a + 8)) 0 16 status)).putWord (a + 4)
    (setF (s.wordAt (a + 4)) 19 3 st)

/-- Show the head of the prompt book and its oldest valid entry (R55, CMD_BOOKHEAD, CMD_BOOKOLD). -/
def State.showBook (s : State) : State :=
  let h := s.cmd.book
  let o := max 1 (h - 16383)
  (((s.wr F.CMD_BOOKHEAD_LO (h % 2 ^ 32)).wr F.CMD_BOOKHEAD_HI (h / 2 ^ 32)).wr F.CMD_BOOKOLD_LO (o % 2 ^ 32)).wr F.CMD_BOOKOLD_HI (o / 2 ^ 32)

/-- The oldest valid sequence number (R55). -/
def State.bookOld (s : State) : Nat := max 1 (s.cmd.book - 16383)

/-- Create an internal entry that ends as it is made: queue 8, originator 0x00 (R51). -/
def State.bookInternal (s : State) (opcode status : Nat) (tag : Word) : State :=
  let n := s.cmd.book + 1
  let s := s.bookPut n 8 0 (if status = 0 then 3 else 4) opcode status tag s.raw 0 0
  { s with cmd := { s.cmd with book := n } }.showBook

/-- Newest entry from `seq` downward, `fuel` entries at most, that meets a condition. -/
def State.bookFind (s : State) (p : Nat → Bool) (seq : Nat) : Nat → Option Nat
  | 0 => none
  | n + 1 => if seq = 0 then none else if s.bookValid seq && p seq then some seq else s.bookFind p (seq - 1) n

end Sys2Proof.Machine
end

