-- ==== Sys2Proof/Machine/RegOps.lean ====
section
/-! DEFINITION. Registers as parameters of commands: legal field values (R8), and writing a register's configuration fields at once or into the
shadow (R9). -/
namespace Sys2Proof.Machine
open Sys2Proof

/-- The bits of the configuration fields (RW and RWC) of the register at `a`. -/
def cfgMask (a : Nat) : Word :=
  match findRow a with
  | none => 0
  | some r => tyMask .rw r ||| tyMask .rwc r

/-- Does the word hold only encodings that the register at `a` does not reserve (R8)? -/
def legalWord (a : Nat) (v : Word) : Bool :=
  match findRow a with
  | none => false
  | some r => r.fields.all (fun f => !(f.ty = .rw ∨ f.ty = .rwc) || decide (f.legLo ≤ getF v f.lo f.w ∧ getF v f.lo f.w ≤ f.legHi))

/-- Set the configuration fields of a register, committed at once. -/
def State.putCfg (s : State) (a : Nat) (v : Word) : State :=
  let m := cfgMask a
  { s.setReg a ((s.reg a &&& ~~~ m) ||| (v &&& m)) with shadow := sdel s.shadow a }

/-- Set the configuration fields of a register in its shadow (R9). -/
def State.shadowCfg (s : State) (a : Nat) (v : Word) : State :=
  let m := cfgMask a
  s.setShadow a ((s.shown a &&& ~~~ m) ||| (v &&& m))

/-- Set several registers from successive words. -/
def State.putCfgs (s : State) : List (Nat × Word) → State
  | [] => s
  | (a, v) :: t => (s.putCfg a v).putCfgs t

/-- Clear a range of counters: the registers from `a`, every 4 bytes, `n` of them. -/
def State.clearRegs (s : State) (a : Nat) : Nat → State
  | 0 => s
  | n + 1 => (s.setReg (a + 4 * n) 0).clearRegs a n

/-- A signed parameter of `w` bits at bit `lo` of parameter word `i`. -/
def CmdRec.sf (c : CmdRec) (i lo w : Nat) : Int := sgn w (getF (c.pw i) lo w)

/-- May identity `id` write backstage registers; where not, the write is a view fault (R442). -/
def State.guardBs (s : State) (id : Ident) (a : Nat) (f : State → State) : State :=
  if !s.alive then s else if s.backstage id then f s else s.viewFault id a true false

/-- A write that either view may make: nothing happens while the unit is held in reset. -/
def State.guardUp (s : State) (f : State → State) : State := if s.alive then f s else s

end Sys2Proof.Machine
end

