-- ==== Sys2Proof/Machine/Holds.lean ====
section
/-! DEFINITION. The units a command holds from its start to its end (R517), as (kind, number) pairs. -/
namespace Sys2Proof.Machine
open Sys2Proof

/-- Units of one kind by a mask over `n` of them. -/
def maskUnits (k n m : Nat) : List (Nat × Nat) := (ones n m).map (fun i => (k, i))

/-- The group of a unit code: quads are 0–11, octets 12–19 (R330). -/
def groupOf (code : Nat) : Nat := if code < 64 then code / 4 else 12 + (code - 64) / 8

/-- Unit codes of the lines that four mask words name, the first at parameter `i`: LINE00–LINE31, LINE32–LINE47, DIO00–DIO31, DIO32–DIO63. -/
def lineMask (c : CmdRec) (i : Nat) : List Nat :=
  ones 32 (c.p i) ++ (ones 16 (c.p (i + 1))).map (· + 32) ++ (ones 32 (c.p (i + 2))).map (· + 64) ++ (ones 32 (c.p (i + 3))).map (· + 96)

/-- Their groups. -/
def maskGroups (c : CmdRec) (i : Nat) : List (Nat × Nat) := ((lineMask c i).map (fun u => (24, groupOf u))).eraseDups

/-- A generator, and on route 0 its bridge pair (R517). -/
def State.motUnits (s : State) (n : Nat) : List (Nat × Nat) :=
  if s.rd (F.MOT_CFG_route n) = 0 then
    let k := s.rd (F.MOT_CFG_pair n)
    [(30, n), (31, 2 * k), (31, 2 * k + 1)]
  else [(30, n)]

/-- Units of the SYS, STORE, RING, TIME, MRSH, FAB and GATE families (R517). -/
def unitsA (c : CmdRec) : List (Nat × Nat) :=
  match c.opcode with
  | 0x0002 => [(0, 0)]
  | 0x0004 => [(0, 0)]
  | 0x0005 => [(0, 0)]
  | 0x0101 => [(1, 0)]
  | 0x0103 => [(1, 0)]
  | 0x0105 => [(1, 0)]
  | 0x0200 => [(2, 0)]
  | 0x0203 => [(2, 0)]
  | 0x0204 => [(2, 0)]
  | 0x0201 => [(3, 0)]
  | 0x0202 => [(4, 0)]
  | 0x0205 => [(5, 0)]
  | 0x0206 => [(6, 0)]
  | 0x0207 => (7, 0) :: (if c.f 0 1 0 = 1 ∨ c.f 0 1 0 = 2 then maskUnits 8 2 (c.p 1) else [])
  | 0x0300 => [(9, 0)]
  | 0x0301 => [(9, 0)]
  | 0x0302 => [(9, 0)]
  | 0x0305 => [(9, 0)]
  | 0x0303 => [(10, c.f 0 2 0)]
  | 0x0304 => [(11, c.f 0 2 0)]
  | 0x0306 => [(12, c.f 0 1 0)]
  | 0x0400 => [(13, 0)]
  | 0x0401 => [(13, 0)]
  | 0x0403 => [(13, 0)]
  | 0x0500 => [(14, c.f 0 3 0)]
  | 0x0502 => [(15, 0)]
  | 0x0503 => [(15, 0)]
  | 0x0504 => [(16, 0)]
  | 0x0505 => [(16, 0)]
  | _ => []

/-- Units of the STAGE, ENG, LINE, DIO, CAN and NET families (R517). -/
def State.unitsB (s : State) (c : CmdRec) : List (Nat × Nat) :=
  match c.opcode with
  | 0x0600 => [(17, c.f 0 0 0)]
  | 0x0601 => [(17, c.f 0 0 0)]
  | 0x0602 => (17, c.f 0 0 0) :: maskUnits 18 2 (c.f 0 9 8)
  | 0x0603 => maskUnits 18 2 (c.f 0 9 8)
  | 0x0604 => maskUnits 18 2 (c.f 0 9 8)
  | 0x0605 => [(18, c.f 0 8 8)]
  | 0x0606 => [(18, c.f 0 8 8)]
  | 0x0607 => [(18, c.f 0 8 8)]
  | 0x0700 => [(19, 0)]
  | 0x0701 => [(20, c.f 0 3 0)]
  | 0x0702 => maskUnits 20 16 (c.p 0)
  | 0x0703 =>
    if c.f 0 9 8 = 2 then [(20, c.f 0 3 0)]
    else (20, c.f 0 3 0) :: (lineMask c 1).map (fun u => (21, u)) ++ (ones 16 (c.p 5)).map (fun u => (25, u))
  | 0x0704 => (20, c.f 1 3 0) :: (ones 32 (c.p 0)).flatMap (fun h => [(22, h), (20, s.rd (F.HAND_STAT_owner h))])
  | 0x0705 => [(23, 0)]
  | 0x0706 => [(23, 0)]
  | 0x0800 => [(24, groupOf (c.f 0 5 0))]
  | 0x0801 => maskGroups c 0
  | 0x0802 => [(24, groupOf (c.f 0 6 0))]
  | 0x0803 => [(24, groupOf (c.f 0 5 0))]
  | 0x0804 => maskGroups c 1
  | 0x0806 => [(24, 12 + c.f 0 5 0 / 8)]
  | 0x0807 => ((ones 32 (c.p 0) ++ (ones 32 (c.p 1)).map (· + 32)).map (fun n => (24, 12 + n / 8))).eraseDups
  | 0x0808 => [(24, 12 + c.f 0 2 0)]
  | 0x0900 => [(25, c.f 0 3 0)]
  | 0x0901 => [(25, c.f 0 3 0)]
  | 0x0902 => [(25, c.f 0 3 0)]
  | 0x0903 => [(25, c.f 0 3 0)]
  | 0x0905 => [(25, c.f 0 3 0)]
  | 0x0904 => [(25, 2 * c.f 0 2 0), (25, 2 * c.f 0 2 0 + 1)]
  | 0x0A00 => [(26, c.f 0 1 0)]
  | 0x0A01 => [(26, c.f 0 1 0)]
  | 0x0A02 => [(26, c.f 0 1 0)]
  | 0x0A03 => [(26, c.f 0 1 0)]
  | 0x0A04 => [(27, 0)]
  | 0x0A05 => [(28, 0)]
  | 0x0A06 => [(29, 0)]
  | _ => []

/-- Units of the MOT, DRV, MEM, SAFE, DIAG, HOST and PWR families (R517). -/
def State.unitsC (s : State) (c : CmdRec) : List (Nat × Nat) :=
  match c.opcode with
  | 0x0B00 => s.motUnits (c.f 0 2 0)
  | 0x0B01 => s.motUnits (c.f 0 2 0)
  | 0x0B02 => s.motUnits (c.f 0 2 0)
  | 0x0B03 => s.motUnits (c.f 0 2 0)
  | 0x0B04 => s.motUnits (c.f 0 2 0)
  | 0x0B05 => s.motUnits (c.f 0 2 0)
  | 0x0B07 => [(31, c.f 0 2 0)]
  | 0x0B08 => maskUnits 31 8 (c.p 0)
  | 0x0B09 => [(31, c.f 0 2 0)]
  | 0x0B0A => maskUnits 31 8 (c.p 0)
  | 0x0C00 => maskUnits 32 32 (c.p 0) ++ (ones 32 (c.p 1)).map (fun i => (32, i + 32))
  | 0x0C01 => [(33, c.f 0 1 0)]
  | 0x0C02 => [(32, if c.f 0 0 0 = 0 then c.p 1 / 0x10000 else c.f 1 5 0)]
  | 0x0C03 => [(34, 0)]
  | 0x0D00 => [(35, 0)]
  | 0x0D01 => [(35, 0)]
  | 0x0D03 =>
    match c.f 0 1 0 with
    | 0 => [(18, c.f 0 7 4)]
    | 1 => [(20, c.f 0 7 4)]
    | _ => [(35, 0)]
  | 0x0D04 => [(24, groupOf (c.f 0 6 0))]
  | 0x0D05 => [(35, 0)]
  | 0x0D06 => [(36, 0)]
  | 0x0F00 => [(37, 0)]
  | 0x0F01 => [(37, 0)]
  | 0x0F03 => maskUnits 38 16 (c.p 1) ++ (ones 2 (c.p 2)).map (fun i => (38, 0x10 + i)) ++ (ones 12 (c.p 2 / 2 ^ 16)).map (fun i => (38, 0x20 + i))
      ++ (ones 8 (c.p 3)).map (fun i => (38, 0x30 + i)) ++ (ones 8 (c.p 3 / 2 ^ 8)).map (fun i => (38, 0x38 + i))
  | 0x0F04 => [(39, 0)]
  | _ => []

/-- The units a command holds from its start (R517). -/
def State.unitsOf (s : State) (c : CmdRec) : List (Nat × Nat) :=
  if c.opcode < 0x0600 then unitsA c else if c.opcode < 0x0B00 then s.unitsB c else s.unitsC c

/-- Does another started command hold a unit this one changes (R39)? -/
def State.held (s : State) (c : CmdRec) : Bool :=
  let us := s.unitsOf c
  s.cmd.cmds.any (fun d => d.started && decide (d.seq ≠ c.seq) && d.units.any (fun u => us.contains u))

end Sys2Proof.Machine
end

