-- ==== Sys2Proof/Machine/OpTable.lean ====
section
/-! DEFINITION. The opcode index (R53): for each opcode its kind, whether it needs the backstage view, and the fewest parameter words it takes. -/
namespace Sys2Proof.Machine

/-- Command kinds (R53): query or marker, short, long. -/
inductive Kind where
  | q | s | l
  deriving DecidableEq, Repr

/-- A row of the opcode index (R53). -/
structure OpRow where
  op : Nat
  kind : Kind
  back : Bool
  params : Nat
  deriving DecidableEq, Repr

/-- Opcodes of family 0x00. -/
def ops00 : List OpRow := [
  ⟨0x0000, .q, false, 0⟩,
  ⟨0x0001, .q, false, 0⟩,
  ⟨0x0002, .s, true, 1⟩,
  ⟨0x0003, .q, false, 0⟩,
  ⟨0x0004, .l, true, 4⟩,
  ⟨0x0005, .s, true, 1⟩]

/-- Opcodes of family 0x01. -/
def ops01 : List OpRow := [
  ⟨0x0100, .q, false, 6⟩,
  ⟨0x0101, .l, true, 5⟩,
  ⟨0x0102, .q, false, 4⟩,
  ⟨0x0103, .l, true, 2⟩,
  ⟨0x0104, .q, false, 0⟩,
  ⟨0x0105, .l, true, 0⟩]

/-- Opcodes of family 0x02. -/
def ops02 : List OpRow := [
  ⟨0x0200, .s, true, 1⟩,
  ⟨0x0201, .l, true, 4⟩,
  ⟨0x0202, .l, true, 3⟩,
  ⟨0x0203, .l, true, 1⟩,
  ⟨0x0204, .l, true, 1⟩,
  ⟨0x0205, .s, true, 4⟩,
  ⟨0x0206, .s, true, 2⟩,
  ⟨0x0207, .s, true, 2⟩,
  ⟨0x0208, .q, false, 0⟩]

/-- Opcodes of family 0x03. -/
def ops03 : List OpRow := [
  ⟨0x0300, .s, true, 2⟩,
  ⟨0x0301, .s, true, 4⟩,
  ⟨0x0302, .l, true, 1⟩,
  ⟨0x0303, .s, false, 9⟩,
  ⟨0x0304, .s, false, 2⟩,
  ⟨0x0305, .s, true, 1⟩,
  ⟨0x0306, .s, true, 2⟩,
  ⟨0x0307, .q, false, 1⟩]

/-- Opcodes of family 0x04. -/
def ops04 : List OpRow := [
  ⟨0x0400, .s, true, 33⟩,
  ⟨0x0401, .s, true, 2⟩,
  ⟨0x0402, .q, false, 0⟩,
  ⟨0x0403, .s, false, 1⟩]

/-- Opcodes of family 0x05. -/
def ops05 : List OpRow := [
  ⟨0x0500, .s, true, 4⟩,
  ⟨0x0501, .q, false, 5⟩,
  ⟨0x0502, .s, false, 1⟩,
  ⟨0x0503, .s, true, 1⟩,
  ⟨0x0504, .l, true, 1⟩,
  ⟨0x0505, .s, true, 5⟩,
  ⟨0x0506, .q, false, 5⟩,
  ⟨0x0507, .q, false, 0⟩]

/-- Opcodes of family 0x06. -/
def ops06 : List OpRow := [
  ⟨0x0600, .l, true, 5⟩,
  ⟨0x0601, .l, true, 1⟩,
  ⟨0x0602, .s, true, 1⟩,
  ⟨0x0603, .l, true, 3⟩,
  ⟨0x0604, .s, true, 1⟩,
  ⟨0x0605, .s, true, 1⟩,
  ⟨0x0606, .l, true, 1⟩,
  ⟨0x0607, .s, true, 3⟩,
  ⟨0x0608, .q, false, 1⟩]

/-- Opcodes of family 0x07. -/
def ops07 : List OpRow := [
  ⟨0x0700, .l, true, 4⟩,
  ⟨0x0701, .l, true, 6⟩,
  ⟨0x0702, .s, true, 1⟩,
  ⟨0x0703, .s, true, 1⟩,
  ⟨0x0704, .s, true, 2⟩,
  ⟨0x0705, .s, true, 1⟩,
  ⟨0x0706, .s, true, 1⟩,
  ⟨0x0707, .q, false, 1⟩]

/-- Opcodes of family 0x08. -/
def ops08 : List OpRow := [
  ⟨0x0800, .s, true, 2⟩,
  ⟨0x0801, .l, false, 5⟩,
  ⟨0x0802, .l, false, 6⟩,
  ⟨0x0803, .l, true, 6⟩,
  ⟨0x0804, .s, true, 6⟩,
  ⟨0x0805, .q, false, 6⟩,
  ⟨0x0806, .s, true, 2⟩,
  ⟨0x0807, .s, true, 3⟩,
  ⟨0x0808, .s, false, 2⟩,
  ⟨0x0809, .q, false, 1⟩]

/-- Opcodes of family 0x09. -/
def ops09 : List OpRow := [
  ⟨0x0900, .s, true, 2⟩,
  ⟨0x0901, .s, true, 4⟩,
  ⟨0x0902, .l, true, 4⟩,
  ⟨0x0903, .s, true, 2⟩,
  ⟨0x0904, .s, true, 1⟩,
  ⟨0x0905, .s, false, 1⟩,
  ⟨0x0906, .q, false, 1⟩]

/-- Opcodes of family 0x0A. -/
def ops0A : List OpRow := [
  ⟨0x0A00, .s, true, 4⟩,
  ⟨0x0A01, .s, true, 2⟩,
  ⟨0x0A02, .s, true, 6⟩,
  ⟨0x0A03, .s, true, 2⟩,
  ⟨0x0A04, .s, true, 1⟩,
  ⟨0x0A05, .s, true, 4⟩,
  ⟨0x0A06, .s, true, 2⟩,
  ⟨0x0A07, .q, false, 1⟩]

/-- Opcodes of family 0x0B. -/
def ops0B : List OpRow := [
  ⟨0x0B00, .s, true, 11⟩,
  ⟨0x0B01, .s, false, 3⟩,
  ⟨0x0B02, .s, false, 2⟩,
  ⟨0x0B03, .s, false, 1⟩,
  ⟨0x0B04, .l, false, 6⟩,
  ⟨0x0B05, .s, false, 1⟩,
  ⟨0x0B06, .q, false, 1⟩,
  ⟨0x0B07, .s, true, 6⟩,
  ⟨0x0B08, .s, false, 1⟩,
  ⟨0x0B09, .s, true, 3⟩,
  ⟨0x0B0A, .s, false, 1⟩,
  ⟨0x0B0B, .q, false, 1⟩]

/-- Opcodes of family 0x0C. -/
def ops0C : List OpRow := [
  ⟨0x0C00, .s, true, 3⟩,
  ⟨0x0C01, .s, true, 2⟩,
  ⟨0x0C02, .s, true, 2⟩,
  ⟨0x0C03, .l, false, 8⟩,
  ⟨0x0C04, .q, false, 0⟩]

/-- Opcodes of family 0x0D. -/
def ops0D : List OpRow := [
  ⟨0x0D00, .s, true, 10⟩,
  ⟨0x0D01, .s, true, 0⟩,
  ⟨0x0D02, .q, false, 0⟩,
  ⟨0x0D03, .l, true, 1⟩,
  ⟨0x0D04, .l, true, 2⟩,
  ⟨0x0D05, .s, true, 1⟩,
  ⟨0x0D06, .s, true, 3⟩]

/-- Opcodes of family 0x0E. -/
def ops0E : List OpRow := [
  ⟨0x0E00, .q, false, 0⟩,
  ⟨0x0E01, .q, false, 6⟩,
  ⟨0x0E02, .q, false, 2⟩,
  ⟨0x0E03, .q, false, 4⟩]

/-- Opcodes of family 0x0F. -/
def ops0F : List OpRow := [
  ⟨0x0F00, .s, true, 2⟩,
  ⟨0x0F01, .s, true, 1⟩,
  ⟨0x0F02, .q, false, 0⟩,
  ⟨0x0F03, .s, true, 4⟩,
  ⟨0x0F04, .s, true, 1⟩,
  ⟨0x0F05, .q, false, 0⟩]

/-- The rows of a family (R53). -/
def opFamily (f : Nat) : List OpRow :=
  match f with
  | 0x00 => ops00
  | 0x01 => ops01
  | 0x02 => ops02
  | 0x03 => ops03
  | 0x04 => ops04
  | 0x05 => ops05
  | 0x06 => ops06
  | 0x07 => ops07
  | 0x08 => ops08
  | 0x09 => ops09
  | 0x0A => ops0A
  | 0x0B => ops0B
  | 0x0C => ops0C
  | 0x0D => ops0D
  | 0x0E => ops0E
  | 0x0F => ops0F
  | _ => []

/-- The row of an opcode, if the index lists it (R53). -/
def opRow (op : Nat) : Option OpRow := (opFamily (op / 256)).find? (fun r => r.op = op)

end Sys2Proof.Machine
end

