-- ==== Sys2Proof/Machine/Store.lean ====
section
/-! DEFINITION. The store (R423–R426) and the STORE commands (R428). -/
namespace Sys2Proof.Machine
open Sys2Proof

/-- An entry of a store record (R424). -/
structure StoreEnt where
  kind : Nat
  key : Nat
  data : List Word
  deriving DecidableEq, Repr

/-- Order of entries: kind, then key (R423). -/
def entBefore (a b : StoreEnt) : Bool := a.kind < b.kind || (a.kind = b.kind && a.key < b.key)
def entSame (a b : StoreEnt) : Bool := a.kind = b.kind && a.key = b.key

/-- Put an entry in its place, replacing one of the same kind and key. -/
def entPut (e : StoreEnt) : List StoreEnt → List StoreEnt
  | [] => [e]
  | x :: t => if entSame e x then e :: t else if entBefore e x then e :: x :: t else x :: entPut e t

/-- The words of an entry (R424). -/
def entWords (e : StoreEnt) : List Word :=
  BitVec.ofNat 32 (e.kind * 2 ^ 30 + e.key) :: BitVec.ofNat 32 (4 * e.data.length) :: e.data

/-- The words of a record with its header (R423). -/
def recordWords (seq : Word) (es : List StoreEnt) : List Word :=
  let body := es.flatMap entWords
  let h := [0x53544F52#32, seq, BitVec.ofNat 32 (32 + 4 * body.length), BitVec.ofNat 32 es.length, crc32cWords body, 0x77480001#32, 0#32]
  h ++ crc32cWords h :: body

/-- Entries from words; `fuel` bounds their number. -/
def entParse (ws : List Word) : Nat → List StoreEnt
  | 0 => []
  | n + 1 =>
    match ws with
    | w0 :: w1 :: t =>
      let k := getF w1 0 16 / 4
      ⟨getF w0 30 2, getF w0 0 24, t.take k⟩ :: entParse (t.drop k) n
    | _ => []

/-- The base of store bank 0 (A) or 1 (B). -/
def storeBase (b : Nat) : Nat := 0x02000000 + b * 0x00100000

/-- Does any word of a range hold an uncorrectable error? -/
def State.anyBad (s : State) (a bytes : Nat) : Bool :=
  s.memu.flips.any (fun e => a ≤ e.1 && e.1 < a + bytes && decide ((s.flipsAt e.1).length ≥ 2))

/-- Is a store bank valid (R425, R518)? -/
def State.storeValid (s : State) (b : Nat) : Bool :=
  let a := storeBase b
  let len := (s.wordAt (a + 8)).toNat
  decide (s.wordAt a = 0x53544F52#32) && decide (crc32cWords (s.wordsAt a 7) = s.wordAt (a + 0x1C))
    && decide (s.wordAt (a + 0x14) = 0x77480001#32) && decide (32 ≤ len ∧ len ≤ 1048576 ∧ len % 4 = 0)
    && !s.anyBad a len && decide (crc32cWords (s.wordsAt (a + 0x20) ((len - 32) / 4)) = s.wordAt (a + 0x10))

/-- The sequence number of a bank. -/
def State.storeSeq (s : State) (b : Nat) : Word := s.wordAt (storeBase b + 4)

/-- Is sequence number `a` newer than `b` (R425)? -/
def newer (a b : Word) : Bool := let d := (a - b).toNat; decide (1 ≤ d ∧ d ≤ 2 ^ 31 - 1)

/-- The active bank as start-up chooses it (R425). -/
def State.storePick (s : State) : Option Nat :=
  match s.storeValid 0, s.storeValid 1 with
  | true, true => if newer (s.storeSeq 1) (s.storeSeq 0) then some 1 else some 0
  | true, false => some 0
  | false, true => some 1
  | false, false => none

/-- The bank in use: the one STORE_STAT names while it is valid. -/
def State.storeActive (s : State) : Option Nat :=
  let b := s.rd F.STORE_STAT_active
  if (if b = 0 then s.on F.STORE_STAT_valida else s.on F.STORE_STAT_validb) then some b else none

/-- Entries of the active record; none stands for the factory configuration (R425, notes/assumptions/11.md). -/
def State.storeEnts (s : State) : List StoreEnt :=
  match s.storeActive with
  | none => []
  | some b =>
    let a := storeBase b
    entParse (s.wordsAt (a + 0x20) (((s.wordAt (a + 8)).toNat - 32) / 4)) (s.wordAt (a + 0xC)).toNat

/-- Show a bank's sequence number and validity. -/
def State.storeShow (s : State) (b : Nat) (ok : Bool) (seq : Word) : State :=
  let v := if ok then seq.toNat else 0
  if b = 0 then (s.wr F.STORE_STAT_valida (if ok then 1 else 0)).wr F.STORE_SEQA v
  else (s.wr F.STORE_STAT_validb (if ok then 1 else 0)).wr F.STORE_SEQB v

/-- Write a whole new record with the given entries into the bank that is not active, read it back and make it active; `bad` is what the read-back
finds wrong beside the bank's own codes (R426). The Bool says whether the change succeeded. -/
def State.storeWrite (s : State) (es : List StoreEnt) (bad : Bool) : Bool × State :=
  let old := s.storeActive
  let b := match old with
    | some 0 => 1
    | _ => 0
  let seq := match old with
    | some o => s.storeSeq o + 1
    | none => 1
  let ws := recordWords seq es
  let s := s.putWords (storeBase b) ws
  if bad || !s.storeValid b then (false, (s.storeShow b false 0).event F.STORE_EVT_wrfail)
  else
    (true, (((s.storeShow b true seq).wr F.STORE_STAT_active b).wr F.STORE_USED (4 * ws.length)).event F.STORE_EVT_written)

/-- Where the bulk descriptors of an opcode stand: parameter index and direction. -/
def bulkPlaces (c : CmdRec) : List (Nat × Nat) :=
  match c.opcode with
  | 0x0004 => [(0, 0)]
  | 0x0100 => [(2, 1)]
  | 0x0101 => [(1, 0)]
  | 0x0102 => [(0, 1)]
  | 0x0201 => [(0, 0)]
  | 0x0203 => if c.f 0 1 0 = 1 then [(4, 0)] else []
  | 0x0501 => [(1, 1)]
  | 0x0504 => if c.f 0 1 0 = 0 then [(2, 0)] else if c.f 0 1 0 = 1 then [(2, 1)] else []
  | 0x0506 => [(1, 1)]
  | 0x0600 => [(1, 0)]
  | 0x0700 => [(0, 0)]
  | 0x0701 => [(2, 0)]
  | 0x0705 => if c.f 0 8 8 = 1 then [(1, 1)] else []
  | 0x0802 => [(2, 1)]
  | 0x0803 => [(2, 1)]
  | 0x0805 => [(2, 1)]
  | 0x0A04 => if c.f 0 1 0 = 3 then [(4, 1)] else []
  | 0x0C03 => [(0, 0), (4, 1)]
  | 0x0E01 => [(2, 1)]
  | _ => []

/-- A command record made of a packet's words. -/
def recOfPacket (ws : List Word) (seq queue ident : Nat) (bs : Bool) (raw headAfter : Nat) (inner : Option (List Byte)) : CmdRec :=
  let w0 := wAt ws 0
  let len := getF w0 0 8
  { seq := seq, queue := queue, ident := ident, bs := bs, opcode := getF w0 16 16, flags := getF w0 8 8, tag := wAt ws 1, len := len,
    params := (ws.drop 4).take (len - 4), acc := raw, started := false, startRaw := 0, ran := false, fin := none, postable := true,
    headAfter := headAfter, units := [], inner := inner }

/-- The CRC a packet must carry in word 3 (R33). -/
def packetCrc (ws : List Word) (len : Nat) : Word := crc32cWords ((ws.take len).set 3 0)

/-- Is a stored command's entry well formed (R424)? -/
def storedOk (data : List Word) : Bool :=
  let len := getF (wAt data 0) 0 8
  let bytes := wordsToBytes data
  let c := recOfPacket data 0 8 0 true 0 0 (some bytes)
  decide (4 ≤ len ∧ len ≤ 64 ∧ len ≤ data.length) && decide (packetCrc data len = wAt data 3) &&
    (bulkPlaces c).all (fun p =>
      match bulkOf c p.1 p.2 with
      | .error _ => false
      | .ok b => if p.2 = 0 then !b.host && decide (crc32c ((bytes.drop b.addr).take b.len) = b.crc) else !b.host)

/-- Does every register of a run hold RW or RWC fields (R424)? -/
def runOk (key n : Nat) : Bool :=
  (List.range n).all (fun i =>
    match findRow (0x04000000 + key + 4 * i) with
    | none => false
    | some r => r.fields.any (fun f => f.ty = .rw || f.ty = .rwc))

/-- Check one entry as STORE.WRITE does: its error status, none if it may be written (R424, R428). -/
def entCheck (e : StoreEnt) : Option Nat :=
  match e.kind with
  | 0 => if e.key % 4 = 0 ∧ e.data.length ≤ 1024 ∧ runOk e.key e.data.length = true then none else some 0x0103
  | 1 => if storedOk e.data then none else some 0x0103
  | 2 => none
  | _ => some 0x0104

/-- Parse and check a buffer of entries: the entries, or the status and byte offset of the first that breaks R424. -/
def entsOf (ws : List Word) (off : Nat) : Nat → Except (Nat × Nat) (List StoreEnt)
  | 0 => .ok []
  | n + 1 =>
    match ws with
    | [] => .ok []
    | [_] => .error (0x0103, off)
    | w0 :: w1 :: t =>
      let k := getF w1 0 16 / 4
      let e : StoreEnt := ⟨getF w0 30 2, getF w0 0 24, t.take k⟩
      if getF w0 24 6 ≠ 0 ∨ getF w1 16 16 ≠ 0 ∨ getF w1 0 16 % 4 ≠ 0 ∨ k = 0 ∨ t.length < k then .error (0x0103, off)
      else
        match entCheck e with
        | some st => .error (st, off)
        | none =>
          match entsOf (t.drop k) (off + 8 + 4 * k) n with
          | .ok l => .ok (e :: l)
          | .error x => .error x

/-- The byte offset of the first entry of a buffer whose kind and key an entry before it has (R423); `none`: every key is named once. -/
def keyTwice (before : List StoreEnt) (off : Nat) (es : List StoreEnt) : Option Nat :=
  match es with
  | [] => none
  | e :: t => if before.any (fun x => entSame e x) then some off else keyTwice (e :: before) (off + 8 + 4 * e.data.length) t

/-- Is the read-back of a store write found wrong, by what is observed (notes/assumptions/12.md)? -/
def readBackBad (env : Env) : Bool := decide (wAt env.obs 0 ≠ 0)

/-- Write a changed record for a command and end it (R426). -/
def State.storeChange (s : State) (c : CmdRec) (env : Env) (es : List StoreEnt) (res : State → List Word) : State :=
  if 4 * (recordWords 0 es).length > 1048576 then s.fail c 0x0301 []
  else
    match s.storeWrite es (readBackBad env) with
    | (true, s) => s.done c (res s)
    | (false, s) => s.fail c 0x0F00 []

/-- The sequence number of the active bank as STORE_SEQA or STORE_SEQB shows it. -/
def State.storeSeqShown (s : State) : Word :=
  if s.rd F.STORE_STAT_active = 0 then s.reg F.STORE_SEQA.addr else s.reg F.STORE_SEQB.addr

/-- STORE.WRITE (R426, R428). -/
def opStoreWrite (env : Env) (c : CmdRec) (s : State) : State :=
  s.withBuf c env 1 (fun bs s =>
    let ws := bytesToWords bs
    match entsOf ws 0 ws.length with
    | .error (st, off) => if st = 0x0104 then s.fail c st [] else s.fail c st [1#32, BitVec.ofNat 32 off]
    | .ok new =>
      match keyTwice [] 0 new with
      | some off => s.fail c 0x0103 [1#32, BitVec.ofNat 32 off]
      | none =>
        let base := if c.f 0 0 0 = 1 then s.storeEnts.filter (fun e => e.kind = 3) else s.storeEnts
        s.storeChange c env (new.foldl (fun l e => entPut e l) base) (fun s => [s.storeSeqShown, s.reg F.STORE_USED.addr]))

/-- Take whole entries while they fit in a length (R428). -/
def takeEnts (es : List StoreEnt) (room : Nat) : Nat → List StoreEnt
  | 0 => []
  | n + 1 =>
    match es with
    | [] => []
    | e :: t => if 8 + 4 * e.data.length ≤ room then e :: takeEnts t (room - (8 + 4 * e.data.length)) n else []

/-- STORE.READ (R428). -/
def opStoreRead (_env : Env) (c : CmdRec) (s : State) : State :=
  s.withOut c 2 (fun b s =>
    let k : StoreEnt := ⟨c.f 0 31 30, c.f 0 23 0, []⟩
    let es := takeEnts (s.storeEnts.filter (fun e => !entBefore e k)) b.len (c.f 1 15 0)
    (s.writeBuf c b (es.flatMap entWords)).done c [BitVec.ofNat 32 es.length, s.storeSeqShown])

/-- STORE.LIST (R428). -/
def opStoreList (_env : Env) (c : CmdRec) (s : State) : State :=
  s.withOut c 0 (fun b s =>
    let es := s.storeEnts.take (b.len / 8)
    (s.writeBuf c b (es.flatMap (fun e => (entWords e).take 2))).done c [BitVec.ofNat 32 es.length])

/-- STORE.ERASE (R428). -/
def opStoreErase (env : Env) (c : CmdRec) (s : State) : State :=
  let n := c.f 0 5 0
  if n < 1 ∨ n > 59 then s.badParam c 0
  else if c.len < 5 + n then s.fail c 0x0101 []
  else
    let ks := (c.params.drop 1).take n
    if ks.any (fun k => decide (getF k 30 2 = 3)) then s.fail c 0x0104 []
    else
      let old := s.storeEnts
      let es := old.filter (fun e => !ks.any (fun k => decide (getF k 30 2 = e.kind ∧ getF k 0 24 = e.key)))
      s.storeChange c env es (fun s => [s.storeSeqShown, BitVec.ofNat 32 (old.length - es.length)])

/-- STORE.STATUS (R428). -/
def opStoreStatus (_env : Env) (c : CmdRec) (s : State) : State :=
  s.done c [s.reg F.STORE_STAT_busy.addr, s.reg F.STORE_SEQA.addr, s.reg F.STORE_SEQB.addr, s.reg F.STORE_USED.addr]

/-- STORE.FACTORY: a record without entries of kinds 0–2, so that every Store field takes its factory value (R426, notes/assumptions/11.md). -/
def opStoreFactory (env : Env) (c : CmdRec) (s : State) : State :=
  s.storeChange c env (s.storeEnts.filter (fun e => e.kind = 3)) (fun s => [s.storeSeqShown])

def execStoreRead (seq : Nat) (env : Env) (s : State) : Out := .next (s.runCmd 0x0100 seq (opStoreRead env))
def execStoreWrite (seq : Nat) (env : Env) (s : State) : Out := .next (s.runCmd 0x0101 seq (opStoreWrite env))
def execStoreList (seq : Nat) (env : Env) (s : State) : Out := .next (s.runCmd 0x0102 seq (opStoreList env))
def execStoreErase (seq : Nat) (env : Env) (s : State) : Out := .next (s.runCmd 0x0103 seq (opStoreErase env))
def execStoreStatus (seq : Nat) (env : Env) (s : State) : Out := .next (s.runCmd 0x0104 seq (opStoreStatus env))
def execStoreFactory (seq : Nat) (env : Env) (s : State) : Out := .next (s.runCmd 0x0105 seq (opStoreFactory env))

/-- Record one device entry (kind 3) (R31, R418, R482). -/
def State.storeDevice (s : State) (key : Nat) (data : List Word) (bad : Bool) : Bool × State :=
  s.storeWrite (entPut ⟨3, key, data⟩ s.storeEnts) bad

/-- Remove a device entry. -/
def State.storeDrop (s : State) (key : Nat) (bad : Bool) : Bool × State :=
  s.storeWrite (s.storeEnts.filter (fun e => !(e.kind = 3 && e.key = key))) bad

end Sys2Proof.Machine
end

