-- ==== Sys2Proof/Machine/Cmd.lean ====
section
/-! DEFINITION. The command core's pipeline: doorbells, consumption, acceptance, start, end, completions and queue control (R27–R59, R516, R517,
R519). -/
namespace Sys2Proof.Machine
open Sys2Proof

/-- Slots of a queue (R28). -/
def State.qSlots (s : State) (q : Nat) : Nat := 2 ^ s.rd (F.CMD_QCFG_size q)
def State.sqBase (s : State) (q : Nat) : Nat := s.rd (F.CMD_QSQBASE_LO q) * 256 + s.rd (F.CMD_QSQBASE_HI q) * 2 ^ 32
def State.cqBase (s : State) (q : Nat) : Nat := s.rd (F.CMD_QCQBASE_LO q) * 32 + s.rd (F.CMD_QCQBASE_HI q) * 2 ^ 32
def State.hostQueue (s : State) (q : Nat) : Bool := s.on (F.CMD_QCFG_loc q)

/-- Commands of a queue that are STARTED. -/
def State.inFlight (s : State) (q : Nat) : Nat := (s.cmd.cmds.filter (fun c => c.started && decide (c.queue = q))).length
def State.inFlightAll (s : State) : Nat := (s.cmd.cmds.filter (fun c => c.started)).length

/-- Show the in-flight counts and idle flags. -/
def State.showFlight (s : State) : State :=
  let s := s.wr F.CMD_STATUS_inflight s.inFlightAll
  s.each (List.range 8) (fun q s => (s.wr (F.CMD_QSTAT_inflight q) (s.inFlight q)).wr (F.CMD_QSTAT_idle q) (if s.inFlight q = 0 then 1 else 0))

/-- The words of a completion slot (R36). -/
def completionWords (x : PostItem) (phase st : Nat) (rs : List Word) : List Word :=
  let rs := rs.take 4
  [x.tag, BitVec.ofNat 32 (phase * 2 ^ 31 + rs.length * 2 ^ 28 + x.headAfter % 2 ^ 12 * 2 ^ 16 + st), BitVec.ofNat 32 x.seq,
    BitVec.ofNat 32 (x.opcode * 2 ^ 16 + x.seq / 2 ^ 32 % 2 ^ 16)] ++ rs ++ List.replicate (4 - rs.length) 0#32

/-- Advance the completion tail; the phase inverts at the wrap (R36). -/
def State.cqAdvance (s : State) (q : Nat) : State :=
  let t := s.rd (F.CMD_QCQPTR_tail q) + 1
  let s := if t = s.qSlots q then (s.wr (F.CMD_QCQPTR_tail q) 0).wr (F.CMD_QCQPTR_phase q) (1 - s.rd (F.CMD_QCQPTR_phase q))
    else s.wr (F.CMD_QCQPTR_tail q) t
  s.setQueue q (fun x => { x with unsig := x.unsig + 1, firstRaw := if x.unsig = 0 then s.raw else x.firstRaw })

/-- A command of the queue ended without its completion (R58): its final flag, and a signal where the queue is enabled. -/
def State.finalFlag (s : State) (q : Nat) : State :=
  if q < 8 then
    let s := s.wr (bitFld F.CMD_FINAL_final q) 1
    if s.on (F.CMD_QSTAT_enabled q) then s.signalQueue q true else s
  else s

/-- Write one completion (R36, R42). -/
def State.post (s : State) (q : Nat) (x : PostItem) (st : Nat) (rs : List Word) (hostFail : Bool) : State :=
  let ws := completionWords x (s.rd (F.CMD_QCQPTR_phase q)) st rs
  let a := s.cqBase q + 32 * s.rd (F.CMD_QCQPTR_tail q)
  if s.hostQueue q then
    let fn := fnOf (s.owner q)
    if hostFail || s.fenced fn then (if st = 0x0002 then s.wr (F.CMD_QSTAT_cqerr q) 1 else (s.wr (F.CMD_QSTAT_cqerr q) 1).finalFlag q)
    else (s.emit (.hostWrite fn a (wordsToBytes ws))).cqAdvance q
  else (s.coreWords a ws).cqAdvance q

/-- Post the completions whose turn has come, in order (R40); a completion into host memory waits while Bus Master Enable is 0 (R451). -/
def State.drain (s : State) (q : Nat) (hostFail : Bool) : Nat → State
  | 0 => s
  | n + 1 =>
    match (s.queue q).order with
    | [] => s
    | x :: t =>
      match x.res with
      | none => s
      | some (st, rs) =>
        if x.flags.testBit 3 && (st = 0x0000 || st = 0x0002) then (s.setQueue q (fun y => { y with order := t })).drain q hostFail n
        else if s.hostQueue q && !s.bme (fnOf (s.owner q)) && !s.fenced (fnOf (s.owner q)) then s
        else ((s.setQueue q (fun y => { y with order := t })).post q x st rs hostFail).drain q hostFail n

def State.drainAll (s : State) (q : Nat) (hostFail : Bool) : State := s.drain q hostFail (s.queue q).order.length

/-- Does the queue hold a slot that may be consumed: enabled, not halted, an announced slot, its memory reachable, and a completion slot to reserve
(R37, R451)? -/
def State.eligible (s : State) (q : Nat) : Bool :=
  let n := s.qSlots q
  let head := s.rd (F.CMD_QPTR_head q)
  let used := (s.rd (F.CMD_QCQPTR_tail q) + n - s.rd (F.CMD_QCQPTR_head q)) % n
  let owed := (s.queue q).order.length + (s.cmd.cmds.filter (fun c => c.queue = q && c.postable && !c.started)).length
  s.on (F.CMD_QSTAT_enabled q) && !s.on (F.CMD_QSTAT_halted q) && decide (head ≠ s.rd (F.CMD_QPTR_tail q))
    && decide (used + owed + 1 ≤ n - 1) && (!s.hostQueue q || s.bme (fnOf (s.owner q)))

/-- The queue whose turn it is, and the turns it has left after this one (R37). -/
def State.pickQueue (s : State) : Option (Nat × Nat) :=
  if s.cmd.turns > 0 && s.eligible s.cmd.turn then some (s.cmd.turn, s.cmd.turns - 1)
  else
    ((List.range 8).map (fun i => (s.cmd.turn + 1 + i) % 8)).find? (fun q => s.eligible q) |>.map (fun q => (q, s.rd (F.CMD_QCFG_weight q)))

/-- Read one word of a slot; one with an uncorrectable error reads as an open value, and is reported (R518). -/
def State.slotWord (s : State) (a : Nat) : (Word × Bool) × State :=
  match s.rdMem 0 a with
  | (.ok v, s) => ((v, false), s)
  | (.bad, s) => ((s.freeW, true), s.useFree)
  | (.wait, s) => ((0, false), s)
  | (.none, s) => ((0, false), s)

/-- Read `n` words of a slot, and whether one of them was uncorrectable (R518). -/
def State.slotWords (s : State) (a : Nat) : Nat → List Word × Bool × State
  | 0 => ([], false, s)
  | n + 1 =>
    let x := s.slotWord a
    let r := x.2.slotWords (a + 4) n
    (x.1.1 :: r.1, x.1.2 || r.2.1, r.2.2)

/-- Read the slot at `a`: its words within the packet's length, whether one of them was uncorrectable. -/
def State.slotAt (s : State) (a : Nat) : List Word × Bool × State :=
  let x := s.slotWord a
  if x.1.2 then ([x.1.1], true, x.2)
  else
    let r := x.2.slotWords (a + 4) (min (getF x.1.1 0 8) 64 - 1)
    (x.1.1 :: r.1, r.2.1, r.2.2)

/-- Read a submission slot, in host memory or here. -/
def State.readSlot (s : State) (q : Nat) (env : Env) : List Word × Bool × State :=
  if s.hostQueue q then (bytesToWords env.host, false, s) else s.slotAt (s.sqBase q + 256 * s.rd (F.CMD_QPTR_head q))

/-- The newest matching entry of the duplicate check (R44, R45). -/
def State.dupFind (s : State) (ident : Nat) (tag : Word) : Option Nat :=
  s.bookFind (fun n => decide (getF (s.bookW n 1) 26 6 = ident) && decide (s.bookW n 3 = tag)
    && !(decide (s.bookState n = 5) && decide (getF (s.bookW n 2) 0 16 = 0x0F10))) s.cmd.book 16384

/-- The checks of R37 in their order: the first that fails gives the status, with result words. -/
def State.checkPacket (s : State) (q : Nat) (ws : List Word) (bad : Bool) : Option (Nat × List Word) :=
  let w0 := wAt ws 0
  let len := getF w0 0 8
  let op := getF w0 16 16
  let row := opRow op
  let need := (row.map (fun r => r.params)).getD 0
  if bad && ws.length ≤ 1 then some (0x0600, [])
  else if len < 4 ∨ len > 64 ∨ len < 4 + need then some (0x0101, [])
  else if bad ∨ packetCrc ws len ≠ wAt ws 3 then some (0x0600, [])
  else if wAt ws 2 ≠ s.reg (F.CMD_QEPOCH q).addr then some (0x0201, [])
  else if row.isNone then some (0x0100, [])
  else if getF w0 12 4 ≠ 0 then some (0x0102, [])
  else if bit w0.toNat 8 && bit w0.toNat 9 then some (0x0108, [])
  else if (row.map (fun r => r.back)).getD false && !s.backstage (s.owner q) then some (0x0500, [])
  else if bit w0.toNat 10 then
    match s.dupFind (s.owner q) (wAt ws 1) with
    | none => none
    | some m => some (0x0601, [BitVec.ofNat 32 m, BitVec.ofNat 32 (m / 2 ^ 32 % 2 ^ 16 + s.bookState m * 2 ^ 16), s.bookW m 2 &&& 0xFFFF#32])
  else none

/-- Would the next entry overwrite one that is ACCEPTED or STARTED (R50)? -/
def State.bookBlocked (s : State) : Bool :=
  let n := s.cmd.book + 1
  s.bookValid n && (s.bookState n = 1 || s.bookState n = 2)

/-- Record a consumed slot: the entry, then the head, then the command or its refusal (R38, R47, R48). -/
def State.acceptSlot (s : State) (q : Nat) (ws : List Word) (bad hostFail : Bool) : State :=
  let o := s.owner q
  let n := s.cmd.book + 1
  let head := (s.rd (F.CMD_QPTR_head q) + 1) % s.qSlots q
  let c := recOfPacket ws n q o (s.backstage o) s.raw head none
  let digest := if c.len ≤ 4 then 0#32 else crc32cWords c.params
  match s.checkPacket q ws bad with
  | none =>
    let s := s.bookPut n q o 1 c.opcode 0x0001 c.tag s.raw (3 * 2 ^ 30) digest
    let s := { s with cmd := { s.cmd with book := n, cmds := s.cmd.cmds ++ [c] } }
    (s.wr (F.CMD_QPTR_head q) head).showBook
  | some (st, rs) =>
    let s := s.bookPut n q o 4 c.opcode st c.tag s.raw 0 digest
    let s := { s with cmd := { s.cmd with book := n } }
    let s := (s.wr (F.CMD_QPTR_head q) head).showBook
    let x : PostItem := ⟨n, c.tag, c.opcode, c.flags, head, some (st, rs)⟩
    (s.setQueue q (fun y => { y with order := y.order ++ [x] })).drainAll q hostFail

/-- SLOT_CONSUMPTION (R37, R38, R50): the queue whose turn it is. -/
def State.consume (s : State) (env : Env) : State :=
  if s.bookBlocked then s.wr F.CMD_STATUS_bookstall 1
  else
    let s := s.wr F.CMD_STATUS_bookstall 0
    match s.pickQueue with
    | none => s
    | some (q, left) =>
      let s := { s with cmd := { s.cmd with turn := q, turns := left } }
      if s.hostQueue q && (env.hostFail || env.host.isEmpty) then s
      else
        let r := s.readSlot q env
        r.2.2.acceptSlot q r.1 r.2.1 env.hostFail

/-- Does the command core run and consume slots (R59, R469, R479, R485)? -/
def State.coreUp (s : State) : Bool := s.alive && !s.cmd.halted && s.on F.CMD_STATUS_ready

def execSlotConsumption (env : Env) (s : State) : Out := .next (if s.coreUp && !s.cmd.accStop then s.consume env else s)

/-- Is a command long: kind L, or MOT.LATCH with an edge as its source (R40, R401)? -/
def isLong (c : CmdRec) : Bool :=
  ((opRow c.opcode).map (fun r => decide (r.kind = .l))).getD false || (c.opcode = 0x0B05 && decide (c.f 0 9 8 < 2))

/-- Do the flags of the queue's commands allow the start (R34)? Earlier commands are those with a lower sequence number still present. -/
def State.flagsAllow (s : State) (c : CmdRec) : Bool :=
  let before := s.cmd.cmds.filter (fun d => d.queue = c.queue && decide (d.seq < c.seq))
  (!c.flags.testBit 0 || before.isEmpty) && before.all (fun d => !d.flags.testBit 0)
    && (c.flags.testBit 1 || before.all (fun d => d.started))

/-- May an accepted command start (R39)? -/
def State.mayStart (s : State) (c : CmdRec) : Bool :=
  !c.started && decide (s.inFlightAll < 64) && (decide (c.queue ≥ 8) || decide (s.inFlight c.queue < s.rd (F.CMD_QCFG_maxfly c.queue) + 1))
    && s.flagsAllow c && !s.held c

/-- Start a command: its entry is STARTED before it has any effect; a long command posts its start completion (R39, R40). -/
def State.startCmd (s : State) (c : CmdRec) (hostFail : Bool) : State :=
  let s := s.bookSet c.seq 2 0x0002 (3 * 2 ^ 30)
  let us := s.unitsOf c
  let s := (s.modCmd c.seq (fun d => { d with started := true, startRaw := s.raw, units := us })).showFlight
  if c.queue < 8 ∧ c.postable = true then
    let x : PostItem := ⟨c.seq, c.tag, c.opcode, c.flags, c.headAfter, if isLong c then some (0x0002, []) else none⟩
    (s.setQueue c.queue (fun y => { y with order := y.order ++ [x] })).drainAll c.queue hostFail
  else s

def execCommandStart (seq : Nat) (env : Env) (s : State) : Out :=
  match s.findCmd seq with
  | none => .next s
  | some c => .next (if s.alive && !s.cmd.halted && s.mayStart c then s.startCmd c env.hostFail else s)

/-- A lockstep mismatch of the command core: its cores are halted and the gate trips; the heartbeat resets later (R209, R485, R488). -/
def State.coreFault (s : State) : State := ({ s with cmd := { s.cmd with halted := true, inject := [] } }).trip 2

/-- The completion of a command, or its final flag (R40, R58). -/
def State.postEnd (s : State) (c : CmdRec) (st : Nat) (rs : List Word) (hostFail : Bool) : State :=
  if c.queue ≥ 8 then s
  else if !c.postable then s.finalFlag c.queue
  else if isLong c then s.finalFlag c.queue
  else
    let f : PostItem → PostItem := fun x => if x.seq = c.seq then { x with res := some (st, rs) } else x
    (s.setQueue c.queue (fun y => { y with order := y.order.map f })).drainAll c.queue hostFail

/-- A command that reached its final state: entry, completion or final flag, and its units are free (R40, R48, R54, R58); an injected
lockstep fault of the core follows its completion (R497). -/
def State.endCmd (s : State) (c : CmdRec) (st : Nat) (rs : List Word) (hostFail : Bool) : State :=
  let s := s.bookSet c.seq (if st = 0 then 3 else 4) st (bookDelta ((s.raw + 2 ^ 64 - c.acc) % 2 ^ 64))
  let s := ({ s with cmd := { s.cmd with cmds := s.cmd.cmds.filter (fun d => d.seq ≠ c.seq) } }).showFlight
  let s := if c.opcode = 0x0002 ∧ st = 0 then { s with cmd := { s.cmd with resetReq := some (if c.f 0 0 0 = 1 then 3 else 4) } } else s
  let s := s.postEnd c st rs hostFail
  if s.cmd.inject.contains c.seq then s.coreFault else s

def execCommandEnd (seq : Nat) (env : Env) (s : State) : Out :=
  match s.findCmd seq with
  | none => .next s
  | some c =>
    match c.fin with
    | none => .next s
    | some (st, rs) => .next (if s.alive && !s.cmd.halted then s.endCmd c st rs env.hostFail else s)

/-- Is a queue's completion interrupt due (R519)? -/
def State.irqDue (s : State) (q : Nat) : Bool :=
  let x := s.queue q
  let h := s.rd (F.CMD_QCQCFG_holdoff q)
  decide (x.unsig > 0) && (decide (h = 0) || decide (x.unsig ≥ max 1 (s.rd (F.CMD_QCQCFG_coalesce q)))
    || decide (h * tickUs ≤ (s.raw + 2 ^ 64 - x.firstRaw) % 2 ^ 64))

def execCompletionInterrupt (q : Fin 8) (s : State) : Out :=
  .next (if s.alive && s.irqDue q then (s.setQueue q (fun x => { x with unsig := 0 })).signalQueue q false else s)

/-- Watchdog limit of a command in ticks (R488). -/
def State.cmdLimit (s : State) (c : CmdRec) : Nat :=
  (if ((opRow c.opcode).map (fun r => decide (r.kind = .q))).getD false then s.cmd.limQ else s.cmd.limS) * tickMs

/-- COMMAND_WATCHDOG: a command of kind S or Q that runs beyond its limit fails with status 0x0F01 (R43). -/
def execCommandWatchdog (seq : Nat) (s : State) : Out :=
  match s.findCmd seq with
  | none => .next s
  | some c => .next (if s.alive && c.started && c.fin.isNone && !isLong c && decide (s.raw > c.startRaw + s.cmdLimit c) then s.fin seq 0x0F01 [] else s)

/-- CORE_HEARTBEAT: a warm reset with cause 5 follows (R488). -/
def execCoreHeartbeat (s : State) : Out := .next (if s.alive then { s with cmd := { s.cmd with resetReq := some 5 } } else s)

/-- Zero the pointers of a queue and set its phase (R31, R57). -/
def State.zeroPtrs (s : State) (q : Nat) : State :=
  ((((s.wr (F.CMD_QPTR_tail q) 0).wr (F.CMD_QPTR_head q) 0).wr (F.CMD_QCQPTR_tail q) 0).wr (F.CMD_QCQPTR_head q) 0).wr (F.CMD_QCQPTR_phase q) 1

/-- No command accepted so far on the queue posts a completion any more (R31, R57). -/
def State.unpost (s : State) (q : Nat) : State :=
  let f : CmdRec → CmdRec := fun c => if c.queue = q then { c with postable := false } else c
  let s := { s with cmd := { s.cmd with cmds := s.cmd.cmds.map f } }
  s.setQueue q (fun x => { x with order := [], unsig := 0, sig := false })

/-- Give a queue its next epoch, shown once it is recorded in the store (R31). -/
def State.newEpoch (s : State) (q e : Nat) (bad : Bool) : State :=
  match s.storeDevice q [BitVec.ofNat 32 e] bad with
  | (true, s) => ((s.wr (F.CMD_QEPOCH q) e).setQueue q (fun x => { x with epochWait := none })).wr (F.CMD_QSTAT_enabled q) (s.rd (F.CMD_QCTL_enable q))
  | (false, s) => (s.setQueue q (fun x => { x with epochWait := some e })).wr (F.CMD_QSTAT_enabled q) 0

/-- EPOCH_RECORD_RETRY: repeat the record of the epochs that wait (R31). -/
def execEpochRecordRetry (env : Env) (s : State) : Out :=
  .next (if s.alive && !s.cmd.halted then
    s.each (List.range 8) (fun q s => match (s.queue q).epochWait with
      | none => s
      | some e => s.newEpoch q e (readBackBad env))
    else s)

/-- Abandon the accepted commands of a queue that have not started (R48, R57). -/
def State.abandonAccepted (s : State) (q : Nat) : State :=
  let cs := s.cmd.cmds.filter (fun c => c.queue = q && !c.started)
  let s := s.each cs (fun c s => s.bookSet c.seq 5 0x0F10 (bookDelta ((s.raw + 2 ^ 64 - c.acc) % 2 ^ 64)))
  { s with cmd := { s.cmd with cmds := s.cmd.cmds.filter (fun c => !(c.queue = q && !c.started)) } }

/-- Queue reset (R57). -/
def State.queueReset (s : State) (q : Nat) (bad : Bool) : State :=
  let s := (s.abandonAccepted q).unpost q
  let s := ((s.wr (F.CMD_QSTAT_dberr q) 0).wr (F.CMD_QSTAT_halted q) 0).zeroPtrs q
  if s.on (F.CMD_QCTL_enable q) then s.newEpoch q ((s.rd (F.CMD_QEPOCH q) + 1) % 2 ^ 32) bad else s

/-- The registers of a queue's configuration (R28). -/
def queueRegs (q : Nat) : List Nat := (List.range 6).map (fun i => 0x04040100 + q * 0x40 + 4 * i)

/-- Is an owner one that R27 allows? -/
def ownerOk (o : Nat) : Bool := decide ((1 ≤ o ∧ o ≤ 4) ∨ o = 8 ∨ o = 9 ∨ (0x10 ≤ o ∧ o ≤ 0x1F))

/-- Does the configuration written for a queue meet R27 and R28? Bases are aligned by their fields. -/
def State.placementOk (s : State) (q : Nat) : Bool :=
  let o := s.rdS (F.CMD_QCFG_owner q)
  let n := 2 ^ s.rdS (F.CMD_QCFG_size q)
  let sq := s.rdS (F.CMD_QSQBASE_LO q) * 256
  let cq := s.rdS (F.CMD_QCQBASE_LO q) * 32
  ownerOk o &&
    (if s.rdS (F.CMD_QCFG_loc q) = 1 then decide (o = 1 ∨ o = 2)
     else decide (s.rdS (F.CMD_QSQBASE_HI q) = 0 ∧ s.rdS (F.CMD_QCQBASE_HI q) = 0 ∧ sq + 256 * n ≤ 0x00400000 ∧ cq + 32 * n ≤ 0x00400000))

/-- Write the binding of a doorbell channel (R29, R432). -/
def State.bindDoorbell (s : State) (c o : Nat) : State :=
  ((s.wr (F.CALL_BIND_valid c) 1).wr (F.CALL_BIND_recv c) 0).wr (F.CALL_BIND_send c) o

/-- Would a commit change the queue's doorbell bindings? -/
def State.bindsChange (s : State) (q o : Nat) : Bool :=
  [q, 8 + q].any (fun c => !s.on (F.CALL_BIND_valid c) || decide (s.rd (F.CALL_BIND_recv c) ≠ 0 ∨ s.rd (F.CALL_BIND_send c) ≠ o))

/-- Some queue configuration field is written and not committed. -/
def State.showQPending (s : State) : State :=
  s.wr F.CMD_STATUS_pending (if (List.range 8).any (fun q => s.anyShadow (queueRegs q)) then 1 else 0)

/-- Commit of a queue's configuration (R28, R29, R433); it changes nothing where it is refused. -/
def State.queueCommit (s : State) (q : Nat) : State :=
  let o := s.rdS (F.CMD_QCFG_owner q)
  if s.on (F.CMD_QCTL_enable q) || !s.placementOk q || (s.on F.CALL_LOCK_lock && s.bindsChange q o) then s.wr (F.CMD_QSTAT_cfgerr q) 1
  else (((s.commitRegs (queueRegs q)).bindDoorbell q o).bindDoorbell (8 + q) o).showQPending

/-- Enable of a queue (R31). -/
def State.queueEnable (s : State) (q : Nat) (bad : Bool) : State :=
  if s.on (F.CMD_QCTL_enable q) then s
  else ((((s.wr (F.CMD_QCTL_enable q) 1).unpost q).zeroPtrs q).newEpoch q ((s.rd (F.CMD_QEPOCH q) + 1) % 2 ^ 32) bad)

/-- Disable of a queue: consumption stops; a halted queue's accepted commands are abandoned (R31, R48). -/
def State.queueDisable (s : State) (q : Nat) : State :=
  let s := (s.wr (F.CMD_QCTL_enable q) 0).wr (F.CMD_QSTAT_enabled q) 0
  let s := s.setQueue q (fun x => { x with epochWait := none })
  if s.on (F.CMD_QSTAT_halted q) then s.abandonAccepted q else s

/-- A write of CMD_QnCTL: reset, then commit judged by enable before the write, then enable (R57, CMD_QnCTL). -/
def State.writeQctl (s : State) (q : Nat) (v : Word) (bad : Bool) : State :=
  let s := s.when (bit v.toNat 2) (fun s => s.queueReset q bad)
  let s := s.when (bit v.toNat 1) (fun s => s.queueCommit q)
  if bit v.toNat 0 then s.queueEnable q bad else if s.on (F.CMD_QCTL_enable q) then s.queueDisable q else s

def execCmdQctlReset (id : Ident) (q : Fin 8) (env : Env) (s : State) : Out :=
  .next (s.guardBs id (F.CMD_QCTL_reset q).addr (fun s => s.queueReset q (readBackBad env)))

def execCmdQctlCommit (id : Ident) (q : Fin 8) (s : State) : Out :=
  .next (s.guardBs id (F.CMD_QCTL_reset q).addr (fun s => s.queueCommit q))

def execCmdQctlEnable (id : Ident) (q : Fin 8) (env : Env) (s : State) : Out :=
  .next (s.guardBs id (F.CMD_QCTL_reset q).addr (fun s => s.queueEnable q (readBackBad env)))

def execCmdQctlDisable (id : Ident) (q : Fin 8) (s : State) : Out :=
  .next (s.guardBs id (F.CMD_QCTL_reset q).addr (fun s => s.queueDisable q))

/-- Acknowledge a channel with a return code (R436). -/
def State.ackChannel (s : State) (c code : Nat) : State :=
  (((s.wr (F.CALL_ACK_code c) code).wr (F.CALL_ACK_done c) 1).wr (F.CALL_STAT_busy c) 0).callPend c

/-- Judge a tail doorbell (R30): the queue's new tail, or its halt. -/
def State.tailBell (s : State) (q v : Nat) : State × Nat :=
  let n := s.qSlots q
  let h := s.rd (F.CMD_QPTR_head q)
  let ok := v < n && (v + n - h) % n ≥ (s.rd (F.CMD_QPTR_tail q) + n - h) % n
  if ok then (s.wr (F.CMD_QPTR_tail q) v, 0) else ((s.wr (F.CMD_QSTAT_dberr q) 1).wr (F.CMD_QSTAT_halted q) 1, 1)

/-- Judge a head doorbell (R30); a head equal to the device tail answers the completion signal (R453). -/
def State.headBell (s : State) (q v : Nat) : State × Nat :=
  let n := s.qSlots q
  let h := s.rd (F.CMD_QCQPTR_head q)
  let t := s.rd (F.CMD_QCQPTR_tail q)
  if v < n && (v + n - h) % n ≤ (t + n - h) % n then
    ((s.wr (F.CMD_QCQPTR_head q) v).setQueue q (fun x => if v = t then { x with sig := false } else x), 0)
  else ((s.wr (F.CMD_QSTAT_dberr q) 1).wr (F.CMD_QSTAT_halted q) 1, 1)

/-- The command core judges a doorbell (R30, R436). -/
def State.bell (s : State) (c : Nat) : State × Nat :=
  let q := c % 8
  let v := s.rd (F.CALL_DB c)
  if !s.on (F.CMD_QSTAT_enabled q) || s.on (F.CMD_QSTAT_halted q) then (s, 2)
  else if c < 8 then s.tailBell q v else s.headBell q v

/-- DOORBELL_PROCESSING of a queue channel (R436). -/
def execDoorbellProcessing (c : Fin 16) (s : State) : Out :=
  .next (if s.coreUp && s.on (F.CALL_STAT_busy c) then
    let r := s.bell c
    r.1.ackChannel c r.2
    else s)

end Sys2Proof.Machine
end

