-- ==== Sys2Proof/Machine/Call.lean ====
section
/-! DEFINITION. The callboard's registers: doorbells, messages, acknowledges, bindings and the lock (R432–R437). -/
namespace Sys2Proof.Machine
open Sys2Proof

/-- The address an identity uses for the register at backstage address `a` where a command does not name one: the range of its view
(notes/assumptions/13.md). -/
def State.seenAt (s : State) (ident a : Nat) : Nat := if s.on (F.VIEW_IDT_bs ident) then a else a + 0x00800000

/-- A refused channel access: the first since CALL_ERR was cleared is recorded (R434). -/
def State.callRefuse (s : State) (ident a : Nat) (write : Bool) : State :=
  if s.on F.CALL_ERR_INFO_valid then s.wr F.CALL_ERR_INFO_ovf 1
  else ((((s.wr F.CALL_ERR_ADDR a).wr F.CALL_ERR_INFO_identity ident).wr F.CALL_ERR_INFO_write (if write then 1 else 0)).wr
    F.CALL_ERR_INFO_valid 1).event F.CALL_EVT_refused

def State.isSender (s : State) (ident c : Nat) : Bool := s.on (F.CALL_BIND_valid c) && decide (s.rd (F.CALL_BIND_send c) = ident)
def State.isReceiver (s : State) (ident c : Nat) : Bool := s.on (F.CALL_BIND_valid c) && decide (s.rd (F.CALL_BIND_recv c) = ident)

/-- A sender's doorbell on channel `c` (R435): the value is stored, the channel busy, and delivered. On a queue channel while the core is not ready the
callboard acknowledges it with code 0x0003 (R436). -/
def State.ringBell (s : State) (c : Nat) (v : Word) : State :=
  let s := s.when (s.on (F.CALL_STAT_busy c)) (fun s => s.inc (F.CALL_STAT_coal c))
  let s := ((s.wr (F.CALL_DB c) v.toNat).wr (F.CALL_STAT_busy c) 1).wr (F.CALL_ACK_done c) 0
  if c < 16 ∧ s.rd F.CMD_STATUS_ready = 0 then s.ackChannel c 3 else s.deliver c

def State.writeDoorbell (s : State) (ident a c : Nat) (v : Word) : State :=
  if s.isSender ident c then s.ringBell c v else s.callRefuse ident a true

def State.writeMessage (s : State) (ident a c w : Nat) (v : Word) : State :=
  if s.isSender ident c && !s.on (F.CALL_STAT_busy c) then s.wr (F.CALL_MSG c w) v.toNat else s.callRefuse ident a true

/-- The receiver's write of the acknowledge register: ack stores the code, clears busy and sets done; evclr clears the event count (R436, R437). -/
def State.writeAck (s : State) (ident a c : Nat) (v : Word) : State :=
  if s.isReceiver ident c then
    let s := s.when (bit v.toNat 16) (fun s => s.ackChannel c (getF v 0 16))
    s.when (bit v.toNat 17) (fun s => (s.wr (F.CALL_STAT_evcnt c) 0).callPend c)
  else s.callRefuse ident a true

/-- The configuration of a channel is written by a backstage identity that is no party to it (R434). -/
def State.writeCallCfg (s : State) (ident a c : Nat) (v : Word) : State :=
  if s.on (F.CALL_BIND_valid c) && !s.isSender ident c && !s.isReceiver ident c then
    (s.wr (F.CALL_CFG_irqen c) (getF v 8 1)).wr (F.CALL_CFG_vector c) (getF v 0 6)
  else s.callRefuse ident a true

def partyOk (i : Nat) : Bool := decide (i ≤ 4 ∨ i = 8 ∨ i = 9 ∨ (0x10 ≤ i ∧ i ≤ 0x1F))

/-- A write of CALL_BINDc (R432, R433). -/
def State.writeBind (s : State) (c : Nat) (v : Word) : State :=
  let v' := v &&& 0xC03F3F00#32
  let send := getF v 8 6
  let recv := getF v 16 6
  let a := (F.CALL_BIND_valid c).addr
  if c < 16 then s.event F.CALL_EVT_binderr
  else if s.on F.CALL_LOCK_lock then (if v' = s.reg a then s else s.event F.CALL_EVT_binderr)
  else if bit v.toNat 31 && !((partyOk send || decide (send = 0x3F)) && partyOk recv && decide (send ≠ recv)) then s.event F.CALL_EVT_binderr
  else s.setReg a v'

def execCallDoorbellWrite (id : Ident) (c : Fin 64) (v : Word) (s : State) : Out :=
  .next (if s.alive then s.writeDoorbell id (s.seenAt id (F.CALL_DB c).addr) c v else s)

def execCallMessageWrite (id : Ident) (c : Fin 64) (w : Fin 16) (v : Word) (s : State) : Out :=
  .next (if s.alive then s.writeMessage id (s.seenAt id (F.CALL_MSG c w).addr) c w v else s)

def execCallAckWrite (id : Ident) (c : Fin 64) (v : Word) (s : State) : Out :=
  .next (if s.alive then s.writeAck id (s.seenAt id (F.CALL_ACK_code c).addr) c v else s)

/-- A write with evclr alone (R437). -/
def execCallEvclr (id : Ident) (c : Fin 64) (s : State) : Out :=
  .next (if s.alive then s.writeAck id (s.seenAt id (F.CALL_ACK_code c).addr) c 0x00020000#32 else s)

def execCallBindWrite (id : Ident) (c : Fin 64) (v : Word) (s : State) : Out :=
  .next (s.guardBs id (F.CALL_BIND_valid c).addr (fun s => s.writeBind c v))

def execCallLock (id : Ident) (s : State) : Out :=
  .next (s.guardBs id F.CALL_LOCK_lock.addr (fun s => s.wr F.CALL_LOCK_lock 1))

/-- W1C of CALL_ERR_INFO.valid also clears the overflow (R434). -/
def State.clearCallErr (s : State) : State := (s.wr F.CALL_ERR_INFO_valid 0).wr F.CALL_ERR_INFO_ovf 0

def execCallErrInfoClear (_id : Ident) (s : State) : Out := .next (if s.alive then s.clearCallErr else s)

def execCallCntEvdropClear (_id : Ident) (s : State) : Out := .next (if s.alive then s.wr F.CALL_CNT_EVDROP 0 else s)

end Sys2Proof.Machine
end

