-- ==== Sys2Proof/Machine/TimeOps.lean ====
section
/-! DEFINITION. Network time: conversion sets (R95, R96), presented time, link delays (R100, R101), stamp queues (R121) and reserve ranks (R113). -/
namespace Sys2Proof.Machine
open Sys2Proof

/-- Units of 2^-16 ns in a tick of 2.5 ns and in a step of 78.125 ps (R95). -/
def uTick : Int := 163840
def uSub : Int := 5120

/-- The rate of the set in force, in 2^-40 (R95). -/
def State.rate (s : State) : Int := s.rdI (F.TIME_SET 7)

/-- A presented time as one number of 2^-16 ns units (R95). -/
def timeU (sec ns frac : Nat) : Int := (sec * 1000000000 + ns) * 65536 + frac

/-- The base and anchor of the set in force (R95). -/
def State.baseU (s : State) : Int :=
  timeU (s.rd (F.TIME_SET 3) + s.rd (F.TIME_SET 4) * 2 ^ 32) (s.rd (F.TIME_SET 5)) (s.rd (F.TIME_SET 6))
def State.anchor (s : State) : Nat := s.rd (F.TIME_SET 1) + s.rd (F.TIME_SET 2) * 2 ^ 32

/-- A length of raw time at rate `r`: `u + floor(u * r / 2^40)` (R95). -/
def atRate (r u : Int) : Int := u + (u * r) / (2 ^ 40 : Nat)

/-- The conversion of a stamp by the set in force, in 2^-16 ns (R95). -/
def State.convU (s : State) (raw subtick : Nat) : Int :=
  s.baseU + atRate s.rate (((raw : Int) - s.anchor) * uTick + subtick * uSub)

/-- Presented time now. -/
def State.nowU (s : State) : Int := s.convU s.raw 0

/-- The parts of a presented time: sec modulo 2^64, ns and frac (R93, R95). -/
def secOf (t : Int) : Nat := wrapI 64 (t / 65536000000000)
def nsOf (t : Int) : Nat := ((t % 65536000000000) / 65536).toNat
def fracOf (t : Int) : Nat := (t % 65536).toNat

/-- Word `i` of the current set, also in the history table (R96). -/
def State.putSetWord (s : State) (h i v : Nat) : State := (s.wr (F.TIME_SET i) v).wr (F.TIME_HIST h i) v

/-- Replace the conversion set at the present tick: base converted by the old set plus `step`, rate `r` (R96). -/
def State.newSet (s : State) (stepped : Bool) (step r : Int) : State :=
  let b := s.nowU + step
  let idx := (s.rd (F.TIME_SET 0) % 256 + 1) % 256
  let h := idx % 32
  let s := ((s.putSetWord h 0 (idx + (if stepped then 256 else 0))).putSetWord h 1 s.rawLo).putSetWord h 2 s.rawHi
  let s := ((s.putSetWord h 3 (secOf b % 2 ^ 32)).putSetWord h 4 (secOf b / 2 ^ 32)).putSetWord h 5 (nsOf b)
  let s := (s.putSetWord h 6 (fracOf b)).putSetWord h 7 (wrapI 32 r)
  if stepped then s.event F.TIME_EVT_step else s

/-- Time roles (TIME_STATE.role). -/
def rSTART : Nat := 0
def rIDLE : Nat := 1
def rLISTEN : Nat := 2
def rCLAIM : Nat := 3
def rFOLLOW : Nat := 4
def rRESERVE : Nat := 5
def rSTARTER : Nat := 6
def State.role (s : State) : Nat := s.rd F.TIME_STATE_role
/-- Take a role; RING_STATE.starter shows that of the starter (R111). -/
def State.setRole (s : State) (r : Nat) : State := (s.wr F.TIME_STATE_role r).wr F.RING_STATE_starter (if r = rSTARTER then 1 else 0)

/-- Do laps run at this station (R124)? -/
def State.lapsRun (s : State) : Bool := decide (4 ≤ s.role ∧ s.role ≤ 6)
def State.isStarter (s : State) : Bool := decide (s.role = rSTARTER)

/-- The valid flag of the link delay of a port: 0 east, 1 west (R100). -/
def linkFld (p : Nat) : Fld := if p = 0 then F.TIME_STATE_linke else F.TIME_STATE_linkw

/-- Mean link delay of a port, and the delays of its arriving and leaving fibre (R100, R101). -/
def State.meanLink (s : State) (p : Nat) : Int := s.rdI (F.TIME_LINK p)
def State.fibreIn (s : State) (p : Nat) : Int := s.meanLink p - s.rdI (F.TIME_ASYM p) / 2
def State.fibreOut (s : State) (p : Nat) : Int := s.fibreIn p + s.rdI (F.TIME_ASYM p)

def State.setTime (s : State) (f : TimeSt → TimeSt) : State := { s with time := f s.time }

/-- Change what is held of one link. -/
def State.setLink (s : State) (p : Nat) (f : LinkSt → LinkSt) : State := s.setTime (fun t => { t with links := updAt t.links p f })

/-- A port loses its link delay with its block lock: the samples held are discarded (R100). -/
def State.dropLink (s : State) (p : Nat) : State :=
  let s := (s.setLink p (fun l => { l with samples := [], asked := none })).wr (F.TIME_LINK p) 0
  if s.on (linkFld p) then (s.wr (linkFld p) 0).event F.TIME_EVT_linkinval else s

/-- Show the head of a stamp queue and of a capture queue (R120, R121): raw time, identifier and auxiliary word; zero while empty. -/
def State.showStamp (s : State) (q : Nat) : State :=
  match s.time.tsqs.getD q [] with
  | [] => (s.each (List.range 4) (fun i s => s.setReg (F.TIME_TSQ q i).addr 0)).wr (bitFld F.TIME_TSQSTAT_valid q) 0
  | (raw, ident, aux) :: _ =>
    let l := [BitVec.ofNat 32 raw, BitVec.ofNat 32 (raw / 2 ^ 32), ident, aux]
    (s.each (List.range 4) (fun i s => s.setReg (F.TIME_TSQ q i).addr (wAt l i))).wr (bitFld F.TIME_TSQSTAT_valid q) 1
def State.showCapture (s : State) (n : Nat) : State :=
  let l := s.time.capts.getD n []
  let e := l.headD (0, 0)
  let s := ((s.wr (F.TIME_CAPT1 n) (e.1 % 2 ^ 32)).wr (F.TIME_CAPT2 n) (e.1 / 2 ^ 32)).wr (F.TIME_CAPT3 n) e.2.toNat
  s.wr (F.TIME_CAPT0_count n) l.length

/-- Queue a transmit stamp: a full queue loses the stamp and sets its overflow bit (R121). -/
def State.pushStamp (s : State) (q raw : Nat) (ident : Word) (subtick : Nat) : State :=
  let l := s.time.tsqs.getD q []
  if l.length < 16 then
    let e : Nat × Word × Word := (raw, ident, BitVec.ofNat 32 (2 ^ 31 + subtick % 32))
    (s.setTime (fun t => { t with tsqs := updAt t.tsqs q (fun l => l ++ [e]) })).showStamp q
  else (s.wr (bitFld F.TIME_TSQSTAT_ovf q) 1).event F.TIME_EVT_tsqovf

/-- Queue a capture; an edge that finds the queue full is discarded and sets ovf (R120). -/
def State.pushCapture (s : State) (n edge : Nat) : State :=
  let l := s.time.capts.getD n []
  if l.length < 4 then
    let e : Nat × Word := (s.raw, BitVec.ofNat 32 (2 ^ 31 + edge * 256))
    (s.setTime (fun t => { t with capts := updAt t.capts n (fun l => l ++ [e]) })).showCapture n
  else (s.wr (F.TIME_CAPT0_ovf n) 1).event F.TIME_EVT_captovf

/-- The reserve rank of this station from the reserve list held (R113). -/
def State.rankNow (s : State) : Nat :=
  let me := s.rd F.RING_ID_station
  if me = 0 then 0
  else if s.rd F.TIME_RESERVE_A_r1 = me then 1
  else if s.rd F.TIME_RESERVE_A_r2 = me then 2
  else if s.rd F.TIME_RESERVE_B_r3 = me then 3
  else 0

/-- Take a reserve list (R113). -/
def State.setReserves (s : State) (r1 r2 r3 : Nat) : State :=
  let s := ((s.wr F.TIME_RESERVE_A_r1 r1).wr F.TIME_RESERVE_A_r2 r2).wr F.TIME_RESERVE_B_r3 r3
  s.wr F.TIME_STATE_rank (if s.isStarter then 0 else s.rankNow)

/-- The first of the reserve list: the list without station `a`, those below it moved up (R113). -/
def State.dropReserve (s : State) (a : Nat) : State :=
  let l := [s.rd F.TIME_RESERVE_A_r1, s.rd F.TIME_RESERVE_A_r2, s.rd F.TIME_RESERVE_B_r3]
  if l.contains a then
    let l := l.filter (· ≠ a)
    s.setReserves (l.getD 0 0) (l.getD 1 0) (l.getD 2 0)
  else s

/-- Enter FOLLOW or RESERVE by rank; on entry to following, the integral takes the rate in force and the first offset is stepped (R105, R111). -/
def State.enterFollow (s : State) : State :=
  let was := s.role
  let s := s.wr F.TIME_STATE_rank s.rankNow
  let s := s.setRole (if s.rankNow = 0 then rFOLLOW else rRESERVE)
  if was = rFOLLOW ∨ was = rRESERVE then s
  else
    let r := s.rate
    s.setTime (fun t => { t with integral := r, first := true, acc := 0, accN := 0, laps := 0, inSync := 0, missed := 0 })

end Sys2Proof.Machine
end

