-- ==== Sys2Proof/Machine/RingOps.lean ====
section
/-! DEFINITION. Ring frames (R62–R67), sequence counters and insertion queues (R65, R77), the schedule's busy intervals and windows (R71, R75),
the two egresses with their wraps, edge ports and transit buffers (R75, R76, R84, R150), and the join state (R87). Direction 0 is primary, egress
east; port 0 is east, port 1 west. -/
namespace Sys2Proof
open Sys2Proof.Machine

/-- Header fields of a ring frame (R62). -/
def RFrame.seq (f : RFrame) : Nat := getF f.w3 16 16
def RFrame.typ (f : RFrame) : Nat := getF f.w3 12 4
def RFrame.cls (f : RFrame) : Nat := getF f.w3 10 2
def RFrame.dirBit (f : RFrame) : Nat := getF f.w3 9 1
def RFrame.repl (f : RFrame) : Bool := decide (getF f.w3 8 1 = 1)
def RFrame.hcheck (f : RFrame) : Nat := getF f.w3 0 8
def RFrame.sring (f : RFrame) : Nat := getF f.w2 24 8
def RFrame.sstation (f : RFrame) : Nat := getF f.w2 12 12
def RFrame.hops (f : RFrame) : Nat := getF f.w2 0 12
def RFrame.dring (f : RFrame) : Nat := getF f.w1 24 8
def RFrame.dstation (f : RFrame) : Nat := getF f.w1 12 12
def RFrame.length (f : RFrame) : Nat := getF f.w1 0 12
def RFrame.daddr (f : RFrame) : Nat := f.w0.toNat

/-- Payload word `i`. -/
def RFrame.pw (f : RFrame) (i : Nat) : Word := wAt (bytesToWords f.payload) i
def RFrame.words (f : RFrame) : List Word := bytesToWords f.payload

/-- The class of each frame type (R64). -/
def typeClass (t : Nat) : Option Nat :=
  match t with
  | 0 => some 0
  | 1 => some 0
  | 2 => some 1
  | 3 => some 1
  | 4 => some 2
  | 5 => some 1
  | 6 => some 1
  | 7 => some 1
  | 8 => some 3
  | 9 => some 3
  | _ => none

/-- The header bytes in the order sent (R62). -/
def RFrame.header (f : RFrame) : List Byte := wordsToBytes [f.w0, f.w1, f.w2, f.w3]

/-- The header check over the fifteen bytes 0x00–0x0B and 0x0D–0x0F (R63). -/
def headerCheck (f : RFrame) : Nat := (crc8 0x07 0 (f.header.take 12 ++ f.header.drop 13)).toNat

/-- The trailer (R63). -/
def trailer (f : RFrame) : Word := crc32c (f.header ++ f.payload)

/-- Is the header good: its check, its type, the class of the type, its length (R63, R64)? -/
def headerGood (f : RFrame) : Bool :=
  decide (f.hcheck = headerCheck f) && decide (typeClass f.typ = some f.cls) && decide (f.length ≤ 2048)

/-- The frame with its header check and trailer computed (R63). -/
def RFrame.seal (f : RFrame) : RFrame :=
  let g := { f with w3 := setF f.w3 0 8 (headerCheck f) }
  { g with crc := trailer g }

/-- Blocks of a frame on the lane (R67). -/
def RFrame.bytes (f : RFrame) : Nat := 20 + f.payload.length
def RFrame.blocks (f : RFrame) : Nat := (f.bytes - 7) / 8 + 2

end Sys2Proof

namespace Sys2Proof.Machine
open Sys2Proof

def State.setRing (s : State) (f : RingSt → RingSt) : State := { s with ring := f s.ring }

/-- This station's address. -/
def State.station (s : State) : Nat := s.rd F.RING_ID_station
/-- The address this station answers to and sends from: 0 until a grant gives it one, also where it keeps its old address to rejoin (R12, R86, R135). -/
def State.myAddr (s : State) : Nat := if s.rd F.RING_STATE_join = 1 ∨ s.rd F.RING_STATE_join = 2 then 0 else s.station
def State.ringId (s : State) : Nat := s.rd F.RING_ID_ring

/-- Current lap number (RING_LAPNUM). -/
def State.lap (s : State) : Nat := s.rd F.RING_LAPNUM_LO + s.rd F.RING_LAPNUM_HI * 2 ^ 32
def State.setLap (s : State) (n : Nat) : State := (s.wr F.RING_LAPNUM_LO (n % 2 ^ 32)).wr F.RING_LAPNUM_HI (n / 2 ^ 32 % 2 ^ 16)

/-- Sequence numbers per destination and class: take the next one (R65). -/
def seqKey (ring station cls : Nat) : Nat := (ring * 4096 + station) * 4 + cls
def State.seqNext (s : State) (ring station cls : Nat) : Nat := sget 0 s.ring.seqs (seqKey ring station cls)
def State.takeSeq (s : State) (ring station cls : Nat) : State :=
  let k := seqKey ring station cls
  s.setRing (fun r => { r with seqs := sset 0 r.seqs k ((sget 0 r.seqs k + 1) % 65536) })

/-- Direction in effect for classes 1 and 2 (R144). -/
def State.odir (s : State) : Nat := s.rd F.RING_HEALSTAT_odira

/-- Build a frame of this station: its header, with the next sequence number of its stream (R62, R65). -/
def State.mkFrame (s : State) (typ dir repl dring dstation daddr : Nat) (payload : List Byte) : RFrame :=
  let cls := (typeClass typ).getD 0
  let w3 := s.seqNext dring dstation cls * 2 ^ 16 + typ * 2 ^ 12 + cls * 2 ^ 10 + dir * 2 ^ 9 + repl * 2 ^ 8
  RFrame.seal { w0 := BitVec.ofNat 32 daddr, w1 := BitVec.ofNat 32 (dring * 2 ^ 24 + dstation * 2 ^ 12 + payload.length),
                w2 := BitVec.ofNat 32 (s.ringId * 2 ^ 24 + s.myAddr * 2 ^ 12), w3 := BitVec.ofNat 32 w3, payload := payload, crc := 0, err := false }

/-- Append a frame to the insertion queue of direction `d` (R77). -/
def State.pushIns (s : State) (d : Nat) (f : InsFrame) : State := s.setRing (fun r => { r with insq := updAt r.insq d (fun l => l ++ [f]) })

/-- Queue an open frame of this station in direction `odir`, taking a sequence number of its stream (R65, R77, R144). -/
def State.sendFrame (s : State) (typ dring dstation daddr : Nat) (payload : List Byte) (stamp : Bool) : State :=
  let f := s.mkFrame typ s.odir 0 dring dstation daddr payload
  (s.takeSeq dring dstation f.cls).pushIns s.odir ⟨f, stamp, false⟩

/-- Quantum and block time of the link mode, in thousandths of 78.125 ps (R60). -/
def State.quantum (s : State) : Int := match s.rd F.RING_CFG_rate with | 0 => 327680 | 1 => 819200 | _ => 8192000
def State.blockTime (s : State) : Int := match s.rd F.RING_CFG_rate with | 0 => 32768 | 1 => 81920 | _ => 102400

/-- Lap length in thousandths of 78.125 ps. -/
def State.lapLen (s : State) : Int := s.rd F.RING_LAPCFG_len * 32 * 1000

/-- Local time since the start of the current lap, in thousandths of 78.125 ps. -/
def State.lapPos (s : State) : Int := (s.nowU - s.time.lapStart) * 1000 / uSub

/-- Busy intervals of a direction in use, as (start, end) in thousandths (R71). -/
def State.busy (s : State) (d : Nat) : List (Int × Int) :=
  ((List.range 4).filter (fun n => decide (s.rd (F.RING_BUSY0_start d n) ≠ s.rd (F.RING_BUSY1_end d n)))).map
    (fun n => ((s.rd (F.RING_BUSY0_start d n) : Int) * 1000, (s.rd (F.RING_BUSY1_end d n) : Int) * 1000))

/-- An entry of period and phase is active in lap `m` (R71, R81). -/
def inLap (m period phase : Nat) : Bool := decide (m % 2 ^ period = phase)

/-- Is window entry n of direction d active in the current lap (R71)? -/
def State.winActive (s : State) (d n : Nat) : Bool :=
  s.on (F.RING_WIN3_en d n) && inLap s.lap (s.rd (F.RING_WIN3_period d n)) (s.rd (F.RING_WIN3_phase d n))

/-- Does the region of a window keep R66? -/
def State.winLegal (s : State) (d n : Nat) : Bool :=
  let b := s.rd (F.RING_WIN1_bytes d n)
  let o := s.rd (F.RING_WIN2_offset d n)
  decide (b % 4 = 0 ∧ o % 4 = 0 ∧ 4 ≤ b ∧ b ≤ 2048 ∧ o + b ≤ 0x40000)

/-- Gap of R75 in thousandths. -/
def State.openGap (s : State) : Int := s.rd F.RING_OPENCFG_gap * s.quantum

/-- Does a frame of `n` blocks that starts now at egress `d` keep clear of the busy intervals: not inside one widened at its end by `after`, and
ended a gap before the next (R75)? -/
def State.fits (s : State) (d n : Nat) (after : Int) : Bool :=
  let t := s.lapPos
  let e := t + n * s.blockTime
  (s.busy d).all (fun i =>
    !(decide (i.1 ≤ t) && decide (t < i.2 + after)) && (decide (i.1 ≤ t) || decide (e + s.openGap ≤ i.1))
      && decide (e + s.openGap ≤ i.1 + s.lapLen))

/-- Port states of healing (R154): 0 UP, 1 FAILED, 2 WRAPPED, 3 PROPOSED, 4 ACCEPTED, 5 CONFIRMED. -/
def portFld (p : Nat) : Fld := if p = 0 then F.RING_HEALSTAT_eastst else F.RING_HEALSTAT_westst
def State.port (s : State) (p : Nat) : Nat := s.rd (portFld p)
def lockFld (p : Nat) : Fld := if p = 0 then F.RING_STATE_locke else F.RING_STATE_lockw
def wrapFld (p : Nat) : Fld := if p = 0 then F.RING_STATE_wrape else F.RING_STATE_wrapw
def edgeFld (p : Nat) : Fld := if p = 0 then F.RING_STATE_edgee else F.RING_STATE_edgew
def State.wrapped (s : State) (p : Nat) : Bool := s.on (wrapFld p)

/-- The port a stream for egress `d` leaves by: the other one where `d` is wrapped, none where both are (R150). -/
def State.egress (s : State) (d : Nat) : Option Nat :=
  if s.rd F.RING_CFG_rate = 2 then (if s.port 0 = 0 then some 0 else none)
  else if s.port d = 0 && !s.wrapped d then some d
  else if s.wrapped d && s.port (1 - d) = 0 && !s.wrapped (1 - d) then some (1 - d)
  else none

/-- Put a frame on the lane of a port. -/
def State.emitFrame (s : State) (p : Nat) (f : RFrame) : State := s.emit (.ringFrame p f.w0 f.w1 f.w2 f.w3 f.payload)

/-- Copies of lap frames and join frames for the edge ports of a member (R84). -/
def State.edgeCopies (s : State) (f : RFrame) : State :=
  if s.rd F.RING_STATE_join = 5 && (f.typ = 8 || (f.typ = 0 && getF (f.pw 0) 24 8 = 1)) then
    s.each [0, 1] (fun p s => if s.on (edgeFld p) then s.emitFrame p f else s)
  else s

/-- Send a class 0 frame out of egress `d`; nothing leaves a wrapped port (R150). -/
def State.outScheduled (s : State) (d : Nat) (f : RFrame) : State :=
  let s := if s.wrapped d then s.inc F.RING_CNT_WRAPDROP else if s.port d = 0 then s.emitFrame d f else s
  s.edgeCopies f

/-- A heal marker's 24 bits (R152). -/
def markerOf (kind port low : Nat) : Nat := kind * 2 ^ 21 + port * 2 ^ 12 + low

/-- Append to a transit buffer. -/
def State.pushTransit (s : State) (d : Nat) (x : TransItem) : State :=
  s.setRing (fun r => { r with transit := updAt r.transit d (fun l => l ++ [x]) })
def State.transitOf (s : State) (d : Nat) : List TransItem := s.ring.transit.getD d []

/-- Bytes a transit buffer holds (R76). -/
def transitBytes (l : List TransItem) : Nat := l.foldl (fun n x => match x with | .frame f => n + f.bytes | .mark _ => n) 0

/-- Forward a heal marker in transit order (R153). -/
def State.outMarker (s : State) (d v : Nat) : State :=
  match s.egress d with
  | none => s
  | some p => if (s.transitOf p).isEmpty then s.emit (.ringMark p 0xB v) else s.pushTransit p (.mark v)

/-- Forward an open frame: at once where it fits, else through the transit buffer; a full buffer loses it and a replay marker takes its place
(R75, R76, R157). -/
def State.outOpen (s : State) (d : Nat) (f : RFrame) : State :=
  let s := s.edgeCopies f
  match s.egress d with
  | none => s
  | some p =>
    if (s.transitOf p).isEmpty && s.fits p f.blocks s.openGap then s.emitFrame p f
    else if transitBytes (s.transitOf p) + f.bytes ≤ 32768 then (s.pushTransit p (.frame f)).inc F.RING_CNT_HOLD
    else (((s.inc F.RING_CNT_TRANSOVF).event F.RING_EVT_transovf).pushTransit p (.mark (markerOf 2 0 s.station)))

/-- The leading items of a transit buffer that may leave now (R75): markers at once, frames that fit. -/
def State.releaseItem (s : State) (p : Nat) (x : TransItem) : State :=
  match x with
  | .mark v => s.emit (.ringMark p 0xB v)
  | .frame f => s.emitFrame p f

/-- Is the station in the laps of its ring, so that it forwards: its join state is CLOSING, MEMBER or LEAVING, or it is a founding member whose ring
has not started (R109). Nothing is forwarded at rate 2 (R137)? -/
def State.forwards (s : State) : Bool :=
  if s.rd F.RING_CFG_rate = 2 then false
  else decide (4 ≤ s.rd F.RING_STATE_join) || (decide (s.role < 4 ∧ s.station ≠ 0 ∧ s.rd F.RING_STATE_join = 0) && s.rd F.MRSH_STATE_state < 4)

/-- May this station insert frames of its own: MEMBER or LEAVING, not muted (R87, R89)? -/
def State.inserts (s : State) : Bool := decide (5 ≤ s.rd F.RING_STATE_join) && !s.ring.mute

def State.setMrsh (s : State) (f : MrshSt → MrshSt) : State := { s with mrsh := f s.mrsh }

/-- The marshal follows the join state (R127). -/
def State.mrshJoin (s : State) (was now : Nat) : State :=
  let st := s.rd F.MRSH_STATE_state
  if was = 0 ∧ now ≠ 0 ∧ st = 0 then (s.wr F.MRSH_STATE_state 1).setMrsh (fun m => { m with refs := [], held := 0, took := false })
  else if now = 0 ∧ was ≠ 0 ∧ st < 4 then s.wr F.MRSH_STATE_state 0
  else if now = 5 ∧ st = 4 ∧ 4 ≤ s.mrsh.held then ((s.wr F.MRSH_STATE_state 2).setMrsh (fun m => { m with cuts := [0] })).wr F.MRSH_STATE_cuts 0
  else s

/-- Set the join state, with the events and the result of RING.JOIN and RING.LEAVE (R87, R90). -/
def State.setJoin (s : State) (j : Nat) : State :=
  let was := s.rd F.RING_STATE_join
  let s := (s.wr F.RING_STATE_join j).mrshJoin was j
  if j = 5 ∧ was ≠ 5 then
    let s := (s.event F.RING_EVT_member).finO s.ring.joinSeq 0 [s.reg F.RING_ID_ring.addr]
    (s.setRing (fun r => { r with joinSeq := none, mute := false, recDue := 1 })).enterFollow
  else if j = 0 ∧ was = 6 then s.event F.RING_EVT_left
  else s

/-- RING.JOIN fails and the station returns to OFFLINE (R87). -/
def State.joinFail (s : State) (st : Nat) : State :=
  let s := (s.finO s.ring.joinSeq st []).setRing (fun r => { r with joinSeq := none, silentLaps := 0, busyAns := 0, silent := 0 })
  s.setJoin 0

end Sys2Proof.Machine
end

