-- ==== Sys2Proof/Machine/HealOps.lean ====
section
/-! DEFINITION. Healing: receive streams and their acceptance (R145–R148), requests and fences (R160–R165), replay buffers and replays (R156–R158),
wraps (R150) and the wrap table (R153). -/
namespace Sys2Proof.Machine
open Sys2Proof

def State.setHeal (s : State) (f : HealSt → HealSt) : State := { s with heal := f s.heal }

/-- W in ticks (RING_HEALCFG.window, units of 100 ns). -/
def State.healW (s : State) : Nat := s.rd F.RING_HEALCFG_window * 40

def State.findStream (s : State) (ring station : Nat) : Option Stream := s.heal.streams.find? (fun x => x.ring = ring ∧ x.station = station)

def State.setStream (s : State) (ring station : Nat) (f : Stream → Stream) : State :=
  s.setHeal (fun h => { h with streams := h.streams.map (fun x => if x.ring = ring ∧ x.station = station then f x else x) })

/-- The kind of a frame of class 1 or 2 (R145): 0 unicast class 1, 1 unicast class 2, 2 broadcast class 1. -/
def streamKind (f : RFrame) : Nat := if f.dstation = 4095 then 2 else if f.cls = 2 then 1 else 0

/-- The payload of a replay control frame (R162). -/
def replayWords (sub cause kinds mask : Nat) (n0 n1 n2 : Nat) : List Byte :=
  wordsToBytes [BitVec.ofNat 32 (sub * 2 ^ 24 + cause * 2 ^ 16 + kinds * 2 ^ 8 + mask), BitVec.ofNat 32 (n1 * 2 ^ 16 + n0), BitVec.ofNat 32 n2, 0]

/-- Send a replay request with the expected numbers of a source (R160). -/
def State.sendRequest (s : State) (x : Stream) : State :=
  let e := fun i => (x.exp.getD i none).getD 0
  let mask := (if (x.exp.getD 0 none).isSome then 1 else 0) + (if (x.exp.getD 1 none).isSome then 2 else 0)
    + (if (x.exp.getD 2 none).isSome then 4 else 0)
  (s.sendFrame 9 x.ring x.station 0 (replayWords 1 0 0 mask (e 0) (e 1) (e 2)) false).inc F.RING_CNT_RPLREQ

/-- Enter RECOVER for a source and send the request (R160, R161). -/
def State.enterRecover (s : State) (ring station : Nat) : State :=
  let s := s.setStream ring station (fun x => { x with st := .recover, tries := 1, since := s.raw, gap := false })
  match s.findStream ring station with
  | none => s
  | some x => s.sendRequest x

/-- Show how many sources are fenced beyond what the list holds (RING_FENCESTAT). -/
def State.showFences (s : State) : State :=
  let n := (s.heal.streams.filter (fun x => x.st = .fenced)).length
  s.wr F.RING_FENCESTAT_ovf (if n > s.rd F.RING_FENCESTAT_held then 1 else 0)

/-- Fence every stream of a source, list it and send the fence notice (R164). -/
def State.fence (s : State) (ring station cause kinds seq : Nat) : State :=
  let s := s.setStream ring station (fun x => { x with st := .fenced, cause := cause, gap := false, disc := false })
  let n := s.rd F.RING_FENCESTAT_held
  let s := if n < 64 then
      ((s.wr (F.RING_FENCE n 0) (2 ^ 31 + cause * 2 ^ 29 + station * 2 ^ 16 + ring)).wr (F.RING_FENCE n 1) (seq % 65536)).wr
        F.RING_FENCESTAT_held (n + 1)
    else s
  ((s.showFences).event F.RING_HEALEVT_fence).sendFrame 9 ring station 0 (replayWords 4 cause kinds 0 0 0 0) false

/-- The fence-list entry of a source. -/
def State.fenceEntry (s : State) (ring station : Nat) : Option Nat :=
  (List.range (s.rd F.RING_FENCESTAT_held)).find? (fun n =>
    decide (s.rd (subFld (F.RING_FENCE n 0) 16 12) = station ∧ s.rd (subFld (F.RING_FENCE n 0) 0 8) = ring))

/-- A refused frame of a fenced source is counted (R165). -/
def State.fenceCount (s : State) (ring station : Nat) : State :=
  let s := s.inc F.RING_CNT_FENCEREJ
  match s.fenceEntry ring station with
  | none => s
  | some n => s.inc (subFld (F.RING_FENCE n 1) 16 16)

/-- What sequence acceptance decides. -/
inductive Accept where
  | yes
  | no
  | fenced
  deriving DecidableEq, Repr

/-- Serial-number comparison modulo 65,536 (R146): 0 equal, 1 ahead, 2 behind. -/
def serial (seq exp : Nat) : Nat :=
  let d := (seq + 65536 - exp) % 65536
  if d = 0 then 0 else if d < 32768 then 1 else 2

/-- R146 for a source whose state admits it; `gapTo` says what a gap does. -/
def State.inSeq (s : State) (f : RFrame) (x : Stream) (gapTo : State → State) : Accept × State :=
  let k := streamKind f
  let ok := s.setStream f.sring f.sstation (fun y => { y with exp := updAt y.exp k (fun _ => some ((f.seq + 1) % 65536)) })
  match x.exp.getD k none with
  | none => (.yes, ok)
  | some e =>
    match serial f.seq e with
    | 0 => (.yes, ok)
    | 1 => (.no, gapTo (s.inc F.RING_CNT_GAPDISC))
    | _ => (.no, s.inc F.RING_CNT_DUP)

/-- A new entry of the stream table for the source of `f` (R145). -/
def newStream (f : RFrame) : Stream :=
  ⟨f.sring, f.sstation, updAt [none, none, none] (streamKind f) (fun _ => some ((f.seq + 1) % 65536)), .normal, false, false, 0, 0, 0⟩

/-- Sequence acceptance of a frame of class 1 or 2 that is taken in (R145, R146, R159, R161, R165). -/
def State.accept (s : State) (f : RFrame) : Accept × State :=
  match s.findStream f.sring f.sstation with
  | none =>
    if s.heal.streams.length < 8192 then (.yes, s.setHeal (fun h => { h with streams := h.streams ++ [newStream f] }))
    else (.no, (s.inc F.RING_CNT_STREAMFULL).event F.RING_HEALEVT_streamfull)
  | some x =>
    match x.st with
    | .normal => s.inSeq f x (fun s => s.enterRecover f.sring f.sstation)
    | .holdReplay => s.inSeq f x (fun s => s.setStream f.sring f.sstation (fun y => { y with gap := true }))
    | .recoverReplay => s.inSeq f x (fun s => s.setStream f.sring f.sstation (fun y => { y with gap := true }))
    | .hold => (.no, (s.inc F.RING_CNT_GAPDISC).setStream f.sring f.sstation (fun y => { y with disc := true }))
    | .recover => (.no, s.inc F.RING_CNT_GAPDISC)
    | .fenced => (.fenced, s.fenceCount f.sring f.sstation)

/-- A frame of class 1 or 2 for this station that ended in an error block is a gap in its kind (R147). -/
def State.gapFrame (s : State) (f : RFrame) : State :=
  match s.findStream f.sring f.sstation with
  | none => s
  | some x => if x.st = .normal then s.enterRecover f.sring f.sstation
    else if x.st = .holdReplay ∨ x.st = .recoverReplay then s.setStream f.sring f.sstation (fun y => { y with gap := true }) else s

/-- Free the stream entry of a station, or where it is fenced keep the fence and accept the next frame of each kind (R148). -/
def State.freeStream (s : State) (ring station : Nat) : State :=
  let f : Stream → Stream := fun x => if x.ring = ring ∧ x.station = station then { x with exp := [none, none, none] } else x
  let keep : Stream → Bool := fun x => !(x.ring = ring ∧ x.station = station) || x.st = .fenced
  s.setHeal (fun h => { h with streams := (h.streams.filter keep).map f })

/-- Bytes of a replay buffer (R156). -/
def keptBytes (l : List Kept) : Nat := l.foldl (fun n k => n + k.frame.bytes) 0

/-- Drop the oldest entries until 128 KiB suffice; whether one younger than W went (R156). -/
def trimKept (now w : Nat) : Nat → List Kept → List Kept × Bool
  | 0, l => (l, false)
  | n + 1, l =>
    if keptBytes l ≤ 131072 then (l, false)
    else
      match l with
      | [] => ([], false)
      | k :: t =>
        let r := trimKept now w n t
        (r.1, r.2 || decide (now < k.raw + w))

/-- Record an inserted frame of class 1 or 2 in the replay buffer of its direction (R156). -/
def State.keep (s : State) (f : RFrame) : State :=
  let d := f.dirBit
  let l := (s.heal.rbuf.getD d []) ++ [⟨f, s.raw⟩]
  let r := trimKept s.raw s.healW l.length l
  let s := s.setHeal (fun h => { h with rbuf := updAt h.rbuf d (fun _ => r.1) })
  if r.2 then s.event F.RING_HEALEVT_bufage else s

/-- Show the replay queue and whether a replay runs. -/
def State.showReplays (s : State) : State := s.wr F.RING_HEALSTAT_rplq (min 16 s.heal.queue.length)

/-- Queue a marker replay; one queued and not started absorbs the marker (R158). -/
def State.queueMarkerReplay (s : State) : State :=
  if s.heal.queue.any (fun q => q.marker.isSome) then s
  else (s.setHeal (fun h => { h with queue := h.queue ++ [⟨some s.raw, 0, 0, 0, []⟩] })).showReplays

/-- A frame as it is sent again: repl 1, its own sequence number (R65, R158). -/
def replCopy (f : RFrame) : RFrame := RFrame.seal { f with w3 := setF f.w3 8 1 1 }

/-- Append the frames of a replay to the insertion queue of `odir` (R158, R160). -/
def State.sendReplay (s : State) (startF endF : State → State) (fs : List RFrame) : State :=
  let s := startF s
  let d := s.odir
  let s := s.each fs (fun f s => (s.pushIns d ⟨replCopy f, false, true⟩).inc F.RING_CNT_REPLAYED)
  (endF s).wr F.RING_HEALSTAT_replaying 1

/-- A control frame of a replay: it draws on no credit pool (R158). -/
def State.replayCtl (s : State) (dring dstation : Nat) (payload : List Byte) : State :=
  let f := s.mkFrame 9 s.odir 0 dring dstation 0 payload
  (s.takeSeq dring dstation 3).pushIns s.odir ⟨f, false, true⟩

/-- Show the wrap table (RING_HEALSTAT.wraps, ringwrap). -/
def State.showWraps (s : State) : State :=
  (s.wr F.RING_HEALSTAT_wraps s.heal.wrapTab.length).wr F.RING_HEALSTAT_ringwrap (if s.heal.wrapTab.isEmpty then 0 else 1)

/-- Enter a station and port in the wrap table of 8 entries (R153). -/
def State.wrapEnter (s : State) (station port : Nat) : State :=
  if s.heal.wrapTab.contains (station, port) ∨ 8 ≤ s.heal.wrapTab.length then s
  else (s.setHeal (fun h => { h with wrapTab := h.wrapTab ++ [(station, port)] })).showWraps

/-- The hop limit in force (R70, R151, R155): doubled while the wrap table holds an entry. -/
def State.hopLimit (s : State) : Nat :=
  if !s.heal.wrapTab.isEmpty then 2 * s.rd F.RING_HOPLIM_limit else s.rd F.RING_HOPLIM_limit

/-- Hold every source (R159). -/
def State.holdAll (s : State) : State :=
  let f : Stream → Stream := fun x => if x.st = .fenced then x else { x with st := .hold, disc := false, gap := false, since := s.raw }
  s.setHeal (fun h => { h with streams := h.streams.map f })

/-- Record the last heal marker or fence notice (RING_HEALLAST). -/
def State.healLast (s : State) (fnote : Bool) (kind port station : Nat) : State :=
  (s.wr ⟨F.RING_HEALLAST0_valid.addr, 0, 32⟩ (2 ^ 31 + (if fnote then 2 ^ 30 else 0) + kind * 2 ^ 21 + port * 2 ^ 12 + station)).wr
    F.RING_HEALLAST1_raw s.rawLo

/-- A port fails: Remote Fault on its lane, block lock and link delay lost (R100, R149). -/
def State.portFail (s : State) (p : Nat) : State :=
  let s := ((s.wr (portFld p) 1).wr (lockFld p) 0).event (if p = 0 then F.RING_EVT_locklosse else F.RING_EVT_locklossw)
  let s := (s.dropLink p).wr (edgeFld p) 0
  (s.setHeal (fun h => { h with ready := updAt h.ready p (fun _ => 0), lapU := updAt h.lapU p (fun _ => none) })).emit (.ringMark p 0 1)

/-- Wrap a failed port (R150, R153): marker in the turned stream and on the intact port in its own direction, and a marker replay of its own. -/
def State.wrapPort (s : State) (p : Nat) : State :=
  let v := markerOf 0 p s.station
  let s := ((s.wr (portFld p) 2).wr (wrapFld p) 1).inc F.RING_CNT_WRAP
  let s := s.emit (.ringMark (1 - p) 0xB v)
  ((s.wrapEnter s.station p).queueMarkerReplay).event F.RING_HEALEVT_wrap

/-- A port unwraps (R155): notices in both directions, but none where it unwraps toward a joining station (R154). -/
def State.unwrapPort (s : State) (p : Nat) (notice : Bool) : State :=
  let v := markerOf 1 p s.station
  let s := ((s.wr (portFld p) 0).wr (wrapFld p) 0).wr (edgeFld p) 0
  let s := ((s.inc F.RING_CNT_UNWRAP).event F.RING_HEALEVT_unwrap)
  let s := s.when notice (fun s => (s.emit (.ringMark 0 0xB v)).emit (.ringMark 1 0xB v))
  let gone := s.heal.wrapGone ++ [(s.station, p)]
  s.setHeal (fun h => { h with ready := updAt h.ready p (fun _ => 0), lapU := updAt h.lapU p (fun _ => none), wrapGone := gone })

end Sys2Proof.Machine
end

