-- ==== Sys2Proof/Machine/NetOps.lean ====
section
/-! DEFINITION. The switch buffer: cells, admission (R365–R368), and ring frames handed to the tier link (R359). -/
namespace Sys2Proof.Machine
open Sys2Proof

def State.setNet (s : State) (f : NetSt → NetSt) : State := { s with net := f s.net }
def State.setMac (s : State) (m : Nat) (f : MacSt → MacSt) : State := s.setNet (fun n => { n with macs := updAt n.macs m f })
def State.mac (s : State) (m : Nat) : MacSt := s.net.macs.getD m MacSt.init

/-- Cells of a frame of `n` bytes (R365). -/
def cells (n : Nat) : Nat := (n + 16 + 127) / 128

def cellSum (l : List SwFrame) : Nat := l.foldl (fun n f => n + cells f.data.length) 0

/-- Cells that distinct frames occupy (R368). -/
def distinctCells (l : List SwFrame) : Nat := (l.foldl (fun (r : List Nat × Nat) f =>
  if r.1.contains f.id then r else (f.id :: r.1, r.2 + cells f.data.length)) ([], 0)).2

/-- Cells of ring frames waiting for insertion in a direction and class (R366). -/
def State.ringCells (s : State) (d : Nat) (cls : Option Nat) : Nat :=
  ((s.ring.insq.getD d []).filter (fun f => cls.isNone || cls = some f.frame.cls)).foldl (fun n f => n + cells f.frame.bytes) 0

/-- Cells of the pool in use, and the free ones shown (SW_STAT). -/
def State.poolUsed (s : State) : Nat :=
  distinctCells (s.net.macs.flatMap (fun m => m.queues.flatten) ++ s.net.engq.map (fun e => e.2.1)) + s.ringCells 0 none + s.ringCells 1 none
def State.showPool (s : State) : State := s.wr F.SW_STAT_free (6144 - s.poolUsed)

/-- The limit of class `c` at port `p` in cells (R366). -/
def State.classLimit (s : State) (p c : Nat) : Nat := s.rd (subFld (F.SW_CLIM p (c / 4)) (8 * (c % 4)) 8) * 16

/-- Is a frame of `n` bytes admitted at ring egress `d` (port d) in class `c` (R366, R367)? -/
def State.ringAdmits (s : State) (d c n : Nat) : Bool :=
  decide (s.ringCells d (some c) + cells n ≤ s.classLimit d c) && decide (s.ringCells d none + cells n ≤ s.rd (F.SW_PLIM_cells d))
    && decide (s.poolUsed + cells n ≤ 6144)

/-- Is the link of a MAC up? -/
def State.macLink (s : State) (m : Nat) : Bool := s.on (F.MAC_STAT_link m)

/-- Admit a frame to the queue of its class at MAC `m`; `shared` frames already occupy their cells (R366–R368, R372). -/
def State.admitMac (s : State) (m : Nat) (f : SwFrame) (shared : Bool) : Bool × State :=
  let x := s.mac m
  let q := x.queues.getD f.cls []
  let n := cells f.data.length
  if !s.macLink m then (false, s)
  else if cellSum q + n ≤ s.classLimit (m + 2) f.cls ∧ cellSum x.queues.flatten + n ≤ s.rd (F.SW_PLIM_cells (m + 2))
      ∧ (shared = true ∨ s.poolUsed + n ≤ 6144) then
    (true, (s.setMac m (fun y => { y with queues := updAt y.queues f.cls (fun l => l ++ [f]) })).showPool)
  else (false, s)

/-- Six bytes of a MAC address, first byte on the wire first. -/
def macBytes (a : Nat) : List Byte := (List.range 6).map (fun i => BitVec.ofNat 8 (a / 2 ^ (8 * (5 - i))))
def macOf (bs : List Byte) : Nat := bs.foldl (fun n b => n * 256 + b.toNat) 0

/-- The base of the station's MAC addresses in the factory region (R360, notes/assumptions/10.md). -/
def State.macBase (s : State) : Nat := macOf ((List.range 6).map (fun i => s.byte (0x02E00100 + i)))

/-- The bytes of a ring frame: header, payload, trailer (R62). -/
def ringBytes (f : RFrame) : List Byte := f.header ++ f.payload ++ wordsToBytes [f.crc]

/-- The tier-link frame that carries a ring frame (R359). -/
def State.tierBytes (s : State) (dst m : Nat) (f : RFrame) : List Byte :=
  let b := ringBytes f
  macBytes dst ++ macBytes (s.macBase + m) ++ [0x88, 0xB5] ++ b ++ List.replicate (46 - b.length) 0

/-- A posted write into a function's memory: held while Bus Master Enable is 0 (R451). -/
def State.toHost (s : State) (fn addr : Nat) (data : List Byte) : State :=
  if s.bme fn then s.emit (.hostWrite fn addr data)
  else { s with host := { s.host with writes := s.host.writes ++ [⟨fn, addr, data⟩] } }

/-- Store one word as the switch (identity 0x29); where it has to wait for a bank, the word stands once the bank is ON (R405). -/
def State.swWord (s : State) (a : Nat) (v : Word) : State :=
  match s.wrMem 0x29 a v with
  | (.wait, s) => s.putWord a v
  | (_, s) => s

def State.swWords (s : State) (a : Nat) : List Word → State
  | [] => s
  | v :: t => (s.swWord a v).swWords (a + 4) t

/-- Host ring `i` (0 transmit, 1 receive): base, descriptors, and whether it may be used (R373). -/
def State.hrBase (s : State) (i : Nat) : Nat := s.rd (F.SW_HR0_base i) * 32 + s.rd (F.SW_HR1_base i) * 2 ^ 32
def State.hrSize (s : State) (i : Nat) : Nat := 2 ^ s.rd (F.SW_HR2_size i)
def State.hrHost (s : State) (i : Nat) : Bool := s.on (F.SW_HR2_loc i)
def State.hrFn (s : State) : Nat := fnOf (s.rd F.SW_HOSTCFG_owner)
def State.hrUp (s : State) (i : Nat) : Bool := s.on (F.SW_HR2_en i) && (!s.hrHost i || decide (s.rd F.SW_HOSTCFG_owner ≤ 2 ∧ s.fenced s.hrFn = false))
def State.hrDesc (s : State) (i : Nat) : Nat := s.hrBase i + 32 * (s.rd (F.SW_HR3_dev i) % s.hrSize i)

/-- Step the device index of a host ring. -/
def State.hrStep (s : State) (i : Nat) : State := s.wr (F.SW_HR3_dev i) ((s.rd (F.SW_HR3_dev i) + 1) % s.hrSize i)

/-- Write into memory of a space: host or local, whole words; bytes beyond the data keep what a local buffer held. -/
def State.putSpace (s : State) (host : Bool) (a : Nat) (bs : List Byte) : State :=
  if host then s.toHost s.hrFn a bs
  else s.swWords a (bytesToWords (bs ++ (List.range ((4 - bs.length % 4) % 4)).map (fun i => s.byte (a + bs.length + i))))

/-- The descriptor that the next received frame would use, where one is offered (R373). -/
def State.rxDesc (s : State) : Option (List Word) × State :=
  if !s.hrUp 1 || decide (s.rd (F.SW_HR3_dev 1) = s.rd (F.SW_HR3_sw 1) % s.hrSize 1) then (none, s)
  else if s.hrHost 1 then (s.net.hdesc.head?, s)
  else s.rdList 0x29 (s.hrDesc 1) 8

/-- Hand a frame to the host port: false where no owned descriptor holds it (R373). -/
def State.hostPut (s : State) (ing : Nat) (f : SwFrame) : Bool × State :=
  match s.rxDesc with
  | (none, s) => (false, s)
  | (some d, s) =>
    let w2 := wAt d 2
    let n := f.data.length
    if getF w2 31 1 = 0 ∨ getF w2 0 12 < n then (false, s)
    else
      let a := s.hrDesc 1
      let h := s.hrHost 1
      let s := s.putSpace (decide (getF w2 26 1 = 1)) ((wAt d 0).toNat + (wAt d 1).toNat * 2 ^ 32) f.data
      let s := s.putSpace h (a + 12) (wordsToBytes [BitVec.ofNat 32 f.vid, BitVec.ofNat 32 s.rawLo, BitVec.ofNat 32 s.rawHi])
      let w2' := BitVec.ofNat 32 (f.cls * 2 ^ 27 + getF w2 26 1 * 2 ^ 26 + ing * 2 ^ 22 + n)
      let s := (s.putSpace h (a + 8) (wordsToBytes [w2'])).setNet (fun x => { x with hdesc := x.hdesc.tail })
      (true, s.hrStep 1)

/-- A mirrored copy for the analysis port, in class 0 (R375). -/
def State.mirrorCopy (s : State) (ing : Nat) (f : SwFrame) (shared : Bool) : State :=
  let p := s.rd F.SW_MIRCFG_port
  let g := { f with cls := 0, stamp := none }
  let r := if 2 ≤ p ∧ p ≤ 5 then s.admitMac (p - 2) g shared else if p = 6 then s.hostPut ing g else (true, s)
  if r.1 then r.2 else r.2.inc F.SW_CNT_MIRDROP

/-- Is port `p` mirrored on ingress, or on egress (R375)? -/
def State.mirIn (s : State) (p : Nat) : Bool := s.on F.SW_MIRCFG_en && s.bitOf F.SW_MIRCFG_ingress p
def State.mirOut (s : State) (p : Nat) : Bool := s.on F.SW_MIRCFG_en && s.bitOf F.SW_MIRCFG_egress p

/-- Take the next frame number (R368). -/
def State.takeId (s : State) : State := s.setNet (fun n => { n with nextId := n.nextId + 1 })

/-- A ring frame of a mirrored ring port leaves as a tier-link frame to the broadcast address (R375). -/
def State.ringMirror (s : State) (on : Bool) (p : Nat) (f : RFrame) : State :=
  if on then
    s.takeId.mirrorCopy p ⟨s.tierBytes 0xFFFFFFFFFFFF (s.rd F.SW_MIRCFG_port - 2) f, 0, 0, 0, none, s.net.nextId⟩ false
  else s

/-- Hand a ring frame to the tier link (R13, R359); a refused frame is dropped and counted (R367, R372). -/
def State.toTier (s : State) (f : RFrame) : State :=
  let m := s.rd F.RING_CFG_tiermac
  let g : SwFrame := ⟨s.tierBytes s.net.partner m f, 0, f.cls, f.cls, none, s.net.nextId⟩
  match s.takeId.admitMac m g false with
  | (true, s) => if s.mirOut (m + 2) then s.mirrorCopy 0 g true else s
  | (false, s) => s.inc (F.SW_CNT_DROP (m + 2))

/-- Is this a tier station (R13)? -/
def State.isTier (s : State) : Bool := decide (s.rd F.RING_CFG_role = 1)

end Sys2Proof.Machine
end

