-- ==== Sys2Proof/Machine/RingRx.lean ====
section
/-! DEFINITION. A frame arriving on a ring port: header check, forwarding decision, trailer, and sequence acceptance (R69, R70, R145–R151). -/
namespace Sys2Proof.Machine
open Sys2Proof

/-- The forwarding decision (R69). -/
inductive Route where
  /-- reserved ring or bit: discarded and counted -/
  | bad
  /-- taken in, not forwarded -/
  | mine
  /-- own broadcast returned: neither -/
  | strip
  /-- hop limit: not forwarded; whether taken in -/
  | hop (take : Bool)
  /-- forwarded and taken in -/
  | both
  /-- forwarded only -/
  | pass
  /-- handed to the tier link (R13) -/
  | tier
  deriving DecidableEq, Repr

/-- Is a frame's ring this station's: a station without a ring address takes every ring for its own (notes/assumptions/14.md). -/
def State.onRing (s : State) (f : RFrame) : Bool := f.dring = s.ringId || s.ringId = 255
def State.isBcast (s : State) (f : RFrame) : Bool := s.onRing f && f.dstation = 4095
def State.toMe (s : State) (f : RFrame) : Bool := s.onRing f && f.dstation = s.myAddr
def State.fromMe (s : State) (f : RFrame) : Bool := f.sring = s.ringId && f.sstation = s.myAddr && s.myAddr ≠ 0

/-- The decision of R69 for a frame that arrives on port `p`, its hops already incremented, with R151 for own broadcasts. -/
def State.routeOf (s : State) (p : Nat) (f : RFrame) : Route :=
  if f.dring = 255 ∨ (f.typ = 1 ∧ getF f.w0 18 6 ≠ 0) then .bad
  else if s.toMe f then .mine
  else if s.isBcast f && s.fromMe f && (s.heal.wrapTab.isEmpty || f.dirBit = 1 - p) then .strip
  else if f.hops ≥ s.hopLimit then .hop (s.isBcast f && !s.fromMe f)
  else if s.isBcast f then (if s.fromMe f then .pass else .both)
  else if s.isTier && f.dring ≠ s.ringId then .tier
  else .pass

/-- The frame one hop on: hops incremented, checks recomputed (R62, R63, R69). -/
def RFrameHop (f : RFrame) : RFrame := RFrame.seal { f with w2 := setF f.w2 0 12 (f.hops + 1) }

/-- Does the trailer check good and the length match (R70)? -/
def trailerGood (f : RFrame) : Bool := !f.err && decide (f.crc = trailer f) && decide (f.length = f.payload.length)

/-- Send a forwarded frame on in direction `d` (R69, R70); one whose trailer failed ends in an error block. -/
def State.forward (s : State) (d : Nat) (f : RFrame) (good : Bool) : State :=
  if !s.forwards then s
  else
    let s := s.inc F.RING_CNT_FWD
    if !good then (match s.egress d with | some q => s.emit (.ringCut q) | none => s)
    else if f.cls = 0 then s.outScheduled d f
    else s.outOpen d f

/-- A frame with a bad header check stops here, and a replay marker goes on in its direction (R69, R157). -/
def State.badHeader (s : State) (p : Nat) : State :=
  let s := s.inc (F.RING_CNT_HDRERR p)
  if s.forwards then s.outMarker (1 - p) (markerOf 2 0 s.station) else s

/-- A frame that reaches this station as its own or as a broadcast, its trailer failed: counted, and a gap in its stream (R70, R147). -/
def State.lostHere (s : State) (f : RFrame) : State :=
  if f.cls = 1 ∨ f.cls = 2 then s.gapFrame f else s

/-- A frame arrives on port `p`. Answers whether it is taken in (R69, R70); `fx` alters the copy sent on. Nothing but a join frame is taken from an edge
port (R84, `arriveJoin`). -/
def State.arrive (s : State) (p : Nat) (f : RFrame) (fx : RFrame → RFrame) : Bool × State :=
  if !headerGood f then (false, s.badHeader p)
  else if s.on (edgeFld p) then (false, s)
  else
    let good := trailerGood f
    let s := if !good && !f.err then s.inc (F.RING_CNT_CRCERR p) else s
    let g := RFrameHop f
    let d := 1 - p
    let taken := fun (s : State) => if good then (true, (s.inc (F.RING_CNT_RXGOOD p)).ringMirror (s.mirIn p && decide (f.cls = 1 ∨ f.cls = 2)) p f)
      else (false, s.lostHere f)
    match s.routeOf p g with
    | .bad => (false, s.inc F.RING_CNT_BADADDR)
    | .mine => taken s
    | .strip => (false, s)
    | .hop t => let s := s.inc F.RING_CNT_HOPSTRIP; if t then taken s else (false, s)
    | .both => taken (s.forward d (RFrame.seal (fx g)) good)
    | .pass => (false, s.forward d (RFrame.seal (fx g)) good)
    | .tier => (false, if good then s.toTier g else s)

/-- A frame of class 1 or 2 arrives: taken in and accepted in its stream, and then handled; `refused` handles a frame of a fenced source (R146,
R165). -/
def State.arriveSeq (s : State) (p : Nat) (f : RFrame) (k refused : State → State) : State :=
  match s.arrive p f id with
  | (false, s) => s
  | (true, s) =>
    match s.accept f with
    | (.yes, s) => k s
    | (.no, s) => s
    | (.fenced, s) => refused s

/-- A frame event on port `p` whose frame is of type `t`: a bad header is this event too; another type is not. -/
def rxIs (t : Nat) (f : RFrame) : Bool := !headerGood f || f.typ = t

/-- Is a port able to receive: out of reset, locked, at rate 2 the east port only (R61, R137)? -/
def State.rxUp (s : State) (p : Nat) : Bool := s.alive && s.on (lockFld p) && (p = 0 || decide (s.rd F.RING_CFG_rate < 2))

end Sys2Proof.Machine
end

