-- ==== Sys2Proof/Machine/GateOps.lean ====
section
/-! DEFINITION. Messages entering the gate (R191, R198): a message at a source port, and side-band events from the hardware. -/
namespace Sys2Proof.Machine
open Sys2Proof

def State.setGate (s : State) (f : GateSt → GateSt) : State := { s with gate := f s.gate }

/-- A message accepted at a source port waits for its routing (R194). -/
def State.gateIn (s : State) (m : Msg) : State := s.setGate (fun g => { g with inq := g.inq ++ [m] })

/-- A side-band event of a kind, unit and detail, stamped now, from port 0xB0 (R198). -/
def State.sideBand (s : State) (kind unit detail : Nat) : State :=
  s.gateIn { srcPort := 0xB0, dstPort := 0, srcId := BitVec.ofNat 32 (kind * 2 ^ 24 + unit * 2 ^ 16 + detail), dstId := 0, req := false, ans := false,
             tx := 0, raw := s.raw, data := [], busy := false }

end Sys2Proof.Machine
end

