-- ==== Sys2Proof/Machine/LineOps.lean ====
section
/-! DEFINITION. Serial and discrete lines (chapter 11): owners, maintenance windows, levels, calibration (R319–R325), the commanded level of an output
and what switches it (R316–R318, R494), and the signals of the line matrix (R287). A unit code (R330) is 0–47 for LINEnn and 64 + nn for DIOnn. -/
namespace Sys2Proof.Machine
open Sys2Proof

def State.setField (s : State) (f : FieldSt → FieldSt) : State := { s with field := f s.field }
def State.dio (s : State) (n : Nat) : DioSt := s.field.dios.getD n DioSt.init
def State.setDio (s : State) (n : Nat) (f : DioSt → DioSt) : State := s.setField (fun x => { x with dios := updAt x.dios n f })
def State.line (s : State) (n : Nat) : LineSt := s.lines.getD n LineSt.init
def State.setLine (s : State) (n : Nat) (f : LineSt → LineSt) : State := { s with lines := updAt s.lines n f }

/-- Is there a line of this unit code? -/
def unitOk (u : Nat) : Bool := decide (u < 48 ∨ (64 ≤ u ∧ u < 128))

/-- Owner, calibration and window of a unit code. -/
def State.unitOwner (s : State) (u : Nat) : Option Nat := if u < 64 then (s.line u).owner else (s.dio (u - 64)).owner
def State.setOwner (s : State) (u : Nat) (o : Option Nat) : State :=
  if u < 64 then s.setLine u (fun l => { l with owner := o }) else s.setDio (u - 64) (fun d => { d with owner := o })
def State.cal (s : State) (u : Nat) : CalSt := if u < 64 then (s.line u).cal else (s.dio (u - 64)).cal
def State.setCal (s : State) (u : Nat) (f : CalSt → CalSt) : State :=
  if u < 64 then s.setLine u (fun l => { l with cal := f l.cal }) else s.setDio (u - 64) (fun d => { d with cal := f d.cal })
def State.lineWindow (s : State) (u : Nat) : Option Nat := if u < 64 then (s.line u).window else (s.dio (u - 64)).window
def State.windowOpen (s : State) (u : Nat) : Bool := (s.lineWindow u).isSome

/-- Mode of a unit, and the power of its group (R472). -/
def State.unitMode (s : State) (u : Nat) : Nat := if u < 64 then s.rd (F.LINE_MODE_mode u) else s.rd (F.DIO_CFG_mode (u - 64))
def groupDom (u : Nat) : Nat := if u < 64 then 0x20 + u / 4 else 0x30 + (u - 64) / 8
def State.groupOn (s : State) (u : Nat) : Bool := decide (s.domState (groupDom u) = 0)

/-- Counters of a unit (R332). -/
def cntAbort (u : Nat) : Fld := if u < 64 then F.LINE_CNT_ABORT u else F.DIO_CNT_ABORT (u - 64)
def cntStarve (u : Nat) : Fld := if u < 64 then F.LINE_CNT_STARVE u else F.DIO_CNT_STARVE (u - 64)
def cntPass (u : Nat) : Fld := if u < 64 then F.LINE_CNT_PASS u else F.DIO_CNT_PASS (u - 64)
def cntMaint (u : Nat) : Fld := if u < 64 then F.LINE_CNT_MAINTIGN u else F.DIO_CNT_MAINTIGN (u - 64)
def caltLo (u : Nat) : Fld := if u < 64 then F.LINE_CALT_LO u else F.DIO_CALT_LO (u - 64)
def caltHi (u : Nat) : Fld := if u < 64 then F.LINE_CALT_HI u else F.DIO_CALT_HI (u - 64)

/-- The matrix signal of a code as last written (R287). -/
def State.sig (s : State) (code : Nat) : Bool := sget false s.field.sigs code

/-- TXD and DE of a port as their source drives them (R311). -/
def State.lineTxd (s : State) (n : Nat) : Bool := if (s.line n).owner.isSome then s.sig (0x040 + n) else s.on (F.LINE_OUT_txd n)
def State.lineDe (s : State) (n : Nat) : Bool := if (s.line n).owner.isSome then s.sig (0x080 + n) else s.on (F.LINE_OUT_de n)

/-- Driver enable as applied: mode 1 or 2, no window, quad not hot, and not released by the gate (R307, R312, R327, R494). -/
def State.deNow (s : State) (n : Nat) : Bool :=
  s.lineDe n && decide (s.rd (F.LINE_MODE_mode n) = 1 ∨ s.rd (F.LINE_MODE_mode n) = 2) && !s.windowOpen n && !s.field.hotQuads.contains (n / 4)
    && !(s.forcing && s.bitOf F.SAFE_MISC_quadrel (n / 4)) && s.groupOn n

/-- RXD as the owner receives it: 1 in mode 0 and in a maintenance window (R307, R327). -/
def State.rxdNow (s : State) (n : Nat) : Bool := (s.line n).rx || decide (s.rd (F.LINE_MODE_mode n) = 0) || s.windowOpen n

/-- Show what LINEnn_STAT and the window registers hold of a port. -/
def State.showLine (s : State) (n : Nat) : State :=
  let s := (s.wr (F.LINE_STAT_de n) (if s.deNow n then 1 else 0)).wr (F.LINE_STAT_rxd n) (if s.rxdNow n then 1 else 0)
  let s := (s.wr (F.LINE_STAT_maint n) (if s.windowOpen n then 1 else 0)).wr (F.LINE_STAT_calst n) (s.line n).cal.st
  let s := s.wr (bitFld (if n < 32 then F.LINE_MAINT0 else F.LINE_MAINT1) (n % 32)) (if s.windowOpen n then 1 else 0)
  s.wr (F.LINE_STAT_pending n) (if s.anyShadow [(F.LINE_MODE_mode n).addr] then 1 else 0)
def State.showUnit (s : State) (u : Nat) : State := if u < 48 then s.showLine u else s

/-- The filtered and unfiltered level of an input (R314). -/
def dioFilt (n : Nat) : Fld := bitFld (F.DIO_IN_filt (n / 8)) (n % 8)
def dioRaw (n : Nat) : Fld := bitFld (F.DIO_IN_unfilt (n / 8)) (n % 8)

/-- The stage pair that owns an octet (DIO_OWN). -/
def ownFld (k : Nat) : Fld := subFld F.DIO_OWN (2 * k) 2
def State.octPair (s : State) (k : Nat) : Option Nat := match s.rd (ownFld k) with | 1 => some 0 | 2 => some 1 | _ => none

/-- The commanded level of an output (R318): the line matrix, or DIO_OUTk, which the owning pair or DIO.SET writes. -/
def State.dioCmd (s : State) (n : Nat) : Bool :=
  if (s.dio n).owner.isSome then s.sig (0x100 + n) else s.bitOf (F.DIO_OUT_out (n / 8)) (n % 8)

/-- Is an output switched off by a latch or by VFLD (R316, R317)? -/
def State.dioBlocked (s : State) (n : Nat) : Bool :=
  s.bitOf (F.DIO_FAULT_short (n / 8)) (n % 8) || s.on (F.DIO_FAULT_octet (n / 8)) || s.on F.DIO_GSTAT_total || s.on F.DIO_GSTAT_vfldlow

/-- Does the high-side switch conduct: the commanded level, the gate's action over it, and what switches it off (R316–R318, R491, R494)? -/
def State.dioOn (s : State) (n : Nat) : Bool :=
  let act := s.rd (subFld (F.SAFE_DIO (n / 8)) (2 * (n % 8)) 2)
  let cmd := if s.forcing && decide (act ≠ 2) then decide (act = 1) else s.dioCmd n && !s.windowOpen (64 + n)
  cmd && decide (s.rd (F.DIO_CFG_mode n) = 3 ∨ s.rd (F.DIO_CFG_mode n) = 4) && !s.dioBlocked n && s.groupOn (64 + n)

/-- The steps of a pass for the unit's mode and termination (R319). -/
def State.passSteps (s : State) (u : Nat) : List Nat :=
  if u < 64 then (if s.rd (F.LINE_MODE_term u) = 0 then [1, 3, 4] else [1, 2, 3, 4])
  else if s.rd (F.DIO_CFG_mode (u - 64)) ≥ 3 then [5, 6] else [6]

/-- Request a pass; a request made while one runs is absorbed (R324, R325). -/
def State.passRequest (s : State) (u : Nat) : State :=
  if s.unitMode u = 0 || !s.groupOn u || decide ((s.cal u).st = 1) then s
  else
    let l := s.passSteps u
    (s.setCal u (fun c => { c with st := 1, steps := l, running := false, first := none, bad := false, applyDue := false, cand := c.oper })).showUnit u

/-- Mode 0, or the group off or in retention: the candidate set goes (R325). -/
def State.calNone (s : State) (u : Nat) : State :=
  (s.setCal u (fun c => { c with st := 3, steps := [], running := false, first := none, bad := false, applyDue := false, cand := [] })).showUnit u

/-- After a committed change of a unit's mode or termination (R324, R325). -/
def State.modeChanged (s : State) (u : Nat) (changed : Bool) : State :=
  if s.unitMode u = 0 then s.calNone u else if changed then (s.passRequest u).showUnit u else s.showUnit u

/-- A foreground event: the running step is aborted, and the guard starts again (R320, R321). -/
def State.foreground (s : State) (u : Nat) : State :=
  let s := if (s.cal u).running then (s.inc (cntAbort u)).setCal u (fun c => { c with running := false, first := none }) else s
  s.setCal u (fun c => { c with since := s.raw })

/-- A change of a signal towards a line: ignored and counted in a window (R327), otherwise a foreground event; `edge`: one that the port transmits. -/
def State.signalChange (s : State) (u : Nat) (edge : Bool) : State :=
  if s.windowOpen u then s.inc (cntMaint u)
  else ((s.foreground u).setCal u (fun c => if edge then { c with edges := c.edges + 1 } else c)).showUnit u

/-- The unit code a matrix signal belongs to (R287). -/
def sigUnit (code : Nat) : Option Nat :=
  if 0x040 ≤ code ∧ code < 0x070 then some (code - 0x040)
  else if 0x080 ≤ code ∧ code < 0x0B0 then some (code - 0x080)
  else if 0x100 ≤ code ∧ code < 0x140 then some (64 + (code - 0x100))
  else if 0x140 ≤ code ∧ code < 0x150 then some (64 + (code - 0x140))
  else none

/-- Write a matrix signal (R287, R288). In mode 3 the data and driver-enable bindings have no effect on the port (R310). -/
def State.setSig (s : State) (code : Nat) (b : Bool) : State :=
  let was := s.sig code
  let s := s.setField (fun x => { x with sigs := sset false x.sigs code b })
  match sigUnit code with
  | some u => if was = b || (decide (u < 64) && decide (s.unitMode u = 3)) then s else s.signalChange u (decide (code < 0x070))
  | none => s

/-- LINEnn_OUT, while no engine owns the port (R271, R311). -/
def State.writeLineOut (s : State) (n : Nat) (v : Word) : State :=
  if (s.line n).owner.isSome then s
  else
    let old := s.rd (F.LINE_OUT_txd n) + 2 * s.rd (F.LINE_OUT_de n)
    let s := (s.wr (F.LINE_OUT_txd n) (getF v 0 1)).wr (F.LINE_OUT_de n) (getF v 1 1)
    if old = getF v 0 2 ∨ s.rd (F.LINE_MODE_mode n) = 3 then s.showLine n else s.signalChange n (decide (old % 2 ≠ getF v 0 1))

/-- DIO_OUTk: by the owning pair alone while a pair owns the octet, otherwise any identity; lines of an engine keep what they have (R271, R318). -/
def State.writeDioOut (s : State) (id k : Nat) (v : Nat) : State :=
  match s.octPair k with
  | some p =>
    if id = 8 + p then s.each (List.range 8) (fun i s =>
      if (s.dio (8 * k + i)).owner.isSome || s.bitOf (F.DIO_OUT_out k) i = v.testBit i then s
      else (s.wr (bitFld (F.DIO_OUT_out k) i) (if v.testBit i then 1 else 0)).signalChange (64 + 8 * k + i) false)
    else s.decErr id (F.DIO_OUT_out k).addr true
  | none =>
    s.each (List.range 8) (fun i s =>
      if (s.dio (8 * k + i)).owner.isSome || s.bitOf (F.DIO_OUT_out k) i = v.testBit i then s
      else (s.wr (bitFld (F.DIO_OUT_out k) i) (if v.testBit i then 1 else 0)).signalChange (64 + 8 * k + i) false)

/-- Is a unit idle (R320), as far as the digital part sees it? -/
def State.unitIdle (s : State) (u : Nat) : Bool :=
  decide (s.raw ≥ (s.cal u).since + s.rd F.LINE_CALCFG_guard * tickUs)
    && (if u < 64 then !s.deNow u else !(decide ((s.cal u).steps.head? = some 5) && s.dioOn (u - 64)))

/-- Drop S4 where it is skipped: outside a window with fewer than 64 edges (R319). -/
def State.skipS4 (s : State) (u : Nat) : State :=
  if (s.cal u).steps.head? = some 4 && !s.windowOpen u && decide ((s.cal u).edges < 64) then s.setCal u (fun c => { c with steps := c.steps.tail }) else s

/-- The pass goes on: the next step if the line is still idle, the apply once none is left (R325). -/
def State.passGo (s : State) (u : Nat) (run : Bool) : State :=
  let s := s.skipS4 u
  if (s.cal u).steps.isEmpty then s.setCal u (fun c => { c with running := false, applyDue := true }) else s.setCal u (fun c => { c with running := run })

/-- The unfiltered level of an input that is on and has no window open follows its pad (R314, R327). -/
def State.showPad (s : State) (n : Nat) : State :=
  if s.rd (F.DIO_CFG_mode n) = 0 ∨ s.windowOpen (64 + n) = true then s else s.wr (dioRaw n) (if (s.dio n).pad then 1 else 0)

/-- End a maintenance window: what is running is aborted (R327). -/
def State.windowEnd (s : State) (u : Nat) : State :=
  let s := if (s.cal u).running then (s.inc (cntAbort u)).setCal u (fun c => { c with running := false, first := none }) else s
  (if u < 64 then s.setLine u (fun l => { l with window := none }) else (s.setDio (u - 64) (fun d => { d with window := none })).showPad (u - 64)).showUnit u

/-- LINE_STAT fault flags (R312). -/
def State.lineFault (s : State) (f : Fld) : State := (s.wr f 1).event F.LINE_EVT_fault

/-- A LINE.CAL command whose lines are all done, or whose limit has passed, ends (R330). -/
def State.calEnd (s : State) (w : LineWait) : State :=
  let left := w.units.length - w.done.length - w.oor.length
  (s.setField (fun x => { x with waits := x.waits.filter (fun y => y.seq ≠ w.seq) })).fin w.seq (if left = 0 then 0x0000 else 0x0200)
    [BitVec.ofNat 32 w.done.length, BitVec.ofNat 32 w.oor.length, BitVec.ofNat 32 left]

/-- A pass has been applied: tell the commands that wait. -/
def State.calTell (s : State) (u : Nat) (bad : Bool) : State :=
  let ws := s.field.waits.map (fun w =>
    if w.units.contains u && !w.done.contains u && !w.oor.contains u then (if bad then { w with oor := u :: w.oor } else { w with done := u :: w.done }) else w)
  let s := s.setField (fun x => { x with waits := ws })
  s.each ws (fun w s => if w.done.length + w.oor.length = w.units.length then s.calEnd w else s)

/-- Apply a pass (R323). -/
def State.passApply (s : State) (u : Nat) : State :=
  let bad := (s.cal u).bad
  let s := s.setCal u (fun c => { c with st := if bad then 2 else 0, oper := c.cand, applyDue := false, applied := s.raw, edges := 0 })
  let s := if bad then s else ((s.wr (caltLo u) s.rawLo).wr (caltHi u) s.rawHi).inc (cntPass u)
  (s.showUnit u).calTell u bad

/-- The filter of a discrete input passes a new level (R314, R315). -/
def State.filteredEdge (s : State) (n : Nat) (b : Bool) : State :=
  if s.rd (F.DIO_CFG_mode n) = 0 || s.windowOpen (64 + n) || !s.groupOn (64 + n) || decide (s.on (dioFilt n) = b) then s
  else
    let was := s.rd (F.DIO_STAMP2_valid n)
    let s := ((s.wr (dioFilt n) (if b then 1 else 0)).wr (F.DIO_STAMP0 n) s.rawLo).wr (F.DIO_STAMP1 n) s.rawHi
    let s := ((s.wr (F.DIO_STAMP2_ovr n) was).wr (F.DIO_STAMP2_valid n) 1).wr (F.DIO_STAMP2_level n) (if b then 1 else 0)
    let sel := s.rd (F.DIO_CFG_sbev n)
    if sel = 3 ∨ (sel = 1 ∧ b = true) ∨ (sel = 2 ∧ b = false) then s.sideBand 1 n (if b then 1 else 0) else s

end Sys2Proof.Machine
end

