-- ==== Sys2Proof/Machine/HandOps.lean ====
section
/-! DEFINITION. Stagehands (R287–R303): matrix signals and slots, syncs, FIFOs, the control register, and the eight operations at a tick. -/
namespace Sys2Proof.Machine
open Sys2Proof

/-- Level of TRIGk at its pin: the active level while it is driven active (R118). -/
def State.trigPin (s : State) (k : Nat) : Bool := (s.time.trigs.getD k TrigSt.init).active != s.on (F.TIME_TRIG0_pol k)

/-- The input of a signal code (R287). -/
def State.sigIn (s : State) (code : Nat) : Bool :=
  if 0x040 ≤ code ∧ code < 0x070 then s.rxdNow (code - 0x040)
  else if 0x080 ≤ code ∧ code < 0x0B0 then s.lineDe (code - 0x080)
  else if 0x100 ≤ code ∧ code < 0x140 then (if s.windowOpen (64 + (code - 0x100)) then s.on (dioFilt (code - 0x100)) else (s.dio (code - 0x100)).pad)
  else if 0x180 ≤ code ∧ code < 0x188 then s.trigPin (code - 0x180)
  else if 0x188 ≤ code ∧ code < 0x190 then s.field.capPins.getD (code - 0x188) false
  else false

/-- Owning engine of a stagehand, and its program counter. -/
def State.handOwner (s : State) (h : Nat) : Nat := s.rd (F.HAND_STAT_owner h)
def State.handPc (s : State) (h : Nat) : Nat := s.rd (F.HAND_STAT_pc h)

/-- Input of slot Pk, with its inversion, and all slots as bits [7:0] (R287). -/
def State.slotIn (s : State) (h k : Nat) : Bool :=
  let c := s.rd (F.HAND_PIN_in h k)
  if c = 0 then false else s.sigIn c != s.on (F.HAND_PIN_invin h k)
def State.slotsIn (s : State) (h : Nat) : Nat := (List.range 8).foldl (fun n k => if s.slotIn h k then n + 2 ^ k else n) 0

/-- Write the level of output slot Pk (R288, R293). -/
def State.slotOut (s : State) (h k : Nat) (b : Bool) : State :=
  let s := s.setHand h (fun x => { x with out := (x.out &&& (255 ^^^ 2 ^ k)) ||| (if b then 2 ^ k else 0) })
  let c := s.rd (F.HAND_PIN_out h k)
  if c = 0 then s else s.setSig c (b != s.on (F.HAND_PIN_invout h k))
/-- Write the slots of a mask from the bits of a value. -/
def State.slotsOut (s : State) (h mask v : Nat) : State := s.each (ones 8 mask) (fun k s => s.slotOut h k (v.testBit k))

/-- Show the words of a stagehand's FIFOs. -/
def State.showHand (s : State) (h : Nat) : State :=
  (s.wr (F.HAND_STAT_rxwords h) (s.hand h).rxf.length).wr (F.HAND_STAT_txwords h) (s.hand h).txf.length

/-- Registers under HANDnn_CTL.commit (R298), and their pending bits. -/
def handRegs (h : Nat) : List Nat := [(F.HAND_DIV_int h).addr, (F.HAND_WRAP_top h).addr, (F.HAND_SHCFG_tlen h).addr, (F.HAND_HOLD_h0 h).addr]
def State.showHandPend (s : State) (h : Nat) : State :=
  let p := fun (i : Nat) => if s.anyShadow [(handRegs h).getD i 0] then 1 else 0
  (s.wr (F.HAND_STAT_pending h) (p 0 + 2 * p 1 + 4 * p 2)).wr (F.HAND_STAT_pendhold h) (p 3)

/-- Apply a commit: a program whose top lies below its bottom is reserved, and those fields are not taken (R8, R291). -/
def State.handApply (s : State) (h : Nat) : State :=
  let s := s.setHand h (fun x => { x with commitReq := false })
  let s := if s.rdS (F.HAND_WRAP_top h) < s.rdS (F.HAND_WRAP_bottom h) then s.dropShadow [(F.HAND_WRAP_top h).addr] else s
  (s.commitRegs (handRegs h)).showHandPend h
def State.handCommit (s : State) (h : Nat) : State :=
  if s.on (F.HAND_CTL_en h) then s.setHand h (fun x => { x with commitReq := true }) else s.handApply h

/-- Restart a stagehand (R302); nothing has been popped since (R262). -/
def State.handRestart (s : State) (h : Nat) : State :=
  let s := s.setHand h (fun x => { x with hold := 0, waitOn := false, trigSeen := 0, last := 0, lastRx := 0 })
  let s := ((((s.wr (F.HAND_TSR h) 0).wr (F.HAND_RSR h) 0).wr (F.HAND_CNT_tcnt h) 0).wr (F.HAND_CNT_rcnt h) 0).wr (F.HAND_STAT_waiting h) 0
  let s := s.wr (F.HAND_STAT_pc h) (s.rd (F.HAND_WRAP_bottom h))
  s.each (List.range 8) (fun k s => s.slotOut h k (s.on (F.HAND_PIN_rest h k)))

def State.handFifoClr (s : State) (h : Nat) : State := (s.setHand h (fun x => { x with txf := [], rxf := [] })).showHand h

/-- A write of 0 to en (R300), and of 1 (R301). -/
def State.handOff (s : State) (h : Nat) : State :=
  let s := (s.wr (F.HAND_CTL_en h) 0).wr (F.HAND_STAT_waiting h) 0
  let s := s.setHand h (fun x => { x with hold := 0, waitOn := false, trigSeen := 0 })
  if (s.hand h).commitReq then s.handApply h else s
def State.handOn (s : State) (h : Nat) : State := (s.wr (F.HAND_CTL_en h) 1).setHand h (fun x => { x with acc := 0 })
def State.handClr (s : State) (h : Nat) : State := (s.wr (F.HAND_DROP_tx h) 0).wr (F.HAND_DROP_rx h) 0

/-- A sync of the stagehands in a mask (R296). -/
def State.handSync (s : State) (mask : Nat) : State := s.each (ones 32 mask) (fun h s => s.handOn h)

/-- TRIGEVk fires: stagehands armed on it start together, waits see it (R292, R297). -/
def State.handTrig (s : State) (k : Nat) : State :=
  s.each (List.range 32) (fun h s =>
    let s := s.setHand h (fun x => if x.waitOn then { x with trigSeen := x.trigSeen ||| 2 ^ k } else x)
    if s.on (F.HAND_CTL_arm h) && decide (s.rd (F.HAND_CTL_trigsel h) = k) then (s.wr (F.HAND_CTL_arm h) 0).handOn h else s)

/-- Non-blocking push into the transmit FIFO: was it dropped (R262, R295)? -/
def State.handPush (s : State) (h : Nat) (v : Word) : Bool × State :=
  if (s.hand h).txf.length < 8 then (false, (s.setHand h (fun x => { x with txf := x.txf ++ [v] })).showHand h)
  else (true, s.inc (F.HAND_DROP_tx h))

/-- Non-blocking pop from the receive FIFO: the word, and whether it was stale (R262, R295). -/
def State.handPop (s : State) (h : Nat) : Word × Bool × State :=
  match (s.hand h).rxf with
  | v :: t => (v, false, (s.setHand h (fun x => { x with rxf := t, lastRx := v })).showHand h)
  | [] => ((s.hand h).lastRx, true, s.wr (F.HAND_STAT_rxstale h) 1)

/-- A write to instruction memory, A, B or TSR: refused and flagged while the stagehand is enabled (R299). -/
def State.handWriteMem (s : State) (h : Nat) (f : Fld) (v : Nat) : State :=
  if s.on (F.HAND_CTL_en h) then s.wr (F.HAND_STAT_imemerr h) 1 else s.wr f v

/-- A binding of slot k: one to a signal of a line that the engine does not own is not made, and the slot takes the code none (R288); a reserved code leaves
the field as it was (R8). -/
def outCodeOk (c : Nat) : Bool := decide (c = 0) || (sigUnit c).isSome
def inCodeOk (c : Nat) : Bool :=
  decide (c = 0) || (match sigUnit c with | some _ => decide (c < 0x140) | none => decide (0x180 ≤ c ∧ c < 0x190))
def State.handWritePin (s : State) (h k : Nat) (v : Word) : State :=
  let f := fun (c : Nat) => match sigUnit c with | some u => decide (s.unitOwner u = some (s.handOwner h)) | none => true
  let i := getF v 16 9
  let o := getF v 0 9
  let put := fun (fl : Fld) (ok : Bool) (c : Nat) (s : State) => if ok then s.wr fl (if f c then c else 0) else s
  let s := ((s.wr (F.HAND_PIN_rest h k) (getF v 31 1)).wr (F.HAND_PIN_invout h k) (getF v 30 1)).wr (F.HAND_PIN_invin h k) (getF v 29 1)
  let s := put (F.HAND_PIN_out h k) (outCodeOk o) o (put (F.HAND_PIN_in h k) (inCodeOk i) i s)
  if (inCodeOk i && !f i) || (outCodeOk o && !f o) then s.wr (F.HAND_STAT_pinerr h) 1 else s

/-- Stagehand numbers an engine owns, as a mask. -/
def State.handsOf (s : State) (n : Nat) : Nat := (List.range 32).foldl (fun m h => if s.handOwner h = n then m + 2 ^ h else m) 0

/-- Access to a HAND register: an engine that does not own the stagehand writes nothing, recorded as in R22. -/
def State.guardHand (s : State) (id : Ident) (h a : Nat) (f : State → State) : State :=
  if !s.alive then s
  else if 0x10 ≤ id.val ∧ id.val < 0x20 ∧ id.val - 0x10 ≠ s.handOwner h then s.decErr id a true
  else f s

/-- Flags of the owning engine: bits [15:8] of its event register (R292). -/
def State.flag (s : State) (h k : Nat) : Bool := s.bitOf (F.ENG_EVT (s.handOwner h)) (8 + k)
def State.setFlag (s : State) (h k : Nat) (b : Bool) : State := s.wr (bitFld (F.ENG_EVT (s.handOwner h)) (8 + k)) (if b then 1 else 0)

/-- What an operation does at a tick: it waits, or it is done and may set the PC (R291). -/
inductive HandRes where
  | wait (s : State)
  | done (s : State)
  | jump (s : State) (pc : Nat)
  deriving DecidableEq

def tlenOf (s : State) (h : Nat) : Nat := s.rd (F.HAND_SHCFG_tlen h) + 1
def rlenOf (s : State) (h : Nat) : Nat := s.rd (F.HAND_SHCFG_rlen h) + 1

/-- Set TSR with tcnt at tlen. -/
def State.loadTsr (s : State) (h : Nat) (v : Nat) : State := (s.wr (F.HAND_TSR h) v).wr (F.HAND_CNT_tcnt h) (tlenOf s h)

/-- Reverse the 32 bits of a word. -/
def rev32 (v : Nat) : Nat := (List.range 32).foldl (fun n i => if v.testBit i then n + 2 ^ (31 - i) else n) 0
def parity32 (v : Nat) : Nat := (ones 32 v).length % 2

/-- JUMP (R292). -/
def handJump (h : Nat) (cond addr : Nat) (s : State) : HandRes :=
  let a := s.rd (F.HAND_A h)
  let b := s.rd (F.HAND_B h)
  let go := fun (c : Bool) => if c then HandRes.jump s addr else .done s
  match cond with
  | 0 => .jump s addr
  | 1 => if a ≠ 0 then .jump (s.wr (F.HAND_A h) (a - 1)) addr else .done s
  | 2 => if b ≠ 0 then .jump (s.wr (F.HAND_B h) (b - 1)) addr else .done s
  | 3 => go (s.slotIn h (s.rd (F.HAND_TPIN_slot h)))
  | 4 => go (!s.slotIn h (s.rd (F.HAND_TPIN_slot h)))
  | 5 => go (decide (s.rd (F.HAND_CNT_tcnt h) ≠ 0))
  | 6 => go (decide (s.rd (F.HAND_CNT_rcnt h) < rlenOf s h))
  | 7 => go (!(s.hand h).txf.isEmpty)
  | 8 => go (decide ((s.hand h).rxf.length < 8))
  | _ => go (decide (a = b))

/-- WAITFOR (R292). -/
def handWait (h : Nat) (lvl : Bool) (src k : Nat) (s : State) : HandRes :=
  match src with
  | 0 => if s.slotIn h k = lvl then .done s else .wait s
  | 1 => if (s.hand h).waitOn && (s.hand h).trigSeen.testBit k then .done s else .wait s
  | _ => if s.flag h k = lvl then .done s else .wait s

/-- The n bits that SHIFT takes out of TSR, first bit in bit 0, and what is left (R293). -/
def shiftOut (dir : Bool) (tsr n : Nat) : Nat × Nat :=
  if dir then ((List.range n).foldl (fun v i => if tsr.testBit (31 - i) then v + 2 ^ i else v) 0, tsr * 2 ^ n % 2 ^ 32)
  else (tsr % 2 ^ n, tsr / 2 ^ n)

/-- RSR after n bits of `v`, first in bit 0 (R293). -/
def shiftIn (dir : Bool) (rsr n v : Nat) : Nat :=
  (List.range n).foldl (fun r i =>
    let b := if v.testBit i then 1 else 0
    if dir then (r * 2 + b) % 2 ^ 32 else r / 2 + b * 2 ^ 31) rsr

/-- The bits that SHIFT samples (R292). -/
def State.shiftSrc (s : State) (h src : Nat) : Nat :=
  match src with
  | 0 => s.slotsIn h / 2 ^ s.rd (F.HAND_SHCFG_ibase h)
  | 1 => s.rd (F.HAND_A h)
  | 2 => s.rd (F.HAND_B h)
  | _ => 0

/-- Where SHIFT puts the n bits `v` it takes out of TSR (R292). -/
def State.shiftDst (s : State) (h n dst v : Nat) : State :=
  match dst with
  | 0 => s.slotsOut h ((2 ^ n - 1) * 2 ^ s.rd (F.HAND_SHCFG_obase h)) (v * 2 ^ s.rd (F.HAND_SHCFG_obase h))
  | 1 => s.wr (F.HAND_A h) v
  | 2 => s.wr (F.HAND_B h) v
  | _ => s

/-- SHIFT (R292, R293): inputs are sampled before outputs are written. -/
def handShift (h n dst src : Nat) (ien oen : Bool) (s : State) : HandRes :=
  let inV := s.shiftSrc h src
  let r := shiftOut (s.on (F.HAND_SHCFG_tdir h)) (s.rd (F.HAND_TSR h)) n
  let s1 := if oen then
      ((s.wr (F.HAND_TSR h) r.2).wr (F.HAND_CNT_tcnt h) (s.rd (F.HAND_CNT_tcnt h) - n)).shiftDst h n dst r.1
    else s
  .done (if ien then
      (s1.wr (F.HAND_RSR h) (shiftIn (s1.on (F.HAND_SHCFG_rdir h)) (s1.rd (F.HAND_RSR h)) n inV)).wr (F.HAND_CNT_rcnt h)
        (min (s1.rd (F.HAND_CNT_rcnt h) + n) 32)
    else s1)

/-- TAKE (R292, R295). -/
def handTake (h : Nat) (nb ife : Bool) (s : State) : HandRes :=
  if ife && decide (s.rd (F.HAND_CNT_tcnt h) ≠ 0) then .done s
  else
    match (s.hand h).txf with
    | v :: t => .done (((s.setHand h (fun x => { x with txf := t, last := v })).showHand h).loadTsr h v.toNat)
    | [] => if nb then .done ((s.loadTsr h (s.hand h).last.toNat).wr (F.HAND_STAT_txstale h) 1) else .wait s

/-- GIVE (R292, R293, R295). -/
def handGive (h : Nat) (nb iff : Bool) (s : State) : HandRes :=
  let r := s.rd (F.HAND_CNT_rcnt h)
  if iff && decide (r < rlenOf s h) then .done s
  else
    let rsr := s.rd (F.HAND_RSR h)
    let v := if s.on (F.HAND_SHCFG_rdir h) then rsr else rsr / 2 ^ (32 - r)
    let clear := fun (s : State) => (s.wr (F.HAND_RSR h) 0).wr (F.HAND_CNT_rcnt h) 0
    if (s.hand h).rxf.length < 8 then .done (clear ((s.setHand h (fun x => { x with rxf := x.rxf ++ [BitVec.ofNat 32 v] })).showHand h))
    else if nb then .done (clear (s.inc (F.HAND_DROP_rx h)))
    else .wait s

/-- The source of MOVE (R292). -/
def State.moveSrc (s : State) (h src : Nat) : Nat :=
  match src with
  | 0 => s.slotsIn h
  | 1 => s.rd (F.HAND_A h)
  | 2 => s.rd (F.HAND_B h)
  | 3 => s.rd (F.HAND_TSR h)
  | 4 => s.rd (F.HAND_RSR h)
  | 5 => 0
  | 6 => 0xFFFFFFFF
  | _ => s.rawLo

/-- The operation of MOVE: copy, invert, reverse, parity (R292). -/
def moveOp (op v : Nat) : Nat :=
  match op with
  | 0 => v
  | 1 => 0xFFFFFFFF ^^^ v
  | 2 => rev32 v
  | _ => parity32 v

/-- MOVE (R292). -/
def handMove (h dst src op : Nat) (s : State) : HandRes :=
  let v := moveOp op (s.moveSrc h src)
  match dst with
  | 0 => .done (s.slotsOut h (s.rd (F.HAND_DMASK_mask h)) v)
  | 1 => .done (s.wr (F.HAND_A h) v)
  | 2 => .done (s.wr (F.HAND_B h) v)
  | 3 => .done (s.loadTsr h v)
  | _ => .jump s (v % 32)

/-- SIGNAL (R292). -/
def handSignal (h act k : Nat) (s : State) : HandRes :=
  match act with
  | 0 => .done (s.setFlag h k true)
  | 1 => .done (s.setFlag h k false)
  | 2 => if (s.hand h).waitOn then (if s.flag h k then .wait s else .done s) else .wait (s.setFlag h k true)
  | _ => .done (s.setFlag h k (!s.flag h k))

/-- The hold value that selector `sel` names (R291). -/
def State.holdOf (s : State) (h sel : Nat) : Nat := s.rd (subFld ⟨(F.HAND_HOLD_h0 h).addr, 0, 32⟩ (8 * sel) 8)

/-- After an operation that is done: hold, and the next PC (R291). -/
def State.handNext (s : State) (h sel : Nat) (pc : Option Nat) : State :=
  let old := s.handPc h
  let nxt := match pc with
    | some n => n
    | none => if old = s.rd (F.HAND_WRAP_top h) then s.rd (F.HAND_WRAP_bottom h) else (old + 1) % 32
  let n := s.holdOf h sel
  ((s.setHand h (fun x => { x with hold := n, waitOn := false, trigSeen := 0 })).wr (F.HAND_STAT_waiting h) 0).wr (F.HAND_STAT_pc h) nxt

/-- A reserved instruction stops the stagehand (R294). -/
def State.handIllegal (s : State) (h : Nat) : State :=
  ((s.wr (F.HAND_CTL_en h) 0).wr (F.HAND_STAT_illegal h) 1).engEvent (s.handOwner h) 20

/-- What a tick of an enabled stagehand begins with: a requested commit takes effect (R298), and the divider's accumulator gains F (R290). -/
def State.handBegin (s : State) (h : Nat) : State :=
  let s := if (s.hand h).commitReq then s.handApply h else s
  s.setHand h (fun x => { x with acc := (x.acc + s.rd (F.HAND_DIV_frac h)) % 256 })

/-- One tick of an enabled stagehand (R290, R291): a hold goes on, or the instruction word `w` that stands at the PC executes, where its fields are legal. -/
def State.handTick (s : State) (h : Nat) (w : Nat) (legal : State → Bool) (op : State → HandRes) : State :=
  if !s.alive || !s.on (F.HAND_CTL_en h) then s
  else if (s.hand h).hold = 0 ∧ s.rd (F.HAND_IMEM h (s.handPc h)) ≠ w then s
  else if (s.hand h).hold > 0 then (s.handBegin h).setHand h (fun x => { x with hold := x.hold - 1 })
  else if !legal (s.handBegin h) then (s.handBegin h).handIllegal h
  else
    match op (s.handBegin h) with
    | .wait s => (s.setHand h (fun x => { x with waitOn := true })).wr (F.HAND_STAT_waiting h) 1
    | .done s => s.handNext h (w % 4) none
    | .jump s pc => s.handNext h (w % 4) (some pc)

/-- The rows: operands are the instruction's fields as they stand in its word (R292). -/
def execJump (h : Fin 32) (cond : Fin 16) (addr : Fin 32) (z : Fin 4) (sel : Fin 4) (s : State) : Out :=
  .next (s.handTick h (cond * 512 + addr * 16 + z * 4 + sel) (fun _ => decide (cond.val ≤ 9 ∧ z.val = 0)) (handJump h cond addr))

def execWaitfor (h : Fin 32) (lvl : Bool) (src : Fin 4) (k : Fin 8) (z : Fin 32) (sel : Fin 4) (s : State) : Out :=
  .next (s.handTick h (0x2000 + (if lvl then 0x1000 else 0) + src * 1024 + k * 128 + z * 4 + sel)
    (fun _ => decide (src.val ≠ 3 ∧ z.val = 0 ∧ (src.val = 1 → lvl = true))) (handWait h lvl src k))

def execShift (h : Fin 32) (n1 : Fin 32) (dst src : Fin 4) (ien oen : Bool) (sel : Fin 4) (s : State) : Out :=
  .next (s.handTick h (0x4000 + n1 * 256 + dst * 64 + src * 16 + (if ien then 8 else 0) + (if oen then 4 else 0) + sel)
    (fun s => (!oen || decide (dst.val ≠ 0 ∨ s.rd (F.HAND_SHCFG_obase h) + n1 + 1 ≤ 8)) && (!ien || decide (src.val ≠ 0 ∨ s.rd (F.HAND_SHCFG_ibase h) + n1 + 1 ≤ 8))
      && (oen || decide (dst.val = 0)) && (ien || decide (src.val = 0)) && (oen || ien || decide (n1.val = 0)))
    (handShift h (n1 + 1) dst src ien oen))

def execTake (h : Fin 32) (nb ife : Bool) (z : Fin 256) (sel : Fin 4) (s : State) : Out :=
  .next (s.handTick h (0x6000 + (if nb then 0x800 else 0) + (if ife then 0x400 else 0) + z * 4 + sel) (fun _ => decide (z.val = 0)) (handTake h nb ife))

def execGive (h : Fin 32) (nb iff : Bool) (z : Fin 256) (sel : Fin 4) (s : State) : Out :=
  .next (s.handTick h (0x7000 + (if nb then 0x800 else 0) + (if iff then 0x400 else 0) + z * 4 + sel) (fun _ => decide (z.val = 0)) (handGive h nb iff))

def execDrive (h : Fin 32) (pat : Fin 256) (z : Fin 8) (sel : Fin 4) (s : State) : Out :=
  .next (s.handTick h (0x8000 + pat * 32 + z * 4 + sel) (fun _ => decide (z.val = 0)) (fun s => .done (s.slotsOut h (s.rd (F.HAND_DMASK_mask h)) pat)))

def execLdk (h : Fin 32) (dst : Fin 4) (imm : Fin 512) (sel : Fin 4) (s : State) : Out :=
  .next (s.handTick h (0xA000 + dst * 2048 + imm * 4 + sel) (fun _ => decide (dst.val ≠ 3))
    (fun s => .done (match dst.val with | 0 => s.wr (F.HAND_A h) imm | 1 => s.wr (F.HAND_B h) imm | _ => s.loadTsr h imm)))

def execMove (h : Fin 32) (dst src : Fin 8) (op : Fin 4) (z : Fin 8) (sel : Fin 4) (s : State) : Out :=
  .next (s.handTick h (0xC000 + dst * 1024 + src * 128 + op * 32 + z * 4 + sel)
    (fun _ => decide (z.val = 0 ∧ (dst.val ≤ 3 ∨ dst.val = 5))) (handMove h dst src op))

def execSignal (h : Fin 32) (act : Fin 4) (k : Fin 8) (z : Fin 64) (sel : Fin 4) (s : State) : Out :=
  .next (s.handTick h (0xE000 + act * 2048 + k * 256 + z * 4 + sel) (fun _ => decide (z.val = 0)) (handSignal h act k))

def execHandCtlEnClear (id : Ident) (h : Fin 32) (s : State) : Out := .next (s.guardHand id h (F.HAND_CTL_en h).addr (fun s => s.handOff h))
def execHandCtlEnSet (id : Ident) (h : Fin 32) (s : State) : Out := .next (s.guardHand id h (F.HAND_CTL_en h).addr (fun s => s.handOn h))
def execHandCtlRestart (id : Ident) (h : Fin 32) (s : State) : Out := .next (s.guardHand id h (F.HAND_CTL_en h).addr (fun s => s.handRestart h))
def execHandCtlFifoclr (id : Ident) (h : Fin 32) (s : State) : Out := .next (s.guardHand id h (F.HAND_CTL_en h).addr (fun s => s.handFifoClr h))
def execHandCtlCommit (id : Ident) (h : Fin 32) (s : State) : Out := .next (s.guardHand id h (F.HAND_CTL_en h).addr (fun s => s.handCommit h))
/-- Arm with the trigger number that HANDnn_CTL.trigsel takes in the same write (R297). -/
def execHandCtlArm (id : Ident) (h : Fin 32) (k : Fin 8) (s : State) : Out :=
  .next (s.guardHand id h (F.HAND_CTL_en h).addr (fun s => (s.wr (F.HAND_CTL_trigsel h) k).wr (F.HAND_CTL_arm h) 1))
def execHandCtlCntclr (id : Ident) (h : Fin 32) (s : State) : Out := .next (s.guardHand id h (F.HAND_CTL_en h).addr (fun s => s.handClr h))
def execHandTxfWrite (id : Ident) (h : Fin 32) (v : Word) (s : State) : Out :=
  .next (s.guardHand id h (F.HAND_TXF h).addr (fun s => (s.handPush h v).2))
def execHandRxfRead (_id : Ident) (h : Fin 32) (s : State) : Out := .next (s.guardUp (fun s => (s.handPop h).2.2))
def execHandImemWrite (id : Ident) (h i : Fin 32) (v : BitVec 16) (s : State) : Out :=
  .next (s.guardHand id h (F.HAND_IMEM h i).addr (fun s => s.handWriteMem h (F.HAND_IMEM h i) v.toNat))
/-- A write of A (0), B (1) or TSR (2). -/
def execHandABTsrWrite (id : Ident) (h : Fin 32) (r : Fin 3) (v : Word) (s : State) : Out :=
  let f := match r.val with | 0 => F.HAND_A h | 1 => F.HAND_B h | _ => F.HAND_TSR h
  .next (s.guardHand id h f.addr (fun s => s.handWriteMem h f v.toNat))

/-- A write of HANDnn_CTL as a whole word: what it clears first, then what it starts. -/
def State.writeHandCtl (s : State) (h : Nat) (v : Word) : State :=
  let b := fun (i : Nat) => bit v.toNat i
  let s := if b 0 then s else s.handOff h
  let s := if b 1 then s.handRestart h else s
  let s := if b 2 then s.handFifoClr h else s
  let s := if b 3 then s.handCommit h else s
  let s := if b 11 then s.handClr h else s
  let s := if b 0 then s.handOn h else s
  (s.wr (F.HAND_CTL_trigsel h) (getF v 8 3)).wr (F.HAND_CTL_arm h) (getF v 7 1)

end Sys2Proof.Machine
end

