-- ==== Sys2Proof/Machine/CanOps.lean ====
section
/-! DEFINITION. CAN controllers (chapter 12): records (R338, R339), the transmit queue (R340–R344), filters and the receive buffer (R345–R347), modes and
timing (R334–R337, R342), error states (R349, R350), and the channel FIFOs that carry their frames (R279). -/
namespace Sys2Proof.Machine
open Sys2Proof

def State.can (s : State) (n : Nat) : CanSt := s.cans.getD n CanSt.init
def State.setCan (s : State) (n : Nat) (f : CanSt → CanSt) : State := { s with cans := updAt s.cans n f }

/-- Mode in effect, and error state (R334, R349). -/
def State.canMode (s : State) (n : Nat) : Nat := s.rd (F.CAN_STAT_mode n)
def State.canErr (s : State) (n : Nat) : Nat := s.rd (F.CAN_STAT_errst n)

/-- Data bytes of a frame by its word 0 (R338). -/
def canBytes (w0 : Word) : Nat :=
  let d := getF w0 0 4
  if getF w0 28 1 = 1 then 0
  else if d ≤ 8 then d
  else if getF w0 30 1 = 0 then 8
  else [12, 16, 20, 24, 32, 48, 64].getD (d - 9) 64
def canDataWords (w0 : Word) : Nat := (canBytes w0 + 3) / 4

/-- Words of the transmit record that word 0 begins. -/
def txLen (w0 : Word) : Nat := 2 + canDataWords w0

/-- Is a transmit record malformed (R339)? -/
def State.canMalformed (s : State) (n : Nat) (r : List Word) : Bool :=
  let w0 := wAt r 0
  let w1 := wAt r 1
  decide (getF w0 27 1 ≠ 0 ∨ getF w0 24 2 ≠ 0 ∨ getF w0 4 12 ≠ 0 ∨ getF w1 29 3 ≠ 0 ∨ (getF w0 29 1 = 1 ∧ getF w0 30 1 = 0)
    ∨ (getF w0 28 1 = 1 ∧ getF w0 30 1 = 1) ∨ (getF w0 30 1 = 1 ∧ s.on (F.CAN_CFG_fden n) = false)
    ∨ (getF w0 31 1 = 0 ∧ getF w1 11 18 ≠ 0))

/-- The channel of its owner that a controller is bound to (R279). -/
def State.canChan (s : State) (n : Nat) : Option (Nat × Nat) :=
  match (s.can n).owner with
  | none => none
  | some e => ((List.range 8).find? (fun c => decide (s.rd (F.ENG_CHCFG_endpoint e c) = 1 ∧ s.rd (F.ENG_CHCFG_unit e c) = n))).map (fun c => (e, c))

/-- FIFOs of a channel, and what ENGnn_CHc_STAT shows of them. -/
def State.chTx (s : State) (e c : Nat) : List Word := (s.eng e).tx.getD c []
def State.chRx (s : State) (e c : Nat) : List Word := (s.eng e).rx.getD c []
def State.setTx (s : State) (e c : Nat) (l : List Word) : State :=
  (s.setEng e (fun x => { x with tx := updAt x.tx c (fun _ => l) })).wr (F.ENG_CHSTAT_txfree e c) (16 - l.length)
def State.setRx (s : State) (e c : Nat) (l : List Word) : State :=
  (s.setEng e (fun x => { x with rx := updAt x.rx c (fun _ => l) })).wr (F.ENG_CHSTAT_rxwords e c) l.length

/-- Take up to `n` words from the front of a list of records. -/
def takeWords (n : Nat) (rs : List (List Word)) : List Word × List (List Word) :=
  rs.foldl (fun (r : List Word × List (List Word)) l =>
    let room := n - r.1.length
    if r.2.isEmpty then (r.1 ++ l.take room, if (l.drop room).isEmpty then [] else [l.drop room]) else (r.1, r.2 ++ [l])) ([], [])

/-- Move received words into the owner's channel while it has room (R347). -/
def State.canFill (s : State) (n : Nat) : State :=
  match s.canChan n with
  | none => s
  | some (e, c) =>
    let l := s.chRx e c
    let r := takeWords (16 - l.length) (s.can n).rxb
    (s.setCan n (fun x => { x with rxb := r.2 })).setRx e c (l ++ r.1)

/-- Show the transmit status and the oldest event of a controller. -/
def State.showCan (s : State) (n : Nat) : State :=
  let x := s.can n
  let s := ((s.wr (F.CAN_TXSTAT_queued n) x.txq.length).wr (F.CAN_TXSTAT_active n) (if x.onBus.isSome then 1 else 0)).wr (F.CAN_TXSTAT_evcount n) x.evq.length
  s.each (List.range 4) (fun i s => s.setReg (F.CAN_TXEV n i).addr (wAt (x.evq.headD []) i))

/-- A transmit event (R344): of a record, with its outcome and the stamp of its last attempt. -/
def State.canEvent (s : State) (n : Nat) (r : List Word) (outcome sof : Nat) : State :=
  let w0 := setF (setF (wAt r 0) 24 2 1) 13 3 outcome
  let ev := [w0, wAt r 1, BitVec.ofNat 32 sof, BitVec.ofNat 32 (sof / 2 ^ 32)]
  if (s.can n).owner.isSome then (s.setCan n (fun x => { x with rxb := x.rxb ++ [ev] })).canFill n
  else if (s.can n).evq.length < 16 then (s.setCan n (fun x => { x with evq := x.evq ++ [ev] })).showCan n
  else (s.wr (F.CAN_TXSTAT_evovf n) 1).event (F.CAN_EVT_txevovf n)

/-- The head record leaves the queue. -/
def State.canPop (s : State) (n : Nat) (outcome : Nat) : State :=
  match (s.can n).txq with
  | [] => s
  | r :: t =>
    let sof := (s.can n).sof
    ((s.setCan n (fun x => { x with txq := t, onBus := none, sof := 0, late := false })).canEvent n r outcome sof).showCan n

/-- Flush the transmit queue with an outcome 4 event for each record (R334, R350). -/
def State.canFlush (s : State) (n : Nat) : State := s.each (s.can n).txq (fun _ s => s.canPop n 4)

/-- A whole record enters the queue, or is malformed (R339, R340); into a controller that is off, it is flushed at once. -/
def State.canEnqueue (s : State) (n : Nat) (r : List Word) : State :=
  if s.canMalformed n r then
    let s := s.inc (F.CAN_CNT_TXBAD n)
    match s.canChan n with
    | some (e, c) => s.wr (F.ENG_CHSTAT_err e c) 1
    | none => s
  else
    let s := (s.setCan n (fun x => { x with txq := x.txq ++ [r] })).showCan n
    if s.canMode n = 0 then s.canFlush n else s

/-- Words of the bound channel's FIFO go into the record being assembled, unless one would complete a record that a full queue cannot take (R340). -/
def State.canDrain (s : State) (n e c : Nat) : Nat → State
  | 0 => s
  | k + 1 =>
    match s.chTx e c with
    | [] => s
    | v :: t =>
      let l := (s.can n).txw ++ [v]
      if l.length < txLen (wAt l 0) then ((s.setCan n (fun x => { x with txw := l })).setTx e c t).canDrain n e c k
      else if (s.can n).txq.length ≥ 64 then s
      else (((s.setCan n (fun x => { x with txw := [] })).setTx e c t).canEnqueue n l).canDrain n e c k
def State.canTake (s : State) (n : Nat) : State :=
  match s.canChan n with
  | none => s
  | some (e, c) => s.canDrain n e c 16

/-- A gate message for port 0x80 + n (R340): its data is a transmit record. False where the message is dropped at the queue. -/
def State.canDeliver (s : State) (n : Nat) (data : List Byte) : Bool × State :=
  let r := bytesToWords data
  if (s.can n).owner.isSome || decide ((s.can n).txq.length ≥ 64) then (false, s)
  else if r.length < 2 ∨ r.length ≠ txLen (wAt r 0) then (true, s.inc (F.CAN_CNT_TXBAD n))
  else (true, s.canEnqueue n r)

/-- Cancel the first record with a tag (R343): 1 cancelled, 2 too late, 3 no such tag. -/
def State.canCancel (s : State) (n tag : Nat) : Nat × State :=
  let q := (s.can n).txq
  let has := fun (r : List Word) => decide (getF (wAt r 0) 16 8 = tag)
  let res := fun (k : Nat) (s : State) => (k, s.wr (F.CAN_TXSTAT_cres n) k)
  match q.find? has with
  | none => res 3 s
  | some r =>
    if has (q.headD []) && (s.can n).onBus.isSome then res 2 (s.setCan n (fun x => { x with late := true }))
    else
      let sof := if has (q.headD []) then (s.can n).sof else 0
      let q' := q.takeWhile (fun x => !has x) ++ (q.dropWhile (fun x => !has x)).tail
      let s := s.setCan n (fun x => { x with txq := q', sof := if has (q.headD []) then 0 else x.sof })
      res 1 (((s.canEvent n r 1 sof).canTake n).showCan n)

/-- The filter decision (R345): index of the filter that accepts, 0xFF for the default, or none where the frame is dropped. -/
def State.canFilter (s : State) (n : Nat) (ide : Bool) (ident : Nat) : Option Nat :=
  let hit := fun (i : Nat) => s.on (F.CAN_FLT0_en n i) && decide (s.on (F.CAN_FLT0_ide n i) = ide)
    && decide (((s.rd (F.CAN_FLT0_id n i)) ^^^ ident) &&& s.rd (F.CAN_FLT1_mask n i) = 0)
  match (List.range 128).find? hit with
  | some i => if s.on (F.CAN_FLT0_reject n i) then none else some i
  | none => if s.on (F.CAN_CFG_defrej n) then none else some 0xFF

/-- A received frame passes the filters into the receive buffer and on (R345, R347): header words, data words, start-of-frame stamp. -/
def State.canReceive (s : State) (n : Nat) (w0 w1 : Word) (data : List Word) (sof : Nat) : State :=
  match s.canFilter n (decide (getF w0 31 1 = 1)) (getF w1 0 29) with
  | none => s.inc (F.CAN_CNT_FILTERED n)
  | some i =>
    if (s.can n).rxb.length ≥ 32 then (s.inc (F.CAN_CNT_RXOVF n)).event (F.CAN_EVT_rxovf n)
    else
      let h := BitVec.ofNat 32 (getF w0 27 5 * 2 ^ 27 + i * 2 ^ 16 + getF w0 0 4)
      let k := canDataWords w0
      let rec_ := [h, w1 &&& 0x1FFFFFFF#32, BitVec.ofNat 32 sof, BitVec.ofNat 32 (sof / 2 ^ 32)] ++ (List.range k).map (fun j => wAt data j)
      let s := s.inc (F.CAN_CNT_RXOK n)
      if (s.can n).owner.isSome then (s.setCan n (fun x => { x with rxb := x.rxb ++ [rec_] })).canFill n
      else s.gateIn { srcPort := 0x80 + n, dstPort := 0, srcId := w1 &&& 0x1FFFFFFF#32, dstId := 0, req := false, ans := false, tx := 0, raw := sof,
                      data := wordsToBytes rec_, busy := false }

/-- The other controller of a pair (R342). -/
def partner (n : Nat) : Nat := if n % 2 = 0 then n + 1 else n - 1
def State.canPaired (s : State) (n : Nat) : Bool := s.on (F.CAN_CFG_paired n)

/-- Registers that CANnn_CTL.commit and CANnn_CTL.fltcommit make take effect (R337, R346). -/
def canRegs (n : Nat) : List Nat := [(F.CAN_CFG_mode n).addr, (F.CAN_NBT_brp n).addr, (F.CAN_DBT_brp n).addr, (F.CAN_TDC_en n).addr]
def canFlt (n : Nat) : List Nat := (List.range 256).map (fun i => (F.CAN_FLT0_en n 0).addr + 4 * i)
def State.showCanPend (s : State) (n : Nat) : State :=
  (s.wr (F.CAN_STAT_pending n) (if s.anyShadow (canRegs n) || (s.can n).commitReq then 1 else 0)).wr (F.CAN_STAT_fltpend n)
    (if s.shadow.any (fun e => decide ((F.CAN_FLT0_en n 0).addr ≤ e.1 ∧ e.1 < (F.CAN_FLT0_en n 0).addr + 1024)) then 1 else 0)

/-- Bit timing in its ranges (R335): nominal and data words. -/
def timingOk (nbt dbt : Word) : Bool :=
  decide (getF nbt 17 8 ≥ 1 ∧ getF nbt 25 7 ≤ getF nbt 10 7 ∧ getF dbt 0 4 ≤ getF dbt 8 4)

/-- Go off (R334, R342): queues flushed, nothing received. -/
def State.canOff (s : State) (n : Nat) : State :=
  let s := (s.canFlush n).setCan n (fun x => { x with rxb := [], txw := [], onBus := none, late := false })
  ((s.wr (F.CAN_STAT_mode n) 0).wr (F.CAN_STAT_integ n) 0).showCan n

/-- Commands that waited for a commit end. -/
def State.canCommitted (s : State) (n : Nat) : State :=
  let l := (s.can n).commitSeqs
  let s := s.setCan n (fun x => { x with commitReq := false, commitSeqs := [] })
  (s.each l (fun e s => s.fin e.1 0x0000 e.2)).showCanPend n

/-- A controller takes a mode: to off everything is flushed, from off it integrates first (R334). -/
def State.canEnter (s : State) (n m : Nat) (timing : Bool) : State :=
  if m = 0 then s.canOff n
  else
    let s := if timing || decide (s.canMode n = 0) then s.wr (F.CAN_STAT_integ n) 0 else s
    s.wr (F.CAN_STAT_mode n) m

/-- A commit takes effect at bus idle (R337, R342). -/
def State.canApply (s : State) (n : Nat) : State :=
  let odd := s.canPaired n && decide (n % 2 = 1)
  let m := s.rdS (F.CAN_CFG_mode n)
  if odd && decide (m ≠ 0) && decide (s.canMode (partner n) = 0) then s
  else
    let nb := s.reg (F.CAN_NBT_brp n).addr
    let db := s.reg (F.CAN_DBT_brp n).addr
    let s := s.commitRegs (canRegs n)
    let timing := !odd && (decide (nb ≠ s.reg (F.CAN_NBT_brp n).addr) || decide (db ≠ s.reg (F.CAN_DBT_brp n).addr))
    let s := s.canEnter n m timing
    let s := if s.canPaired n && !odd then
        (if m = 0 then s.canOff (partner n) else if timing then s.wr (F.CAN_STAT_integ (partner n)) 0 else s)
      else s
    s.canCommitted n

/-- Is a controller neither transmitting nor, as the event at hand says, receiving? -/
def State.canIdle (s : State) (n : Nat) : Bool := (s.can n).onBus.isNone && (!s.canPaired n || (s.can (partner n)).onBus.isNone)

/-- Ask for a commit (R337): refused where the values break R335; a controller that is off is idle already. -/
def State.canCommit (s : State) (n : Nat) (seq : Option (Nat × List Word)) : State :=
  let odd := s.canPaired n && decide (n % 2 = 1)
  if !odd && !timingOk (s.shown (F.CAN_NBT_brp n).addr) (s.shown (F.CAN_DBT_brp n).addr) then
    let s := s.event (F.CAN_EVT_cfgerr n)
    match seq with
    | some q => s.fin q.1 0x0103 [0]
    | none => s
  else
    let s := s.setCan n (fun x => { x with commitReq := true, commitSeqs := x.commitSeqs ++ seq.toList })
    if s.canMode n = 0 ∧ s.canIdle n = true then s.canApply n else s.showCanPend n

/-- Change of error state (R349). -/
def State.canErrState (s : State) (n st : Nat) : State :=
  if s.canErr n = st then s else ((s.wr (F.CAN_STAT_errst n) st).event (F.CAN_EVT_errst n)).sideBand 2 n st

/-- Start recovery from bus-off (R350). -/
def State.canRecover (s : State) (n : Nat) : State :=
  if s.canErr n = 2 then s.wr (F.CAN_STAT_recovering n) 1 else s.event (F.CAN_EVT_cfgerr n)

end Sys2Proof.Machine
end

