-- ==== Sys2Proof/Machine/Can.lean ====
section
/-! DEFINITION. The CAN commands (R353), the writes of the CAN registers, and what happens on the buses (chapter 12). -/
namespace Sys2Proof.Machine
open Sys2Proof

def State.canGuard (s : State) (id : Ident) (n : Nat) (f : State → State) : State := s.guardBs id (F.CAN_CTL_commit n).addr f
def execCanCtlCommit (id : Ident) (n : Fin 16) (s : State) : Out := .next (s.canGuard id n (fun s => s.canCommit n none))
def State.canFltCommit (s : State) (n : Nat) : State := (s.commitRegs (canFlt n)).showCanPend n
def execCanCtlFltcommit (id : Ident) (n : Fin 16) (s : State) : Out := .next (s.canGuard id n (fun s => s.canFltCommit n))
def execCanCtlRecover (id : Ident) (n : Fin 16) (s : State) : Out := .next (s.canGuard id n (fun s => s.canRecover n))
def State.canCntClr (s : State) (n : Nat) : State := s.clearRegs (F.CAN_CNT_RXOK n).addr 7
def execCanCtlCntclr (id : Ident) (n : Fin 16) (s : State) : Out := .next (s.canGuard id n (fun s => s.canCntClr n))

/-- The controller is bus idle: a commit that waits takes effect (R337). -/
def execCommitAtBusIdle (n : Fin 16) (s : State) : Out :=
  .next (s.guardUp (fun s => if (s.can n).commitReq && s.canIdle n then s.canApply n else s))

/-- Write of CANnn_TXW (R340): ignored while an engine owns the controller. -/
def State.canTxw (s : State) (n : Nat) (v : Word) : State :=
  if (s.can n).owner.isSome then s
  else
    let l := (s.can n).txw ++ [v]
    if l.length < txLen (wAt l 0) then s.setCan n (fun x => { x with txw := l })
    else
      let s := s.setCan n (fun x => { x with txw := [] })
      if (s.can n).txq.length ≥ 64 then s.wr (F.CAN_TXSTAT_ovr n) 1 else s.canEnqueue n l
def execCanTxw (_id : Ident) (n : Fin 16) (v : Word) (s : State) : Out := .next (s.guardUp (fun s => s.canTxw n v))
def execCanCancel (_id : Ident) (n : Fin 16) (tag : Fin 256) (s : State) : Out := .next (s.guardUp (fun s => (s.canCancel n tag).2))
/-- A read of word 3 of CANnn_TXEV removes the event (CANnn_TXEV). -/
def State.txevRead (s : State) (n : Nat) : State := (s.setCan n (fun x => { x with evq := x.evq.tail })).showCan n
def execCanTxevRead (_id : Ident) (n : Fin 16) (s : State) : Out := .next (s.guardUp (fun s => s.txevRead n))

/-- 11 consecutive recessive bits (R334). -/
def execBusIntegration (n : Fin 16) (s : State) : Out :=
  .next (s.guardUp (fun s => if s.canMode n ≠ 0 then s.wr (F.CAN_STAT_integ n) 1 else s))

/-- Candidate `k` of a detection is committed (R352). -/
def State.canTry (s : State) (n : Nat) (nb db : Word) : State :=
  let s := (s.setReg (F.CAN_NBT_brp n).addr (nb &&& cfgMask (F.CAN_NBT_brp n).addr)).setReg (F.CAN_DBT_brp n).addr (db &&& cfgMask (F.CAN_DBT_brp n).addr)
  (s.dropShadow [(F.CAN_NBT_brp n).addr, (F.CAN_DBT_brp n).addr]).wr (F.CAN_STAT_integ n) 0

/-- Errors by candidate, four bits each (R353). -/
def errWord (l : List Nat) (from_ : Nat) : Word := BitVec.ofNat 32 ((List.range 8).foldl (fun w i => w + min (l.getD (from_ + i) 0) 15 * 16 ^ i) 0)

/-- Eight good frames settle a candidate (R352). -/
def State.canSettle (s : State) (n : Nat) (d : CanDetect) : State :=
  let s := s.setCan n (fun x => { x with detect := none })
  let s := (s.wr (F.CAN_CFG_mode n) d.final).wr (F.CAN_STAT_mode n) d.final
  s.fin d.seq 0x0000 [BitVec.ofNat 32 d.cur, BitVec.ofNat 32 (d.good + d.brs * 16 + (if d.brs > 0 then 256 else 0)), errWord d.errs 0, errWord d.errs 8]

/-- The next candidate or pass, or the failure of the detection (R352). -/
def State.canNext (s : State) (n : Nat) (d : CanDetect) : State :=
  let wrap := decide (d.cur + 1 ≥ d.cands.length)
  let d := { d with cur := if wrap then 0 else d.cur + 1, pass := if wrap then d.pass + 1 else d.pass, good := 0, brs := 0, t0 := s.raw }
  if d.pass ≥ d.passes then
    let s := (s.setCan n (fun x => { x with detect := none })).canTry n d.prior.2.1 d.prior.2.2
    let s := s.wr (F.CAN_CFG_mode n) d.prior.1
    (if d.prior.1 = 0 then s.canOff n else s.wr (F.CAN_STAT_mode n) d.prior.1).fin d.seq 0x0202 []
  else
    let c := d.cands.getD d.cur (0, 0)
    (s.setCan n (fun x => { x with detect := some d })).canTry n c.1 c.2

/-- A good frame while a detection runs (R352). -/
def State.canGood (s : State) (n : Nat) (brs : Bool) : State :=
  match (s.can n).detect with
  | none => s
  | some d =>
    let d := { d with good := d.good + 1, brs := if brs then d.brs + 1 else d.brs }
    if d.good = 8 then s.canSettle n d else s.setCan n (fun x => { x with detect := some d })

/-- A valid frame is received (R345, R347, R348): its fields as in record words 0 and 1, its data, and how many ticks ago its start-of-frame was
sampled. -/
def State.canFrame (s : State) (n : Nat) (w0 w1 : Word) (data : List Word) (ago : Nat) : State :=
  let m := s.canMode n
  if s.on (F.CAN_STAT_integ n) && decide (m = 1 ∨ m = 2 ∨ m = 3 ∨ m = 5) then
    (s.canReceive n w0 w1 data (s.raw - ago)).canGood n (decide (getF w0 29 1 = 1))
  else s
def execCanFrameReceived (n : Fin 16) (w0 w1 : Word) (data : List Word) (ago : Nat) (s : State) : Out :=
  .next (s.guardUp (fun s => s.canFrame n w0 w1 data ago))

/-- May the head record contend (R334, R341, R350)? -/
def State.canMaySend (s : State) (n : Nat) : Bool :=
  decide (s.canMode n = 1 ∨ s.canMode n = 4) && s.on (F.CAN_STAT_integ n) && decide (s.canErr n ≠ 2) && !(s.can n).txq.isEmpty

/-- The attempt on the bus succeeds (R341): the frame is sent; a loopback receives it itself, and a pair's partner as its rxpartner says (R334, R342). -/
def State.canSent (s : State) (n t : Nat) : State :=
  let r := (s.can n).txq.headD []
  let s := ((s.inc (F.CAN_CNT_TXOK n)).setCan n (fun x => { x with onBus := none })).canPop n 0
  let s := if s.canMode n = 4 then s.canReceive n (wAt r 0) (wAt r 1) (r.drop 2) t else s
  let p := partner n
  let s := if s.canPaired n && decide (s.canMode n = 1) && s.on (F.CAN_CFG_rxpartner p) && decide (s.canMode p ≠ 0 ∧ s.canMode p ≠ 4) && s.on (F.CAN_STAT_integ p)
    then s.canReceive p (wAt r 0) (wAt r 1) (r.drop 2) t else s
  s.canTake n

/-- The attempt on the bus loses arbitration or meets an error (R341, R343). -/
def State.canLost (s : State) (n : Nat) : State :=
  let r := (s.can n).txq.headD []
  let late := (s.can n).late
  let s := s.setCan n (fun x => { x with onBus := none, late := false })
  (if late then (s.canPop n 3).canTake n else if getF (wAt r 0) 26 1 = 1 then (s.canPop n 2).canTake n else s).showCan n

/-- TRANSMIT_EVENT, the end of the head record's attempt on the bus: it succeeds, or it loses arbitration (R341, R344). -/
def State.canTx (s : State) (n : Nat) (won : Bool) : State :=
  match (s.can n).onBus with
  | none => s
  | some t => if won then s.canSent n t else s.canLost n
def execTransmitEvent (n : Fin 16) (won : Bool) (s : State) : Out := .next (s.guardUp (fun s => s.canTx n won))

/-- The controller drives the start-of-frame bit of the head record dominant (R343, R348); a frame whose measured delay exceeds 127 cycles is
counted (R336). -/
def State.canStart (s : State) (n delay : Nat) : State :=
  if (s.can n).onBus.isNone && s.canMaySend n then
    let s := s.when (s.on (F.CAN_TDC_en n) && decide (delay > 127) && decide (getF (wAt ((s.can n).txq.headD []) 0) 30 1 = 1)) (fun s => s.inc (F.CAN_CNT_TDCSAT n))
    (s.setCan n (fun x => { x with onBus := some s.raw, sof := s.raw })).showCan n
  else s
def execCanTransmitStart (n : Fin 16) (delay : Nat) (s : State) : Out := .next (s.guardUp (fun s => s.canStart n delay))

/-- Error counters as ISO 11898-1 leaves them; frozen in restricted mode, and while the controller is off or bus-off (R333, R334, R349). -/
def State.canCounts (s : State) (n tec rec_ : Nat) : State :=
  if s.canMode n = 0 ∨ s.canMode n = 3 ∨ s.canErr n = 2 then s else (s.wr (F.CAN_STAT_tec n) tec).wr (F.CAN_STAT_rec n) rec_

/-- A protocol error on the bus (R333, R341): the counters take the values that ISO 11898-1 gives, the head contends again, and a rate detection
rejects its candidate (R352). -/
def State.canBusError (s : State) (n tec rec_ : Nat) : State :=
  if s.canMode n = 0 then s
  else
    let s := (s.inc (F.CAN_CNT_ERRFRM n)).canCounts n tec rec_
    let s := if (s.can n).onBus.isSome then s.canLost n else s
    match (s.can n).detect with
    | some d => s.canNext n { d with errs := updAt d.errs d.cur (· + 1) }
    | none => s
def execCanBusError (n : Fin 16) (tec rec_ : Fin 256) (s : State) : Out := .next (s.guardUp (fun s => s.canBusError n tec rec_))

/-- The dwell of a detection's candidate runs out (R352). -/
def State.canDwell (s : State) (n : Nat) : State :=
  match (s.can n).detect with
  | some d => if s.raw ≥ d.t0 + d.dwell * tickMs then s.canNext n d else s
  | none => s
def execCanDetectDwell (n : Fin 16) (s : State) : Out := .next (s.guardUp (fun s => s.canDwell n))

/-- A change between error-active (0) and error-passive (1), with the counters that bring it (R333, R349). -/
def State.canErrors (s : State) (n st tec rec_ : Nat) : State :=
  if s.canMode n = 0 ∨ s.canMode n = 3 ∨ s.canErr n = 2 then s else (s.canCounts n tec rec_).canErrState n st
def execErrorStateChange (n : Fin 16) (st : Fin 2) (tec rec_ : Fin 256) (s : State) : Out := .next (s.guardUp (fun s => s.canErrors n st tec rec_))

/-- Bus-off (R350). -/
def State.canBusOff (s : State) (n : Nat) : State :=
  if s.canMode n = 0 ∨ s.canErr n = 2 then s
  else
    let s := if (s.can n).onBus.isSome then s.canLost n else s
    let s := ((s.canErrState n 2).event (F.CAN_EVT_busoff n)).wr (F.CAN_STAT_tec n) 255
    let s := if s.on (F.CAN_CFG_boflush n) then s.canFlush n else s
    if s.on (F.CAN_CFG_autorec n) then s.wr (F.CAN_STAT_recovering n) 1 else s
def execBusOff (n : Fin 16) (s : State) : Out := .next (s.guardUp (fun s => s.canBusOff n))

/-- 128 occurrences of 11 recessive bits end the recovery (R350). -/
def State.canRecovered (s : State) (n : Nat) : State :=
  if s.on (F.CAN_STAT_recovering n) then
    (((s.wr (F.CAN_STAT_recovering n) 0).wr (F.CAN_STAT_tec n) 0).wr (F.CAN_STAT_rec n) 0).canErrState n 0
  else s
def execBusOffRecoveryEnd (n : Fin 16) (s : State) : Out := .next (s.guardUp (fun s => s.canRecovered n))

/-- Does the controller belong to an engine in RUN (R353)? -/
def State.canEngRun (s : State) (n : Nat) : Bool := match (s.can n).owner with | some e => decide (s.rd (F.ENG_STATE_state e) = 2) | none => false

/-- CAN.MODE (R353): the mode and the configuration are committed together; the command ends when the commit has taken effect. -/
def opCanMode (c : CmdRec) (s : State) : State :=
  let n := c.f 0 3 0
  let m := c.f 0 10 8
  if m > 4 then s.badEnc c
  else if s.canEngRun n then s.fail c 0x0200 []
  else
    let r := if c.f 0 16 16 = 1 then s.canCancel n (c.f 2 23 16) else (0, s)
    let s := r.2
    let a := (F.CAN_CFG_mode n).addr
    let v := setF (c.pw 1) 0 3 m
    let rw := 0x00002E00#32
    let s := s.setReg a ((s.reg a &&& ~~~ rw) ||| (v &&& rw))
    (s.shadowCfg a v).canCommit n (some (c.seq, [BitVec.ofNat 32 r.1]))

/-- CAN.TIMING (R335, R353). -/
def opCanTiming (c : CmdRec) (s : State) : State :=
  let n := c.f 0 3 0
  if s.canEngRun n then s.fail c 0x0200 []
  else if !timingOk (c.pw 1) (c.pw 2) then s.badParam c (if getF (c.pw 1) 17 8 = 0 ∨ getF (c.pw 1) 25 7 > getF (c.pw 1) 10 7 then 1 else 2)
  else (((s.shadowCfg (F.CAN_NBT_brp n).addr (c.pw 1)).shadowCfg (F.CAN_DBT_brp n).addr (c.pw 2)).shadowCfg (F.CAN_TDC_en n).addr (c.pw 3)).canCommit n
    (some (c.seq, []))

/-- CAN.DETECT (R352, R353); while it runs, the command waits. -/
def opCanDetect (c : CmdRec) (s : State) : State :=
  let n := c.f 0 3 0
  match (s.can n).detect with
  | some d =>
    if d.seq ≠ c.seq then s.fail c 0x0200 [] else s.again c
  | none =>
    let k := c.f 0 11 8 + 1
    let cands := (List.range k).map (fun i => (c.pw (2 + 2 * i), c.pw (3 + 2 * i)))
    if s.canEngRun n || decide (s.canMode n ≠ 0 ∧ s.canMode n ≠ 2) then s.fail c 0x0200 []
    else if c.p 1 = 0 ∨ c.p 1 > 60000 then s.badParam c 1
    else match (List.range k).find? (fun i => !timingOk (cands.getD i (0, 0)).1 (cands.getD i (0, 0)).2) with
      | some i => s.badParam c (2 + 2 * i)
      | none =>
        let prior := (s.canMode n, s.reg (F.CAN_NBT_brp n).addr, s.reg (F.CAN_DBT_brp n).addr)
        let d : CanDetect := { seq := c.seq, cands := cands, cur := 0, pass := 0, passes := c.f 0 13 12 + 1, good := 0, brs := 0,
                               errs := List.replicate 16 0, dwell := c.p 1, t0 := s.raw, final := if c.f 0 16 16 = 1 then 1 else 2, prior := prior }
        let s := (s.setCan n (fun x => { x with detect := some d })).canTry n (cands.getD 0 (0, 0)).1 (cands.getD 0 (0, 0)).2
        ((s.wr (F.CAN_CFG_mode n) 5).wr (F.CAN_STAT_mode n) 5).again c

/-- CAN.FILTER (R346, R353). -/
def opCanFilter (c : CmdRec) (s : State) : State :=
  let n := c.f 0 3 0
  let i := c.f 0 22 16
  let k := c.f 1 7 0
  if s.canEngRun n then s.fail c 0x0200 []
  else if k = 0 ∨ k > 29 ∨ i + k > 128 then s.badParam c (if i + k > 128 ∧ 1 ≤ k ∧ k ≤ 29 then 0 else 1)
  else (s.each (List.range k) (fun j s =>
    (s.putCfg (F.CAN_FLT0_en n (i + j)).addr (c.pw (2 + 2 * j))).putCfg (F.CAN_FLT1_mask n (i + j)).addr (c.pw (3 + 2 * j)))).canFltCommit n |>.done c []

/-- CAN.PAIR (R342, R353). -/
def opCanPair (c : CmdRec) (s : State) : State :=
  let n := 2 * c.f 0 2 0
  if s.canEngRun n || s.canEngRun (n + 1) || decide (s.canMode n ≠ 0 ∨ s.canMode (n + 1) ≠ 0) then s.fail c 0x0200 []
  else ((s.wr (F.CAN_CFG_paired n) (c.f 0 8 8)).wr (F.CAN_CFG_paired (n + 1)) (c.f 0 8 8)).done c []

def opCanRecover (c : CmdRec) (s : State) : State :=
  let n := c.f 0 3 0
  if s.canErr n = 2 then (s.canRecover n).done c [] else s.fail c 0x0200 []

def opCanStatus (c : CmdRec) (s : State) : State :=
  let n := c.f 0 3 0
  s.done c [s.reg (F.CAN_STAT_mode n).addr, s.reg (F.CAN_TXSTAT_queued n).addr, s.reg (F.CAN_CNT_RXOK n).addr, s.reg (F.CAN_CNT_TXOK n).addr]

def execCanMode (seq : Nat) (_env : Env) (s : State) : Out := .next (s.runCmd 0x0900 seq opCanMode)
def execCanTiming (seq : Nat) (_env : Env) (s : State) : Out := .next (s.runCmd 0x0901 seq opCanTiming)
def execCanDetect (seq : Nat) (_env : Env) (s : State) : Out := .next (s.runCmd 0x0902 seq opCanDetect)
def execCanFilter (seq : Nat) (_env : Env) (s : State) : Out := .next (s.runCmd 0x0903 seq opCanFilter)
def execCanPair (seq : Nat) (_env : Env) (s : State) : Out := .next (s.runCmd 0x0904 seq opCanPair)
def execCanRecover (seq : Nat) (_env : Env) (s : State) : Out := .next (s.runCmd 0x0905 seq opCanRecover)
def execCanStatus (seq : Nat) (_env : Env) (s : State) : Out := .next (s.runCmd 0x0906 seq opCanStatus)

end Sys2Proof.Machine
end

