-- ==== Sys2Proof/Machine/Marshal.lean ====
section
/-! DEFINITION. The marshal (chapter 05): its time (R126, R127), what it lets through (R128–R130, R134), warnings (R133), desynchronisation (R135)
and the MRSH commands (R140). -/
namespace Sys2Proof.Machine
open Sys2Proof

/-- The marshal's mode: at rate 2 always monitor-only (R137). -/
def State.monitorOnly (s : State) : Bool := s.rd F.RING_CFG_rate = 2 || s.on F.MRSH_MODE_mode

/-- Division rounded to the nearest, halves up. -/
def roundDiv (a b : Int) : Int := (2 * a + b) / (2 * b)

/-- Where a schedule offset, in thousandths of 78.125 ps, lies in marshal time, in thousandths (R127). -/
def State.mPlace (s : State) (o : Int) : Int := s.mrsh.cur * 1000 + roundDiv (o * s.mrsh.kNum) s.mrsh.kDen

/-- The guard band in thousandths of 78.125 ps. -/
def State.guard (s : State) : Int := s.rd F.MRSH_CFG_guard * s.quantum

/-- The enable interval of window n of direction d (R129). -/
def State.enableInt (s : State) (d n : Nat) : Int × Int :=
  let ws : Int := s.rd (F.RING_WIN0_start d n) * 1000
  (s.mPlace (ws - s.guard), s.mPlace (ws + s.rd (F.RING_WIN1_quanta d n) * s.quantum + s.guard))

/-- A departure at raw time now with a subtick, in thousandths of 78.125 ps. -/
def State.stampNow (s : State) (subtick : Nat) : Int := ((s.raw : Int) * 32 + subtick) * 1000

/-- May an open frame of `n` blocks start now at egress d (R130)? -/
def State.openEnable (s : State) (d n subtick : Nat) : Bool :=
  let t := s.stampNow subtick
  let e := t + n * s.blockTime
  (s.busy d).all (fun i => decide (e ≤ s.mPlace (i.1 - s.guard)) || decide (s.mPlace (i.2 + s.guard) ≤ t))
    && [0, 1].all (fun d => (List.range 8).all (fun n =>
      !s.winActive d n || decide (e ≤ (s.enableInt d n).1) || decide ((s.enableInt d n).2 ≤ t)))

def State.mrshState (s : State) : Nat := s.rd F.MRSH_STATE_state

/-- Does the marshal run its schedule checks (R128)? -/
def State.mrshLocked (s : State) : Bool := decide (s.mrshState = 2 ∨ s.mrshState = 3)

/-- The last cuts of the cut window, the current lap included (R135). -/
def State.windowCuts (s : State) : Nat := (s.mrsh.cuts.take (s.rd F.MRSH_CFG_cutwin)).foldl (· + ·) 0

/-- A cut: counted in the lap at hand; in monitor-only mode it would have been one (R134–R136). -/
def State.cutNow (s : State) : State :=
  if s.monitorOnly then (s.inc F.MRSH_CNT_WOULDCUT).event F.MRSH_EVT_wouldcut
  else
    let s := s.setMrsh (fun m => { m with cuts := updAt m.cuts 0 (· + 1) })
    ((s.inc F.MRSH_CNT_CUT).event F.MRSH_EVT_cut).wr F.MRSH_STATE_cuts (min 255 s.windowCuts)

/-- What the marshal says to an insertion: pass, blocked by its state, or cut. -/
inductive Gateway where
  | pass
  | blocked
  | cut
  deriving DecidableEq, Repr

/-- The verdict on a scheduled frame of window n of direction d with `b` blocks that starts now (R128, R129, R134). -/
def State.schedVerdict (s : State) (d n b subtick : Nat) : Gateway :=
  if s.monitorOnly && !s.mrshLocked then .pass
  else if !s.mrshLocked then .blocked
  else
    let i := s.enableInt d n
    let t := s.stampNow subtick
    if i.1 ≤ t ∧ t + b * s.blockTime ≤ i.2 then .pass else .cut

/-- The verdict on an open frame (R128, R130, R134); `join` marks a join frame of a station without an address. -/
def State.openVerdict (s : State) (d b subtick : Nat) (join : Bool) : Gateway :=
  if s.mrshLocked then (if s.openEnable d b subtick then .pass else .cut)
  else if join && s.mrshState ≠ 5 then (if s.rd F.RING_STATE_join = 1 ∨ s.rd F.RING_STATE_join = 2 then .pass else .blocked)
  else if s.monitorOnly then .pass
  else .blocked

/-- Does the marshal let start claims out (R128)? -/
def State.claimsPass (s : State) : Bool := decide (s.mrshState < 2) && decide (s.role = rCLAIM)

/-- Record the self offset of an inserted scheduled frame (R132). -/
def State.selfOffset (s : State) (d n subtick : Nat) : State :=
  let o := roundDiv (s.stampNow subtick - s.mPlace (s.rd (F.RING_WIN0_start d n) * 1000)) 1000
  let s := s.wrI (F.MRSH_SELF d) (satI 32 o)
  if o.natAbs > s.rd (F.MRSH_SELFMAX d) then s.wr (F.MRSH_SELFMAX d) (min o.natAbs 0x7FFFFFFF) else s

/-- Take a marshal reference for the lap: replaces one already taken in it (R126, R127). -/
def State.takeRef (s : State) (m : Int) : State :=
  let x := s.mrsh
  let old := if x.took then x.refs.drop 1 else x.refs
  let len : Int := s.rd F.RING_LAPCFG_len * 32
  let k := match old with
    | a :: b :: _ => (a - b, len)
    | _ => (1, 1)
  let nxt := match old with
    | a :: _ => m + (m - a)
    | [] => m + len
  let held := if x.took then x.held else x.held + 1
  let s := s.setMrsh (fun y => { y with refs := (m :: old).take 4, took := true, held := held, missed := 0, next := nxt, kNum := k.1, kDen := k.2 })
  if s.mrshState = 1 ∧ 4 ≤ held then s.wr F.MRSH_STATE_state 2
  else if s.mrshState = 3 then s.wr F.MRSH_STATE_state 2
  else if s.mrshState = 4 ∧ 4 ≤ held ∧ s.rd F.RING_STATE_join = 5 then
    ((s.wr F.MRSH_STATE_state 2).setMrsh (fun y => { y with cuts := [0] })).wr F.MRSH_STATE_cuts 0
  else s

/-- The marshal reference of a follower from the chosen copy: ingress stamp, and correction plus fibre delay (R126). -/
def State.refOf (s : State) (stamp cf : Int) : Int :=
  let old := if s.mrsh.took then s.mrsh.refs.drop 1 else s.mrsh.refs
  match old with
  | a :: b :: _ => stamp - roundDiv (cf * (s.rd F.RING_LAPCFG_len * 32)) (5120 * (a - b))
  | _ => stamp - roundDiv cf 5120

/-- MARSHAL_MISSED_LAP: no chosen copy by the predicted boundary (R127). -/
def State.mrshMiss (s : State) : State :=
  let x := s.mrsh
  let s := s.inc F.MRSH_CNT_LAPMISS
  let p := x.cur
  let nxt := match x.refs with
    | a :: _ => p + (p - a)
    | [] => p
  let missed := x.missed + 1
  let s := s.setMrsh (fun y => { y with refs := (p :: y.refs).take 4, held := 0, missed := missed, next := nxt, took := true })
  if s.mrshState = 2 then s.wr F.MRSH_STATE_state 3
  else if s.mrshState = 3 ∧ 8 ≤ missed then (s.wr F.MRSH_STATE_state 1).event F.MRSH_EVT_unlock
  else s

def execMarshalMissedLap (s : State) : Out :=
  .next (if s.alive ∧ s.mrshState ≠ 0 ∧ s.mrsh.took = false ∧ s.isStarter = false then s.mrshMiss else s)

/-- A new lap begins for the marshal: the prediction becomes current (R127), and a lap of cuts opens (R135). -/
def State.mrshBoundary (s : State) : State :=
  let s := s.wr F.MRSH_STATE_cuts (min 255 s.windowCuts)
  s.setMrsh (fun m => { m with cur := m.next, took := false, seen := [], cuts := (0 :: m.cuts).take 255 })

/-- The configuration waiting for the boundary takes effect (R140). -/
def mrshRegs : List Nat := 0x040B0004 :: (List.range 16).flatMap (fun n => [0x040B0100 + n * 16, 0x040B0104 + n * 16])
def State.mrshApply (s : State) : State :=
  let s := if s.mrsh.commitReq then
      ((s.commitRegs mrshRegs).wr F.MRSH_STATE_pending 0).setMrsh (fun m => { m with commitReq := false })
    else s
  match s.mrsh.modeReq with
  | none => s
  | some v => ((s.wr F.MRSH_MODE_mode v).wr F.MRSH_STATE_mode (if s.rd F.RING_CFG_rate = 2 then 2 else v)).setMrsh (fun m => { m with modeReq := none })

/-- The cut limit is reached at the boundary just passed: cuts of the laps ended (R135). -/
def State.cutLimit (s : State) : Bool :=
  decide (((s.mrsh.cuts.drop 1).take (s.rd F.MRSH_CFG_cutwin)).foldl (· + ·) 0 ≥ s.rd F.MRSH_CFG_cutlim)

/-- DESYNCHRONISE (R127, R135): the lanes go idle; the third desynchronisation within 65,536 laps leads to OUT. -/
def State.desync (s : State) : State :=
  let lap := s.lap
  let ds := (lap :: s.mrsh.desyncs).take 3
  let out := ds.length = 3 && decide (lap - ds.getD 2 0 < 65536)
  let idle := max (2 * s.rd F.RING_LAPCFG_len) 8000
  let s := ((s.inc F.MRSH_CNT_DESYNC).event F.MRSH_EVT_desync).wr F.MRSH_STATE_state 4
  let s := s.setMrsh (fun m => { m with desyncs := ds, idleEnd := if out then none else some (s.raw + idle), held := 0, refs := [] })
  let s := (s.emit (.ringMark 0 1 1)).emit (.ringMark 1 1 1)
  let s := (s.setJoin 0).setRing (fun r => { r with mute := true })
  if out then ((s.wr F.MRSH_STATE_state 5).event F.MRSH_EVT_out) else s

def execDesynchronise (s : State) : Out :=
  .next (if s.alive = true ∧ s.monitorOnly = false ∧ s.mrshLocked = true ∧ s.cutLimit = true then s.desync else s)

/-- DESYNC_IDLE_END: idle blocks resume and the station enters LISTEN (R135). -/
def State.listenAgain (s : State) : State :=
  let s := (s.emit (.ringMark 0 2 1)).emit (.ringMark 1 2 1)
  let s := s.setMrsh (fun m => { m with idleEnd := none })
  (s.setJoin 1).setRing (fun r => { r with good := [0, 0], silentLaps := 0, busyAns := 0, silent := 0, mute := false })

def execDesyncIdleEnd (s : State) : Out :=
  .next (match s.mrsh.idleEnd with
    | some t => if s.alive ∧ s.mrshState = 4 ∧ t ≤ s.raw then s.listenAgain else s
    | none => s)

/-- Leave OUT for DESYNC and rejoin from LISTEN (R127). -/
def State.leaveOut (s : State) : State := if s.mrshState = 5 then (s.wr F.MRSH_STATE_state 4).listenAgain else s

/-- MRSH_CTL.commit and .rejoin written (R127, R140). -/
def State.mrshCommit (s : State) : State := s.setMrsh (fun m => { m with commitReq := true })

/-- Write a warning-log entry (R133). -/
def State.showWlog (s : State) : State :=
  let s := s.wr F.MRSH_WLOGSTAT_count s.mrsh.wlog.length
  match s.mrsh.wlog with
  | [] => (s.wr F.MRSH_WLOG0 0).wr F.MRSH_WLOG1 0
  | (a, b) :: _ => (s.wr F.MRSH_WLOG0 a.toNat).wr F.MRSH_WLOG1 b.toNat

def State.warn (s : State) (d station : Nat) (o : Int) : State :=
  let s := (s.event F.MRSH_EVT_edgewarn).inc F.MRSH_CNT_WARN
  if s.mrsh.wlog.length < 16 then
    let e : Word × Word := (BitVec.ofNat 32 (2 ^ 31 + d * 2 ^ 30 + station * 2 ^ 16 + s.lap % 2 ^ 16), BitVec.ofInt 32 o)
    (s.setMrsh (fun m => { m with wlog := m.wlog ++ [e] })).showWlog
  else s.wr F.MRSH_WLOGSTAT_ovf 1

/-- A read of warning-log word +0x04 removes the head (R133). -/
def State.popWlog (s : State) : State := (s.setMrsh (fun m => { m with wlog := m.wlog.drop 1 })).showWlog

/-- The arrival offset of a watched station's first process frame of the lap (R133). -/
def State.watchOne (s : State) (d station subtick n : Nat) : State :=
  if s.on (F.MRSH_WATCH0_en n) && s.rd (F.MRSH_WATCH0_dir n) = d && s.rd (F.MRSH_WATCH0_station n) = station && !s.mrsh.seen.contains n then
    let o := roundDiv (s.stampNow subtick - s.mPlace (s.rd (F.MRSH_WATCH1_expect n) * 1000)) 1000
    let s := (s.setMrsh (fun m => { m with seen := m.seen ++ [n] })).wrI (F.MRSH_WATCH2_last n) (satI 32 o)
    let s := if o.natAbs > s.rd (F.MRSH_WATCH3_max n) then s.wr (F.MRSH_WATCH3_max n) (min o.natAbs 0xFFFFFFFF) else s
    if (o.natAbs : Int) * 2000 > s.guard then s.warn d station o else s
  else s

/-- Watch entries against a process frame that arrives in direction d (R133). -/
def State.watch (s : State) (d station subtick : Nat) : State :=
  if s.mrshState = 0 then s else s.each (List.range 16) (fun n s => s.watchOne d station subtick n)

/-- The first configuration word of MRSH.CONFIG that is out of range (R140). -/
def mrshBadWord (c : CmdRec) : Option Nat :=
  if !legalWord 0x040B0004 (c.pw 0) then some 0
  else (List.range 16).findSome? (fun n =>
    let st := c.f (1 + 2 * n) 11 0
    if c.f (1 + 2 * n) 31 31 = 1 ∧ (st = 0 ∨ st = 4095) then some (1 + 2 * n) else none)

def opMrshConfig (c : CmdRec) (s : State) : State :=
  match mrshBadWord c with
  | some i => s.badParam c i
  | none =>
    let s := s.shadowCfg 0x040B0004 (c.pw 0)
    let s := s.each (List.range 16) (fun n s =>
      (s.shadowCfg (0x040B0100 + n * 16) (c.pw (1 + 2 * n))).shadowCfg (0x040B0104 + n * 16) (c.pw (2 + 2 * n)))
    (s.mrshCommit.wr F.MRSH_STATE_pending 1).done c []

def opMrshMode (c : CmdRec) (s : State) : State :=
  if c.f 0 1 0 ≥ 2 then s.badEnc c
  else ((s.putCfg 0x040B0030 (c.pw 1)).setMrsh (fun m => { m with modeReq := some (c.f 0 1 0) })).done c []

def opMrshStatus (c : CmdRec) (s : State) : State :=
  s.done c [s.reg 0x040B0000, s.reg (F.MRSH_SELF 0).addr, s.reg (F.MRSH_SELF 1).addr, s.reg F.MRSH_CNT_CUT.addr]

def opMrshClear (c : CmdRec) (s : State) : State :=
  let s := s.when (c.f 0 0 0 = 1) (fun s => s.clearRegs 0x040B0080 5)
  let s := s.when (c.f 0 1 1 = 1) (fun s =>
    (s.clearRegs 0x040B0028 2).each (List.range 16) (fun n s => s.wr (F.MRSH_WATCH3_max n) 0))
  let s := s.when (c.f 0 2 2 = 1) (fun s => (s.setMrsh (fun m => { m with wlog := [] })).showWlog)
  let s := s.when (c.f 0 3 3 = 1) State.leaveOut
  s.done c []

def execMrshConfig (seq : Nat) (s : State) : Out := .next (s.runCmd 0x0400 seq opMrshConfig)
def execMrshMode (seq : Nat) (s : State) : Out := .next (s.runCmd 0x0401 seq opMrshMode)
def execMrshStatus (seq : Nat) (s : State) : Out := .next (s.runCmd 0x0402 seq opMrshStatus)
def execMrshClear (seq : Nat) (s : State) : Out := .next (s.runCmd 0x0403 seq opMrshClear)

end Sys2Proof.Machine
end

