-- ==== Sys2Proof/Machine/Ring.lean ====
section
/-! DEFINITION. The RING commands (R90), the schedule and its commits (R82, R88–R90), windows and insertion (R72–R77, R134), process frames
(R20, R78, R79) and joining and leaving (R84–R88). -/
namespace Sys2Proof.Machine
open Sys2Proof

/-- Registers committed with the schedule (R90, RING_HEALCFG.odir). -/
def schedRegs : List Nat :=
  [0x040A0020, 0x040A0024, 0x040A0700] ++ (List.range 16).flatMap (fun n => (List.range 4).map (fun i => 0x040A0400 + n * 16 + i * 4))
    ++ (List.range 16).map (fun i => 0x040A0500 + i * 4)

/-- Registers of the split points (R82). -/
def splitRegs : List Nat := (List.range 16).flatMap (fun n => [0x040A0600 + n * 16, 0x040A0604 + n * 16, 0x040A0608 + n * 16])

/-- RING_STATE.pending: RING_CFG or split points written and not committed. -/
def State.showRingPending (s : State) : State := s.wr F.RING_STATE_pending (if s.anyShadow (0x040A0010 :: splitRegs) then 1 else 0)

/-- The tier MAC that RING_CFG would name has room for tier-link frames (R359). -/
def State.tierOk (s : State) (v : Word) : Bool := getF v 8 2 ≠ 1 || decide (2090 ≤ s.rd (F.MAC_CFG_maxlen (getF v 12 2)))

/-- RING_CFG takes effect. At rate 2 the marshal is monitor-only (R137). -/
def State.ringCfgNew (s : State) : State :=
  s.wr F.MRSH_STATE_mode (if s.rd F.RING_CFG_rate = 2 then 2 else s.rd F.MRSH_MODE_mode)

/-- RING_CTL.commit: RING_CFG, refused unless OFFLINE or with a tier MAC that is too short (R359). -/
def State.ringCommit (s : State) : State :=
  if s.rd F.RING_STATE_join ≠ 0 ∨ s.tierOk (s.shown 0x040A0010) = false then s.event F.RING_EVT_cfgerr
  else ((s.commitReg 0x040A0010).ringCfgNew).showRingPending

def execRingCtlCommit (id : Ident) (s : State) : Out := .next (s.guardBs id 0x040A0014 State.ringCommit)

/-- RING_CTL.splitcommit: the split points take effect at the next boundary (R82). -/
def State.splitCommit (s : State) : State := s.setRing (fun r => { r with splitReq := true })
def execRingCtlSplitcommit (id : Ident) (s : State) : Out := .next (s.guardBs id 0x040A0014 State.splitCommit)

/-- RING_CTL.cntclr: all RING_CNT registers (R91, R169). -/
def State.ringCntClr (s : State) : State := s.clearRegs 0x040A0080 27
def execRingCtlCntclr (id : Ident) (s : State) : Out := .next (s.guardBs id 0x040A0014 State.ringCntClr)

/-- RING_PUBCOMMIT: publish regions before their windows start less one quantum (R72). -/
def State.pubWindow (s : State) (i : Nat) : State :=
  let d := i / 8
  let n := i % 8
  if s.lapPos < (s.rd (F.RING_WIN0_start d n) : Int) * 1000 - s.quantum then
    s.setRing (fun r => { r with published := r.published ||| 2 ^ i })
  else s
def State.pubCommit (s : State) (v : Nat) : State := s.each (ones 16 v) (fun i s => s.pubWindow i)
def execRingPubcommit (v : Word) (s : State) : Out := .next (s.guardUp (fun s => s.pubCommit v.toNat))

def opRingConfig (c : CmdRec) (s : State) : State :=
  if !legalWord 0x040A0010 (c.pw 0) ∨ c.f 0 1 0 = 3 then s.badEnc c
  else if s.rd F.RING_STATE_join ≠ 0 then s.fail c 0x0200 []
  else if s.tierOk (c.pw 0) = false then (s.event F.RING_EVT_cfgerr).fail c 0x0200 []
  else (((s.putCfg 0x040A0010 (c.pw 0)).ringCfgNew).showRingPending).done c []

/-- The address of image word `i` of a schedule image (R90). -/
def imageAddr (i : Nat) : Nat :=
  if i = 1 then 0x040A0020
  else if i = 2 then 0x040A0024
  else if i < 67 then 0x040A0400 + (i - 3) * 4
  else 0x040A0500 + (i - 67) * 4

/-- Bits of an image word that are fields. -/
def imageMask (i : Nat) : Word :=
  if i = 0 then 0xFFFF#32
  else if i = 1 then 0x03FFFFFF#32
  else if i = 2 then 0xFFF#32
  else if i < 67 then (match (i - 3) % 4 with | 0 => 0xFFFFFFFF#32 | 1 => 0xFFFFFFFF#32 | 2 => 0x3FFFF#32 | _ => 0x7F73#32)
  else 0xFFFFFFFF#32

/-- Is word `i` of an active window entry out of its range or against R66? -/
def winWordBad (ws : List Word) (i : Nat) : Bool :=
  let b := i - (i - 3) % 4
  let w1 := wAt ws (b + 1)
  let off := getF (wAt ws (b + 2)) 0 18
  let w3 := wAt ws (b + 3)
  let bytes := getF w1 16 16
  if getF w3 0 1 = 0 then false
  else match (i - 3) % 4 with
    | 1 => decide (bytes < 4 ∨ bytes > 2048 ∨ bytes % 4 ≠ 0 ∨ getF w1 0 16 = 0)
    | 2 => decide (off % 4 ≠ 0 ∨ off + bytes > 0x40000)
    | 3 => decide (getF w3 8 7 ≥ 2 ^ getF w3 4 3)
    | _ => false

/-- Is an image word at fault (R90)? -/
def imageWordBad (ws : List Word) (i : Nat) : Bool :=
  let w := wAt ws i
  decide (w &&& ~~~ imageMask i ≠ 0)
    || (i = 1 && decide (getF w 0 26 < 2000 ∨ getF w 0 26 > 40000000))
    || (decide (3 ≤ i ∧ i < 67) && winWordBad ws i)

def imageBad (ws : List Word) : Option Nat := (List.range 83).find? (fun i => imageWordBad ws i)

/-- Load a checked schedule image as the shadow generation (R90). -/
def State.loadImage (s : State) (ws : List Word) : State :=
  let s := s.each ((List.range 82).map (· + 1)) (fun i s => s.setShadow (imageAddr i) (wAt ws i))
  s.wr F.RING_GEN_shadow (nAt ws 0)

def opRingSchedule (env : Env) (c : CmdRec) (s : State) : State :=
  if !s.ring.commit.isEmpty then s.fail c 0x0200 []
  else if c.f 2 23 0 ≠ 332 then s.fail c 0x0105 []
  else s.withBuf c env 0 (fun bs s =>
    let ws := bytesToWords bs
    match imageBad ws with
    | some i => s.fail c 0x0103 [BitVec.ofNat 32 i]
    | none => (s.loadImage ws).done c [BitVec.ofNat 32 (nAt ws 0)])

/-- Send a join-type frame (R85, R86). -/
def joinWords (sub reason gen : Nat) (lo hi : Word) (addr ring lap : Nat) : List Word :=
  [BitVec.ofNat 32 (sub * 2 ^ 24 + reason * 2 ^ 16 + gen), lo, hi, BitVec.ofNat 32 (addr * 2 ^ 16 + ring), BitVec.ofNat 32 lap,
   BitVec.ofNat 32 (lap / 2 ^ 32)]
def State.sendJoin (s : State) (dring dstation : Nat) (ws : List Word) : State := s.sendFrame 8 dring dstation 0 (wordsToBytes ws) false

/-- Take on a commit of generation g at lap L (R88, R89). -/
def State.addCommit (s : State) (gen lap : Nat) (wide : Bool) (seq : Option Nat) : State :=
  s.setRing (fun r => { r with commit := r.commit ++ [⟨gen, lap, wide, seq⟩] })

/-- RING.COMMIT (R90). A ring-wide one reaches the other stations as a close notice that names no station (notes/assumptions/15.md). -/
def opRingCommit (c : CmdRec) (s : State) : State :=
  let gen := c.f 0 15 0
  let wide := c.f 0 16 16 = 1
  let lead := s.rd F.RING_JOINCFG_lead
  let l0 := c.p 1 + c.f 2 15 0 * 2 ^ 32
  let l := if l0 = 0 then s.lap + lead else l0
  if wide ∧ s.isStarter = false then s.fail c 0x0200 []
  else if wide = false ∧ gen ≠ s.rd F.RING_GEN_shadow then s.fail c 0x0200 []
  else if l < s.lap + 2 ∨ (wide ∧ l < s.lap + lead) then s.badParam c 1
  else
    let s := s.addCommit gen l wide (some c.seq)
    if wide then s.sendJoin s.ringId 4095 (joinWords 5 0 gen 0 0 0 s.ringId l) else s

/-- Enter LISTEN with the enabled ports (R87). -/
def State.startJoin (s : State) (seq : Option Nat) : State :=
  let s := s.setRing (fun r => { r with joinSeq := seq, good := [0, 0], silentLaps := 0, busyAns := 0, silent := 0,
                                        portOn := [s.on F.RING_CFG_een, s.on F.RING_CFG_wen] })
  s.setJoin 1

/-- Load or replace a grant-table entry (R85). -/
def State.putGrant (s : State) (g : GrantEnt) : State :=
  s.setRing (fun r => { r with grants := r.grants.filter (fun e => !(e.sidLo = g.sidLo ∧ e.sidHi = g.sidHi)) ++ [g] })

def opJoinGrant (env : Env) (c : CmdRec) (s : State) : State :=
  let addr := c.f 3 27 16
  let known := s.ring.grants.any (fun e => e.sidLo = c.pw 1 ∧ e.sidHi = c.pw 2)
  if addr = 0 ∨ addr = 4095 then s.badParam c 3
  else if known = false ∧ 64 ≤ s.ring.grants.length then s.fail c 0x0300 []
  else if c.f 6 23 0 ≠ 332 then s.fail c 0x0105 []
  else s.withBuf c env 4 (fun bs s =>
    let ws := bytesToWords bs
    match imageBad ws with
    | some i => s.fail c 0x0103 [BitVec.ofNat 32 i]
    | none => (s.putGrant ⟨c.pw 1, c.pw 2, addr, c.f 3 15 0, ws⟩).done c [])

def opRingJoin (env : Env) (c : CmdRec) (s : State) : State :=
  match c.f 0 1 0 with
  | 0 =>
    if s.rd F.RING_STATE_join ≠ 0 ∨ (s.on F.RING_CFG_een = false ∧ s.on F.RING_CFG_wen = false) then s.fail c 0x0200 []
    else s.startJoin (some c.seq)
  | 1 => opJoinGrant env c s
  | 2 => (s.setRing (fun r => { r with grants := r.grants.filter (fun e => !(e.sidLo = c.pw 1 ∧ e.sidHi = c.pw 2)) })).done c []
  | _ => s.badEnc c

def opRingSplit (c : CmdRec) (s : State) : State :=
  let a := 0x040A0600 + c.f 0 3 0 * 16
  if c.f 3 30 24 ≥ 2 ^ c.f 3 15 13 then s.badParam c 3
  else ((((s.shadowCfg a (c.pw 1)).shadowCfg (a + 4) (c.pw 2)).shadowCfg (a + 8) (c.pw 3)).showRingPending).done c []

def opRingCredits (c : CmdRec) (s : State) : State :=
  ((s.putCfg 0x040A0044 (c.pw 0)).putCfg 0x040A0048 (c.pw 1)).done c []

def opRingStatus (c : CmdRec) (s : State) : State :=
  s.done c [s.reg 0x040A0018, s.reg 0x040A0000, s.reg 0x040A0030, s.reg 0x040A0028]

def execRingConfig (seq : Nat) (s : State) : Out := .next (s.runCmd 0x0200 seq opRingConfig)
def execRingSchedule (seq : Nat) (env : Env) (s : State) : Out := .next (s.runCmd 0x0201 seq (opRingSchedule env))
def execRingCommit (seq : Nat) (s : State) : Out := .next (s.runCmd 0x0202 seq opRingCommit)
def execRingJoin (seq : Nat) (env : Env) (s : State) : Out := .next (s.runCmd 0x0203 seq (opRingJoin env))
def execRingSplit (seq : Nat) (s : State) : Out := .next (s.runCmd 0x0205 seq opRingSplit)
def execRingCredits (seq : Nat) (s : State) : Out := .next (s.runCmd 0x0206 seq opRingCredits)
def execRingStatus (seq : Nat) (s : State) : Out := .next (s.runCmd 0x0208 seq opRingStatus)

/-- The shadow generation becomes active, its direction with it (R89, R144). -/
def State.makeActive (s : State) : State :=
  let s := (s.commitRegs schedRegs).wr F.RING_GEN_active (s.rd F.RING_GEN_shadow)
  ((s.wr F.RING_HEALSTAT_odira (s.rd F.RING_HEALCFG_odir)).wr F.RING_HEALSTAT_pending 0).setRing (fun r => { r with recDue := 1 })

/-- One commit made at this boundary (R89, R90). -/
def State.doCommit (s : State) (q : CommitReq) : State :=
  let s :=
    if s.rd F.RING_GEN_shadow = q.gen then
      let s := s.makeActive
      if s.on F.RING_STATE_genmiss && (q.wide || s.ring.ringGen = q.gen) then (s.wr F.RING_STATE_genmiss 0).setRing (fun r => { r with mute := false })
      else s
    else if q.wide then
      ((s.event F.RING_EVT_genmiss).wr F.RING_STATE_genmiss 1).setRing (fun r => { r with mute := true, ringGen := q.gen })
    else s
  s.finO q.seq 0 [BitVec.ofNat 32 s.lap]

/-- Commits due at the boundary of the current lap (R89, R90): a lap slip past the lap named makes them at the first later boundary. -/
def State.applyCommits (s : State) : State :=
  let lap := s.lap
  let due := s.ring.commit.filter (fun q => decide (q.lap ≤ lap))
  let s := s.setRing (fun r => { r with commit := r.commit.filter (fun q => !decide (q.lap ≤ lap)) })
  let s := s.each due (fun q s => s.doCommit q)
  if s.on F.RING_STATE_genmiss then s.inc F.RING_CNT_GENDROP else s

/-- The half of the lap buffer that is back: the one not front (R80). -/
def State.frontBase (s : State) : Nat := if s.on F.RING_LAPFRONT_front then 0x01840000 else 0x01800000
def State.backBase (s : State) : Nat := if s.on F.RING_LAPFRONT_front then 0x01800000 else 0x01840000

/-- Count a window left empty (R72). -/
def State.missPub (s : State) : State := (s.inc F.RING_CNT_MISSPUB).event F.RING_EVT_misspub

/-- Send the process frame of a window that passes (R72, R132, R150). -/
def State.sendWindow (s : State) (d n subtick : Nat) (f : RFrame) : State :=
  let s := (s.takeSeq s.ringId 4095 0).outScheduled d f
  let s := if s.mrshState = 0 then s else s.selfOffset d n subtick
  if s.wrapped d then s else s.wr (bitFld ⟨F.RING_LAPSTAT_running.addr, 0, 16⟩ (d * 8 + n)) 1

/-- The process frame of window n of direction d (R66, R72). -/
def State.windowFrame (s : State) (d n : Nat) : RFrame :=
  let o := s.rd (F.RING_WIN2_offset d n)
  let b := s.rd (F.RING_WIN1_bytes d n)
  s.mkFrame 1 d 0 s.ringId 4095 (s.lap % 256 * 2 ^ 24 + o) ((List.range b).map (fun i => s.byte (s.backBase + o + i)))

/-- An active window starts (R72, R134). -/
def State.window (s : State) (d n subtick : Nat) : State :=
  if s.winLegal d n = false then s.missPub
  else if s.on (F.RING_WIN3_auto d n) = false ∧ s.ring.published.testBit (d * 8 + n) = false then s.missPub
  else
    let f := s.windowFrame d n
    match s.schedVerdict d n f.blocks subtick with
    | .pass => s.sendWindow d n subtick f
    | .blocked => s
    | .cut => let s := s.cutNow; if s.monitorOnly then s.sendWindow d n subtick f else s

def execScheduledWindow (d : Fin 2) (n : Fin 8) (subtick : Fin 32) (s : State) : Out :=
  .next (if s.alive ∧ s.inserts ∧ s.lapsRun ∧ s.winActive d n then s.window d n subtick else s)

/-- The credit pool a frame draws on (R77): request or response pool of its direction. -/
def poolOf (d : Nat) (f : InsFrame) : Nat := if f.frame.cls = 2 then 2 + d else d

/-- May this frame be taken now: its pool is above zero, or it is a replay's; no new frame of classes 1 and 2 while a replay runs (R77, R158). -/
def State.mayTake (s : State) (d : Nat) (f : InsFrame) : Bool :=
  if f.replay then true
  else if s.on F.RING_HEALSTAT_replaying && (f.frame.cls = 1 || f.frame.cls = 2) then false
  else decide (s.ring.credit.getD (poolOf d f) 0 > 0)

/-- The place of the frame to insert: the oldest that may be taken, never a completion ahead of an older class 1 frame to the same place (R77). -/
def State.pickIns (s : State) (d : Nat) (seen : List InsFrame) : List InsFrame → Nat → Option (Nat × InsFrame)
  | [], _ => none
  | f :: t, i =>
    let behind := !f.replay && f.frame.cls = 2 && seen.any (fun g => g.frame.cls = 1 && g.frame.dring = f.frame.dring && g.frame.dstation = f.frame.dstation)
    if s.mayTake d f && !behind then some (i, f) else s.pickIns d (f :: seen) t (i + 1)

/-- Remove entry `i` of an insertion queue. -/
def State.takeIns (s : State) (d i : Nat) : State := s.setRing (fun r => { r with insq := updAt r.insq d (fun l => l.eraseIdx i) })

/-- Charge a frame to its pool (R77). -/
def State.charge (s : State) (d : Nat) (f : InsFrame) : State :=
  if f.replay then s
  else s.setRing (fun r => { r with credit := updAt r.credit (poolOf d f) (fun c => c - f.frame.bytes) })

/-- A frame leaves its insertion queue onto egress port `p` (R76, R77, R121, R156). -/
def State.insert (s : State) (d i p subtick : Nat) (f : InsFrame) : State :=
  let s := (((s.takeIns d i).charge d f).emitFrame p f.frame).edgeCopies f.frame
  let s := s.ringMirror (s.mirOut p) p f.frame
  let s := if (f.frame.cls = 1 ∨ f.frame.cls = 2) ∧ f.replay = false then s.keep f.frame else s
  let s := if f.stamp then
      s.pushStamp p s.raw (BitVec.ofNat 32 (f.frame.typ * 2 ^ 28 + f.frame.dstation * 2 ^ 16 + f.frame.seq)) subtick
    else s
  let s := if [0, 1].all (fun d => (s.ring.insq.getD d []).all (fun g => !g.replay)) then s.wr F.RING_HEALSTAT_replaying 0 else s
  s.showPool

/-- At rate 2 open frames leave only in the station's own windows (R139). -/
def State.starWindow (s : State) (b : Nat) : Bool :=
  s.rd F.RING_CFG_rate < 2 || (List.range 8).any (fun n =>
    let ws : Int := s.rd (F.RING_WIN0_start 0 n) * 1000
    s.winActive 0 n && decide (ws ≤ s.lapPos) && decide (s.lapPos + b * s.blockTime ≤ ws + s.rd (F.RING_WIN1_quanta 0 n) * s.quantum))

/-- OPEN_WINDOW_INSERTION in direction d (R75–R77, R130, R134); a station that is not yet a member inserts join frames alone (R128). -/
def State.openInsert (s : State) (d subtick : Nat) : State :=
  match s.egress d, s.pickIns d [] (s.ring.insq.getD d []) 0 with
  | some p, some (i, f) =>
    if !(s.transitOf p).isEmpty || !s.fits p f.frame.blocks 0 || !s.starWindow f.frame.blocks then s
    else if !s.inserts && !(s.rd F.RING_STATE_join ≠ 0 && s.rd F.RING_STATE_join < 5 && f.frame.typ = 8) then s
    else
      match s.openVerdict p f.frame.blocks subtick (f.frame.typ = 8 && s.rd F.RING_STATE_join < 5) with
      | .pass => s.insert d i p subtick f
      | .blocked => s
      | .cut => let s := s.cutNow; if s.monitorOnly then s.insert d i p subtick f else s
  | _, _ => s

def execOpenWindowInsertion (d : Fin 2) (subtick : Fin 32) (s : State) : Out := .next (if s.alive then s.openInsert d subtick else s)

/-- Frames held behind a busy interval leave, oldest first, while they fit (R75). -/
def State.releaseTransit (s : State) (p : Nat) : List TransItem → State
  | [] => s.setRing (fun r => { r with transit := updAt r.transit p (fun _ => []) })
  | x :: t =>
    let ok := match x with
      | .mark _ => true
      | .frame f => s.fits p f.blocks s.openGap
    if ok then (s.releaseItem p x).releaseTransit p t else s.setRing (fun r => { r with transit := updAt r.transit p (fun _ => x :: t) })

def execTransitBufferRelease (d : Fin 2) (s : State) : Out := .next (if s.alive then s.releaseTransit d (s.transitOf d) else s)

/-- Does a frame's payload overlap a region of an active window entry of this station, or break R66 (R79)? -/
def State.rangeBad (s : State) (o n : Nat) : Bool :=
  decide (o % 4 ≠ 0 ∨ n % 4 ≠ 0 ∨ o + n > 0x40000)
    || [0, 1].any (fun d => (List.range 8).any (fun k =>
      s.winActive d k && decide (o < s.rd (F.RING_WIN2_offset d k) + s.rd (F.RING_WIN1_bytes d k) ∧ s.rd (F.RING_WIN2_offset d k) < o + n)))

/-- A process frame taken in (R20, R78, R79). -/
def State.process (s : State) (f : RFrame) : State :=
  let tag := getF f.w0 24 8
  let o := getF f.w0 0 18
  if tag = s.lap % 256 then
    if s.rangeBad o f.length then s.inc F.RING_CNT_RANGE
    else
      let s := s.putWords (s.backBase + o) f.words
      let shown := decide (f.sstation = 0) || f.sstation = 4095 || s.ring.backMap.contains f.sstation
      if shown then s else s.setRing (fun r => { r with backMap := r.backMap ++ [f.sstation] })
  else if tag = (s.lap + 255) % 256 then s.inc F.RING_CNT_LATE
  else s.inc F.RING_CNT_WRONGLAP

def execProcessFrame (p : Fin 2) (f : RFrame) (subtick : Fin 32) (s : State) : Out :=
  .next (if s.rxUp p ∧ rxIs 1 f then
    match s.arrive p f id with
    | (true, s) => (s.watch (1 - p) f.sstation subtick).process f
    | (false, s) => s
  else s)

/-- Word `i` of a join frame, and its subtype (R85). -/
def joinSub (f : RFrame) : Nat := getF (f.pw 0) 24 8
def rxJoin (sub : Nat) (f : RFrame) : Bool := rxIs 8 f && (!headerGood f || joinSub f = sub)

/-- A frame event of type 8; a frame that arrives on an edge port is taken in only with sstation 0, and goes on as open traffic of this station
(R84). -/
def State.arriveJoin (s : State) (p : Nat) (f : RFrame) (k : State → State) : State :=
  if s.on (edgeFld p) && headerGood f then
    if f.sstation = 0 ∧ trailerGood f then s.pushIns (1 - p) ⟨RFrameHop f, false, false⟩ else s
  else
    match s.arrive p f id with
    | (true, s) => k s
    | (false, s) => s

/-- Does a join frame name this station's ID (R86)? -/
def State.mySid (s : State) (f : RFrame) : Bool := f.pw 1 = s.reg F.RING_SID_LO.addr && f.pw 2 = s.reg F.RING_SID_HI.addr

/-- The station ID words of a frame. -/
def State.answerJoin (s : State) (f : RFrame) (sub reason gen addr lap : Nat) (image : List Word) : State :=
  s.sendJoin s.ringId 0 (joinWords sub reason gen (f.pw 1) (f.pw 2) addr s.ringId lap ++ image)

/-- The starter grants an address (R86, R88): the grant, the close notice for lap L, and the ring-wide commit. -/
def State.grant (s : State) (f : RFrame) (addr gen : Nat) (image : List Word) : State :=
  let l := s.lap + s.rd F.RING_JOINCFG_lead
  let s := s.answerJoin f 2 0 gen addr l image
  let s := s.sendJoin s.ringId 4095 (joinWords 5 0 gen (f.pw 1) (f.pw 2) addr s.ringId l)
  let s := s.addCommit gen l true none
  let m := (f.pw 1, f.pw 2, addr)
  s.setRing (fun r => { r with handling := some l, members := r.members.filter (fun e => !(e.1 = m.1 ∧ e.2.1 = m.2.1)) ++ [m] })

/-- Does the starter handle a join or leave at present (R86)? -/
def State.busyJoin (s : State) : Bool := match s.ring.handling with
  | some l => decide (s.lap < l)
  | none => false

/-- JOIN_REQUEST at the starter (R86, R88, R135). -/
def State.joinRequest (s : State) (f : RFrame) : State :=
  let kept := getF (f.pw 3) 16 12
  if s.isStarter = false then s
  else if s.busyJoin then s.answerJoin f 4 0 0 0 0 []
  else if kept ≠ 0 then s.grant f kept (s.rd F.RING_GEN_active) []
  else if s.ring.members.any (fun e => e.1 = f.pw 1 ∧ e.2.1 = f.pw 2) then s.answerJoin f 3 2 0 0 0 []
  else
    match s.ring.grants.find? (fun e => e.sidLo = f.pw 1 ∧ e.sidHi = f.pw 2) with
    | none => s.answerJoin f 3 1 0 0 0 []
    | some g => s.grant f g.addr g.gen g.image

def execJoinRequest (p : Fin 2) (f : RFrame) (s : State) : Out :=
  .next (if s.rxUp p ∧ (rxJoin 1 f ∨ (rxIs 8 f ∧ (joinSub f = 0 ∨ joinSub f > 7))) then
    s.arriveJoin p f (fun s => if joinSub f = 1 then s.joinRequest f else s) else s)

/-- JOIN_GRANT: the address and the image as shadow generation (R87); a grant without image keeps the active generation (R135). -/
def State.joinGranted (s : State) (f : RFrame) : State :=
  let s := (s.wr F.RING_ID_station (getF (f.pw 3) 16 12)).wr F.RING_ID_ring (getF (f.pw 3) 0 8)
  let s := if f.length ≥ 24 + 332 then s.loadImage (f.words.drop 6) else s
  s.setJoin 3

def execJoinGrant (p : Fin 2) (f : RFrame) (s : State) : Out :=
  .next (if s.rxUp p ∧ rxJoin 2 f then
    s.arriveJoin p f (fun s => if s.rd F.RING_STATE_join = 2 ∧ s.mySid f then s.joinGranted f else s) else s)

def execJoinRefuse (p : Fin 2) (f : RFrame) (s : State) : Out :=
  .next (if s.rxUp p ∧ rxJoin 3 f then
    s.arriveJoin p f (fun s => if s.rd F.RING_STATE_join = 2 ∧ s.mySid f then s.joinFail 0x0501 else s) else s)

/-- Send the join request (R86, R135). -/
def State.sendRequestJoin (s : State) : State :=
  let s := s.setRing (fun r => { r with silentLaps := 0 })
  s.sendJoin s.ring.starterRing s.ring.starterStation
    [BitVec.ofNat 32 (2 ^ 24), s.reg F.RING_SID_LO.addr, s.reg F.RING_SID_HI.addr, BitVec.ofNat 32 (s.station * 2 ^ 16), 0, 0]

/-- A busy answer: the request goes out again, and after 64 the join fails (R87). -/
def State.joinBusy (s : State) : State :=
  let n := s.ring.busyAns + 1
  if n ≥ 64 then s.joinFail 0x0400 else (s.setRing (fun r => { r with busyAns := n })).sendRequestJoin

def execJoinBusy (p : Fin 2) (f : RFrame) (s : State) : Out :=
  .next (if s.rxUp p ∧ rxJoin 4 f then
    s.arriveJoin p f (fun s => if s.rd F.RING_STATE_join = 2 ∧ s.mySid f then s.joinBusy else s) else s)

/-- 16 laps without an answer (R87). -/
def State.joinSilent (s : State) : State :=
  let n := s.ring.silent + 1
  if n ≥ 3 then s.joinFail 0x0400 else (s.setRing (fun r => { r with silent := n })).sendRequestJoin

def execJoinNoAnswer (s : State) : Out :=
  .next (if s.alive ∧ s.rd F.RING_STATE_join = 2 ∧ 16 ≤ s.ring.silentLaps then s.joinSilent else s)

/-- The lap a notice names (R85). -/
def noticeLap (f : RFrame) : Nat := (f.pw 4).toNat + getF (f.pw 5) 0 16 * 2 ^ 32

/-- A close notice (R87, R88, R148): the named station closes at lap L, its neighbours' wrapped edge ports unwrap then, and generation g is
committed. -/
def State.closeNotice (s : State) (f : RFrame) : State :=
  let l := noticeLap f
  let addr := getF (f.pw 3) 16 12
  let s := if addr = 0 then s else s.freeStream f.sring addr
  let s := s.addCommit (getF (f.pw 0) 0 16) l true none
  if s.rd F.RING_STATE_join = 3 ∧ s.mySid f then (s.setJoin 4).setRing (fun r => { r with closeLap := some l })
  else if s.rd F.RING_STATE_join = 5 ∧ (s.on F.RING_STATE_edgee ∨ s.on F.RING_STATE_edgew) ∧ addr ≠ 0 then
    s.setRing (fun r => { r with closeLap := some l })
  else s

def execCloseNotice (p : Fin 2) (f : RFrame) (s : State) : Out :=
  .next (if s.rxUp p ∧ rxJoin 5 f then s.arriveJoin p f (fun s => s.closeNotice f) else s)

/-- The starter on a leave request (R86, R88). -/
def State.leaveRequest (s : State) (addr gen : Nat) (lo hi : Word) : State :=
  if s.isStarter = false then s
  else
    let l := s.lap + s.rd F.RING_JOINCFG_lead
    let s := s.sendJoin s.ringId 4095 (joinWords 7 0 gen lo hi addr s.ringId l)
    let s := s.addCommit gen l true none
    let s := s.setRing (fun r => { r with handling := some l, members := r.members.filter (fun e => e.2.2 ≠ addr) })
    if addr = s.station then s.setRing (fun r => { r with leaveLap := some l }) else s.dropReserve addr

def execLeaveRequest (p : Fin 2) (f : RFrame) (s : State) : Out :=
  .next (if s.rxUp p ∧ rxJoin 6 f then
    s.arriveJoin p f (fun s =>
      if s.busyJoin ∧ s.isStarter then s.sendJoin f.sring f.sstation (joinWords 4 0 0 (f.pw 1) (f.pw 2) 0 s.ringId 0)
      else s.leaveRequest (getF (f.pw 3) 16 12) (getF (f.pw 0) 0 16) (f.pw 1) (f.pw 2)) else s)

/-- A leave notice (R87, R113, R148). -/
def State.leaveNotice (s : State) (f : RFrame) : State :=
  let l := noticeLap f
  let addr := getF (f.pw 3) 16 12
  let s := (s.freeStream f.sring addr).dropReserve addr
  if addr = s.station then s.setRing (fun r => { r with leaveLap := some l })
  else s.addCommit (getF (f.pw 0) 0 16) l true none

def execLeaveNotice (p : Fin 2) (f : RFrame) (s : State) : Out :=
  .next (if s.rxUp p ∧ rxJoin 7 f then s.arriveJoin p f (fun s => s.leaveNotice f) else s)

/-- RING.LEAVE (R87): the request to the starter; the starter acts on its own. -/
def opRingLeave (c : CmdRec) (s : State) : State :=
  if s.rd F.RING_STATE_join ≠ 5 then s.fail c 0x0200 []
  else
    let g := c.f 0 15 0
    let s := (s.setJoin 6).setRing (fun r => { r with leaveSeq := some c.seq })
    let lo := s.reg F.RING_SID_LO.addr
    let hi := s.reg F.RING_SID_HI.addr
    if s.isStarter then s.leaveRequest s.station g lo hi
    else s.sendJoin s.ring.starterRing s.ring.starterStation (joinWords 6 0 g lo hi s.station s.ringId 0)

def execRingLeave (seq : Nat) (s : State) : Out := .next (s.runCmd 0x0204 seq opRingLeave)

/-- The close or leave lap has come: the joining station becomes MEMBER and its neighbours' edge ports unwrap; the leaving station goes OFFLINE
(R87, R154). -/
def State.joinBoundary (s : State) : State :=
  let due := fun (o : Option Nat) => match o with | some l => decide (l ≤ s.lap) | none => false
  let s := if due s.ring.closeLap then
      let s := s.setRing (fun r => { r with closeLap := none })
      if s.rd F.RING_STATE_join = 4 then s.setJoin 5
      else s.each [0, 1] (fun p s => if s.on (edgeFld p) && s.port p = 2 then s.unwrapPort p false else s)
    else s
  if due s.ring.leaveLap then
    let s := s.finO s.ring.leaveSeq 0 [BitVec.ofNat 32 s.lap]
    let s := s.setRing (fun r => { r with leaveLap := none, leaveSeq := none, mute := true, recDue := 2 })
    (s.setJoin 0).setRole 0
  else s

end Sys2Proof.Machine
end

