-- ==== Sys2Proof/Machine/Heal.lean ====
section
/-! DEFINITION. The events of healing (chapter 06): failures and wraps, heal markers, unwrap, replays, receive states and fences, with RING.HEAL and
FAB.FENCECLR. -/
namespace Sys2Proof.Machine
open Sys2Proof

/-- BLOCK_LOCK (R61, R84, R149): the lane carries blocks again in place of Remote Fault; a wrapped port whose partner is no member becomes an edge
port. `member`: the partner is a member station. -/
def State.blockLock (s : State) (p : Nat) (member : Bool) : State :=
  let s := (s.wr (lockFld p) 1).setHeal (fun h => { h with remote := updAt h.remote p (fun _ => false) })
  let s := if s.port p = 2 ∧ member = false then s.wr (edgeFld p) 1 else s
  let bothUp := (s.on F.RING_STATE_locke || !s.on F.RING_CFG_een) && (s.on F.RING_STATE_lockw || !s.on F.RING_CFG_wen)
  if s.role = rLISTEN ∧ (bothUp = true ∨ s.time.listenRaw.isNone) then s.setTime (fun t => { t with listenRaw := some s.raw }) else s

def State.portEnabled (s : State) (p : Nat) : Bool := if p = 0 then s.on F.RING_CFG_een else s.on F.RING_CFG_wen

def execBlockLock (p : Fin 2) (member : Bool) (s : State) : Out :=
  .next (if s.alive ∧ s.portEnabled p ∧ s.on (lockFld p) = false then s.blockLock p member else s)

/-- PORT_FAILURE (R149). `remote`: the cause is the partner's Remote Fault. -/
def execPortFailure (p : Fin 2) (remote : Bool) (s : State) : Out :=
  .next (if s.alive ∧ s.portEnabled p ∧ s.port p ≠ 1 then
    (s.portFail p).setHeal (fun h => { h with remote := updAt h.remote p (fun _ => remote) }) else s)

def execWrap (p : Fin 2) (s : State) : Out := .next (if s.alive ∧ s.port p = 1 then s.wrapPort p else s)

/-- Is a marker one this station sent, back in the direction it was sent in, or one it forwarded less than 2 × W ago (R153)? -/
def State.staleMarker (s : State) (v : Nat) : Bool :=
  v % 4096 = s.station || s.heal.recent.any (fun e => e.1 = v && decide (s.raw < e.2 + 2 * s.healW))

/-- Take in and forward a heal marker of kinds 0–2 that arrives on port p (R153). -/
def State.marker (s : State) (p v : Nat) (k : State → State) : State :=
  if s.staleMarker v then s
  else
    let w := s.healW
    let s := s.setHeal (fun h => { h with recent := (v, s.raw) :: h.recent.filter (fun e => decide (s.raw < e.2 + 2 * w)) })
    k (if s.forwards then s.outMarker (1 - p) v else s)

/-- A wrap or replay marker taken in holds every source and queues a marker replay (R158, R159). -/
def State.holdMarker (s : State) (kind port station : Nat) : State :=
  let s := ((s.inc F.RING_CNT_MARKER).event F.RING_HEALEVT_marker).healLast false kind port station
  s.holdAll.queueMarkerReplay

def execWrapMarker (p : Fin 2) (wp : Fin 2) (station : Fin 4096) (s : State) : Out :=
  .next (if s.rxUp p then
    s.marker p (markerOf 0 wp station) (fun s => (s.wrapEnter station wp).holdMarker 0 wp station) else s)

def execReplayMarker (p : Fin 2) (station : Fin 4096) (s : State) : Out :=
  .next (if s.rxUp p then s.marker p (markerOf 2 0 station) (fun s => s.holdMarker 2 0 station) else s)

def execUnwrapNotice (p : Fin 2) (wp : Fin 2) (station : Fin 4096) (s : State) : Out :=
  .next (if s.rxUp p then
    s.marker p (markerOf 1 wp station) (fun s =>
      (s.healLast false 1 wp station).setHeal (fun h => { h with wrapGone := h.wrapGone ++ [(station.val, wp.val)] }))
  else s)

/-- Is a wrapped port ready, beside the laps it has been so (R154)? -/
def State.portReady (s : State) (p : Nat) : Bool :=
  s.on (lockFld p) && !s.heal.remote.getD p false && !s.heal.forced.getD p false && s.on (linkFld p) && decide (s.rd F.RING_STATE_join = 5)
    && !s.on (edgeFld p)

def State.readyLong (s : State) (p : Nat) : Bool := s.portReady p && decide (s.rd F.RING_HEALCFG_stable ≤ s.heal.ready.getD p 0)

def State.setLapU (s : State) (p : Nat) (u : Option Nat) : State := s.setHeal (fun h => { h with lapU := updAt h.lapU p (fun _ => u) })

/-- PORT_READY: the east port proposes an unwrap lap (R154). -/
def execPortReady (s : State) : Out :=
  .next (if s.alive ∧ s.port 0 = 2 ∧ s.readyLong 0 then
    let u := s.lap + s.rd F.RING_JOINCFG_lead
    ((s.wr (portFld 0) 3).setLapU 0 (some u)).emit (.ringMark 0 0xB (markerOf 3 0 (u % 65536)))
  else s)

/-- The unwrap lap that the low 16 bits name: the next lap above the current one with those bits (R152). -/
def State.lapOf16 (s : State) (v : Nat) : Nat := s.lap + 1 + (v + 65536 - (s.lap + 1) % 65536) % 65536

/-- UNWRAP_PROPOSAL on the west port: answered with an accept when it is ready (R154). -/
def execUnwrapProposal (v : Fin 65536) (s : State) : Out :=
  .next (if s.alive ∧ s.on (lockFld 1) ∧ s.port 1 = 2 ∧ s.readyLong 1 then
    ((s.wr (portFld 1) 4).setLapU 1 (some (s.lapOf16 v))).emit (.ringMark 1 0xB (markerOf 4 0 v))
  else s)

/-- ACCEPT on the east port, before boundary U − 1 (R154). -/
def execAccept (v : Fin 65536) (s : State) : Out :=
  .next (match s.heal.lapU.getD 0 none with
    | some u => if s.alive ∧ s.port 0 = 3 ∧ u % 65536 = v ∧ s.lap + 1 < u then (s.wr (portFld 0) 5).emit (.ringMark 0 0xB (markerOf 5 0 v)) else s
    | none => s)

/-- CONFIRM on the west port, before boundary U (R154). -/
def execConfirm (v : Fin 65536) (s : State) : Out :=
  .next (match s.heal.lapU.getD 1 none with
    | some u => if s.alive ∧ s.port 1 = 4 ∧ u % 65536 = v ∧ s.lap < u then s.wr (portFld 1) 5 else s
    | none => s)

/-- One port at a lap boundary (R154, R155): laps of readiness, lapsed proposals, and the unwrap itself. -/
def State.portBoundary (s : State) (p : Nat) : State :=
  let st := s.port p
  let u := s.heal.lapU.getD p none
  let lap := s.lap
  let rdy := s.portReady p
  let s := s.setHeal (fun h => { h with ready := updAt h.ready p (fun n => if rdy && decide (2 ≤ st) then n + 1 else 0) })
  match u with
  | none => s
  | some v =>
    if st = 5 ∧ v ≤ lap then s.unwrapPort p true
    else if st = 3 ∧ (v ≤ lap + 1 ∨ rdy = false) then (s.wr (portFld p) 2).setLapU p none
    else if st = 4 ∧ (v ≤ lap ∨ rdy = false) then (s.wr (portFld p) 2).setLapU p none
    else s

/-- The wrap table at a lap boundary (R153): entries that notices taken in during the lap named go. -/
def State.healBoundary (s : State) : State :=
  let gone := s.heal.wrapGone
  let s := (s.setHeal (fun h => { h with wrapTab := h.wrapTab.filter (fun e => !gone.contains e), wrapGone := [] })).showWraps
  s.each [0, 1] (fun p s => s.portBoundary p)

/-- MARKER_REPLAY: the oldest queued replay is a marker replay and starts (R158). -/
def State.markerReplay (s : State) (m : Nat) : State :=
  let d := s.odir
  let fs := ((s.heal.rbuf.getD d []).filter (fun k => decide (m < k.raw + s.healW))).map (fun k => k.frame)
  let nextB := s.seqNext s.ringId 4095 1
  let oldB := ((fs.filter (fun f => f.dstation = 4095)).head?.map (fun f => f.seq)).getD nextB
  s.sendReplay (fun s => s.replayCtl s.ringId 4095 (replayWords 2 0 0 4 0 0 oldB))
    (fun s => s.replayCtl s.ringId 4095 (replayWords 3 0 0 4 0 0 nextB)) fs

def State.popReplay (s : State) : State := (s.setHeal (fun h => { h with queue := h.queue.drop 1 })).showReplays

def execMarkerReplay (s : State) : Out :=
  .next (match s.heal.queue with
    | ⟨some m, _, _, _, _⟩ :: _ => if s.alive ∧ s.on F.RING_HEALSTAT_replaying = false then s.popReplay.markerReplay m else s
    | _ => s)

/-- The frames of a stream kind toward a requester held in the replay buffer (R160). -/
def kindOf (f : RFrame) (ring station k : Nat) : Bool :=
  if k = 2 then f.dring = ring && f.dstation = 4095 else f.dring = ring && f.dstation = station && f.cls = k + 1

/-- REQUEST_REPLAY: frames from the expected numbers, and the kinds that are no longer held (R160). -/
def State.requestReplay (s : State) (ring station mask : Nat) (exp : List Nat) : State :=
  let buf := (s.heal.rbuf.getD s.odir []).map (fun k => k.frame)
  let next := [s.seqNext ring station 1, s.seqNext ring station 2, s.seqNext ring 4095 1]
  let has := fun k => decide (nAtL exp k = nAtL next k) || buf.any (fun f => kindOf f ring station k && f.seq = nAtL exp k)
  let un := ((ones 3 mask).filter (fun k => !has k)).foldl (fun m k => m + 2 ^ k) 0
  let wanted := fun f => (ones 3 mask).any (fun k => kindOf f ring station k && f.seq = nAtL exp k)
  let mine := buf.filter (fun f => (List.range 3).any (fun k => kindOf f ring station k))
  let fs := mine.dropWhile (fun f => !wanted f)
  let old := fun k => ((buf.filter (fun f => kindOf f ring station k)).head?.map (fun f => f.seq)).getD (nAtL next k)
  s.sendReplay (fun s => s.replayCtl ring station (replayWords 2 0 un mask (old 0) (old 1) (old 2)))
    (fun s => s.replayCtl ring station (replayWords 3 0 0 mask (nAtL next 0) (nAtL next 1) (nAtL next 2))) fs
where
  nAtL (l : List Nat) (k : Nat) : Nat := l.getD k 0

def execRequestReplay (s : State) : Out :=
  .next (match s.heal.queue with
    | ⟨none, r, st, m, e⟩ :: _ => if s.alive ∧ s.on F.RING_HEALSTAT_replaying = false then s.popReplay.requestReplay r st m e else s
    | _ => s)

/-- A control frame event of type 9 with a subtype (R162). -/
def rxCtl (sub : Nat) (f : RFrame) : Bool := rxIs 9 f && (!headerGood f || getF (f.pw 0) 24 8 = sub)
def ctlNums (f : RFrame) : List Nat := [getF (f.pw 1) 0 16, getF (f.pw 1) 16 16, getF (f.pw 2) 0 16]
def ctlMask (f : RFrame) : Nat := getF (f.pw 0) 0 3

/-- REPLAY_REQUEST taken in: queued, or dropped where 16 wait (R158, R160). -/
def State.queueRequest (s : State) (f : RFrame) : State :=
  if s.heal.queue.length < 16 then
    (s.setHeal (fun h => { h with queue := h.queue ++ [⟨none, f.sring, f.sstation, ctlMask f, ctlNums f⟩] })).showReplays
  else (s.inc F.RING_CNT_RPLQOVF).event F.RING_HEALEVT_rplqovf

def execReplayRequest (p : Fin 2) (f : RFrame) (s : State) : Out :=
  .next (if s.rxUp p ∧ (rxCtl 1 f ∨ (rxIs 9 f ∧ (getF (f.pw 0) 24 8 = 0 ∨ getF (f.pw 0) 24 8 > 4))) then
    match s.arrive p f id with
    | (true, s) => if getF (f.pw 0) 24 8 = 1 then s.queueRequest f else s
    | (false, s) => s
  else s)

/-- REPLAY_START (R161): a broadcast one for a held source, an addressed one for a recovering source. -/
def State.replayStart (s : State) (f : RFrame) : State :=
  match s.findStream f.sring f.sstation with
  | none => s
  | some x =>
    let bc := f.dstation = 4095
    let un := getF (f.pw 0) 8 3
    if x.st = .hold ∧ bc then s.setStream f.sring f.sstation (fun y => { y with st := .holdReplay, gap := false })
    else if x.st = .recover ∧ bc = false then
      if un = 0 then s.setStream f.sring f.sstation (fun y => { y with st := .recoverReplay, gap := false })
      else
        let k := (ones 3 un).headD 0
        s.fence f.sring f.sstation 1 un ((x.exp.getD k none).getD 0)
    else s

def execReplayStart (p : Fin 2) (f : RFrame) (s : State) : Out :=
  .next (if s.rxUp p ∧ rxCtl 2 f then
    match s.arrive p f id with
    | (true, s) => s.replayStart f
    | (false, s) => s
  else s)

/-- Are the expected numbers equal to the next numbers of an end, kind by kind of its mask (R159, R161)? A kind of which nothing has come yet is
not short. -/
def numsEqual (x : Stream) (mask : Nat) (nums : List Nat) : Bool :=
  (ones 3 mask).all (fun k => match x.exp.getD k none with
    | some e => decide (e = nums.getD k 0)
    | none => true)

/-- REPLAY_END (R159, R161). -/
def State.replayEnd (s : State) (f : RFrame) : State :=
  match s.findStream f.sring f.sstation with
  | none => s
  | some x =>
    let bc := f.dstation = 4095
    let ok := numsEqual x (ctlMask f) (ctlNums f)
    if x.st = .holdReplay ∧ bc then
      if ok && !x.gap then s.setStream f.sring f.sstation (fun y => { y with st := .normal, disc := false, gap := false, tries := 0 })
      else s.enterRecover f.sring f.sstation
    else if x.st = .recoverReplay ∧ bc = false then
      if ok then s.setStream f.sring f.sstation (fun y => { y with st := .normal, disc := false, gap := false, tries := 0 })
      else s.enterRecover f.sring f.sstation
    else s

def execReplayEnd (p : Fin 2) (f : RFrame) (s : State) : Out :=
  .next (if s.rxUp p ∧ rxCtl 3 f then
    match s.arrive p f id with
    | (true, s) => s.replayEnd f
    | (false, s) => s
  else s)

/-- FENCE_NOTICE at the source (R164). -/
def execFenceNotice (p : Fin 2) (f : RFrame) (s : State) : Out :=
  .next (if s.rxUp p ∧ rxCtl 4 f then
    match s.arrive p f id with
    | (true, s) => (s.event F.RING_HEALEVT_fremote).healLast true 0 0 f.sstation
    | (false, s) => s
  else s)

/-- HOLD_TIMEOUT for a source: 2 × W without a replay end (R159). -/
def State.holdTimeout (s : State) (ring station : Nat) : State :=
  match s.findStream ring station with
  | none => s
  | some x =>
    if (x.st = .hold ∨ x.st = .holdReplay) ∧ x.since + 2 * s.healW ≤ s.raw then
      if x.disc || x.gap then s.enterRecover ring station else s.setStream ring station (fun y => { y with st := .normal })
    else s

def execHoldTimeout (ring : Fin 256) (station : Fin 4096) (s : State) : Out := .next (if s.alive then s.holdTimeout ring station else s)

/-- RECOVER_TIMEOUT for a source: the request again, the third time a fence with cause 2 (R160, R161). -/
def State.recoverTimeout (s : State) (ring station : Nat) : State :=
  match s.findStream ring station with
  | none => s
  | some x =>
    if x.st = .recover ∧ x.since + 2 * s.healW ≤ s.raw then
      if x.tries ≥ 3 then s.fence ring station 2 7 ((x.exp.filterMap id).headD 0)
      else (s.setStream ring station (fun y => { y with tries := y.tries + 1, since := s.raw })).sendRequest x
    else s

def execRecoverTimeout (ring : Fin 256) (station : Fin 4096) (s : State) : Out := .next (if s.alive then s.recoverTimeout ring station else s)

/-- RING.HEAL mode 3 (R168). -/
def opHealFlush (c : CmdRec) (s : State) : State :=
  let ring := c.f 1 7 0
  let st := c.f 1 27 16
  let fenced := s.heal.streams.any (fun x => x.ring = ring ∧ x.station = st ∧ x.st = .fenced)
  if c.f 1 1 1 = 1 ∧ fenced then s.fail c 0x0200 []
  else
    let s := if c.f 1 0 0 = 1 then (s.setHeal (fun h => { h with wrapTab := [], wrapGone := [] })).showWraps else s
    let s := if c.f 1 1 1 = 1 then s.setHeal (fun h => { h with streams := h.streams.filter (fun x => !(x.ring = ring ∧ x.station = st)) }) else s
    s.done c [s.reg 0x040A0704]

/-- Ports that RING.HEAL modes 1 and 2 name (R168). -/
def healPorts (c : CmdRec) : List Nat := (if c.f 1 0 0 = 1 then [0] else []) ++ (if c.f 1 1 1 = 1 then [1] else [])

def State.forcePort (s : State) (p : Nat) (v : Bool) : State := s.setHeal (fun h => { h with forced := updAt h.forced p (fun _ => v) })

/-- RING.HEAL (R168). -/
def opRingHeal (c : CmdRec) (s : State) : State :=
  match c.f 0 1 0 with
  | 0 =>
    if !legalWord 0x040A0700 (c.pw 1) then s.badEnc c
    else
      let s := (s.wr F.RING_HEALCFG_window (c.f 1 31 16)).wr F.RING_HEALCFG_stable (c.f 1 15 8)
      let s := (s.wrS F.RING_HEALCFG_odir (c.f 1 0 0)).wr F.RING_HEALSTAT_pending 1
      s.done c [s.reg 0x040A0704]
  | 1 =>
    let s := s.each (healPorts c) (fun p s => if s.port p = 0 then (s.forcePort p true).portFail p else s.forcePort p true)
    s.done c [s.reg 0x040A0704]
  | 2 =>
    let s := s.each (healPorts c) (fun p s => s.forcePort p false)
    s.done c [s.reg 0x040A0704]
  | _ => opHealFlush c s

def execRingHeal (seq : Nat) (s : State) : Out := .next (s.runCmd 0x0207 seq opRingHeal)

/-- Remove fence-list entry n and keep the list compact (R166). -/
def State.dropFence (s : State) (n : Nat) : State :=
  let h := s.rd F.RING_FENCESTAT_held
  let s := s.each ((List.range 63).filter (fun i => decide (n ≤ i ∧ i + 1 < h))) (fun i s =>
    (s.setReg (F.RING_FENCE i 0).addr (s.reg (F.RING_FENCE (i + 1) 0).addr)).setReg (F.RING_FENCE i 1).addr (s.reg (F.RING_FENCE (i + 1) 1).addr))
  ((s.setReg (F.RING_FENCE (h - 1) 0).addr 0).setReg (F.RING_FENCE (h - 1) 1).addr 0).wr F.RING_FENCESTAT_held (h - 1)

/-- Clear the fence of one source (R166). -/
def State.clearFence (s : State) (x : Stream) : State :=
  let s := s.setStream x.ring x.station (fun y => { y with st := .normal, exp := [none, none, none], disc := false, gap := false, tries := 0 })
  let s := match s.fenceEntry x.ring x.station with
    | some n => s.dropFence n
    | none => s
  s.showFences

def opFabFenceclr (c : CmdRec) (s : State) : State :=
  let all := c.f 0 31 31 = 1
  let xs := s.heal.streams.filter (fun x => x.st = .fenced ∧ (all ∨ (x.ring = c.f 0 7 0 ∧ x.station = c.f 0 27 16)))
  (s.each xs (fun x s => s.clearFence x)).done c [BitVec.ofNat 32 xs.length]

def execFabFenceclr (seq : Nat) (s : State) : Out := .next (s.runCmd 0x0503 seq opFabFenceclr)

end Sys2Proof.Machine
end

