-- ==== Sys2Proof/Machine/Time.lean ====
section
/-! DEFINITION. Starters and network time (chapter 04): delay markers, lap frames, the servo, start claims, takeover, triggers, captures and the TIME
commands; and the star mode's reference frame (R138, R139). -/
namespace Sys2Proof.Machine
open Sys2Proof

/-- Send a delay request on a port; the one before it stays unanswered (R98, R99). -/
def State.delayRequest (s : State) (p subtick : Nat) : State :=
  let l := s.time.links.getD p LinkSt.init
  let s := if l.asked.isSome then s.inc F.TIME_CNT_NOANSWER else s
  let n := l.seq % 64
  (s.setLink p (fun l => { l with seq := (n + 1) % 64, asked := some (n, (s.raw : Int) * 32 + subtick) })).emit (.ringMark p 0xA (n * 2 ^ 16))

/-- DELAY_MARKER_RECEIVED_REQUEST: answered with the turnaround, where it fits its field (R99). `turn`: t3 − t2. -/
def execDelayMarkerReceivedRequest (p : Fin 2) (n : Fin 64) (turn : Nat) (s : State) : Out :=
  .next (if s.rxUp p ∧ 1280 ≤ turn ∧ turn < 65536 then s.emit (.ringMark p 0xA (2 ^ 22 + n * 2 ^ 16 + turn)) else s)

/-- The average of the newest samples (R100). -/
def linkAvg (l : List Int) : Int := if l.isEmpty then 0 else l.foldl (· + ·) 0 / l.length

/-- A sample of the mean link delay, in 2^-16 ns (R99, R100). -/
def State.linkSample (s : State) (p : Nat) (x : Int) : State :=
  let n := 2 ^ s.rd F.TIME_LINKCFG_avg
  let l := (s.time.links.getD p LinkSt.init).samples
  if s.on (linkFld p) && decide ((x - linkAvg l).natAbs > s.rd F.TIME_LINKCFG_outlier * 65536) then s.inc F.TIME_CNT_OUTLIER
  else
    let l := (x :: l).take n
    let s := (s.setLink p (fun k => { k with samples := l })).wrI (F.TIME_LINK p) (linkAvg l)
    if l.length ≥ n then s.wr (linkFld p) 1 else s

/-- DELAY_MARKER_RESPONSE (R99, R100). -/
def execDelayMarkerResponse (p : Fin 2) (n : Fin 64) (turn : Fin 65536) (subtick : Fin 32) (s : State) : Out :=
  .next (match (s.time.links.getD p LinkSt.init).asked with
    | some (k, t1) =>
      if s.rxUp p ∧ k = n.val then
        (s.setLink p (fun l => { l with asked := none })).linkSample p (((s.raw : Int) * 32 + subtick.val - t1 - turn.val) * 2560)
      else s
    | none => s)

/-- Lap length in 2^-16 ns. -/
def State.lapU (s : State) : Int := s.rd F.RING_LAPCFG_len * uTick

/-- Fields of a lap frame (R102). -/
def lapNo (f : RFrame) : Nat := (f.pw 1).toNat + getF (f.pw 2) 0 16 * 2 ^ 32
def lapStartOf (f : RFrame) : Int :=
  timeU ((f.pw 3).toNat + (f.pw 4).toNat * 2 ^ 32) (getF (f.pw 5) 0 30) (getF (f.pw 6) 16 16)
def lapCorr (f : RFrame) : Int := (f.pw 7).toNat + getF (f.pw 8) 0 16 * 2 ^ 32
def lapStep (f : RFrame) : Int := ((f.pw 10).toInt * 1000000000 + getF (f.pw 11) 0 30) * 65536

/-- Replace payload word `i` of a frame. -/
def setPw (f : RFrame) (i : Nat) (v : Word) : RFrame := { f with payload := wordsToBytes (updAt f.words i (fun _ => v)) }

/-- The copy a station sends on carries a correction grown by `x` (R103). -/
def addCorr (x : Int) (f : RFrame) : RFrame :=
  let c := wrapI 48 (lapCorr f + x)
  setPw (setPw f 7 (BitVec.ofNat 32 c)) 8 (setF (f.pw 8) 0 16 (c / 2 ^ 32))

/-- What forwarding adds: the arriving fibre and the residence at the station's own rate (R103). `res`: egress minus ingress, 78.125 ps. -/
def State.residence (s : State) (p subtick res : Nat) : Int :=
  s.fibreIn p + (s.convU (s.raw + (subtick + res) / 32) ((subtick + res) % 32) - s.convU s.raw subtick)

/-- Adopt the numbering and start of a lap frame for the next prediction (R106). -/
def State.adoptLap (s : State) (f : RFrame) : State :=
  let n := lapNo f
  let st := lapStartOf f
  let pred := s.time.lapStart + ((n : Int) - s.lap) * s.lapU
  let diff := (st - pred).natAbs
  if s.time.nextLap = 0 then
    s.setTime (fun t => { t with nextLap := (n + 1) % 2 ^ 48, nextStart := st + s.lapU })
  else if (diff : Int) > s.lapU then
    (s.addc F.TIME_CNT_LAPSLIP (diff / s.lapU.toNat)).setTime (fun t => { t with nextLap := (n + 1) % 2 ^ 48, nextStart := st + s.lapU })
  else if n = s.lap then s.setTime (fun t => { t with nextStart := st + s.lapU, taken := true })
  else if n = s.time.nextLap then s.setTime (fun t => { t with nextStart := st })
  else s

/-- Where the station has a wrong number, the copy still counts for the lap it names; here for the current lap. -/
def State.markTaken (s : State) (f : RFrame) : State := if lapNo f = s.lap then s.setTime (fun t => { t with taken := true }) else s

/-- The offset of a usable copy, and the reference of the marshal (R104, R126). -/
def State.takeCopy (s : State) (p subtick : Nat) (f : RFrame) : State :=
  let stamp : Int := (s.raw : Int) * 32 + subtick
  let cf := lapCorr f + s.fibreIn p
  let theta := lapStartOf f + cf - s.convU s.raw subtick
  let better := match s.time.copy with
    | none => true
    | some c => decide (f.hops < c.hops) || (decide (f.hops = c.hops) && decide (1 - p < c.dir))
  if !s.on (linkFld p) || !better then s
  else
    let s := s.setTime (fun t => { t with copy := some ⟨f.hops, 1 - p, stamp, theta, cf⟩ })
    let s := s.wrI F.TIME_OFFSET (satI 32 theta)
    if s.mrshState = 0 then s else s.takeRef (s.refOf stamp cf)

/-- The joining station in LISTEN (R87): two consecutive good lap frames on a port with a valid link delay. -/
def State.listenFrame (s : State) (p : Nat) : State :=
  if s.rd F.RING_STATE_join ≠ 1 then s
  else
    let s := s.setRing (fun r => { r with good := updAt r.good p (· + 1) })
    if 2 ≤ s.ring.good.getD p 0 ∧ s.on (linkFld p) then (s.setJoin 2).sendRequestJoin else s

/-- What a follower takes over from a lap frame (R104, R107, R111, R113, R124). -/
def State.followFrame (s : State) (f : RFrame) : State :=
  let s := s.wr F.TIME_UTC (getF (f.pw 2) 16 16)
  let cd := getF (f.pw 6) 8 8
  let s := if cd = 0 then s else s.setTime (fun t => { t with step := some (lapNo f + cd, lapStep f) })
  let s := s.setReserves (getF (f.pw 8) 16 12) (getF (f.pw 9) 0 12) (getF (f.pw 9) 12 12)
  let s := s.setRing (fun r => { r with ringGen := getF (f.pw 0) 0 16 })
  if s.role = rFOLLOW ∨ s.role = rRESERVE then s.enterFollow
  else if s.role = rIDLE ∧ s.station ≠ 0 ∧ s.rd F.RING_STATE_join = 0 then s.setJoin 5
  else if (s.role = rSTART ∨ s.role = rLISTEN) ∧ s.station ≠ 0 ∧ s.rd F.RING_STATE_join = 0 then (s.setRole rSTART).startJoin none
  else s

/-- Remember who sends the lap frames (R86, R114). -/
def State.noteStarter (s : State) (f : RFrame) : State :=
  let other := s.ring.starterStation ≠ 0 ∧ (s.ring.starterRing ≠ f.sring ∨ s.ring.starterStation ≠ f.sstation)
  let s := s.setRing (fun r => { r with starterRing := f.sring, starterStation := f.sstation })
  if other ∧ s.lapsRun then s.event F.TIME_EVT_newstarter else s

/-- A starter meets the lap frame of another (R115). -/
def State.meetStarter (s : State) (f : RFrame) : State :=
  let op := getF (f.pw 0) 16 8
  let mp := s.rd F.TIME_STARTER_prio
  if op < mp ∨ (op = mp ∧ f.sstation < s.station) then (s.setTime (fun t => { t with yield := true })).event F.TIME_EVT_startconf else s

/-- A lap frame taken in (R104, R106). -/
def State.lapTaken (s : State) (p subtick : Nat) (f : RFrame) : State :=
  if s.isStarter then s.meetStarter f
  else
    let s := (((s.noteStarter f).adoptLap f).markTaken f).followFrame f
    (s.takeCopy p subtick f).listenFrame p

/-- A lap frame of the starter's own comes back and is stripped: the asymmetry measurement reads it (R116). -/
def State.lapReturned (s : State) (p subtick : Nat) (f : RFrame) : State :=
  match s.time.asymRun with
  | none => s
  | some r =>
    if lapNo f = s.lap then
      let x := s.convU s.raw subtick - s.time.lapStart - lapCorr f
      s.setTime (fun t => { t with asymRun := some { r with got := updAt r.got (1 - p) (fun _ => some x) } })
    else s

/-- LAP_FRAME (R102–R106): kinds that are reserved only travel on. `res`: residence in 78.125 ps. -/
def State.lapFrame (s : State) (p subtick res : Nat) (f : RFrame) : State :=
  if !headerGood f then s.badHeader p
  else if getF (f.pw 0) 24 8 ≠ 1 then
    if s.on (edgeFld p) then s else
    match s.routeOf p (RFrameHop f) with
    | .both => s.forward (1 - p) (RFrameHop f) (trailerGood f)
    | .pass => s.forward (1 - p) (RFrameHop f) (trailerGood f)
    | _ => s
  else
    let own := s.fromMe f
    match s.arrive p f (addCorr (s.residence p subtick res)) with
    | (true, s) => s.lapTaken p subtick f
    | (false, s) =>
      if own && trailerGood f then s.lapReturned p subtick f
      else if trailerGood f then s
      else s.setRing (fun r => { r with good := updAt r.good p (fun _ => 0) })

def execLapFrame (p : Fin 2) (f : RFrame) (subtick : Fin 32) (res : Nat) (s : State) : Out :=
  .next (if s.rxUp p ∧ s.rd F.RING_CFG_rate < 2 ∧ rxIs 0 f ∧ (headerGood f = false ∨ getF (f.pw 0) 24 8 ≠ 2) then
    s.lapFrame p subtick res f else s)

/-- The starter's lap frame for direction d, that leaves `dep` after the boundary tick (R102, R103). -/
def State.lapPayload (s : State) (dep : Nat) : List Word :=
  let t := s.time
  let corr := wrapI 48 (s.convU (s.raw + dep / 32) (dep % 32) - t.lapStart)
  let (cd, amt) := match t.step with
    | some (l, a) => (if l > s.lap ∧ l ≤ s.lap + 16 then l - s.lap else 0, if l ≤ s.lap + 16 then a else 0)
    | none => (0, 0)
  let ns := amt / 65536
  [BitVec.ofNat 32 (2 ^ 24 + s.rd F.TIME_STARTER_prio * 2 ^ 16 + s.rd F.RING_GEN_active), BitVec.ofNat 32 s.lap,
   BitVec.ofNat 32 (s.rd F.TIME_UTC * 2 ^ 16 + s.lap / 2 ^ 32), BitVec.ofNat 32 (secOf t.lapStart), BitVec.ofNat 32 (secOf t.lapStart / 2 ^ 32),
   BitVec.ofNat 32 (s.rd F.TIME_STATE_src * 2 ^ 30 + nsOf t.lapStart),
   BitVec.ofNat 32 (fracOf t.lapStart * 2 ^ 16 + cd * 2 ^ 8 + (if t.stepped then 2 else 0) + (if t.tookOver then 1 else 0)),
   BitVec.ofNat 32 corr, BitVec.ofNat 32 (s.rd F.TIME_RESERVE_A_r1 * 2 ^ 16 + corr / 2 ^ 32),
   BitVec.ofNat 32 (s.rd F.TIME_RESERVE_B_r3 * 2 ^ 12 + s.rd F.TIME_RESERVE_A_r2),
   BitVec.ofInt 32 (ns / 1000000000), BitVec.ofInt 32 (ns % 1000000000)]

/-- Send the lap frame in one direction; the primary departure gives the starter's marshal its reference (R74, R126). -/
def State.sendLapDir (s : State) (d dep : Nat) : State :=
  let ws := s.lapPayload dep
  let f := s.mkFrame 0 d 0 s.ringId 4095 0 (wordsToBytes ws)
  let s := (s.takeSeq s.ringId 4095 0).outScheduled d f
  if d = 0 ∧ s.mrshState ≠ 0 then s.takeRef (s.refOf ((s.raw : Int) * 32 + dep) (lapCorr f)) else s

/-- LAP_FRAME_SEND (R74). -/
def State.sendLap (s : State) (dep0 dep1 : Nat) : State :=
  let s := (s.sendLapDir 0 dep0).sendLapDir 1 dep1
  s.setTime (fun t => { t with stepped := false, tookOver := false })

/-- The asymmetry measurement at a boundary (R116). -/
def State.asymBoundary (s : State) : State :=
  match s.time.asymRun with
  | none => s
  | some r =>
    let (sum, used) := match r.got.getD 0 none, r.got.getD 1 none with
      | some a, some b => (r.sum + (a - b), r.used + 1)
      | _, _ => (r.sum, r.used)
    if r.left ≤ 1 then
      let s := (s.setTime (fun t => { t with asymRun := none })).event F.TIME_EVT_asymdone
      if used = 0 then s.fin r.seq 0x0200 []
      else s.fin r.seq 0 [BitVec.ofInt 32 (sum / used), BitVec.ofNat 32 used]
    else s.setTime (fun t => { t with asymRun := some ⟨r.seq, r.left - 1, [none, none], sum, used⟩ })

/-- Write an asymmetry value (R101, R116). -/
def State.putAsym (s : State) (p : Nat) (a : Word) : State :=
  let s := s.setReg (F.TIME_ASYM p).addr a
  let s := s.setTime (fun t => { t with asymSet := if t.asymSet.contains p then t.asymSet else p :: t.asymSet })
  if s.time.asymSet.length = 2 then s.wr F.TIME_STATE_asymok 1 else s

/-- Synced or not, by the offset of the lap (R105). -/
def State.syncCheck (s : State) (theta : Int) : State :=
  if theta.natAbs ≤ s.rd F.TIME_SERVO_synclim * 65536 then
    let s := s.setTime (fun t => { t with inSync := t.inSync + 1 })
    if s.time.inSync ≥ 8 then s.wr F.TIME_STATE_synced 1 else s
  else
    let s := s.setTime (fun t => { t with inSync := 0 })
    if s.on F.TIME_STATE_synced then (s.wr F.TIME_STATE_synced 0).event F.TIME_EVT_synclost else s

/-- The lap that ends, at a follower: its offset enters the average, or the lap is missed (R104–R106). -/
def State.lapEnds (s : State) : State :=
  let c := s.time.copy
  let s := if s.isStarter then s
    else if s.time.taken then
      let s := (s.setTime (fun t => { t with missed := 0 })).wr F.TIME_STATE_holdover 0
      match c with
      | some c => (s.setTime (fun t => { t with acc := t.acc + c.theta, accN := t.accN + 1, laps := t.laps + 1 })).syncCheck c.theta
      | none => s
    else
      let s := s.setTime (fun t => { t with missed := t.missed + 1, inSync := 0 })
      ((s.inc F.TIME_CNT_LAPMISS).event F.TIME_EVT_lapmiss).wr F.TIME_STATE_holdover 1
  let got := s.time.taken || s.isStarter
  let s := s.setTime (fun t => { t with ran := (got :: t.ran).take 2, taken := false, copy := none })
  s.wr F.RING_LAPSTAT_running (if s.time.ran.any id then 1 else 0)

/-- The next lap opens: number and start (R19, R106). -/
def State.openLap (s : State) : State :=
  let t := s.time
  let s := s.setLap t.nextLap
  let st := t.nextStart
  s.setTime (fun t => { t with lapStart := st, nextStart := st + s.lapU, nextLap := (t.nextLap + 1) % 2 ^ 48 })

/-- A step announced for this lap, and the values that wait for the boundary (R96, R107, R116, R124). -/
def State.timeChanges (s : State) : State :=
  let s := match s.time.step with
    | some (l, a) =>
      if l ≤ s.lap then
        let s := s.newSet true a ((s.time.rateReq).getD s.rate)
        s.setTime (fun t => { t with step := none, rateReq := none, lapStart := t.lapStart + a, nextStart := t.nextStart + a, stepped := true })
      else s
    | none => s
  let s := match s.time.rateReq with
    | some r => (s.newSet false 0 r).setTime (fun t => { t with rateReq := none })
    | none => s
  let s := match s.time.servoReq with
    | some v => (s.wr F.TIME_SERVO_en v).setTime (fun t => { t with servoReq := none })
    | none => s
  let s := s.each s.time.asymReq (fun e s => s.putAsym e.1 e.2)
  s.setTime (fun t => { t with asymReq := [] })

/-- A starter that met a better one stops at its next boundary (R115). -/
def State.yieldNow (s : State) : State :=
  if s.time.yield then
    let s := (s.setTime (fun t => { t with yield := false })).setRole rIDLE
    (s.wr F.TIME_STATE_rank 0).enterFollow
  else s

/-- The time unit's part of a lap boundary, up to the lap's opening. -/
def State.timeBoundary (s : State) : State := (((s.yieldNow).lapEnds).asymBoundary).openLap.timeChanges

/-- SERVO_UPDATE (R105, R123). -/
def State.servo (s : State) : State :=
  let t := s.time
  let avg := t.acc / t.accN
  let upd := s.rd F.TIME_SERVO_upd
  let T : Int := 2 ^ upd * s.rd F.RING_LAPCFG_len
  let e := (avg * 2 ^ 25) / (5 * T)
  let bw := s.rd F.TIME_SERVO_bw
  let lim : Int := 219902325
  let clamp := fun (x : Int) => max (-lim) (min x lim)
  let big := decide (avg.natAbs > s.rd F.TIME_SERVO_steplim * 100 * 65536)
  let s := s.setTime (fun t => { t with acc := 0, accN := 0, laps := 0, first := false })
  if s.isStarter && big then
    if s.time.step.isSome then s else s.setTime (fun t => { t with step := some (s.lap + 17, avg) })
  else if t.first || big then (s.inc F.TIME_CNT_STEP).newSet true avg s.rate
  else
    let i := clamp (t.integral + e / 2 ^ (2 * bw + 2))
    let s := s.setTime (fun t => { t with integral := i })
    s.newSet false 0 (clamp (i + e / 2 ^ bw))

/-- Is an update due: 2^upd laps gave an offset, or the first since the station began to follow (R105)? -/
def State.servoDue (s : State) : Bool :=
  s.on F.TIME_SERVO_en && decide (s.time.accN > 0) && (s.time.first || decide (s.time.laps ≥ 2 ^ s.rd F.TIME_SERVO_upd))
    && (decide (s.role = rFOLLOW ∨ s.role = rRESERVE) || (s.isStarter && s.on F.TIME_STATE_src))

def execServoUpdate (s : State) : Out := .next (if s.alive ∧ s.servoDue then s.servo else s)

/-- This station's claim (R109). -/
def State.myClaim (s : State) : Claim :=
  ⟨s.rd F.TIME_STARTER_prio, s.rd F.RING_SID_LO + s.rd F.RING_SID_HI * 2 ^ 32, s.station, s.rd F.RING_GEN_active⟩

/-- One claim is better than another (R110). -/
def betterClaim (a b : Claim) : Bool := decide (a.prio < b.prio ∨ (a.prio = b.prio ∧ a.sid < b.sid))

def State.addClaim (s : State) (c : Claim) : State :=
  s.setTime (fun t => { t with claims := if t.claims.any (fun x => x.sid = c.sid) then t.claims else t.claims ++ [c] })

/-- Send the own claim in both directions and start the settle timer (R109, R111). -/
def State.sendClaim (s : State) : State :=
  let c := s.myClaim
  let ws := [BitVec.ofNat 32 (2 * 2 ^ 24 + c.prio * 2 ^ 16 + c.gen), BitVec.ofNat 32 c.sid, BitVec.ofNat 32 (c.sid / 2 ^ 32)] ++ List.replicate 9 0
  let s := (s.setRole rCLAIM).addClaim c
  let s := s.setTime (fun t => { t with settleRaw := some s.raw })
  if s.claimsPass then
    s.each [0, 1] (fun d s =>
      let f := s.mkFrame 0 d 0 s.ringId 4095 0 (wordsToBytes ws)
      (s.takeSeq s.ringId 4095 0).outScheduled d f)
  else s

/-- START_CLAIM (R111). -/
def State.claimTaken (s : State) (f : RFrame) : State :=
  let c : Claim := ⟨getF (f.pw 0) 16 8, (f.pw 1).toNat + (f.pw 2).toNat * 2 ^ 32, f.sstation, getF (f.pw 0) 0 16⟩
  if s.role = rLISTEN then (s.addClaim c).sendClaim
  else if s.role = rCLAIM then s.addClaim c
  else s

def execStartClaim (p : Fin 2) (f : RFrame) (s : State) : Out :=
  .next (if s.rxUp p ∧ s.rd F.RING_CFG_rate < 2 ∧ rxIs 0 f ∧ (headerGood f = false ∨ getF (f.pw 0) 24 8 = 2) then
    match s.arrive p f id with
    | (true, s) => s.claimTaken f
    | (false, s) => s
  else s)

/-- The listen time of a candidate, in ticks (R108). -/
def State.listenTicks (s : State) : Nat := s.rd F.TIME_CLAIMCFG_base * tickMs + s.rd F.RING_SID_LO % 1024 * 10 * tickUs

/-- LISTEN_TIME elapses (R108, R111). -/
def execListenTime (s : State) : Out := .next (match s.time.listenRaw with
    | some t => if s.alive ∧ s.role = rLISTEN ∧ t + s.listenTicks ≤ s.raw then s.sendClaim else s
    | none => s)

/-- The claims in order, best first (R110). -/
def insertClaim (c : Claim) : List Claim → List Claim
  | [] => [c]
  | x :: t => if betterClaim c x then c :: x :: t else x :: insertClaim c t
def sortClaims (l : List Claim) : List Claim := l.foldr insertClaim []

/-- SETTLE_TIME elapses (R111, R112). -/
def State.settle (s : State) : State :=
  let l := sortClaims s.time.claims
  let me := s.myClaim
  let r := fun i => ((l.drop 1).map (fun c => c.station)).getD i 0
  let s := s.setTime (fun t => { t with claims := [], settleRaw := none, listenRaw := none })
  if l.head? = some me then
    let s := s.setJoin 5
    let s := (s.setRole rSTARTER).setReserves (r 0) (r 1) (r 2)
    let s := s.setRing (fun x => { x with starterRing := s.ringId, starterStation := s.station })
    s.setTime (fun t => { t with nextLap := 1, nextStart := s.nowU + s.lapU, taken := false, missed := 0, first := false })
  else
    let s := (s.setReserves (r 0) (r 1) (r 2)).setJoin 5
    s.enterFollow

def execSettleTime (s : State) : Out := .next (match s.time.settleRaw with
    | some t => if s.alive ∧ s.role = rCLAIM ∧ t + s.rd F.TIME_CLAIMCFG_settle * 100 * tickUs ≤ s.raw then s.settle else s
    | none => s)

/-- Enter START: a candidate with an address listens, any other waits for lap frames (R108, R111). -/
def State.enterStart (s : State) : State :=
  let locked := s.on F.RING_STATE_locke || s.on F.RING_STATE_lockw
  if s.on F.TIME_STARTER_cand && decide (s.station ≠ 0 ∧ s.rd F.RING_CFG_rate < 2) then
    (s.setRole rLISTEN).setTime (fun t => { t with claims := [], listenRaw := if locked then some s.raw else none })
  else s.setRole rIDLE

/-- EIGHT_MISSED_LAPS (R111, R139): the station stops inserting and starts over. -/
def State.eightMissed (s : State) : State :=
  let s := (s.setTime (fun t => { t with missed := 0, nextLap := 0 })).setJoin 0
  let s := ((s.wr F.TIME_STATE_holdover 0).wr F.TIME_STATE_synced 0).wr F.TIME_STATE_rank 0
  (s.setRole rSTART).enterStart

def execEightMissedLaps (s : State) : Out :=
  .next (if s.alive ∧ (s.role = rFOLLOW ∨ s.role = rRESERVE) ∧ 8 ≤ s.time.missed then s.eightMissed else s)

/-- TAKEOVER by reserve k at the boundary just passed (R114). -/
def State.takeover (s : State) (dep0 dep1 : Nat) : State :=
  let k := s.rd F.TIME_STATE_rank
  let l := ([s.rd F.TIME_RESERVE_A_r1, s.rd F.TIME_RESERVE_A_r2, s.rd F.TIME_RESERVE_B_r3]).drop k
  let src := if s.time.ptp.any (fun p => p.role = 2) then s.rd F.TIME_STATE_src else 0
  let s := ((s.setRole rSTARTER).setReserves (l.getD 0 0) (l.getD 1 0) (l.getD 2 0)).wr F.TIME_STATE_src src
  let s := (s.wr F.TIME_STATE_holdover 0).event F.TIME_EVT_takeover
  let s := s.setRing (fun x => { x with starterRing := s.ringId, starterStation := s.station })
  (s.setTime (fun t => { t with missed := 0, tookOver := true })).sendLap dep0 dep1

def execTakeover (dep0 dep1 : Nat) (s : State) : Out :=
  .next (if s.alive ∧ s.role = rRESERVE ∧ s.rd F.TIME_STATE_rank ≠ 0 ∧ s.rd F.TIME_STATE_rank + 1 ≤ s.time.missed then s.takeover dep0 dep1 else s)

/-- The reference frame of a star coupler at rate 2 (R138, R139). -/
def State.forerunner (s : State) (f : RFrame) (subtick : Nat) : State :=
  let star : Int := (f.pw 3).toNat
  let own := s.convU s.raw subtick
  let lo := (f.pw 1).toNat
  let base := fun (hi : Int) => (hi * 2 ^ 32 + lo) * 65536000000000 + (getF (f.pw 2) 0 30 : Int) * 65536
  let h0 := (own / 65536000000000) / 2 ^ 32
  let d := fun (h : Int) => (base h - own).natAbs
  let hi := if d (h0 - 1) < d h0 then h0 - 1 else if d (h0 + 1) < d h0 then h0 + 1 else h0
  let start := base hi
  let cyc := getF (f.pw 0) 0 16
  let lap := s.lap + (cyc + 65536 - s.lap % 65536) % 65536
  let s := s.inc (F.RING_CNT_RXGOOD 0)
  let s := s.setTime (fun t => { t with nextLap := (lap + 1) % 2 ^ 48, nextStart := start + s.lapU, taken := true })
  let stamp : Int := (s.raw : Int) * 32 + subtick
  let s := s.setTime (fun t => { t with copy := some ⟨0, 0, stamp, start + star - own, star⟩ })
  let s := s.wrI F.TIME_OFFSET (satI 32 (start + star - own))
  let s := if s.mrshState = 0 then s else s.takeRef (s.refOf stamp star)
  let s := s.setRing (fun r => { r with good := updAt r.good 0 (· + 1) })
  if 2 ≤ s.ring.good.getD 0 0 ∧ s.rd F.RING_STATE_join ≠ 5 then
    let s := (s.wr F.RING_ID_station (s.rd F.MRSH_LEGACY_station)).wr F.RING_ID_ring (s.rd F.MRSH_LEGACY_ring)
    s.setJoin 5
  else s

def execForerunnerReferenceFrame (f : RFrame) (subtick : Fin 32) (s : State) : Out :=
  .next (if s.rxUp 0 ∧ s.rd F.RING_CFG_rate = 2 ∧ rxIs 0 f then
    if !headerGood f then s.inc (F.RING_CNT_HDRERR 0)
    else if !trailerGood f then (s.inc (F.RING_CNT_CRCERR 0)).setRing (fun r => { r with good := updAt r.good 0 (fun _ => 0) })
    else if f.length = 16 then s.forerunner f subtick else s
  else s)

/-- TIME_SNAPCTL.cap (R97). -/
def State.snapshot (s : State) : State :=
  let t := s.nowU
  let s := ((s.wr F.TIME_SNAP_RAW_LO s.rawLo).wr F.TIME_SNAP_RAW_HI s.rawHi).wr F.TIME_SNAP_SEC_LO (secOf t % 2 ^ 32)
  ((s.wr F.TIME_SNAP_SEC_HI (secOf t / 2 ^ 32)).wr F.TIME_SNAP_NS (nsOf t)).wr F.TIME_SNAP_FRAC (fracOf t)

def State.timeCntClr (s : State) : State := s.clearRegs 0x04090080 5

def execTimeSnapctlCap (s : State) : Out := .next (s.guardUp State.snapshot)
def execTimeSnapctlCntclr (s : State) : Out := .next (s.guardUp State.timeCntClr)

/-- Registers of a trigger (R118). -/
def trigRegs (n : Nat) : List Nat := (List.range 8).map (fun i => 0x04090100 + n * 32 + i * 4)

/-- Period and start of a trigger in 2^-16 ns, and the words that give them. -/
def State.trigStart (s : State) (n : Nat) : Int :=
  timeU (s.rd (F.TIME_TRIG1_ssec_lo n) + s.rd (F.TIME_TRIG2_ssec_hi n) * 2 ^ 32) (s.rd (F.TIME_TRIG3_sns n)) (s.rd (F.TIME_TRIG4_sfrac n))
def State.trigPeriod (s : State) (n : Nat) : Int := (s.rd (F.TIME_TRIG5_pns n) : Int) * 65536 + s.rd (F.TIME_TRIG6_pfrac n)

/-- Are a trigger's control word, period and width legal: a period that is not 0; a width that is not 0 where it is used, and shorter than the period
less 5 ns (R118)? -/
def trigPeriodOk (ctl pns : Word) : Bool := getF ctl 1 1 = 0 || pns ≠ 0
def trigWidthOk (ctl pns w : Word) : Bool :=
  (getF ctl 2 1 = 0 || getF w 16 16 ≠ 0) && (getF ctl 1 1 = 0 || decide ((getF w 16 16 : Int) * uTick < (pns.toNat : Int) * 65536 + getF w 0 16 - 5 * 65536))

def State.setTrig (s : State) (n : Nat) (f : TrigSt → TrigSt) : State := s.setTime (fun t => { t with trigs := updAt t.trigs n f })

/-- The first occurrence after `now` of a trigger that started at `st` (R119). -/
def nextOcc (st per now : Int) : Int := if st > now then st else st + ((now - st) / per + 1) * per

def State.missTrig (s : State) (n : Nat) : State := (s.wr (F.TIME_TRIG0_missed n) 1).event F.TIME_EVT_trigmiss

/-- A trigger's fields take effect (R118, R119). -/
def State.startTrig (s : State) (n : Nat) : State :=
  let now := s.nowU
  let st := s.trigStart n
  let count := s.rd (F.TIME_TRIG7_count n)
  if s.on (F.TIME_TRIG0_en n) = false then s.setTrig n (fun t => { t with next := none, left := none })
  else if s.on (F.TIME_TRIG0_periodic n) then
    let s := s.setTrig n (fun t => { t with next := some (nextOcc st (s.trigPeriod n) now), left := if count = 0 then none else some count })
    if st ≤ now then s.missTrig n else s
  else if st ≤ now then (s.setTrig n (fun t => { t with next := none, left := none })).missTrig n
  else s.setTrig n (fun t => { t with next := some st, left := some 1 })

/-- Does a profile generator drive TRIGn (R387)? -/
def State.motDrives (s : State) (n : Nat) : Bool :=
  (List.range 8).any (fun m => decide (s.rd (F.MOT_CFG_route m) = 1 ∧ s.rd (F.MOT_STEPIO_step m) = 0x80 + n))

/-- TIME_TRIGn_CTL.commit; its pin stays 0 while a generator drives it (R387); a width or period that R118 refuses leaves everything as it was. -/
def State.trigCommit (s : State) (n : Nat) : State :=
  let a := 0x04090100 + n * 32
  if trigPeriodOk (s.shown a) (s.shown (a + 0x14)) && trigWidthOk (s.shown a) (s.shown (a + 0x14)) (s.shown (a + 0x18)) then
    let s := s.commitRegs (trigRegs n)
    (if s.motDrives n then s.wr (F.TIME_TRIG0_pin n) 0 else s).startTrig n
  else s

def execTimeTrigCommit (n : Fin 8) (s : State) : Out := .next (s.guardUp (fun s => s.trigCommit n))

/-- A capture input's edge (R120). -/
def State.captureEdge (s : State) (n : Nat) (rising : Bool) : State :=
  let e := s.rd (F.TIME_CAPT0_edge n)
  if s.on (F.TIME_CAPT0_en n) && (e = 3 || (e = 1 && rising) || (e = 2 && !rising)) then
    (s.pushCapture n (if rising then 1 else 0)).sideBand 4 n 0
  else s

/-- Reads of the auxiliary words remove the head entry (R121). -/
def State.popCapture (s : State) (n : Nat) : State := (s.setTime (fun t => { t with capts := updAt t.capts n (fun l => l.drop 1) })).showCapture n
def State.popStamp (s : State) (q : Nat) : State := (s.setTime (fun t => { t with tsqs := updAt t.tsqs q (fun l => l.drop 1) })).showStamp q

def execTimeCaptAuxRead (n : Fin 8) (s : State) : Out := .next (s.guardUp (fun s => s.popCapture n))
def execTimeTsqAuxRead (q : Fin 6) (s : State) : Out := .next (s.guardUp (fun s => s.popStamp q))

def State.setPtp (s : State) (m : Nat) (f : PtpSt → PtpSt) : State := s.setTime (fun t => { t with ptp := updAt t.ptp m f })
def State.ptp (s : State) (m : Nat) : PtpSt := s.time.ptp.getD m PtpSt.init

/-- PTP_MESSAGE on an enabled MAC (R122, R123, R359): the offset it yields, if it yields one, and the sender. -/
def State.ptpMessage (s : State) (m src : Nat) (offset : Option Word) : State :=
  let x := s.ptp m
  let s := if s.isTier && s.rd F.RING_CFG_tiermac = m && x.profile = 2 then s.setNet (fun n => { n with partner := src }) else s
  match offset with
  | none => s
  | some o =>
    if x.role = 2 ∨ x.role = 3 then
      let s := s.setPtp m (fun y => { y with offset := o })
      if x.role = 2 ∧ s.isStarter then s.setTime (fun t => { t with acc := t.acc + o.toInt, accN := t.accN + 1, laps := t.laps + 1 })
      else s
    else s

def execPtpMessage (m : Fin 4) (src : Nat) (offset : Option Word) (s : State) : Out :=
  .next (if s.alive ∧ (s.ptp m).role ≠ 0 ∧ s.macLink m then s.ptpMessage m src offset else s)

def opTimeStarter (c : CmdRec) (s : State) : State :=
  match c.f 0 1 0 with
  | 0 =>
    if c.f 1 15 8 = 255 then s.badEnc c
    else
      let s := (s.wr F.TIME_STARTER_cand (c.f 1 0 0)).wr F.TIME_STARTER_prio (c.f 1 15 8)
      let s := if c.f 1 0 0 = 0 ∧ (s.role = rLISTEN ∨ s.role = rCLAIM) then s.setRole rIDLE else s
      s.done c []
  | 1 => if s.isStarter then (s.setReserves (c.f 1 11 0) (c.f 1 27 16) (c.f 2 11 0)).done c [] else s.fail c 0x0200 []
  | _ => s.badEnc c

/-- The step that TIME.SET carries, in 2^-16 ns. -/
def setStep (c : CmdRec) : Int := (c.pI 2 * 1000000000 + c.p 3) * 65536

/-- TIME.SET while laps run (R107, R124). -/
def State.setRunning (s : State) (c : CmdRec) : State :=
  let s := if c.f 0 0 0 = 1 then s.setTime (fun t => { t with rateReq := some (c.pI 1) }) else s
  let s := s.setTime (fun t => { t with servoReq := some (c.f 0 2 2) })
  if c.f 0 1 1 = 1 ∧ setStep c ≠ 0 then
    (s.setTime (fun t => { t with step := some (s.lap + 17, setStep c) })).done c [BitVec.ofNat 32 (s.lap + 17)]
  else s.done c [0]

def opTimeSet (c : CmdRec) (s : State) : State :=
  if c.f 0 1 1 = 1 ∧ c.p 3 > 999999999 then s.badParam c 3
  else if s.lapsRun then
    if c.f 0 1 1 = 1 ∧ s.isStarter = false then s.fail c 0x0200 [] else s.setRunning c
  else
    let st := c.f 0 1 1 = 1
    let s := if st ∨ c.f 0 0 0 = 1 then s.newSet st (if st then setStep c else 0) (if c.f 0 0 0 = 1 then c.pI 1 else s.rate) else s
    (s.wr F.TIME_SERVO_en (c.f 0 2 2)).done c [0]

def opTimeAsym (c : CmdRec) (s : State) : State :=
  if c.f 0 0 0 = 0 then
    let p := c.f 0 4 4
    let s := if s.lapsRun then s.setTime (fun t => { t with asymReq := t.asymReq ++ [(p, c.pw 1)] }) else s.putAsym p (c.pw 1)
    s.done c []
  else if s.isStarter then s.setTime (fun t => { t with asymRun := some ⟨c.seq, 256, [none, none], 0, 0⟩ })
  else s.fail c 0x0200 []

def opTimeTrig (c : CmdRec) (s : State) : State :=
  let n := c.f 0 2 0
  let a := 0x04090100 + n * 32
  if !trigPeriodOk (c.pw 1) (c.pw 6) then s.badEnc c
  else if !trigWidthOk (c.pw 1) (c.pw 6) (c.pw 7) then s.badParam c 7
  else if s.motDrives n && decide (c.f 1 2 2 = 1) then s.fail c 0x0200 []
  else ((s.putCfgs ((List.range 8).map (fun i => (a + i * 4, c.pw (i + 1))))).startTrig n).done c []

def opTimeCapt (c : CmdRec) (s : State) : State :=
  let n := c.f 0 2 0
  if c.f 1 2 1 = 0 then s.badEnc c
  else
    let s := (s.wr (F.TIME_CAPT0_en n) (c.f 1 0 0)).wr (F.TIME_CAPT0_edge n) (c.f 1 2 1)
    let s := if c.f 1 8 8 = 1 then s.wr (F.TIME_CAPT0_ovf n) 0 else s
    s.done c []

def opTimeUtc (c : CmdRec) (s : State) : State :=
  if s.lapsRun ∧ s.isStarter = false then s.fail c 0x0200 [] else (s.wr F.TIME_UTC (c.f 0 15 0)).done c []

/-- The time source in use, from the roles of the MACs (R122, R123). -/
def State.showSource (s : State) : State :=
  let slaves := (List.range 4).filter (fun m => (s.ptp m).role = 2)
  let tier := s.isTier && slaves.contains (s.rd F.RING_CFG_tiermac)
  s.wr F.TIME_STATE_src (if tier then 2 else if slaves.isEmpty then 0 else 1)

def opTimePtp (c : CmdRec) (s : State) : State :=
  if c.f 0 5 4 = 3 then s.badEnc c
  else if c.f 0 3 2 = 2 ∧ s.isStarter = false then s.fail c 0x0200 []
  else
    let s := s.setPtp (c.f 0 1 0) (fun x => { x with role := c.f 0 3 2, profile := c.f 0 5 4, domain := c.f 0 15 8, intervals := c.pw 1 })
    s.showSource.done c []

def opTimeStatus (c : CmdRec) (s : State) : State :=
  s.done c [s.reg 0x04090000, s.reg F.TIME_OFFSET.addr, (s.ptp (c.f 0 1 0)).offset, s.reg 0x04090040]

def execTimeStarter (seq : Nat) (s : State) : Out := .next (s.runCmd 0x0300 seq opTimeStarter)
def execTimeSet (seq : Nat) (s : State) : Out := .next (s.runCmd 0x0301 seq opTimeSet)
def execTimeAsym (seq : Nat) (s : State) : Out := .next (s.runCmd 0x0302 seq opTimeAsym)
def execTimeTrig (seq : Nat) (s : State) : Out := .next (s.runCmd 0x0303 seq opTimeTrig)
def execTimeCapt (seq : Nat) (s : State) : Out := .next (s.runCmd 0x0304 seq opTimeCapt)
def execTimeUtc (seq : Nat) (s : State) : Out := .next (s.runCmd 0x0305 seq opTimeUtc)
def execTimePtp (seq : Nat) (s : State) : Out := .next (s.runCmd 0x0306 seq opTimePtp)
def execTimeStatus (seq : Nat) (s : State) : Out := .next (s.runCmd 0x0307 seq opTimeStatus)

/-- RING_CTL and MRSH_CTL rows of the marshal (R127, R133, R140). -/
def execMrshCtlCommit (id : Ident) (s : State) : Out := .next (s.guardBs id 0x040B0008 State.mrshCommit)
def execMrshCtlRejoin (id : Ident) (s : State) : Out := .next (s.guardBs id 0x040B0008 State.leaveOut)
def execMrshWlogRead (s : State) : Out := .next (s.guardUp State.popWlog)

end Sys2Proof.Machine
end

