-- ==== Sys2Proof/Machine/Net.lean ====
section
/-! DEFINITION. The Ethernet ports and the switch (chapter 13): ingress, lookup and learning, the host and engine ports, egress with its gates, the NET
commands and the events of the links. -/
namespace Sys2Proof.Machine
open Sys2Proof

/-- The MAC a channel of an engine is bound to (R279). -/
def State.macEp (s : State) (e c : Nat) : Option Nat :=
  if s.rd (F.ENG_CHCFG_endpoint e c) = 2 then some (s.rd (F.ENG_CHCFG_unit e c) % 4) else none

/-- Is the MAC reserved to the endpoints bound to it (R362)? -/
def State.macResv (s : State) (m : Nat) : Bool := s.on (F.MAC_CFG_resv m)

/-- Endpoints nn × 8 + c bound to MACs that meet a condition. -/
def State.endpoints (s : State) (p : Nat → Nat → Bool) : List Nat :=
  (List.range 128).filter (fun ep => match s.macEp (ep / 8) (ep % 8) with | some m => p ep m | none => false)

/-- Does a flooded frame pass an endpoint's filter (R374, NET.PORT)? -/
def State.epFilter (s : State) (ep etype : Nat) : Bool :=
  match slook s.net.filters ep with
  | some t => decide (t = 0 ∨ t = etype)
  | none => true

/-- Words of the engine port's queue move into the channel FIFO of their endpoint while it has room (R374). -/
def State.netFill (s : State) (ep : Nat) : Nat → State
  | 0 => s
  | n + 1 =>
    match s.net.engq.find? (fun x => x.1 = ep) with
    | none => s
    | some (_, f, ws) =>
      let l := s.chRx (ep / 8) (ep % 8)
      let room := 16 - l.length
      let left := ws.drop room
      let s := s.setRx (ep / 8) (ep % 8) (l ++ ws.take room)
      let pre := s.net.engq.takeWhile (fun x => x.1 ≠ ep)
      let post := (s.net.engq.dropWhile (fun x => x.1 ≠ ep)).tail
      if left.isEmpty then (s.setNet (fun x => { x with engq := pre ++ post })).showPool.netFill ep n
      else s.setNet (fun x => { x with engq := pre ++ (ep, f, left) :: post })

/-- A receive record (R374). -/
def State.rxRecord (s : State) (ing : Nat) (f : SwFrame) : List Word :=
  let n := f.data.length
  [BitVec.ofNat 32 (f.cls * 2 ^ 28 + ing * 2 ^ 24 + f.vid * 2 ^ 12 + n), BitVec.ofNat 32 s.rawLo, BitVec.ofNat 32 s.rawHi]
    ++ bytesToWords (f.data ++ List.replicate ((4 - n % 4) % 4) 0)

/-- Admit a frame for one endpoint at the engine port (R366, R374). -/
def State.engPut (s : State) (ing : Nat) (f : SwFrame) (shared : Bool) (ep : Nat) : Bool × State :=
  let n := cells f.data.length
  let used := fun (k : Option Nat) => cellSum ((s.net.engq.map (fun e => e.2.1)).filter (fun g => k.isNone || k = some g.cls))
  if used (some f.cls) + n ≤ s.classLimit 7 f.cls ∧ used none + n ≤ s.rd (F.SW_PLIM_cells 7) ∧ (shared = true ∨ s.poolUsed + n ≤ 6144) then
    (true, ((s.setNet (fun x => { x with engq := x.engq ++ [(ep, f, s.rxRecord ing f)] })).showPool).netFill ep 256)
  else (false, s)

/-- One egress of a frame: a MAC (2–5), the host port (6), or an endpoint (8 + endpoint); a refused one is dropped and counted (R367). -/
def State.egressOne (s : State) (ing : Nat) (f : SwFrame) (shared : Bool) (p : Nat) : Bool × State :=
  let r := if p < 6 then s.admitMac (p - 2) f shared else if p = 6 then s.hostPut ing f else s.engPut ing f shared (p - 8)
  if r.1 then r
  else (false, if p = 6 then r.2.inc F.SW_CNT_HOSTDROP else r.2.inc (F.SW_CNT_DROP (min p 7)))

/-- Is an address a group address? -/
def isGroup (mac : Nat) : Bool := mac.testBit 40

def SwFrame.dst (f : SwFrame) : Nat := macOf (f.data.take 6)
def SwFrame.src (f : SwFrame) : Nat := macOf ((f.data.drop 6).take 6)
def SwFrame.etype (f : SwFrame) : Nat := macOf ((f.data.drop 12).take 2)

/-- Where a frame from switch port `ing` goes: the egresses, and whether it is flooded (R362, R374). -/
def State.lookup (s : State) (ing : Nat) (f : SwFrame) : List Nat × Bool :=
  match s.net.fdb.find? (fun e => e.vid = f.vid && e.mac = f.dst) with
  | some e =>
    let ports := (ones 7 e.port).filter (fun p => 2 ≤ p ∧ p ≠ ing)
    let eng := if e.port.testBit 7 && ing ≠ 7 && (s.macEp (e.ep / 8) (e.ep % 8)).isSome then [8 + e.ep] else []
    (ports ++ eng, false)
  | none =>
    let mask := if isGroup f.dst then s.rd F.SW_FLOOD_mcast else s.rd F.SW_FLOOD_ucast
    let eps := if ing = 7 then [] else s.endpoints (fun ep m => !s.macResv m && s.epFilter ep f.etype)
    ((ones 7 mask).filter (fun p => 2 ≤ p ∧ p ≠ ing) ++ eps.map (8 + ·), true)

/-- Does a classifier entry match (R375)? -/
def classHit (ing : Nat) (f : SwFrame) (w : List Word) : Bool :=
  let mask := getF (wAt w 3) 16 16 * 2 ^ 32 + 0xFFFFFFFF
  let addr := getF (wAt w 3) 0 16 * 2 ^ 32 + nAt w 2
  (getF (wAt w 0) 0 8).testBit ing && (getF (wAt w 0) 16 16 = 0 || getF (wAt w 0) 16 16 = f.etype)
    && (getF (wAt w 1) 0 12 = 0 || getF (wAt w 1) 0 12 = f.vid) && f.dst &&& mask = addr &&& mask

/-- Send a frame to its egresses, and its mirrored copy to the analysis port (R368, R375). -/
def State.spread (s : State) (ing : Nat) (f : SwFrame) (ports : List Nat) : State :=
  let r := ports.foldl (fun (r : Bool × Bool × State) p =>
    let q := r.2.2.egressOne ing f r.1 p
    (r.1 || q.1, r.2.1 || (q.1 && q.2.mirOut (min p 7)), q.2)) (false, false, s)
  let s := r.2.2
  let hit := s.mirIn ing || r.2.1 || s.net.classifier.any (fun e => classHit ing f e.2)
  if hit then s.mirrorCopy ing f r.1 else s

/-- A frame enters the switch at port `ing` (R362, R365–R368). -/
def State.switchIn (s : State) (ing : Nat) (f : SwFrame) : State :=
  let f := { f with id := s.net.nextId }
  let s := s.takeId
  let r := s.lookup ing f
  (if r.2 then s.inc F.SW_CNT_FLOOD else s).spread ing f r.1

/-- Learning (R363): the source address and VID stand on port `p`, unless a static entry has them or the table is full. -/
def State.learn (s : State) (p : Nat) (f : SwFrame) : State :=
  let hit := fun (e : FdbEnt) => e.vid = f.vid && e.mac = f.src
  if isGroup f.src then s
  else if s.net.fdb.any (fun e => e.mac = f.src && e.static && (e.vid = f.vid)) then s
  else if s.net.fdb.any hit then
    s.setNet (fun n => { n with fdb := n.fdb.map (fun e => if hit e then { e with port := 2 ^ p, ep := 0, raw := s.raw } else e) })
  else if s.net.fdb.length ≥ 8192 then s.inc F.SW_CNT_LEARNFULL
  else s.setNet (fun n => { n with fdb := n.fdb ++ [⟨f.vid, f.src, 2 ^ p, false, 0, s.raw⟩] })

/-- EtherType of raw frame bytes, at offset `o`. -/
def etypeAt (bs : List Byte) (o : Nat) : Nat := macOf ((bs.drop o).take 2)

/-- Remove the first 802.1Q tag; the frame with its VID, PCP and class (R361). -/
def State.untag (s : State) (m : Nat) (bs : List Byte) : SwFrame :=
  let cls := fun (pcp : Nat) => s.rd (subFld (F.MAC_PCPMAP m) (3 * pcp) 3)
  let pvid := s.rd (F.MAC_VLAN_pvid m)
  if etypeAt bs 12 = 0x8100 then
    let tci := etypeAt bs 14
    let pcp := tci / 2 ^ 13
    ⟨bs.take 12 ++ bs.drop 16, if tci % 4096 = 0 then pvid else tci % 4096, pcp, cls pcp, none, 0⟩
  else ⟨bs, pvid, s.rd (F.MAC_VLAN_pcp m), cls (s.rd (F.MAC_VLAN_pcp m)), none, 0⟩

/-- Does the MAC accept a frame of these bytes before its FCS (R361)? -/
def State.macAccepts (s : State) (m : Nat) (fcs : Bool) (bs : List Byte) : Bool :=
  fcs && decide (64 ≤ bs.length + 4 ∧ bs.length + 4 ≤ s.rd (F.MAC_CFG_maxlen m))

/-- Is this MAC the tier link of this station, and the frame a tier-link frame (R359)? -/
def State.isTierFrame (s : State) (m : Nat) (bs : List Byte) : Bool :=
  s.isTier && decide (s.rd F.RING_CFG_tiermac = m) && decide (etypeAt bs 12 = 0x88B5)

def isPause (bs : List Byte) : Bool := decide (etypeAt bs 12 = 0x8808 ∧ etypeAt bs 14 = 1)

/-- A frame received on MAC `m`: its bytes from the destination address to before the FCS (R361–R363). -/
def State.ethIn (s : State) (m : Nat) (fcs : Bool) (bs : List Byte) : State :=
  if !s.macLink m || isPause bs || s.isTierFrame m bs then s
  else if !s.macAccepts m fcs bs then s.inc (F.MAC_CNT_RXBAD m)
  else
    let s := s.inc (F.MAC_CNT_RXOK m)
    let f := s.untag m bs
    if s.macResv m then
      let f := { f with id := s.net.nextId }
      (s.takeId.spread (m + 2) f ((s.endpoints (fun _ k => k = m)).map (8 + ·))).learn (m + 2) f
    else (s.switchIn (m + 2) f).learn (m + 2) f
def execEthernetFrameReceived (m : Fin 4) (fcs : Bool) (bs : List Byte) (s : State) : Out := .next (s.guardUp (fun s => s.ethIn m fcs bs))

/-- The ring frame that a tier-link frame carries (R359). -/
def tierInner (bs : List Byte) : RFrame :=
  let ws := bytesToWords (bs.take 16)
  let n := getF (wAt ws 1) 0 12
  let p := (bs.drop 16).take n
  ⟨wAt ws 0, wAt ws 1, wAt ws 2, wAt ws 3, p, wAt (bytesToWords ((bs.drop (16 + n)).take 4)) 0, decide (bs.length < 20 + n)⟩

/-- A tier-link frame (R359): handed to ring egress as if the station had inserted it, in the direction in effect and with no hop travelled; a refused
frame is dropped and counted (R367). -/
def State.tierIn (s : State) (m : Nat) (fcs : Bool) (bs : List Byte) : State :=
  if !s.macLink m || !s.isTierFrame m bs then s
  else if !s.macAccepts m fcs bs then s.inc (F.MAC_CNT_RXBAD m)
  else
    let s := s.inc (F.MAC_CNT_RXOK m)
    let s := if s.mirIn (m + 2) then s.takeId.mirrorCopy (m + 2) ⟨bs, 0, 0, 0, none, s.net.nextId⟩ false else s
    let f := tierInner (bs.drop 14)
    let d := s.odir
    if !headerGood f || !trailerGood f || f.cls = 0 then s
    else
      let g := RFrame.seal { f with w2 := setF f.w2 0 12 0, w3 := setF f.w3 9 1 d }
      if s.ringAdmits d f.cls f.bytes then (s.pushIns d ⟨g, false, false⟩).showPool else s.inc (F.SW_CNT_DROP d)
def execTierLinkFrame (m : Fin 4) (fcs : Bool) (bs : List Byte) (s : State) : Out := .next (s.guardUp (fun s => s.tierIn m fcs bs))

/-- Ticks of `n` bit times at a MAC's speed, rounded up. -/
def State.bitTicks (s : State) (m n : Nat) : Nat :=
  match s.rd (F.MAC_STAT_speed m) with | 0 => n * 40 | 1 => n * 4 | _ => (n * 2 + 4) / 5

/-- A PAUSE frame (R364). -/
def State.pauseIn (s : State) (m : Nat) (fcs : Bool) (quanta : Nat) : State :=
  if !s.macLink m then s
  else if !fcs then s.inc (F.MAC_CNT_RXBAD m)
  else
    let s := s.inc (F.MAC_CNT_RXOK m)
    if !s.on (F.MAC_CFG_pause m) then s.inc (F.MAC_CNT_PAUSEIGN m)
    else (s.wr (F.MAC_STAT_paused m) (if quanta = 0 then 0 else 1)).setMac m (fun x => { x with pauseEnd := s.raw + s.bitTicks m (quanta * 512) })
def execPauseFrame (m : Fin 4) (fcs : Bool) (quanta : Fin 65536) (s : State) : Out := .next (s.guardUp (fun s => s.pauseIn m fcs quanta))

def execPauseEnd (m : Fin 4) (s : State) : Out :=
  .next (s.guardUp (fun s => if s.raw ≥ (s.mac m).pauseEnd then s.wr (F.MAC_STAT_paused m) 0 else s))

/-- Entries of a MAC's gate list: open queues and interval in ns (R370). -/
def State.gcl (s : State) (m : Nat) : List (Nat × Nat) :=
  (List.range (s.rd (F.MAC_GCFG_entries m))).map (fun i => (s.rd (F.MAC_GCL m i) / 2 ^ 24, s.rd (F.MAC_GCL m i) % 2 ^ 24))

/-- An aligned list does not run while the station is neither MEMBER nor in holdover (R370). -/
def State.noalign (s : State) (m : Nat) : Bool :=
  s.on (F.MAC_GCFG_en m) && s.on (F.MAC_GCFG_align m) && decide (s.rd F.RING_STATE_join ≠ 5) && !s.on F.TIME_STATE_holdover

/-- The status word of a MAC as a read finds it. -/
def State.macStat (s : State) (m : Nat) : Word := setF (s.reg (F.MAC_STAT_link m).addr) 6 1 (if s.noalign m then 1 else 0)

/-- Presented end of the running cycle (R370). -/
def State.gateEnd (s : State) (m : Nat) : Int :=
  (s.mac m).gstart + (if s.on (F.MAC_GCFG_align m) then 2 ^ s.rd (F.MAC_GCFG_per m) * s.lapU else (s.rd (F.MAC_GCYCLE m) : Int) * 65536)

/-- The rest of a cycle from time `t` to `e`: end and open queues of each interval; the last entry holds until the cycle ends (R370). -/
def gateSegs (t e : Int) : List (Nat × Nat) → List (Int × Nat)
  | [] => []
  | (q, n) :: rest =>
    if t ≥ e then []
    else if rest.isEmpty then [(e, q)]
    else (min (t + (n : Int) * 65536) e, q) :: gateSegs (t + (n : Int) * 65536) e rest

/-- Presented start of entry `i` in the running cycle. -/
def State.entryStart (s : State) (m i : Nat) : Int :=
  (s.mac m).gstart + (((s.gcl m).take i).foldl (fun n e => n + e.2) 0 : Nat) * (65536 : Int)

/-- When the gate of queue `c` next closes: none while it stands open for good; `some none` while it is closed (R370). -/
def State.gateClose (s : State) (m c : Nat) : Option (Option Int) :=
  match (s.mac m).gpos with
  | none => none
  | some i =>
    if !s.on (F.MAC_GCFG_en m) || s.noalign m then none
    else
      let l := s.gcl m
      let e := s.gateEnd m
      let now := gateSegs (s.entryStart m i) e (l.drop i)
      let next := gateSegs e (e + (e - (s.mac m).gstart)) l
      match (now ++ next).takeWhile (fun x => x.2.testBit c) with
      | [] => some none
      | open_ => if open_.length = (now ++ next).length then none else some (some (open_.getLastD (e, 0)).1)

/-- Tag as it leaves: whether an inserted tag stands in the frame (R371). -/
def State.tagged (s : State) (m : Nat) (vid : Nat) : Bool :=
  match s.rd (F.MAC_VLAN_tag m) with
  | 0 => false
  | 1 => true
  | _ => decide (vid ≠ s.rd (F.MAC_VLAN_pvid m))

/-- The bytes that leave for a queued frame (R371, R373). -/
def State.outBytes (s : State) (m : Nat) (f : SwFrame) : List Byte :=
  let vid := if f.vid = 0 then s.rd (F.MAC_VLAN_pvid m) else f.vid
  let tci := f.cls * 2 ^ 13 + vid
  if s.tagged m vid && !s.isTierFrame m f.data then
    f.data.take 12 ++ [0x81, 0x00, BitVec.ofNat 8 (tci / 256), BitVec.ofNat 8 tci] ++ f.data.drop 12
  else f.data

/-- Time on the wire of preamble and frame with its FCS, in 2^-16 ns (R370). -/
def State.wireTime (s : State) (m n : Nat) : Int :=
  ((n + 12 : Nat) : Int) * 65536 * (match s.rd (F.MAC_STAT_speed m) with | 0 => 800 | 1 => 80 | _ => 8)

/-- May the head of queue `c` start now (R369, R370)? -/
def State.macMayStart (s : State) (m c : Nat) : Bool :=
  match ((s.mac m).queues.getD c []).head? with
  | none => false
  | some f =>
    match s.gateClose m c with
    | none => true
    | some none => false
    | some (some t) => decide (s.nowU + s.wireTime m (s.outBytes m f).length ≤ t)

/-- A frame start at a MAC (R369, R371): the head of the highest queue that may start leaves; one too long with its tag is dropped. -/
def State.egressStart (s : State) (m subtick : Nat) : State :=
  if !s.macLink m || s.on (F.MAC_STAT_paused m) then s
  else
    match [7, 6, 5, 4, 3, 2, 1, 0].find? (fun c => s.macMayStart m c) with
    | none => s
    | some c =>
      match (s.mac m).queues.getD c [] with
      | [] => s
      | f :: t =>
        let s := (s.setMac m (fun x => { x with queues := updAt x.queues c (fun _ => t) })).showPool
        let bs := s.outBytes m f
        if bs.length + 4 > s.rd (F.MAC_CFG_maxlen m) then s.inc (F.MAC_CNT_TXLONG m)
        else
          let s := (s.inc (F.MAC_CNT_TXOK m)).emit (.ethFrame m bs)
          match f.stamp with
          | some i => s.pushStamp (m + 2) s.raw i subtick
          | none => s
def execEgressFrameStart (m : Fin 4) (subtick : Fin 32) (s : State) : Out := .next (s.guardUp (fun s => s.egressStart m subtick))

/-- The registers of a gate list (R370), and those of MACn_CTL.commit. -/
def gateRegs (m : Nat) : List Nat :=
  [(F.MAC_GCFG_en m).addr, (F.MAC_GBASE_SLO m).addr, (F.MAC_GBASE_SHI m).addr, (F.MAC_GBASE_NS m).addr, (F.MAC_GCYCLE m).addr]
    ++ (List.range 64).map (fun i => (F.MAC_GCL m i).addr)
def macRegs (m : Nat) : List Nat := [(F.MAC_CFG_phy m).addr, (F.MAC_VLAN_tag m).addr, (F.MAC_PCPMAP m).addr, (F.MAC_PLCA_node m).addr]

/-- Show what is written and not yet in effect. -/
def State.showMac (s : State) (m : Nat) : State :=
  (s.wr (F.MAC_STAT_pending m) (if s.anyShadow (macRegs m) then 1 else 0)).wr (F.MAC_STAT_gpending m) (if s.anyShadow (gateRegs m) then 1 else 0)

/-- Base time of the committed list, or of the one written, in 2^-16 ns. -/
def State.gateBase (s : State) (m : Nat) : Int :=
  timeU (s.rdS (F.MAC_GBASE_SLO m) + s.rdS (F.MAC_GBASE_SHI m) * 2 ^ 32) (s.rdS (F.MAC_GBASE_NS m)) 0

/-- The first cycle start at or after now of the list as written (R370). -/
def State.nextCycle (s : State) (m : Nat) : Option Int :=
  let per := (s.rdS (F.MAC_GCYCLE m) : Int) * 65536
  if per = 0 then none else some (nextOcc (s.gateBase m) per (s.nowU - 1))

/-- The list written takes effect (R370): one by base time then starts at its next cycle start, an aligned one at its next boundary. -/
def State.gateApply (s : State) (m : Nat) : State :=
  let due := if s.rdS (F.MAC_GCFG_en m) = 1 ∧ s.rdS (F.MAC_GCFG_align m) = 0 then s.nextCycle m else none
  ((s.commitRegs (gateRegs m)).setMac m (fun x => { x with greq := false, gpos := none, gdue := due })).showMac m

/-- Does a list run? -/
def State.gateRuns (s : State) (m : Nat) : Bool := (s.mac m).gpos.isSome && s.on (F.MAC_GCFG_en m)

/-- gcommit (R370): the new list takes effect at the next cycle start; with none running, of its own cycles, and at once where it is not enabled. -/
def State.gateCommit (s : State) (m : Nat) : State :=
  if s.gateRuns m then s.setMac m (fun x => { x with greq := true })
  else if s.rdS (F.MAC_GCFG_en m) = 1 ∧ s.rdS (F.MAC_GCFG_align m) = 1 then s.setMac m (fun x => { x with greq := true })
  else if s.rdS (F.MAC_GCFG_en m) = 0 then s.gateApply m
  else s.setMac m (fun x => { x with greq := true, gdue := s.nextCycle m })

/-- A cycle starts at presented time `t`. -/
def State.gateStart (s : State) (m : Nat) (t : Int) : State := s.setMac m (fun x => { x with gpos := some 0, gstart := t, gdue := none })

/-- A gate list interval ends (R370): a list by base time starts or restarts, or the next entry opens its queues. -/
def State.gateTick (s : State) (m : Nat) : State :=
  let x := s.mac m
  match x.gdue, x.gpos with
  | some t, _ =>
    if s.nowU ≥ t then ((if x.greq then s.gateApply m else s).gateStart m t) else s
  | none, some i =>
    if !s.gateRuns m then s
    else if !s.on (F.MAC_GCFG_align m) && decide (s.nowU ≥ s.gateEnd m) then
      (if x.greq then s.gateApply m else s.gateStart m (s.gateEnd m))
    else if i + 1 < (s.gcl m).length ∧ s.nowU ≥ s.entryStart m (i + 1) then s.setMac m (fun x => { x with gpos := some (i + 1) })
    else s
  | none, none => s
def execGateControlListInterval (m : Fin 4) (s : State) : Out := .next (s.guardUp (fun s => s.gateTick m))

/-- A lap boundary at a MAC (R370): an aligned list restarts where the lap number is a multiple of its period, a waiting list taking effect first. -/
def State.macBoundary (s : State) (m : Nat) : State :=
  let x := s.mac m
  let at_ := fun (per : Nat) => decide (s.lap % 2 ^ per = 0)
  let turn := if s.gateRuns m then s.on (F.MAC_GCFG_align m) && at_ (s.rd (F.MAC_GCFG_per m))
    else decide (s.rdS (F.MAC_GCFG_align m) = 1) && at_ (s.rdS (F.MAC_GCFG_per m))
  let s := if x.greq && turn then s.gateApply m else s
  if s.on (F.MAC_GCFG_en m) && s.on (F.MAC_GCFG_align m) && at_ (s.rd (F.MAC_GCFG_per m)) then s.gateStart m s.time.lapStart else s
def State.netBoundary (s : State) : State := s.each (List.range 4) (fun m s => s.macBoundary m)

/-- The link goes down (R372). -/
def State.linkDown (s : State) (m : Nat) : State :=
  let n := (s.mac m).queues.flatten.length
  let s := (s.addc (F.MAC_CNT_TXFLUSH m) n).setMac m (fun x => { x with queues := List.replicate 8 [] })
  ((s.wr (F.MAC_STAT_link m) 0).wr (F.MAC_STAT_paused m) 0).showPool
def execLinkDown (m : Fin 4) (s : State) : Out := .next (s.guardUp (fun s => if s.macLink m then s.linkDown m else s))

/-- The link comes up, at the speed of its mode, or at the one negotiated (R356). -/
def State.linkUp (s : State) (m neg : Nat) : State :=
  let ph := s.rd (F.MAC_CFG_phy m)
  if ph = 0 then s
  else (s.wr (F.MAC_STAT_link m) 1).wr (F.MAC_STAT_speed m) (match ph with | 1 => 0 | 2 => 1 | 3 => 2 | 4 => neg | _ => 0)
def execLinkUp (m : Fin 4) (neg : Fin 3) (s : State) : Out := .next (s.guardUp (fun s => s.linkUp m neg))

/-- Entry `i` of the address table has not been refreshed for the age limit (R363). -/
def State.ageEntry (s : State) (i : Nat) : State :=
  match s.net.fdb[i]? with
  | none => s
  | some e =>
    if !e.static && decide (s.raw ≥ e.raw + s.rd F.SW_AGE_age * 1000 * tickMs) then s.setNet (fun n => { n with fdb := n.fdb.eraseIdx i }) else s
def execLearnedEntryAging (i : Fin 8192) (s : State) : Out := .next (s.guardUp (fun s => s.ageEntry i))

/-- A duplicate PLCA node (R357). -/
def execPlcaDuplicateNode (m : Fin 4) (s : State) : Out :=
  .next (s.guardUp (fun s =>
    if s.rd (F.MAC_CFG_phy m) = 5 then (s.wr (F.MAC_STAT_plcaerr m) 1).setMac m (fun x => { x with plcaFall := true }) else s))

/-- Commit of a MAC's configuration (R356, R357): a PHY powered down has its link down. -/
def State.macCommit (s : State) (m : Nat) : State :=
  let s := ((s.commitRegs (macRegs m)).setMac m (fun x => { x with plcaFall := false })).showMac m
  if s.rd (F.MAC_CFG_phy m) = 0 && s.macLink m then s.linkDown m else s

def State.macCntClr (s : State) (m : Nat) : State := s.clearRegs (F.MAC_CNT_RXOK m).addr 6
def swLimits : List Nat := (List.range 8).map (fun p => (F.SW_PLIM_cells p).addr) ++ (List.range 16).map (fun i => (F.SW_CLIM 0 0).addr + 4 * i)
def State.showSw (s : State) : State := s.wr F.SW_STAT_pending (if s.anyShadow swLimits then 1 else 0)
def State.swCommit (s : State) : State := (s.commitRegs swLimits).showSw
def State.swCntClr (s : State) : State := (s.clearRegs F.SW_CNT_FLOOD.addr 4).clearRegs (F.SW_CNT_DROP 0).addr 8

def State.macGuard (s : State) (id : Ident) (m : Nat) (f : State → State) : State := s.guardBs id (F.MAC_CTL_commit m).addr f
def execMacCtlCommit (id : Ident) (m : Fin 4) (s : State) : Out := .next (s.macGuard id m (fun s => s.macCommit m))
def execMacCtlGcommit (id : Ident) (m : Fin 4) (s : State) : Out := .next (s.macGuard id m (fun s => s.gateCommit m))
def execMacCtlCntclr (id : Ident) (m : Fin 4) (s : State) : Out := .next (s.macGuard id m (fun s => s.macCntClr m))
def execSwCtlCommit (id : Ident) (s : State) : Out := .next (s.guardBs id F.SW_CTL_commit.addr State.swCommit)
def execSwCtlCntclr (id : Ident) (s : State) : Out := .next (s.guardBs id F.SW_CTL_commit.addr State.swCntClr)

/-- Read `n` bytes of a space: local memory, or the next bytes that host memory gave, where Bus Master Enable allows the read (R451). -/
def State.getSpace (s : State) (host : Bool) (a n : Nat) (got : List Byte) : Option (List Byte) × List Byte × State :=
  if host then
    if s.bme s.hrFn && decide (n ≤ got.length) then (some (got.take n), got.drop n, s) else (none, got, s)
  else
    let lo := a / 4 * 4
    match s.rdList 0x29 lo ((a + n - lo + 3) / 4) with
    | (some ws, s) => (some (((wordsToBytes ws).drop (a - lo)).take n), got, s)
    | (none, s) => (none, got, s)

/-- Send a host frame: class, VID, stamp as its descriptor gives (R373). -/
def State.hostFrame (s : State) (d : List Word) (bs : List Byte) : State :=
  let w2 := wAt d 2
  if bs.length < 60 then s
  else s.switchIn 6 ⟨bs, getF (wAt d 3) 0 12, getF w2 27 3, getF w2 27 3, if getF w2 30 1 = 1 then some (wAt d 4) else none, 0⟩

/-- Serve the transmit ring while the device may use its next descriptor (R373); a host read that fails costs its frame (R451). -/
def State.txRing (s : State) (got : List Byte) (fail : Bool) : Nat → State
  | 0 => s
  | n + 1 =>
    if !s.hrUp 0 || decide (s.rd (F.SW_HR3_dev 0) = s.rd (F.SW_HR3_sw 0) % s.hrSize 0) then s
    else
      let h := s.hrHost 0
      let a := s.hrDesc 0
      match s.getSpace h a 32 got with
      | (none, _, s) => if fail then s.inc F.SW_CNT_HOSTDROP else s
      | (some bs, got, s) =>
        let d := bytesToWords bs
        let w2 := wAt d 2
        if getF w2 31 1 = 0 then s
        else
          let closed := fun (s : State) => (s.putSpace h (a + 8) (wordsToBytes [setF w2 31 1 0])).hrStep 0
          match s.getSpace (decide (getF w2 26 1 = 1)) ((wAt d 0).toNat + (wAt d 1).toNat * 2 ^ 32) (getF w2 0 12) got with
          | (none, got, s) =>
            if fail || getF w2 26 1 = 0 then (closed (s.inc F.SW_CNT_HOSTDROP)).txRing got fail n else s
          | (some fr, got, s) => (closed (s.hostFrame d fr)).txRing got fail n

/-- Fetch the descriptors that software has returned to a receive ring in host memory (R373). -/
def State.fetchRx (s : State) (got : List Byte) : Nat → State
  | 0 => s
  | n + 1 =>
    let i := (s.rd (F.SW_HR3_dev 1) + s.net.hdesc.length) % s.hrSize 1
    if !s.hrUp 1 || !s.hrHost 1 || !s.bme s.hrFn || decide (i = s.rd (F.SW_HR3_sw 1) % s.hrSize 1 ∨ got.length < 32) then s
    else (s.setNet (fun x => { x with hdesc := x.hdesc ++ [bytesToWords (got.take 32)] })).fetchRx (got.drop 32) n

def State.htxWrite (s : State) (v : Nat) (env : Env) : State := (s.wr (F.SW_HR3_sw 0) v).txRing env.host env.hostFail 4096
def State.hrxWrite (s : State) (v : Nat) (env : Env) : State := (s.wr (F.SW_HR3_sw 1) v).fetchRx env.host 4096
def execSwHtxIndexWrite (_id : Ident) (v : Fin 4096) (env : Env) (s : State) : Out := .next (s.guardUp (fun s => s.htxWrite v env))
def execSwHrxIndexWrite (_id : Ident) (v : Fin 4096) (env : Env) (s : State) : Out := .next (s.guardUp (fun s => s.hrxWrite v env))

/-- Words a transmit record has in all (R374). -/
def ethLen (w0 : Word) : Nat := 2 + (getF w0 0 12 + 3) / 4

/-- A whole transmit record from endpoint (e, c) of MAC `m` (R374); a malformed one is dropped (R279). -/
def State.engFrame (s : State) (e c m : Nat) (r : List Word) : State :=
  let w0 := wAt r 0
  let n := getF w0 0 12
  if getF w0 24 4 ≠ 0 ∨ n < 60 ∨ n > 4091 then s.wr (F.ENG_CHSTAT_err e c) 1
  else
    let f : SwFrame := ⟨(wordsToBytes (r.drop 2)).take n, getF w0 12 12, getF w0 28 3, getF w0 28 3, if getF w0 31 1 = 1 then some (wAt r 1) else none,
      s.net.nextId⟩
    if s.macResv m then s.takeId.spread 7 f [m + 2] else s.switchIn 7 f

/-- A word pushed to a MAC endpoint: the endpoint takes it and hands a whole record on (R279, R374). -/
def State.engPush (s : State) (e c m : Nat) (v : Word) : State :=
  let ep := e * 8 + c
  let l := (slook s.net.txw ep).getD [] ++ [v]
  if l.length < ethLen (wAt l 0) then s.setNet (fun x => { x with txw := sins (sdel x.txw ep) ep l })
  else (s.setNet (fun x => { x with txw := sdel x.txw ep })).engFrame e c m l

/-- Drop what a channel's MAC endpoint holds (R277). -/
def State.epClear (s : State) (ep : Nat) : State :=
  (s.setNet (fun x => { x with txw := sdel x.txw ep, engq := x.engq.filter (fun q => q.1 ≠ ep) })).showPool

/-- Is a MAC configuration word reserved: modes 5 and 6 on MAC0 and MAC1 (R356)? -/
def macBad (m : Nat) (v : Word) : Bool := !legalWord (F.MAC_CFG_phy m).addr v || (decide (m < 2) && decide (5 ≤ getF v 0 3))

/-- NET.PORT (R376). -/
def opNetPort (c : CmdRec) (s : State) : State :=
  let m := c.f 0 1 0
  if macBad m (c.pw 1) then s.badEnc c
  else
    let s := (s.putCfg (F.MAC_CFG_phy m).addr (c.pw 1)).putCfg (F.MAC_PLCA_node m).addr (c.pw 2)
    let s := s.setNet (fun x => { x with filters := sins (sdel x.filters (c.f 3 6 0)) (c.f 3 6 0) (c.f 3 31 16) })
    let s := s.macCommit m
    s.done c [s.macStat m]

def opNetQueue (c : CmdRec) (s : State) : State := (((s.putCfg (F.MAC_PCPMAP (c.f 0 1 0)).addr (c.pw 1)).showMac (c.f 0 1 0))).done c []

/-- NET.GATES (R370, R376). -/
def opNetGates (c : CmdRec) (s : State) : State :=
  let m := c.f 0 1 0
  let k := c.params.length - 6
  if !legalWord (F.MAC_GCFG_en m).addr (c.pw 1) then s.badEnc c
  else if k > 54 then s.fail c 0x0101 []
  else
    let s := ((((s.shadowCfg (F.MAC_GCFG_en m).addr (c.pw 1)).shadowCfg (F.MAC_GBASE_SLO m).addr (c.pw 2)).shadowCfg (F.MAC_GBASE_SHI m).addr (c.pw 3)).shadowCfg
      (F.MAC_GBASE_NS m).addr (c.pw 4)).shadowCfg (F.MAC_GCYCLE m).addr (c.pw 5)
    let s := s.each (List.range k) (fun i s => s.shadowCfg (F.MAC_GCL m i).addr (c.pw (6 + i)))
    let run := s.gateRuns m
    let al := if run then s.on (F.MAC_GCFG_align m) else decide (s.rdS (F.MAC_GCFG_align m) = 1)
    let per := if run then s.rd (F.MAC_GCFG_per m) else s.rdS (F.MAC_GCFG_per m)
    let at_ : Int := if al then (s.lap / 2 ^ per + 1) * 2 ^ per
      else
        let cyc := (if run then s.rd (F.MAC_GCYCLE m) else s.rdS (F.MAC_GCYCLE m) : Nat) * (65536 : Int)
        let due := if run then s.gateEnd m else (s.nextCycle m).getD 0
        let base := if run then timeU (s.rd (F.MAC_GBASE_SLO m) + s.rd (F.MAC_GBASE_SHI m) * 2 ^ 32) (s.rd (F.MAC_GBASE_NS m)) 0 else s.gateBase m
        if cyc = 0 then 0 else (due - base) / cyc
    ((s.showMac m).gateCommit m).done c [BitVec.ofInt 32 at_]

def opNetVlan (c : CmdRec) (s : State) : State :=
  let m := c.f 0 1 0
  if !legalWord (F.MAC_VLAN_tag m).addr (c.pw 1) then s.badEnc c else ((s.putCfg (F.MAC_VLAN_tag m).addr (c.pw 1)).showMac m).done c []

/-- Address-table entry words (R362). -/
def fdbWords (e : FdbEnt) : List Word :=
  [BitVec.ofNat 32 e.mac, BitVec.ofNat 32 (e.vid * 2 ^ 16 + e.mac / 2 ^ 32 % 2 ^ 16),
   BitVec.ofNat 32 (e.port * 2 ^ 8 + (if e.static then 2 ^ 7 else 0) + e.ep)]

/-- NET.FDB (R362, R376). -/
def opNetFdb (c : CmdRec) (s : State) : State :=
  let mac := c.p 1 + c.f 2 15 0 * 2 ^ 32
  let vid := c.f 2 27 16
  let hit := fun (e : FdbEnt) => e.vid = vid && e.mac = mac
  let one := fun (n : Nat) => [BitVec.ofNat 32 n]
  match c.f 0 1 0 with
  | 0 =>
    let e : FdbEnt := ⟨vid, mac, c.f 3 15 8, true, c.f 3 6 0, s.raw⟩
    if c.f 2 31 28 ≠ 0 ∨ c.f 3 31 16 ≠ 0 then s.badEnc c
    else if s.net.fdb.any hit then (s.setNet (fun n => { n with fdb := n.fdb.map (fun x => if hit x then e else x) })).done c (one 1)
    else if s.net.fdb.length ≥ 8192 then s.fail c 0x0300 []
    else (s.setNet (fun n => { n with fdb := n.fdb ++ [e] })).done c (one 1)
  | 1 => (s.setNet (fun n => { n with fdb := n.fdb.filter (fun e => !hit e) })).done c (one (s.net.fdb.filter hit).length)
  | 2 => (s.setNet (fun n => { n with fdb := n.fdb.filter (fun e => e.static) })).done c (one (s.net.fdb.filter (fun e => !e.static)).length)
  | _ => s.withOut c 4 (fun b s =>
      let l := s.net.fdb.take (b.len / 12)
      (s.writeBuf c b (l.flatMap fdbWords)).done c (one l.length))

/-- NET.LIMITS (R366, R376). -/
def opNetLimits (c : CmdRec) (s : State) : State :=
  let p := c.f 0 2 0
  if c.f 1 12 0 > 6144 then s.badParam c 1
  else
    let s := ((s.putCfg (F.SW_PLIM_cells p).addr (c.pw 1)).putCfg (F.SW_CLIM p 0).addr (c.pw 2)).putCfg (F.SW_CLIM p 1).addr (c.pw 3)
    s.showSw.done c [BitVec.ofNat 32 (s.rd F.SW_STAT_free)]

/-- NET.MIRROR (R375, R376). -/
def opNetMirror (c : CmdRec) (s : State) : State :=
  let i := c.f 1 5 0
  let k := c.f 1 13 8
  if k > 13 ∨ i + k > 64 then s.badParam c 1
  else if c.f 0 31 31 = 1 ∧ (c.f 0 2 0 < 2 ∨ c.f 0 2 0 > 6) then s.badEnc c
  else if c.params.length < 2 + 4 * k then s.fail c 0x0101 []
  else
    let s := s.putCfg F.SW_MIRCFG_en.addr (c.pw 0)
    (s.each (List.range k) (fun j s => s.setNet (fun x =>
      { x with classifier := sins (sdel x.classifier (i + j)) (i + j) ((List.range 4).map (fun w => c.pw (2 + 4 * j + w))) }))).done c []

def opNetStatus (c : CmdRec) (s : State) : State :=
  let m := c.f 0 1 0
  s.done c [s.macStat m, s.reg F.SW_STAT_free.addr, s.reg (F.MAC_CNT_RXOK m).addr, s.reg (F.MAC_CNT_TXOK m).addr]

def execNetPort (seq : Nat) (s : State) : Out := .next (s.runCmd 0x0A00 seq opNetPort)
def execNetQueue (seq : Nat) (s : State) : Out := .next (s.runCmd 0x0A01 seq opNetQueue)
def execNetGates (seq : Nat) (s : State) : Out := .next (s.runCmd 0x0A02 seq opNetGates)
def execNetVlan (seq : Nat) (s : State) : Out := .next (s.runCmd 0x0A03 seq opNetVlan)
def execNetFdb (seq : Nat) (s : State) : Out := .next (s.runCmd 0x0A04 seq opNetFdb)
def execNetLimits (seq : Nat) (s : State) : Out := .next (s.runCmd 0x0A05 seq opNetLimits)
def execNetMirror (seq : Nat) (s : State) : Out := .next (s.runCmd 0x0A06 seq opNetMirror)
def execNetStatus (seq : Nat) (s : State) : Out := .next (s.runCmd 0x0A07 seq opNetStatus)

end Sys2Proof.Machine
end

