-- ==== Sys2Proof/Machine/MotOps.lean ====
section
/-! DEFINITION. The profile generators' own operations (chapter 14): plans and the step timer (R379–R386), routes (R387), set-points (R388, R389),
switches, stops and homing (R390–R392), and position latches (R393, R394). -/
namespace Sys2Proof.Machine
open Sys2Proof

/-- Step size of a resolution code (R385). -/
def stepSize (code : Nat) : Int := match code with | 0 => 1 | 1 => 4 | 2 => 16 | 3 => 64 | 4 => 128 | _ => 256

def State.motState (s : State) (n : Nat) : Nat := s.rd (F.MOT_STATE_state n)
def State.motPos (s : State) (n : Nat) : Int := s.rdI (F.MOT_POS n)

/-- CLK_ENG ticks of 4 ns in a length of raw time, and since the plan's start. -/
def engTicks (raw : Nat) : Nat := raw * 5 / 8
def State.motTicks (s : State) (n : Nat) : Nat := engTicks (s.raw - (s.mot n).startRaw)

/-- Entry `i` of a plan's key. -/
def keyAt (k : List Int) (i : Nat) : Int := k.getD i 0

def clampI (lim z : Int) : Int := max (-lim) (min z lim)

/-- Does a plan come to an end of its own (R380)? -/
def Plan.ends : Plan → Bool
  | .vel v => decide (v = 0)
  | .follow _ _ => false
  | _ => true

/-- The ideal position (1/256 unit), velocity and acceleration of a plan `t` ticks after its start (R380, R389): from the state it began in, within its
limits, to its goal. -/
def planAt (p : Plan) (k : List Int) (start t : Nat) : Int × Int × Int :=
  let lim := max (keyAt k 5) (keyAt k 1).natAbs
  let acc := max (max (keyAt k 6) (keyAt k 7)) (max (keyAt k 9) (keyAt k 2).natAbs)
  match p with
  | .none => (keyAt k 0, 0, 0)
  | .follow g at_ =>
    let n := engTicks (at_ - start)
    let d := g * 256 - keyAt k 0
    if n ≤ t then (g * 256, 0, 0) else (keyAt k 0 + d * t / n, d * 1953125 / (32 * n), 0)
  | _ =>
    if t = 0 then (keyAt k 0, keyAt k 1, keyAt k 2)
    else
      let r := Config.planState k t
      if Config.planTicks k ≤ t then
        match p with
        | .pos g => (g * 256, 0, 0)
        | .vel v => (r.1, v, 0)
        | _ => ((Config.planState k (Config.planTicks k)).1, 0, 0)
      else (r.1, clampI lim r.2.1, clampI acc r.2.2)

/-- When after tick `t` the ideal position reaches `x` (R383). -/
def planReaches (p : Plan) (k : List Int) (start t : Nat) (x : Int) : Option Nat :=
  match p with
  | .none => none
  | .follow g at_ =>
    let n := engTicks (at_ - start)
    let d := g * 256 - keyAt k 0
    let e := x - keyAt k 0
    if d = 0 ∨ e * d < 0 ∨ e.natAbs > d.natAbs then none
    else
      let r := (2 * n * e.natAbs + d.natAbs) / (2 * d.natAbs)
      if r < t then none else some r
  | _ => (Config.planReach k t x).map (max t)

/-- The code of a plan's kind, and its goal, for its key. -/
def Plan.code : Plan → Int
  | .none => 0 | .pos _ => 1 | .vel _ => 2 | .stop => 3 | .estop => 4 | .follow _ _ => 5
def Plan.goal : Plan → Int
  | .pos g => g | .vel v => v | .follow g _ => g | _ => 0

/-- The ideal state now. -/
def State.motIdeal (s : State) (n : Nat) : Int × Int × Int :=
  let x := s.mot n
  if x.plan = .none then (s.motPos n * 256, 0, 0) else planAt x.plan x.key x.startRaw (s.motTicks n)

/-- The key of a plan that starts now. -/
def State.motKey (s : State) (n : Nat) (p : Plan) (vmax : Nat) : List Int :=
  let i := s.motIdeal n
  let v : Nat := if vmax = 0 then s.rd (F.MOT_VMAX n) else vmax
  [i.1, i.2.1, i.2.2, p.code, p.goal, v, s.rd (F.MOT_AMAX n), s.rd (F.MOT_DMAX n), s.rd (F.MOT_JMAX n), s.rd (F.MOT_ESTOP n)]

/-- Take up the plan that waits (R381, R382). -/
def State.motTake (s : State) (n : Nat) : State :=
  match (s.mot n).next with
  | none => s
  | some (p, v) =>
    let k := s.motKey n p v
    s.setMot n (fun x => { x with next := none, plan := p, vmax := v, key := k, startRaw := s.raw })

/-- Is a bridge of the generator's pair being measured (R396)? -/
def State.motMeasuring (s : State) (n : Nat) : Bool :=
  let k := s.rd (F.MOT_CFG_pair n)
  s.rd (F.MOT_CFG_route n) = 0 && ((s.drv (2 * k)).measuring || (s.drv (2 * k + 1)).measuring)

/-- The generator stands still (R380, R390–R392, R494): what its last plan was for comes about. -/
def State.motStill (s : State) (n : Nat) : State :=
  let x := s.mot n
  let s := s.setMot n (fun y => { y with plan := .none, next := none, armed := false, stillRaw := s.raw })
  let s := (((s.wr (F.MOT_VEL n) 0).wr (F.MOT_ACC n) 0).latchAgain n)
  let s := (s.each x.stopSeqs (fun q s => s.fin q 0x0000 [BitVec.ofInt 32 (s.motPos n)])).setMot n (fun y => { y with stopSeqs := [] })
  if x.faultAfter then s.motFault n
  else if x.limitAfter then ((s.setMot n (fun y => { y with limitAfter := false })).wr (F.MOT_STATE_state n) 0).event (F.MOT_EVT_limit n)
  else if s.motState n = 2 then
    let s := s.wr (F.MOT_STATE_state n) (if x.queued.isSome then 1 else 0)
    match x.plan with
    | .pos _ => s.event (F.MOT_EVT_done n)
    | .vel _ => s.event (F.MOT_EVT_done n)
    | _ => s
  else if s.motState n = 3 then s
  else s.wr (F.MOT_STATE_state n) (if x.queued.isSome then 1 else 0)

/-- Load the step timer (R383, R384): never shorter than the rate limit allows, nor than the set-up time after a change of direction. -/
def State.motArm (s : State) (n : Nat) (up : Bool) (iv : Nat) : State :=
  let f := s.rd (F.MOT_CFG_fmax n)
  let turn := decide (s.on (F.MOT_STATE_dir n) ≠ up)
  let iv := max 1 (max iv (max ((25000 + f - 1) / f) (if turn then s.rd (F.MOT_STEPIO_setup n) * 250 else 0)))
  let dry := decide (iv > 2 ^ 32 - 1)
  (if dry then s else s.wr (F.MOT_STATE_dir n) (if up then 1 else 0)).setMot n (fun x =>
    { x with armed := true, armRaw := s.raw, interval := min iv (2 ^ 32 - 1), dry := dry })

def State.motWait (s : State) (n iv : Nat) : State :=
  s.setMot n (fun x => { x with armed := true, armRaw := s.raw, interval := max 1 (min iv (2 ^ 32 - 1)), dry := true })

/-- The step-interval computation (R381, R383): the instant at which the ideal position reaches the next step position less half a step. -/
def State.motCompute (s : State) (n : Nat) : State :=
  let s := s.motTake n
  let x := s.mot n
  if x.plan = .none then s.setMot n (fun y => { y with armed := false })
  else if s.motMeasuring n then s.motWait n 1
  else
    let t := s.motTicks n
    let i := s.motIdeal n
    let s := (s.wrI (F.MOT_VEL n) i.2.1).wrI (F.MOT_ACC n) i.2.2
    let pos := s.motPos n * 256
    let half := stepSize (s.rd (F.MOT_STATE_mres n)) * 128
    let up := planReaches x.plan x.key x.startRaw t (pos + half)
    let dn := planReaches x.plan x.key x.startRaw t (pos - half)
    match up, dn with
    | some a, some b => if a ≤ b then s.motArm n true (a - t) else s.motArm n false (b - t)
    | some a, none => s.motArm n true (a - t)
    | none, some b => s.motArm n false (b - t)
    | none, none =>
      if !x.plan.ends then s.motWait n (2 ^ 32 - 1)
      else if Config.planTicks x.key ≤ t then s.motStill n
      else s.motWait n (Config.planTicks x.key - t)

/-- Give a generator a new plan: at once where it stands, otherwise at its next step-interval computation (R381). -/
def State.motPlan (s : State) (n : Nat) (p : Plan) (vmax : Nat) : State :=
  let s := s.setMot n (fun x => { x with next := some (p, vmax) })
  if (s.mot n).armed then s else s.motCompute n

/-- Ideal speed in 1/16 full step per second. -/
def State.motSpeed (s : State) (n : Nat) : Nat := (s.motIdeal n).2.1.natAbs

/-- Band and resolution at a full-step position (R386, R397). -/
def State.motFull (s : State) (n : Nat) : State :=
  let v := s.motSpeed n
  let f := s.rd (F.MOT_CFG_fmax n) * 10000
  let m := s.rd (F.MOT_STATE_mres n)
  let sz := (stepSize m).natAbs
  let near := match (s.mot n).plan with | .pos g => decide ((g - s.motPos n).natAbs ≤ 256) | _ => false
  let m' := if near then s.rd (F.MOT_CFG_mresmin n)
    else if v * 256 > f * sz * 16 ∧ m + 1 ≤ s.rd (F.MOT_CFG_mresmax n) then m + 1
    else if s.rd (F.MOT_CFG_mresmin n) + 1 ≤ m ∧ v * 256 * 8 < 7 * f * (stepSize (m - 1)).natAbs * 16 then m - 1
    else m
  let s := if m' = m then s else (s.wr (F.MOT_STATE_mres n) m').inc (F.MOT_CNT_RESCHG n)
  if s.rd (F.MOT_CFG_route n) = 0 then
    let b := 2 * s.rd (F.MOT_CFG_pair n)
    let vq := s.rd (F.DRV_BAND_vq b)
    let old := s.on (F.MOT_STATE_band n)
    let new := if old then decide (v + s.rd (F.DRV_BAND_hyst b) * 16 ≥ vq * 16) else decide (v ≥ vq * 16)
    if old = new then s
    else
      let w := if new then 1 else 0
      ((((s.wr (F.MOT_STATE_band n) w).wr (F.DRV_STAT_band b) w).wr (F.DRV_STAT_band (b + 1)) w).inc (F.DRV_CNT_BANDSW b)).inc (F.DRV_CNT_BANDSW (b + 1))
  else s

/-- A line's or capture input's active level. -/
def State.swActive (s : State) (en line lvl : Fld) : Bool := s.on en && decide (s.on (dioFilt (s.rd line)) = s.on lvl)
def State.homeOn (s : State) (n : Nat) : Bool := s.swActive (F.MOT_SW_homeen n) (F.MOT_SW_homeline n) (F.MOT_SW_homelvl n)
def State.limitOn (s : State) (n : Nat) (up : Bool) : Bool :=
  if up then s.swActive (F.MOT_SW_posen n) (F.MOT_SW_posline n) (F.MOT_SW_poslvl n)
  else s.swActive (F.MOT_SW_negen n) (F.MOT_SW_negline n) (F.MOT_SW_neglvl n)

/-- Which way the generator moves: 1 rising, −1 falling, 0 standing. -/
def State.motHeading (s : State) (n : Nat) : Int :=
  let v := s.rdI (F.MOT_VEL n)
  if (s.mot n).plan = .none then 0
  else if v > 0 then 1 else if v < 0 then -1
  else if (s.mot n).armed && !(s.mot n).dry then (if s.on (F.MOT_STATE_dir n) then 1 else -1) else 0

/-- The back-off of a homing has gone far enough (R392): on toward the switch at the slow velocity. -/
def State.motBackoff (s : State) (n : Nat) : State :=
  match (s.mot n).home with
  | some h =>
    match h.release with
    | some r =>
      if s.rd (F.MOT_STATE_hstate n) = 2 ∧ s.homeOn n = false ∧ h.back ≤ (s.motPos n - r).natAbs then
        (s.wr (F.MOT_STATE_hstate n) 3).setMot n (fun x => { x with next := some (.vel (if h.up then h.slow else -h.slow), 0) })
      else s
    | none => s
  | none => s

/-- One step (R383, R387, R393): the position, its history, what goes out, and what a full-step position brings. -/
def State.motStep (s : State) (n : Nat) : State :=
  let up := s.on (F.MOT_STATE_dir n)
  let sz := stepSize (s.rd (F.MOT_STATE_mres n))
  let s := s.wrI (F.MOT_POS n) (s.motPos n + (if up then sz else -sz))
  let p := s.motPos n
  let s := s.setMot n (fun x => { x with hist := ((s.raw, p) :: x.hist).take 1024 })
  let route := s.rd (F.MOT_CFG_route n)
  let s := if route = 2 then s
    else (s.inc (F.MOT_CNT_STEPS n)).emit (.motStep n (if route = 1 ∧ s.on (F.MOT_CFG_dirinv n) = true then (if up then 0 else 1) else (if up then 1 else 0)))
  let k := 2 * s.rd (F.MOT_CFG_pair n)
  let s := if route = 0 then (s.setDrv k (fun d => { d with holding := false })).setDrv (k + 1) (fun d => { d with holding := false }) else s
  let s := if p % 256 = 0 then s.motFull n else s
  (s.latchAgain n).motBackoff n

/-- The step timer expires (R383): nothing before its interval has passed. -/
def State.motExpire (s : State) (n : Nat) : State :=
  let x := s.mot n
  if !x.armed || decide (s.raw * 5 < x.armRaw * 5 + x.interval * 8) || decide (s.motState n = 5) then s
  else if x.dry || s.motMeasuring n then s.motCompute n
  else (s.motStep n).motCompute n

/-- Stop a generator: a queued move is discarded (R391). -/
def State.motHalt (s : State) (n : Nat) (emergency : Bool) : State :=
  let s := (s.homeFail n 6).setMot n (fun x => { x with queued := none })
  if s.motState n = 1 then s.wr (F.MOT_STATE_state n) 0
  else if s.motState n = 0 ∨ s.motState n = 5 ∨ (s.mot n).plan = .none then s
  else (s.wr (F.MOT_STATE_state n) 4).motPlan n (if emergency then .estop else .stop) 0

/-- The registers of a generator that MOTn_CTL.commit takes together (R382). -/
def motRegs (n : Nat) : List Nat := (List.range 10).map (fun i => (F.MOT_CFG_route n).addr + 4 * i)
def State.showMot (s : State) (n : Nat) : State := s.wr (F.MOT_STATE_pending n) (if s.anyShadow (motRegs n) then 1 else 0)

/-- Is a discrete line an output of no engine and no stage pair (R387)? -/
def State.lineFree (s : State) (l : Nat) : Bool :=
  decide (l < 64 ∧ (s.rd (F.DIO_CFG_mode l) = 3 ∨ s.rd (F.DIO_CFG_mode l) = 4)) && (s.dio l).owner.isNone && (s.octPair (l / 8)).isNone

/-- Why the written configuration of a generator cannot be committed (R379, R382, R387): none where it can. -/
def State.motRefuse (s : State) (n : Nat) : Bool :=
  let chg := fun (f : Fld) => decide (s.rdS f ≠ s.rd f)
  let route := s.rdS (F.MOT_CFG_route n)
  let st := s.rdS (F.MOT_STEPIO_step n)
  let used := (chg (F.MOT_CFG_route n) || chg (F.MOT_CFG_pair n))
    && (List.range 8).any (fun m => m ≠ n && s.rd (F.MOT_CFG_route m) = 0 && s.rd (F.MOT_CFG_pair m) = s.rdS (F.MOT_CFG_pair n))
  let moves := chg (F.MOT_CFG_route n) || chg (F.MOT_CFG_pair n) || chg (F.MOT_CFG_src n) || chg (F.MOT_STEPIO_step n) || chg (F.MOT_STEPIO_dirio n)
    || chg (F.MOT_STEPIO_width n) || chg (F.MOT_STEPIO_setup n)
  (moves && decide (s.motState n ≠ 0)) || decide (s.rdS (F.MOT_CFG_mresmin n) > s.rdS (F.MOT_CFG_mresmax n))
    || (route = 0 && (s.isC || used))
    || (route = 1 && (!s.lineFree (s.rdS (F.MOT_STEPIO_dirio n))
        || (if st < 64 then !s.lineFree st else decide (st < 0x80 ∨ 0x88 ≤ st) || s.on (F.TIME_TRIG0_pin (st - 0x80)))))

/-- Commit a generator's configuration (R382): refused with cfgerr, or in force, for a moving one at its next step-interval computation. -/
def State.motCommit (s : State) (n : Nat) : Bool × State :=
  if s.motRefuse n then (false, s.event (F.MOT_EVT_cfgerr n))
  else
    let s := (s.commitRegs (motRegs n)).showMot n
    let x := s.mot n
    (true, if x.plan ≠ .none && x.next.isNone then s.setMot n (fun y => { y with next := some (y.plan, y.vmax) }) else s)

/-- Is a position one that a move may go to (R379)? -/
def State.motTargetOk (s : State) (n : Nat) (t : Int) : Bool :=
  decide ((-2147483648 : Int) ≤ t ∧ t ≤ (2147483647 : Int) ∧ t % stepSize (s.rd (F.MOT_CFG_mresmin n)) = 0)

/-- Would motion in a direction run into an active limit switch (R390)? -/
def State.motBlocked (s : State) (n : Nat) (d : Int) : Bool := (decide (d > 0) && s.limitOn n true) || (decide (d < 0) && s.limitOn n false)

/-- Start a move or a velocity (R380, R381). -/
def State.motStart (s : State) (n : Nat) (p : Plan) (vmax : Nat) : State :=
  let s := match p with | .pos g => s.wrI (F.MOT_TARGET n) g | _ => s
  (s.wr (F.MOT_STATE_state n) 2).motPlan n p vmax

/-- Start the queued moves that a split point (1) or trigger (2) number `k` starts, of the generators in a mask (R81, R118, R381). -/
def State.motFire (s : State) (kind k mask : Nat) : State :=
  s.each (List.range 8) (fun n s =>
    match (s.mot n).queued with
    | some q =>
      if q.kind = kind && q.k = k && mask.testBit n && decide (s.motState n ≠ 5) then
        (s.setMot n (fun x => { x with queued := none })).motStart n q.plan q.vmax
      else s
    | none => s)

/-- The raw time of a presented time by the set in force (R394): the last tick whose conversion does not exceed it. -/
def State.rawOfU (s : State) (u : Int) : Nat :=
  ((s.anchor : Int) + ((u - s.baseU) * (2 ^ 40 : Nat) / ((2 ^ 40 : Nat) + s.rate)) / uTick).toNat

/-- The pad edge behind the newest stamp of a discrete input: the stamp less the filter time less 50 ns (R315, R394). -/
def State.dioEdgeRaw (s : State) (l : Nat) : Nat :=
  (s.rd (F.DIO_STAMP0 l) + s.rd (F.DIO_STAMP1 l) * 2 ^ 32) - s.rd (F.DIO_CFG_filter l) * (if s.on (F.DIO_CFG_unit l) then 4000 else 8) - 20

/-- An edge of a source that latches wait for (R394): 0 a discrete input, 1 a capture input. -/
def State.motEdge (s : State) (src num : Nat) (rising : Bool) (raw : Nat) : State :=
  s.each (List.range 8) (fun n s =>
    match (s.mot n).latArm with
    | some (a, b, r, seq) =>
      if a = src && b = num && r = rising then (s.setMot n (fun x => { x with latArm := none })).latch n ⟨raw, some seq, false⟩ else s
    | none => s)

/-- Latch at a presented time (R394). -/
def State.latchTime (s : State) (n sec ns : Nat) (seq : Option Nat) : State := s.latch n ⟨s.rawOfU (timeU sec ns 0), seq, false⟩

/-- Store a lap-buffer word as the ring unit's lap port (R388). -/
def State.lapWord (s : State) (a : Nat) (v : Word) : State := (s.wrMem 0x2B a v).2

/-- The set-point record of a generator at the boundary of lap `m` (R388). -/
def State.setPoint (s : State) (n : Nat) : State :=
  if s.on (F.MOT_FSPO_en n) then
    let x := s.mot n
    let later := engTicks (s.rawOfU (s.time.lapStart + 2 * s.lapU) - x.startRaw)
    let i := if x.plan = .none then (s.motPos n * 256, 0, 0) else planAt x.plan x.key x.startRaw later
    let a := s.backBase + s.rd (F.MOT_FSPO_offset n) / 4 * 4
    let st := s.motState n
    (((s.lapWord a (BitVec.ofInt 32 (i.1 / 256))).lapWord (a + 4) (BitVec.ofInt 32 i.2.1)).lapWord (a + 8) (BitVec.ofNat 32 (s.lap + 2))).lapWord (a + 12)
      (BitVec.ofNat 32 (st * 2 + (if st = 5 then 0 else 1)))
  else s

/-- A follower at a lap boundary (R389): the record of its station, valid and fresh, is the next set-point; otherwise it stops at ESTOP. -/
def State.followPoint (s : State) (n : Nat) : State :=
  if !s.on (F.MOT_CFG_src n) || decide (s.motState n = 5) then s
  else
    let st := s.rd (F.MOT_FSPI_station n)
    let a := s.frontBase + s.rd (F.MOT_FSPI_offset n) / 4 * 4
    let w := s.wordsAt a 4
    let m := (wAt w 2).toNat
    let ahead : Nat := (m + 2 ^ 32 - s.lap % 2 ^ 32) % 2 ^ 32
    let fresh := s.bitOf (F.RING_RXMAP (st / 32)) (st % 32)
    if fresh && (wAt w 3).getLsbD 0 && decide (1 ≤ ahead ∧ ahead < 2 ^ 31) then
      (s.wr (F.MOT_STATE_state n) 6).motPlan n (.follow (wAt w 0).toInt (s.rawOfU (s.time.lapStart + (ahead : Int) * s.lapU))) 0
    else
      let s := s.event (F.MOT_EVT_spstale n)
      if s.motState n = 6 then s.motPlan n .estop 0 else s

def State.motBoundary (s : State) : State := (s.each (List.range 8) (fun n s => s.setPoint n)).each (List.range 8) (fun n s => s.followPoint n)

end Sys2Proof.Machine
end

