-- ==== Sys2Proof/Machine/Drive.lean ====
section
/-! DEFINITION. The drive stages: enabling and measuring, faults, currents and bands (R395–R400), and the DRV commands (R401). -/
namespace Sys2Proof.Machine
open Sys2Proof

/-- Latched faults of a bridge (R398). -/
def State.drvLatched (s : State) (b : Nat) : Bool := decide (s.rd (subFld (F.DRV_FAULT_ocp b) 0 4) ≠ 0)

/-- The other bridge of the pair. -/
def drvMate (b : Nat) : Nat := if b % 2 = 0 then b + 1 else b - 1

/-- Disable a bridge (R398). -/
def State.drvOff (s : State) (b : Nat) : State :=
  (((s.wr (F.DRV_CTL_en b) 0).wr (F.DRV_STAT_enabled b) 0).wr (F.DRV_STAT_coil b) 0).setDrv b (fun d => { d with measuring := false })

/-- A generator in FAULT whose pair has no latched fault leaves FAULT at a new enable (R401). -/
def State.drvRearm (s : State) (b : Nat) : State :=
  s.each (List.range 8) (fun n s =>
    if s.rd (F.MOT_CFG_pair n) = b / 2 && decide (s.motState n = 5) && !s.drvLatched b && !s.drvLatched (drvMate b) then s.wr (F.MOT_STATE_state n) 0
    else s)

/-- Enable a bridge (R396): measured first; nothing while its mode is off, a fault is latched or the gate forces it. -/
def State.drvOn (s : State) (b : Nat) : State :=
  if s.rd (F.DRV_CFG_mode b) = 0 || s.drvLatched b || s.forcing || s.domState (0x38 + b) ≠ 0 then s.wr (F.DRV_CTL_en b) 0
  else
    (((s.wr (F.DRV_CTL_en b) 1).wr (F.DRV_STAT_enabled b) 1).setDrv b (fun d => { d with measuring := true, holding := false })).drvRearm b

def State.drvEnable (s : State) (b : Nat) (on : Bool) : State :=
  if on then (if s.on (F.DRV_STAT_enabled b) then s else s.drvOn b) else s.drvOff b

/-- Step timers of the pair's generator that waited for the measurement go on (R396). -/
def State.drvKick (s : State) (b : Nat) : State :=
  s.each (List.range 8) (fun n s =>
    if s.rd (F.MOT_CFG_route n) = 0 && decide (s.rd (F.MOT_CFG_pair n) = b / 2) && ((s.mot n).next.isSome || decide ((s.mot n).plan ≠ .none))
      && decide (s.motState n ≠ 5) then s.motCompute n else s)

/-- A latched fault (R398): 0 overcurrent, 1 open coil, 2 overtemperature, 3 overload. -/
def State.drvFault (s : State) (b k : Nat) : State :=
  let s := ((s.wr (bitFld (F.DRV_FAULT_ocp b) k) 1).inc (F.DRV_CNT_FAULT b)).drvOff b
  let s := if s.rd (F.DRV_CFG_mode b) = 1 then s.drvOff (drvMate b) else s
  let s := s.each (List.range 8) (fun n s =>
    if s.rd (F.MOT_CFG_route n) = 0 && decide (s.rd (F.MOT_CFG_pair n) = b / 2) && decide (s.motState n ≠ 5) then s.motFault n else s)
  s.sideBand 3 b (s.rd (subFld (F.DRV_FAULT_ocp b) 0 5))

def State.hasDrv (s : State) (b : Nat) : Bool := s.alive && !s.isC && decide (s.domState (0x38 + b) = 0)

def execDriveFault (b : Fin 8) (k : Fin 4) (s : State) : Out := .next (if s.hasDrv b then s.drvFault b k else s)

/-- The temperature warning of a bridge (R398). -/
def execDriveTemperatureWarning (b : Fin 8) (hot : Bool) (s : State) : Out :=
  .next (if s.hasDrv b then s.wr (F.DRV_FAULT_twarn b) (if hot then 1 else 0) else s)

/-- The coil measurement ends (R396): R in mΩ and L in µH; outside the accepted range, the open-coil fault. In coil mode pull-in begins (R399). -/
def State.drvMeasured (s : State) (b r l : Nat) : State :=
  if (s.drv b).measuring then
    let s := ((s.wr (F.DRV_MEAS_r b) (min r 65535)).wr (F.DRV_MEAS_l b) (min l 65535)).setDrv b (fun d => { d with measuring := false, coilRaw := s.raw })
    if r < 200 ∨ 60000 < r ∨ l < 50 ∨ 100000 < l then s.drvFault b 1
    else (if s.rd (F.DRV_CFG_mode b) = 2 then s.wr (F.DRV_STAT_coil b) 1 else s).drvKick b
  else s
def execCoilMeasurementDone (b : Fin 8) (r l : Nat) (s : State) : Out := .next (if s.hasDrv b then s.drvMeasured b r l else s)

/-- The pull-in time has passed (R399), with the rise and dip times seen, in 10 µs units. -/
def State.drvHold (s : State) (b rise dip : Nat) : State :=
  if s.rd (F.DRV_STAT_coil b) = 1 ∧ s.rd (F.DRV_CFG_mode b) = 2 ∧ s.raw ≥ (s.drv b).coilRaw + s.rd (F.DRV_HOLD_pullin b) * tickMs then
    ((s.wr (F.DRV_STAT_coil b) 2).wr (F.DRV_COILT_rise b) rise).wr (F.DRV_COILT_dip b) dip
  else s
def execPullInTimeEnd (b : Fin 8) (rise dip : Fin 65536) (s : State) : Out := .next (if s.hasDrv b then s.drvHold b rise dip else s)

/-- The generator of pair `k` has stood still for the hold delay (R395). -/
def State.holdDelay (s : State) (k : Nat) : State :=
  match (List.range 8).find? (fun n => s.rd (F.MOT_CFG_route n) = 0 && s.rd (F.MOT_CFG_pair n) = k) with
  | none => s
  | some n =>
    if (s.mot n).plan = .none ∧ s.raw ≥ (s.mot n).stillRaw + s.rd (F.DRV_HOLD_delay (2 * k)) * tickMs then
      (s.setDrv (2 * k) (fun d => { d with holding := true })).setDrv (2 * k + 1) (fun d => { d with holding := true })
    else s
def execHoldDelayExpiry (k : Fin 4) (s : State) : Out := .next (if s.hasDrv (2 * k) then s.holdDelay k else s)

/-- The registers of a bridge that DRVn_CTL.commit takes together. -/
def drvRegs (b : Nat) : List Nat := (List.range 5).map (fun i => (F.DRV_CFG_mode b).addr + 4 * i)
def State.showDrv (s : State) (b : Nat) : State := s.wr (F.DRV_STAT_pending b) (if s.anyShadow (drvRegs b) then 1 else 0)

/-- Commit a bridge's configuration; a bridge whose mode becomes off is disabled. -/
def State.drvCommit (s : State) (b : Nat) : State :=
  let s := (s.commitRegs (drvRegs b)).showDrv b
  if s.rd (F.DRV_CFG_mode b) = 0 && s.on (F.DRV_STAT_enabled b) then s.drvOff b else s

/-- Clear latched faults (R398). -/
def State.drvClear (s : State) (b : Nat) : State := s.wr (subFld (F.DRV_FAULT_ocp b) 0 4) 0

def State.drvGuard (s : State) (b : Nat) (f : State → State) : State := if s.hasDrv b then f s else s
def execDrvCtlEn (_id : Ident) (b : Fin 8) (on : Bool) (s : State) : Out := .next (s.drvGuard b (fun s => s.drvEnable b on))
def execDrvCtlCommit (_id : Ident) (b : Fin 8) (s : State) : Out := .next (s.drvGuard b (fun s => s.drvCommit b))
def execDrvCtlClear (_id : Ident) (b : Fin 8) (s : State) : Out := .next (s.drvGuard b (fun s => s.drvClear b))
def State.drvCntClr (s : State) (b : Nat) : State := s.clearRegs (F.DRV_CNT_FAULT b).addr 2
def execDrvCtlCntclr (_id : Ident) (b : Fin 8) (s : State) : Out := .next (s.drvGuard b (fun s => s.drvCntClr b))

/-- A write of DRVn_CTL: commit and clear first, then enable or disable. -/
def State.drvCtl (s : State) (b : Nat) (v : Word) : State :=
  s.drvGuard b (fun s =>
    let s := if v.getLsbD 1 then s.drvCommit b else s
    let s := if v.getLsbD 2 then s.drvClear b else s
    let s := if v.getLsbD 3 then s.drvCntClr b else s
    s.drvEnable b (v.getLsbD 0))

/-- The FDX-7748-C has no bridges (R401). -/
def drvOnly (body : CmdRec → State → State) (c : CmdRec) (s : State) : State := if s.isC then s.fail c 0x0204 [] else body c s

def opDrvConfig (c : CmdRec) (s : State) : State :=
  let b := c.f 0 2 0
  match (List.range 5).find? (fun i => !legalWord ((F.DRV_CFG_mode b).addr + 4 * i) (c.pw (1 + i))) with
  | some 1 => s.badParam c 2
  | some _ => s.badEnc c
  | none => ((s.putCfgs ((List.range 5).map (fun i => ((F.DRV_CFG_mode b).addr + 4 * i, c.pw (1 + i))))).drvCommit b).done c []

def opDrvEnable (c : CmdRec) (s : State) : State :=
  let s := s.each (ones 8 (c.f 0 7 0)) (fun b s => s.drvEnable b (bit (c.f 0 15 8) b))
  s.done c [BitVec.ofNat 32 (((ones 8 (c.f 0 7 0)).filter (fun b => s.on (F.DRV_STAT_enabled b))).foldl (fun m b => m + 2 ^ b) 0)]

def opDrvCoil (c : CmdRec) (s : State) : State :=
  let b := c.f 0 2 0
  if c.f 1 11 0 > 2500 ∨ c.f 1 27 16 > 2500 then s.badParam c 1
  else ((((s.wr (F.DRV_CUR_run b) (c.f 1 11 0)).wr (F.DRV_CUR_hold b) (c.f 1 27 16)).wr (F.DRV_HOLD_pullin b) (c.f 2 15 0)).dropShadow
    [(F.DRV_CUR_run b).addr, (F.DRV_HOLD_pullin b).addr]).showDrv b |>.done c []

def opDrvClear (c : CmdRec) (s : State) : State := (s.each (ones 8 (c.f 0 7 0)) (fun b s => s.drvClear b)).done c []

def opDrvStatus (c : CmdRec) (s : State) : State :=
  let b := c.f 0 2 0
  s.done c [setF (s.reg (F.DRV_STAT_enabled b).addr) 16 16 (getF s.freeW 0 16), s.reg (F.DRV_FAULT_ocp b).addr, s.reg (F.DRV_MEAS_r b).addr,
    s.reg (F.DRV_COILT_rise b).addr] |>.useFree

def execDrvConfig (seq : Nat) (s : State) : Out := .next (s.runCmd 0x0B07 seq (drvOnly opDrvConfig))
def execDrvEnable (seq : Nat) (s : State) : Out := .next (s.runCmd 0x0B08 seq (drvOnly opDrvEnable))
def execDrvCoil (seq : Nat) (s : State) : Out := .next (s.runCmd 0x0B09 seq (drvOnly opDrvCoil))
def execDrvClear (seq : Nat) (s : State) : Out := .next (s.runCmd 0x0B0A seq (drvOnly opDrvClear))
def execDrvStatus (seq : Nat) (s : State) : Out := .next (s.runCmd 0x0B0B seq (drvOnly opDrvStatus))

end Sys2Proof.Machine
end

