-- ==== Sys2Proof/Machine/GatePort.lean ====
section
/-! DEFINITION. The gate's ports and transactions: delivery (R192, R195, R280), held ports and waiting requests (R200), busy answers (R202) and the
gate log (R203). -/
namespace Sys2Proof.Machine
open Sys2Proof

/-- The payload words of a message (R196). -/
def Msg.words (m : Msg) : List Word :=
  let f := (if m.req then 2 ^ 15 else 0) + (if m.ans then 2 ^ 14 else 0)
  [BitVec.ofNat 32 (m.dstPort * 2 ^ 24 + m.srcPort * 2 ^ 16 + f + m.data.length), m.dstId,
   BitVec.ofNat 32 (if m.req || m.ans then m.tx * 2 ^ 26 else 0), BitVec.ofNat 32 m.raw, BitVec.ofNat 32 (m.raw / 2 ^ 32)]
    ++ bytesToWords (m.data ++ List.replicate ((4 - m.data.length % 4) % 4) 0)

/-- The message of payload words (R196). -/
def msgOf (ws : List Word) (bytes : List Byte) : Msg :=
  let w0 := wAt ws 0
  { srcPort := getF w0 16 8, dstPort := getF w0 24 8, srcId := 0, dstId := wAt ws 1, req := decide (getF w0 15 1 = 1), ans := decide (getF w0 14 1 = 1),
    tx := getF (wAt ws 2) 26 6, raw := nAt ws 3 + nAt ws 4 * 2 ^ 32, data := bytes.take (getF w0 0 12), busy := false }

/-- Write an entry of the gate log; a full log loses it (R203). -/
def State.gateLog (s : State) (cause src dst tx : Nat) (srcId dstId : Word) : State :=
  let n := s.rd F.GATE_LOGSTAT_held
  if n ≥ 32 then s.wr F.GATE_LOGSTAT_ovf 1
  else
    ((((s.wr (F.GATE_LOG n 0) (2 ^ 31 + cause * 2 ^ 24 + src * 2 ^ 16 + dst * 2 ^ 8 + tx)).wr (F.GATE_LOG n 1) srcId.toNat).wr (F.GATE_LOG n 2) dstId.toNat).wr
      (F.GATE_LOG n 3) s.rawLo).wr F.GATE_LOGSTAT_held (n + 1)

/-- Deliver into a gate receive ring of house memory (R192). -/
def State.gateRing (s : State) (q : Nat) (m : Msg) : State :=
  let n := 2 ^ s.rd (F.GATE_RX2_size q)
  let t := s.rd (F.GATE_RX1_tail q)
  if !s.on (F.GATE_RX2_en q) || decide (m.data.length > 232) || decide ((t + 1) % n = s.rd (F.GATE_RX1_head q) % n) then s.inc F.GATE_CNT_RXDROP
  else
    let s := (s.coreWords (s.rd (F.GATE_RX0_base q) * 256 + t * 256) m.words).wr (F.GATE_RX1_tail q) ((t + 1) % n)
    let s := if q < 2 then s.pairEvent q 8 else s
    s.callEvent (s.rd (F.GATE_RX2_chan q) % 64)

/-- Deliver into an engine's gate receive ring (R280). -/
def State.engRing (s : State) (e : Nat) (m : Msg) : State :=
  let n := 2 ^ s.rd (F.ENG_GRXCFG_size e)
  let t := s.rd (F.ENG_GRXPTR_tail e)
  if s.rd (F.ENG_STATE_state e) ≠ 2 then s.inc F.GATE_CNT_QDROP
  else if !s.on (F.ENG_GRXCFG_en e) || decide (m.data.length > 232) || decide ((t + 1) % n = s.rd (F.ENG_GRXPTR_head e) % n) then s.inc F.GATE_CNT_RXDROP
  else
    let a := 0x01000000 + e * 0x20000
    let o := s.rd (F.ENG_GRXCFG_base e) * 256 + t * 256
    let ws := m.words
    let s := s.each (List.range ws.length) (fun i s => (s.wrMem (0x10 + e) (a + (o + 4 * i) % 0x20000) (wAt ws i)).2)
    s.wr (F.ENG_GRXPTR_tail e) ((t + 1) % n)

/-- Deliver a message to a local destination port (R191, R192, R195, R277). -/
def State.deliverPort (s : State) (m : Msg) : State :=
  let p := m.dstPort
  if p < 0x80 then s.engRing (p / 8) m
  else if p < 0x90 then
    match s.canDeliver (p - 0x80) m.data with
    | (true, s) => s
    | (false, s) => s.inc F.GATE_CNT_QDROP
  else if p = 0x90 then s.gateRing 0 m
  else if p = 0x91 then s.gateRing 1 m
  else if p = 0x98 then s.gateRing 2 m
  else s.inc F.GATE_CNT_QDROP

/-- Send a message to another station as a frame of type 5 or 6 (R195). -/
def State.gateFrame (s : State) (typ ring station : Nat) (stamp : Bool) (m : Msg) : State :=
  s.sendFrame typ ring station 0 (wordsToBytes m.words) stamp

/-- Show the open transactions and the ports they hold (GATE_OPEN, GATE_HELD). -/
def State.showGate (s : State) : State :=
  let l := s.gate.txs
  let s := s.wr F.GATE_OPEN l.length
  s.each (List.range 8) (fun k s =>
    s.wr (F.GATE_HELD k) ((List.range 32).foldl (fun n b => if l.any (fun t => t.remote.isNone && t.srcPort = 32 * k + b) then n + 2 ^ b else n) 0))

/-- The request of a transaction goes to its destination port. -/
def State.txDeliver (s : State) (t : GateTx) (m : Msg) : State :=
  (s.setGate (fun g => { g with txs := g.txs.map (fun x => if x.num = t.num then { x with waiting := none } else x) })).deliverPort { m with tx := t.num }

/-- The next request that waits for a port is delivered (R200). -/
def State.txNext (s : State) (p : Nat) : State :=
  if s.gate.txs.any (fun t => t.station = 0 && t.dstPort = p && t.waiting.isNone) then s
  else match s.gate.txs.find? (fun t => t.station = 0 && t.dstPort = p && t.waiting.isSome) with
    | some t => match t.waiting with
      | some m => s.txDeliver t m
      | none => s
    | none => s

/-- An answer to the requester of a transaction: a local port, or another station's gate by its own transaction number (R196, R200). -/
def State.txAnswer (s : State) (t : GateTx) (m : Msg) : State :=
  match t.remote with
  | none => s.deliverPort { m with dstPort := t.srcPort, tx := t.num }
  | some (ring, station, num) => s.gateFrame 5 ring station false { m with dstPort := t.srcPort, tx := num }

/-- Remove a transaction; the port it was routed to is free for the next (R200). -/
def State.txClose (s : State) (t : GateTx) : State :=
  let s := (s.setGate (fun g => { g with txs := g.txs.filter (fun x => x.num ≠ t.num) })).showGate
  if t.station = 0 then s.txNext t.dstPort else s

/-- The busy answer of a request (R202). -/
def busyMsg (t : GateTx) (raw : Nat) : Msg :=
  { srcPort := t.dstPort, dstPort := t.srcPort, srcId := t.dstId, dstId := t.srcId, req := false, ans := true, tx := t.num, raw := raw, data := [], busy := true }

/-- Close a transaction with the busy answer (R200, R202). -/
def State.txBusy (s : State) (t : GateTx) : State :=
  ((s.inc F.GATE_CNT_BUSY).txAnswer t (busyMsg t s.raw)).txClose t

end Sys2Proof.Machine
end

