-- ==== Sys2Proof/Machine/Mem.lean ====
section
/-! DEFINITION. House memory banks, write-backs, remap words, the scrubber and the MEM commands (R405, R406, R415–R418, R428, R430). -/
namespace Sys2Proof.Machine
open Sys2Proof

/-- Drop what a bank holds: contents, codes and trackers (R405). -/
def State.clearBank (s : State) (k : Nat) : State :=
  let m := s.memu
  let fl := m.flips.filter (fun e => bankOf e.1 ≠ k)
  let tr := m.track.filter (fun e => bankOf e.addr ≠ k)
  let m' := { m with flips := fl, track := tr, cntd := m.cntd.filter (fun a => bankOf a ≠ k), wbq := m.wbq.filter (fun e => bankOf e.1 ≠ k) }
  { s with mem := s.mem.filter (fun e => bankOf e.1 ≠ k), memu := m' }

/-- A bank in RETENTION wakes (R405). -/
def State.bankWake (s : State) (k : Nat) : State :=
  if s.bankState k = 1 then (s.setBank k 0).event F.MEM_EVT_wake else s

def execBankWake (k : Fin 64) (s : State) : Out := .next (if s.alive then s.bankWake k else s)

/-- The word takes a fresh code and its counted error is repaired. -/
def State.freshCode (s : State) (a : Nat) : State :=
  let m := s.memu
  { s with memu := { m with flips := m.flips.filter (fun e => e.1 ≠ a), cntd := m.cntd.filter (· ≠ a) } }

/-- CORRECTABLE_WRITE_BACK: the oldest requested write-back is made, or discarded after a later write (R415). -/
def execCorrectableWriteBack (s : State) : Out :=
  .next (if s.alive then
    match s.memu.wbq with
    | [] => s
    | (a, late) :: t =>
      let s := { s with memu := { s.memu with wbq := t } }
      if late then s.inc F.MEM_CNT_WBDISC
      else if (s.flipsAt a).length = 1 then s.freshCode a else s
    else s)

/-- Spares a bank has used (MEM_REMAPk). -/
def sparesFld (k : Nat) : Fld := subFld (F.MEM_REMAP (k / 8)) (k % 8 * 4) 4

/-- Move a word to a free spare of its bank: corrected where it can be, and an uncorrectable word stays one (R413, R417). -/
def State.remapWord (s : State) (a : Nat) : State :=
  let k := bankOf a
  let m := s.memu
  let due := if m.recordDue.contains k then m.recordDue else m.recordDue ++ [k]
  let tr := m.track.filter (fun e => e.addr ≠ a)
  let m' := { m with track := tr, remapped := m.remapped ++ [a], recordDue := due }
  let s : State := { s with memu := m' }
  let s := if (s.flipsAt a).length ≥ 2 then s else s.freshCode a
  ((s.wr (sparesFld k) (s.rd (sparesFld k) + 1)).inc F.MEM_CNT_REMAP).event F.MEM_EVT_remap

/-- REMAP: the oldest remap that is due (R417). -/
def execRemap (s : State) : Out :=
  .next (if s.alive then
    match s.memu.remapDue with
    | [] => s
    | a :: t =>
      let s := { s with memu := { s.memu with remapDue := t } }
      if s.rd (sparesFld (bankOf a)) ≥ 8 then s.event F.MEM_EVT_remapfull
      else if (s.flipsAt a).length ≥ 2 then s else s.remapWord a
    else s)

/-- The data of device entry 0x01_0000: the remapped addresses, one word each (notes/assumptions/11.md). -/
def State.remapData (s : State) : List Word := s.memu.remapped.map (BitVec.ofNat 32)

/-- REMAP_TABLE_RECORD: the command core records the remap table, as an internal entry (R418). -/
def execRemapTableRecord (env : Env) (s : State) : Out :=
  .next (if s.alive && !s.cmd.halted then
    match s.memu.recordDue with
    | [] => s
    | _ :: t =>
      match s.storeDevice 0x010000 s.remapData (readBackBad env) with
      | (true, s) => ({ s with memu := { s.memu with recordDue := t } }).bookInternal 0x0101 0 0
      | (false, s) => s.bookInternal 0x0101 0x0F00 0
    else s)

/-- First and last word addresses of a scrub region (R416). -/
def scrubLo (r : Nat) : Nat := [0, 0x01400000, 0x01800000, 0x02000000].getD r 0
def scrubHi (r : Nat) : Nat := [0x00400000, 0x01500000, 0x01880000, 0x03000000].getD r 0

/-- May the scrubber read the word: its bank, or its domain, is ON (R416)? -/
def State.scrubbable (s : State) (a : Nat) : Bool :=
  match area a with
  | .house => decide (s.bankState (bankOf a) = 0)
  | .tcm => decide (s.domState (domOf a) = 0)
  | _ => true

/-- Where the walk goes on: past the banks or domains that are not ON. -/
def State.scrubSkip (s : State) (a : Nat) : Nat :=
  if s.scrubbable a then a + 4 else if area a = .house then (bankOf a + 1) * 0x10000 else a + 4

/-- SCRUB_STEP: one word of the region's walk; at the wrap the pass is stamped (R416). -/
def State.scrubStep (s : State) (r : Nat) : State :=
  let a := s.memu.scrub.getD r 0
  let s := if s.scrubbable a then (s.rdCoded true 0x2A a).2 else s
  let n := s.scrubSkip a
  if n < scrubHi r then { s with memu := { s.memu with scrub := s.memu.scrub.set r n } }
  else
    let old := s.rd (F.MEM_PASS_LO r) + s.rd (F.MEM_PASS_HI r) * 2 ^ 32
    let m := s.memu
    let m' := { m with scrub := m.scrub.set r (scrubLo r), passDur := m.passDur.set r ((s.raw + 2 ^ 64 - old) % 2 ^ 64) }
    (({ s with memu := m' }).wr (F.MEM_PASS_LO r) s.rawLo).wr (F.MEM_PASS_HI r) s.rawHi

def execScrubStep (r : Fin 4) (s : State) : Out := .next (if s.alive && s.on (F.MEM_SCRUB_en r) then s.scrubStep r else s)

/-- The MEM counters cleared (R430). -/
def State.memCntClr (s : State) : State := s.each (List.range 10) (fun i s => s.setReg (0x04070100 + 4 * i) 0)

def execMemCtlCntclr (id : Ident) (s : State) : Out := .next (s.guardBs id 0x04070000 (fun s => s.memCntClr))

/-- The memory error log emptied (MEM_CTL.logclr). -/
def State.memLogClr (s : State) : State :=
  (s.each (List.range 64) (fun i s => s.setReg (0x04070400 + 4 * i) 0)).wr F.MEM_ELOGSTAT_held 0

def execMemCtlLogclr (id : Ident) (s : State) : Out := .next (s.guardBs id 0x04070000 (fun s => s.memLogClr))

/-- Do two byte ranges overlap? -/
def overlap (a n b m : Nat) : Bool := decide (n > 0 ∧ m > 0 ∧ a < b + m ∧ b < a + n)

/-- Descriptor addresses of a DMA chain, as they stand (R421); `fuel` bounds a chain that closes on itself. -/
def State.dmaChain (s : State) (a : Nat) : Nat → List Nat
  | 0 => []
  | n + 1 => a :: (if bit (s.wordAt (a + 8)).toNat 31 then [] else s.dmaChain (s.wordAt (a + 12)).toNat n)

/-- Does a bank hold what R406 protects: part of an enabled queue pair, gate receive ring, host descriptor ring or the chain of a busy channel? -/
def State.bankBusy (s : State) (k : Nat) : Bool :=
  let b := k * 0x10000
  (List.range 8).any (fun q => s.on (F.CMD_QCTL_enable q) && !s.hostQueue q &&
      (overlap b 0x10000 (s.sqBase q) (256 * s.qSlots q) || overlap b 0x10000 (s.cqBase q) (32 * s.qSlots q)))
  || (List.range 3).any (fun q => s.on (F.GATE_RX2_en q) &&
      overlap b 0x10000 (s.rd (F.GATE_RX0_base q) * 256) (256 * 2 ^ s.rd (F.GATE_RX2_size q)))
  || (List.range 2).any (fun i => s.on (F.SW_HR2_en i) && !s.on (F.SW_HR2_loc i) &&
      overlap b 0x10000 (s.rd (F.SW_HR0_base i) * 32) (32 * 2 ^ s.rd (F.SW_HR2_size i)))
  || (List.range 8).any (fun c => s.on (F.MEM_DMA2_busy c) && (s.dmaChain (s.memu.dma.getD c ⟨0, [], 0, false⟩).desc 256).any (fun a => bankOf a = k))

/-- Put a bank into a state that MEM.POWER names (R405). -/
def State.bankTo (s : State) (k st : Nat) : State :=
  match st, s.bankState k with
  | 0, 1 => s.bankWake k
  | 0, 2 => (s.clearBank k).setBank k 3
  | 1, 0 => s.setBank k 1
  | 2, 0 => (s.clearBank k).setBank k 2
  | 2, 1 => (s.clearBank k).setBank k 2
  | _, _ => s

/-- MEM.POWER (R405, R406, R428). -/
def opMemPower (c : CmdRec) (s : State) : State :=
  let ks := ones 32 (c.p 0) ++ (ones 32 (c.p 1)).map (· + 32)
  let st := c.f 2 1 0
  if st = 3 then s.badEnc c
  else if st ≠ 0 ∧ ks.any s.bankBusy = true then s.fail c 0x0200 []
  else
    let t := s.each ks (fun k s => s.bankTo k st)
    t.done c [BitVec.ofNat 32 (ks.filter (fun k => s.bankState k ≠ t.bankState k)).length]

/-- MEM.SCRUB (R416, R428). -/
def opMemScrub (c : CmdRec) (s : State) : State :=
  let r := c.f 0 1 0
  if c.f 1 15 0 < 16 then s.badEnc c
  else
    ((s.wr (F.MEM_SCRUB_en r) (c.f 1 31 31)).wr (F.MEM_SCRUB_interval r) (c.f 1 15 0)).done c
      [BitVec.ofNat 32 (s.memu.passDur.getD r 0 / tickUs)]

/-- Remapped addresses of a bank, two offsets per word (R428). -/
def remapWords (l : List Nat) : List Word :=
  (List.range 4).map (fun i => BitVec.ofNat 32 (l.getD (2 * i) 0 % 2 ^ 16 + l.getD (2 * i + 1) 0 % 2 ^ 16 * 2 ^ 16))

/-- MEM.REMAP (R417, R428). -/
def opMemRemap (c : CmdRec) (s : State) : State :=
  if c.f 0 0 0 = 1 then s.done c (remapWords (s.memu.remapped.filter (fun a => bankOf a = c.f 1 5 0)))
  else
    let a := c.p 1
    if a ≥ 0x00400000 ∨ a % 4 ≠ 0 then s.badParam c 1
    else if s.rd (sparesFld (bankOf a)) ≥ 8 then (s.event F.MEM_EVT_remapfull).fail c 0x0300 []
    else
      let t := if (s.flipsAt a).length ≥ 2 then s.uncorrected false 0 a else s
      (t.remapWord a).done c [BitVec.ofNat 32 (s.rd (sparesFld (bankOf a)))]

/-- MEM.COPY through DMA7: the whole source is checked before a word moves (R35, R421, R428). -/
def opMemCopy (env : Env) (c : CmdRec) (s : State) : State :=
  s.withOut c 4 (fun o s =>
    if c.f 2 23 0 ≠ o.len then s.fail c 0x0105 []
    else s.withBuf c env 0 (fun bs s =>
      ((s.writeBuf c o (bytesToWords bs)).wr (F.MEM_DMA3_moved 7) o.len).done c [BitVec.ofNat 32 o.len]))

/-- MEM.STATUS (R428). -/
def opMemStatus (c : CmdRec) (s : State) : State :=
  s.done c [s.reg F.MEM_EVT_corr.addr, s.reg F.MEM_CNT_CORRH.addr, s.reg F.MEM_CNT_UNCORR.addr,
    BitVec.ofNat 32 (((List.range 64).map (fun k => s.rd (sparesFld k))).foldl (· + ·) 0)]

def execMemPower (seq : Nat) (_env : Env) (s : State) : Out := .next (s.runCmd 0x0C00 seq opMemPower)
def execMemScrub (seq : Nat) (_env : Env) (s : State) : Out := .next (s.runCmd 0x0C01 seq opMemScrub)
def execMemRemap (seq : Nat) (_env : Env) (s : State) : Out := .next (s.runCmd 0x0C02 seq opMemRemap)
def execMemCopy (seq : Nat) (env : Env) (s : State) : Out := .next (s.runCmd 0x0C03 seq (opMemCopy env))
def execMemStatus (seq : Nat) (_env : Env) (s : State) : Out := .next (s.runCmd 0x0C04 seq opMemStatus)

end Sys2Proof.Machine
end

