-- ==== Sys2Proof/Machine/Sys.lean ====
section
/-! DEFINITION. The SYS commands with the firmware slots (R477–R480, R483), the BOOK commands (R55), the HOST commands (R463, R465) and the SAFE
commands and locks (R490–R494, R497). -/
namespace Sys2Proof.Machine
open Sys2Proof

/-- Bytes of an image key in the factory region (R477, notes/assumptions/10.md). -/
def keyAddr (i : Nat) : Nat := 0x02E00000 + 64 * i
def State.bytesAt (s : State) (a n : Nat) : List Byte := (List.range n).map (fun i => s.byte (a + i))
def State.imageKey (s : State) (i : Nat) : List Byte := s.bytesAt (keyAddr i) 64

/-- Does an image, its 64-byte signature included, verify under the key it names (R210, R477)? -/
def State.sigOk (s : State) (key : Nat) (img : List Byte) : Bool :=
  let n := img.length - 64
  decide (key ≤ 3) && (s.imageKey key).any (fun b => b ≠ 0) && !s.anyBad (keyAddr key) 64
    && ecdsaOk (s.imageKey key) (img.take n) (img.drop n)

/-- The base of firmware slot 0 (A) or 1 (B) (R24). -/
def fwBase (b : Nat) : Nat := 0x02E40000 + b * 0x000C0000

/-- Header check of a firmware image given by its words (R478). -/
def fwHeaderOk (ws : List Word) : Bool :=
  decide (wAt ws 0 = 0x57465356#32 ∧ wAt ws 1 = 0x77480001#32 ∧ 128 ≤ nAt ws 2 ∧ nAt ws 2 ≤ 786432 ∧ nAt ws 2 % 4 = 0 ∧ wAt ws 4 = 0#32)
    && ((ws.drop 5).take 11).all (fun w => w = 0#32)

/-- Is a firmware slot valid (R478, R518)? -/
def State.fwValid (s : State) (b : Nat) : Bool :=
  let ws := s.wordsAt (fwBase b) 16
  fwHeaderOk ws && !s.anyBad (fwBase b) (nAt ws 2) && s.sigOk 0 (s.bytesAt (fwBase b) (nAt ws 2))

def State.fwVersion (s : State) (b : Nat) : Word := s.wordAt (fwBase b + 12)

def opSysNop (c : CmdRec) (s : State) : State := s.done c []

def opSysIdent (c : CmdRec) (s : State) : State :=
  s.done c [s.reg F.SYS_ID_part.addr, s.reg F.RING_SID_LO.addr, s.reg F.RING_SID_HI.addr, s.reg F.SYS_FWVER.addr]

/-- SYS.RESET reaches DONE; the reset follows its completion (R54). -/
def opSysReset (c : CmdRec) (s : State) : State := s.done c []

def opSysStatus (c : CmdRec) (s : State) : State :=
  s.done c [s.reg F.SYS_RSTCAUSE_cause.addr, s.reg F.SYS_BOOT_slot.addr, s.reg F.PWR_STAT_pfw.addr, s.reg F.CLK_STAT_lock.addr]

/-- SYS.FWLOAD writes the slot that is not running, magic last, and verifies it (R480, R483). -/
def opSysFwload (env : Env) (c : CmdRec) (s : State) : State :=
  if c.f 2 23 0 > 786432 then s.fail c 0x0302 []
  else s.withBuf c env 0 (fun bs s =>
    let b := 1 - s.rd F.SYS_BOOT_slot
    let ws := bytesToWords bs
    let s := s.putWords (fwBase b) ws
    if !fwHeaderOk ws || decide (nAt ws 2 ≠ bs.length) || s.anyBad (fwBase b) bs.length then (s.putWord (fwBase b) 0).fail c 0x0604 []
    else if s.sigOk 0 bs then s.done c [BitVec.ofNat 32 b, wAt ws 3]
    else s.fail c 0x0602 [])

/-- SYS.FWSELECT (R480, R483). -/
def opSysFwselect (c : CmdRec) (s : State) : State :=
  let n := c.f 0 1 0
  if n = 1 then s.badEnc c
  else if n ≥ 2 ∧ s.fwValid (n - 2) = false then s.fail c 0x0200 []
  else
    let s := s.wr F.SYS_BOOT_next n
    s.done c [s.reg F.SYS_BOOT_next.addr]

def execSysNop (seq : Nat) (_env : Env) (s : State) : Out := .next (s.runCmd 0x0000 seq opSysNop)
def execSysIdent (seq : Nat) (_env : Env) (s : State) : Out := .next (s.runCmd 0x0001 seq opSysIdent)
def execSysReset (seq : Nat) (_env : Env) (s : State) : Out := .next (s.runCmd 0x0002 seq opSysReset)
def execSysStatus (seq : Nat) (_env : Env) (s : State) : Out := .next (s.runCmd 0x0003 seq opSysStatus)
def execSysFwload (seq : Nat) (env : Env) (s : State) : Out := .next (s.runCmd 0x0004 seq (opSysFwload env))
def execSysFwselect (seq : Nat) (_env : Env) (s : State) : Out := .next (s.runCmd 0x0005 seq opSysFwselect)

/-- A sequence number as two words. -/
def seqLo (n : Nat) : Word := BitVec.ofNat 32 n
def seqHi (n : Nat) : Word := BitVec.ofNat 32 (n / 2 ^ 32 % 2 ^ 16)

def opBookHead (c : CmdRec) (s : State) : State :=
  s.done c [seqLo s.cmd.book, seqHi s.cmd.book, seqLo s.bookOld, seqHi s.bookOld]

/-- The slot BOOK.READ writes for one sequence number: zeros where the position gives none, tag and digest withheld from a front-of-house queue for
other originators (R55). -/
def State.bookSlot (s : State) (c : CmdRec) (n : Nat) : List Word :=
  if s.bookValid n && decide (s.bookSeq n = n) then
    let ws := s.wordsAt (bookAddr n) 8
    if !c.bs && decide (getF (wAt ws 1) 26 6 ≠ c.ident) then (ws.set 3 0).set 7 0 else ws
  else List.replicate 8 0

/-- BOOK.READ (R55). -/
def opBookRead (c : CmdRec) (s : State) : State :=
  let count := c.f 1 31 16 + 1
  s.withOut c 2 (fun b s =>
    if b.len < 32 * count then s.fail c 0x0105 []
    else
      let first := max (c.p 0 + c.f 1 15 0 * 2 ^ 32) s.bookOld
      let n := min count (s.cmd.book + 1 - first)
      (s.writeBuf c b ((List.range n).flatMap (fun i => s.bookSlot c (first + i)))).done c [BitVec.ofNat 32 n, seqLo first, seqHi first])

/-- BOOK.FIND: the newest entry older than its own (R55). -/
def opBookFind (c : CmdRec) (s : State) : State :=
  let o := c.f 1 5 0
  if !c.bs && decide (o ≠ c.ident) then s.fail c 0x0501 []
  else
    match s.bookFind (fun n => decide (getF (s.bookW n 1) 26 6 = o) && decide (s.bookW n 3 = c.pw 0)) (c.seq - 1) 16383 with
    | none => s.done c [0, 0, 0, 0]
    | some n => s.done c [1, seqLo n, seqHi n + BitVec.ofNat 32 (s.bookState n * 2 ^ 16), s.bookW n 2 &&& 0xFFFF#32]

/-- BOOK.MARK: its entry already holds the digest of the four words (R47, R55). -/
def opBookMark (c : CmdRec) (s : State) : State := s.done c []

def execBookHead (seq : Nat) (_env : Env) (s : State) : Out := .next (s.runCmd 0x0E00 seq opBookHead)
def execBookRead (seq : Nat) (_env : Env) (s : State) : Out := .next (s.runCmd 0x0E01 seq opBookRead)
def execBookFind (seq : Nat) (_env : Env) (s : State) : Out := .next (s.runCmd 0x0E02 seq opBookFind)
def execBookMark (seq : Nat) (_env : Env) (s : State) : Out := .next (s.runCmd 0x0E03 seq opBookMark)

/-- Commit of HOST_CFG (R447). -/
def State.hostCommit (s : State) : State := (s.commitReg 0x04180000).wr F.HOST_STAT_pending 0

/-- HOST.CONFIG (R465). -/
def opHostConfig (c : CmdRec) (s : State) : State :=
  let first := c.f 1 4 0
  let n := c.f 1 12 8
  if c.f 0 13 12 > 1 ∨ c.f 0 11 8 < 1 ∨ c.f 0 11 8 > 4 then s.badEnc c
  else if n > 18 ∨ first + n > 32 then s.badParam c 1
  else if c.len < 6 + n then s.fail c 0x0101 []
  else
    let s := ((s.wr F.HOST_CFG_splitfn (c.f 0 4 4)).wr F.HOST_CFG_paren (c.f 0 2 2)).wr F.HOST_CFG_qspien (c.f 0 1 1)
    let s := ((s.wr F.HOST_CFG_pcien (c.f 0 0 0)).wrS F.HOST_CFG_maxwidth (c.f 0 13 12)).wrS F.HOST_CFG_maxgen (c.f 0 11 8)
    let s := s.hostCommit
    let s := s.each (List.range n) (fun i s =>
      if first + i < 17 then
        (s.wr (F.HOST_IRQMAP_dest (first + i)) (c.f (2 + i) 7 6)).wr (F.HOST_IRQMAP_vector (first + i)) (c.f (2 + i) 5 0)
      else s)
    s.done c []

/-- HOST.UNFENCE (R463). -/
def opHostUnfence (c : CmdRec) (s : State) : State :=
  let m := c.f 0 1 0
  if (ones 2 m).any (fun fn => decide (c.ident = fn + 1)) then s.fail c 0x0501 []
  else if m ≠ 0 ∧ s.on F.HOST_STAT_link = false then s.fail c 0x0200 []
  else
    let s := s.when (m.testBit 0) (fun s => s.wr F.HOST_FENCE_f0 0)
    let s := s.when (m.testBit 1) (fun s => s.wr F.HOST_FENCE_f1 0)
    s.done c [s.reg F.HOST_FENCE_f0.addr]

def opHostStatus (c : CmdRec) (s : State) : State :=
  s.done c [s.reg F.HOST_STAT_link.addr, s.reg F.HOST_FENCE_f0.addr, s.reg F.HOST_HSSTAT_good.addr, s.reg F.HOST_CNT_FENCEREJ.addr]

def execHostConfig (seq : Nat) (_env : Env) (s : State) : Out := .next (s.runCmd 0x0F00 seq opHostConfig)
def execHostUnfence (seq : Nat) (_env : Env) (s : State) : Out := .next (s.runCmd 0x0F01 seq opHostUnfence)
def execHostStatus (seq : Nat) (_env : Env) (s : State) : Out := .next (s.runCmd 0x0F02 seq opHostStatus)

/-- The registers of the safe-state table (R494). -/
def safeRegs : List Nat := (List.range 10).map (fun i => 0x04030100 + 4 * i)

/-- No two-bit action of a table word is a reserved one: every action is below `lim` (R494). -/
def actionsOk (w : Word) (lim : Nat) : Bool := (List.range 8).all (fun i => decide (getF w (2 * i) 2 < lim))

/-- SAFE.TABLE (R492, R494, R497). -/
def opSafeTable (c : CmdRec) (s : State) : State :=
  if (List.range 8).any (fun i => !actionsOk (c.pw i) 3) || !actionsOk (c.pw 8) 2 then s.badEnc c
  else if s.on F.SAFE_LOCK_table then s.fail c 0x0203 []
  else if s.forcing then s.fail c 0x0200 []
  else
    let s := s.each (List.range 8) (fun i s => s.wrS (F.SAFE_DIO i) (c.f i 15 0))
    let s := (s.wrS F.SAFE_DRV (c.f 8 15 0)).wrS F.SAFE_MISC_quadrel (c.f 9 11 0)
    let s := (s.wrS F.SAFE_MISC_lapsafe (c.f 9 17 16)).wrS F.SAFE_MISC_motstop (c.f 9 31 24)
    ((s.commitRegs safeRegs).wr F.SAFE_STATE_pending 0).done c []

/-- The causes that keep a release from being made: soft and pfw last until the release that clears them, and do not (R490, R491,
notes/assumptions/118.md). -/
def State.blocking (s : State) : Nat := s.rd F.SAFE_CAUSENOW &&& (0x3FF ^^^ (2 ^ 8 + 2 ^ 6))

/-- Every group returns to its writer (R493). -/
def State.release (s : State) : State :=
  let s := ((s.wr F.SAFE_CAUSE 0).wr F.SAFE_CAUSENOW 0).wr F.SAFE_STATE_state 1
  (s.wr F.PWR_STAT_gated 0).each (List.range 8) (fun n s => s.wr (F.DRV_STAT_forced n) 0)

/-- SAFE.RELEASE (R491–R493, R497). -/
def opSafeRelease (c : CmdRec) (s : State) : State :=
  let before := s.reg F.SAFE_CAUSE.addr
  if s.rd F.SAFE_STATE_state = 1 then s.done c [before]
  else if s.rd F.SAFE_STATE_state = 2 ∧ s.blocking = 0 then s.release.done c [before]
  else s.fail c 0x0200 [before]

def opSafeStatus (c : CmdRec) (s : State) : State :=
  s.done c [s.reg F.SAFE_STATE_state.addr, s.reg F.SAFE_CAUSE.addr, s.reg F.SAFE_CAUSENOW.addr, s.reg F.SAFE_FIRST_INFO.addr]

def execSafeTable (seq : Nat) (_env : Env) (s : State) : Out := .next (s.runCmd 0x0D00 seq opSafeTable)
def execSafeRelease (seq : Nat) (_env : Env) (s : State) : Out := .next (s.runCmd 0x0D01 seq opSafeRelease)
def execSafeStatus (seq : Nat) (_env : Env) (s : State) : Out := .next (s.runCmd 0x0D02 seq opSafeStatus)

/-- A write of 1 to SAFE_TRIP: cause soft (R490). -/
def execSafeTrip (_id : Ident) (s : State) : Out := .next (if s.alive then s.trip 8 else s)

/-- SAFE_CTL.commit: refused while the gate is TRIPPED or TESTING, or the table locked (R492, R494). -/
def State.safeCommit (s : State) : State :=
  if s.forcing || s.on F.SAFE_LOCK_table then s else (s.commitRegs safeRegs).wr F.SAFE_STATE_pending 0

def execSafeCtlCommit (id : Ident) (s : State) : Out := .next (s.guardBs id F.SAFE_CTL_commit.addr (fun s => s.safeCommit))

def execSafeLockTable (id : Ident) (s : State) : Out :=
  .next (s.guardBs id F.SAFE_LOCK_table.addr (fun s => (s.wr F.SAFE_LOCK_table 1).wr F.SAFE_STATE_tablock 1))

def execSafeLockInj (id : Ident) (s : State) : Out :=
  .next (s.guardBs id F.SAFE_LOCK_table.addr (fun s => (s.wr F.SAFE_LOCK_inj 1).wr F.SAFE_STATE_injlock 1))

/-- The debug port is disabled, so no debugger counts as attached (R484, DBG_CTL). -/
def State.lockDbg (s : State) : State := ((s.wr F.SAFE_LOCK_dbg 1).wr F.SAFE_STATE_dbglock 1).wr F.DBG_CTL_attached 0

def execSafeLockDbg (id : Ident) (s : State) : Out := .next (s.guardBs id F.SAFE_LOCK_table.addr (fun s => s.lockDbg))

end Sys2Proof.Machine
end

