-- ==== Sys2Proof/Machine/EngOps.lean ====
section
/-! DEFINITION. The script engines' own operations: stop actions (R277), the script library and image header (R282, R283), loading a script (R284, R285),
the line matrix (R270, R288) and the ad-lib table's checks (R266–R268). -/
namespace Sys2Proof.Machine
open Sys2Proof

def engBase (n : Nat) : Nat := 0x01000000 + n * 0x20000
def State.engState (s : State) (n : Nat) : Nat := s.rd (F.ENG_STATE_state n)
def State.engIdle (s : State) (n : Nat) : Bool := decide (s.engState n = 0 ∨ s.engState n = 3)

/-- What a processor's outstanding aperture accesses return no longer concerns it. -/
def State.dropRets (s : State) (p : Nat) : State :=
  let f := fun (a : FabAcc) => if a.ret = .proc p then { a with ret := .drop } else a
  { s with fab := { s.fab with reqs := s.fab.reqs.map f, tags := s.fab.tags.map (fun t => t.map (fun e => { e with acc := f e.acc })) } }

/-- Empty the FIFOs of a channel (R277). -/
def State.chanClear (s : State) (n c : Nat) : State := ((s.setTx n c []).setRx n c []).epClear (n * 8 + c)

/-- The stop actions of an engine with a cause; it enters `st` (R276, R277). -/
def State.engStop (s : State) (n cause st : Nat) : State :=
  let p := s.proc (2 + n)
  let s := (s.wr (F.ENG_STATE_state n) st).wr (F.ENG_STATE_cause n) cause
  let s := if st = 3 then s.inc (F.ENG_CNT_STOP n) else s
  let s := ((s.setReg (F.ENG_STOPEPC n).addr (wAt p.sr 1)).setReg (F.ENG_STOPCAUSE n).addr (wAt p.sr 2)).setReg (F.ENG_STOPTVAL n).addr (wAt p.sr 3)
  let s := (s.setProc (2 + n) (fun x => { x with stall := .cycle, got := [] })).dropRets (2 + n)
  let s := (s.setEng n (fun x => { x with gtx := none, loadSeq := none })).wr (F.ENG_GTXSTAT_busy n) 0
  let s := s.each (ones 32 (s.handsOf n)) (fun h s => (s.handOff h).handRestart h)
  let s := s.each (List.range 8) (fun c s => s.chanClear n c)
  let s := s.each (s.gate.txs.filter (fun t => t.remote.isNone && t.srcPort / 8 = n)) (fun t s => s.txBusy t)
  if st = 3 then s.unitIrq 8 else s

/-- The library's bytes free (R283, notes/assumptions/25.md). -/
def libBase : Nat := 0x02A00000
def libEnd : Nat := 0x02D00000
def State.libFree (s : State) : Nat := (libEnd - libBase) - s.lib.foldl (fun n e => n + e.len) 0

/-- The first place for an image of `len` bytes among the images held. -/
def libPlace (l : List LibEnt) (len : Nat) : Nat → Nat → Option Nat
  | _, 0 => none
  | a, k + 1 =>
    if a + len > libEnd then none
    else match l.find? (fun e => a < e.addr + e.len && e.addr < a + len) with
      | none => some a
      | some e => libPlace l len (e.addr + e.len) k

/-- Header field `i` of a script image (R282). -/
def hdrOk (ws : List Word) (len : Nat) : Bool :=
  let w := fun (i : Nat) => nAt ws i
  let cnt := w 13
  decide (w 0 = 0x52435356 ∧ w 1 = 0 ∧ w 2 = 0x77480001 ∧ w 3 = len ∧ len % 4 = 0 ∧ 192 ≤ len ∧ len ≤ 196608)
    && decide (4 ≤ w 6 ∧ w 6 ≤ 122880 ∧ w 6 % 4 = 0 ∧ w 5 % 4 = 0 ∧ 128 ≤ w 5 ∧ w 5 + w 6 ≤ len - 64)
    && decide (w 8 % 4 = 0 ∧ w 7 % 4 = 0 ∧ (w 8 = 0 ∨ (128 ≤ w 7 ∧ w 7 + w 8 ≤ len - 64)))
    && decide (w 9 ≤ 131072 ∧ w 9 % 4 = 0 ∧ w 6 + w 8 ≤ w 9)
    && decide (w 10 < w 6 ∧ w 10 % 4 = 0 ∧ w 11 % 4 = 0 ∧ 32 ≤ w 12 ∧ w 12 ≤ 1024 ∧ w 12 % 4 = 0 ∧ w 11 + w 12 ≤ 131072)
    && decide (cnt % 64 ≤ 48 ∧ cnt / 2 ^ 12 % 8 ≤ 4 ∧ cnt / 2 ^ 15 % 4 ≤ 2 ∧ cnt / 2 ^ 17 % 64 ≤ 32 ∧ cnt / 2 ^ 23 % 16 ≤ 8 ∧ cnt / 2 ^ 27 = 0)
    && decide (w 14 % 16 ≤ 1 ∧ w 14 / 16 % 4096 = 0 ∧ w 15 < 256) && ((ws.drop 16).take 16).all (fun x => x = 0#32)

/-- The kind of unit a script takes, from its header's counts: 0 serial lines, 1 discrete lines, 2 CAN controllers, 3 MAC endpoints
(notes/assumptions/25.md). -/
def unitKind (cnt : Nat) : Nat := if cnt % 64 ≠ 0 then 0 else if cnt / 2 ^ 6 % 64 ≠ 0 then 1 else if cnt / 2 ^ 12 % 8 ≠ 0 then 2 else 3

/-- Does the engine own unit `u` of a kind; a MAC endpoint by the binding of its channel (R284, R285)? -/
def State.ownsUnit (s : State) (n kind u ch : Nat) : Bool :=
  match kind with
  | 0 => decide (u < 48) && (s.line u).owner = some n
  | 1 => decide (u < 64) && (s.dio u).owner = some n
  | 2 => decide (u < 16) && (s.can u).owner = some n
  | _ => decide (ch < 8) && s.macEp n ch = some u

/-- Does the engine own every unit that a parameter block lists (R285)? -/
def State.ownsAll (s : State) (n kind : Nat) (pb : List Word) : Bool :=
  (List.range 8).all (fun i =>
    let u := getF (wAt pb (3 + i / 4)) (8 * (i % 4)) 8
    u = 255 || s.ownsUnit n kind u (getF (wAt pb 5) (4 * i) 4))

/-- Zero a range of memory. -/
def State.zeroMem (s : State) (a n : Nat) : State := { s with mem := s.mem.filter (fun c => !(a ≤ c.1 && c.1 < a + n)) }

/-- Load and start a script (R235, R284): memory zeroed, code, data and parameter block copied, special registers zero, RUN at the entry. -/
def State.engRun (s : State) (n : Nat) (e : LibEnt) (pb : List Word) : State :=
  let w := fun (i : Nat) => (s.wordAt (e.addr + 4 * i)).toNat
  let b := engBase n
  let code := s.wordsAt (e.addr + w 5) (w 6 / 4)
  let data := s.wordsAt (e.addr + w 7) (w 8 / 4)
  let s := s.zeroMem b 0x20000
  let s := s.each (code.zipIdx) (fun x s => s.setWord (b + 4 * x.2) x.1)
  let s := s.each (data.zipIdx) (fun x s => s.setWord (b + w 6 + 4 * x.2) x.1)
  let s := s.each (pb.zipIdx) (fun x s => s.setWord (b + w 11 + 4 * x.2) x.1)
  let s := s.setEng n (fun x => { x with codeLen := w 6, wdRaw := s.raw, parity := [], loadSeq := none, lastPop := [] })
  let s := (s.forgetProc (2 + n)).setProc (2 + n) (fun x => { x with pc := w 10, sr := startSr x.sr, stall := .none, got := [] })
  ((s.wr (F.ENG_STATE_state n) 2).wr (F.ENG_STATE_script n) e.id)

/-- Clear the bindings of stagehands to the signals of a released unit (R288). -/
def State.unbind (s : State) (u : Nat) : State :=
  s.each (List.range 256) (fun i s =>
    let h := i / 8
    let k := i % 8
    let s := if sigUnit (s.rd (F.HAND_PIN_out h k)) = some u then s.wr (F.HAND_PIN_out h k) 0 else s
    if sigUnit (s.rd (F.HAND_PIN_in h k)) = some u then s.wr (F.HAND_PIN_in h k) 0 else s)

/-- Give unit `u` (0–47 serial, 64–127 discrete) to an engine or to none (R270, R288). -/
def State.giveUnit (s : State) (u : Nat) (o : Option Nat) : State :=
  let s := s.unbind u
  let s := (s.setField (fun x => { x with sigs := x.sigs.filter (fun e => sigUnit e.1 ≠ some u) })).setOwner u o
  if u < 64 then s.showLine u else s

/-- Give a CAN controller to an engine or to none; a release undoes the binding of its channel. -/
def State.setCanOwner (s : State) (n : Nat) (o : Option Nat) : State :=
  let s := match s.canChan n with
    | some (e, c) => ((s.wr (F.ENG_CHCFG_endpoint e c) 0).wr (F.ENG_CHCFG_unit e c) 0).chanClear e c
    | none => s
  s.setCan n (fun x => { x with owner := o })

/-- Micro-operation fields (R266). -/
def uopOp (w : Word) : Nat := getF w 26 5
def uopDst (w : Word) : Nat := getF w 22 4
def uopIsLd (w : Word) : Bool := decide (15 ≤ uopOp w ∧ uopOp w ≤ 17)
def uopIsSt (w : Word) : Bool := decide (18 ≤ uopOp w ∧ uopOp w ≤ 20)

/-- Is a micro-operation within R266: no reserved encoding, and a field that lies within 32 bits? -/
def uopOk (w : Word) : Bool :=
  let op := uopOp w
  decide (op ≤ 25 ∧ uopDst w ≤ 9 ∧ getF w 18 4 ≤ 12 ∧ getF w 14 4 ≤ 12 ∧ getF w 12 2 = 0)
    && (decide (op ≠ 21 ∧ op ≠ 22) || decide (getF w 0 5 + getF w 5 5 + 1 ≤ 32 ∧ (op = 21 ∨ getF w 10 1 = 0)))

/-- The first micro-operation that breaks R267, if one does. -/
def adlibBad (ws : List Word) : Option Nat :=
  (List.range ws.length).find? (fun i =>
    let w := wAt ws i
    let last := decide (i + 1 = ws.length)
    let stBefore := (ws.take i).any uopIsSt
    !uopOk w || decide (getF w 31 1 = 1) != last || (decide (uopDst w = 8) && !last) || (stBefore && (uopIsSt w || uopIsLd w)))

def State.adlibEnt (s : State) (sel : Nat) : List Word := (slook s.adlib.entries sel).getD []

/-- Result word 0 of the ad-lib commands (R268). -/
def State.adlibWord (s : State) : Word :=
  BitVec.ofNat 32 ((if s.adlib.locked then 1 else 0) + (List.range 16).foldl (fun n i => if (s.adlibEnt i).isEmpty then n else n + 2 ^ (16 + i)) 0)

end Sys2Proof.Machine
end

