-- ==== Sys2Proof/Machine/Eng.lean ====
section
/-! DEFINITION. The ENG commands (R268, R282–R285, R304) and the events and register writes of the script engines (R274, R275, R278, R281, R296). -/
namespace Sys2Proof.Machine
open Sys2Proof

/-- ENG.LOAD (R283): signature and header first, then the image, then the directory. -/
def opEngLoad (env : Env) (c : CmdRec) (s : State) : State :=
  s.withBuf c env 0 (fun bs s =>
    let ws := bytesToWords bs
    let len := bs.length
    let id := getF (wAt ws 4) 0 16
    let held := s.lib.any (fun e => e.id = id)
    if len > 196608 then s.fail c 0x0105 []
    else if !hdrOk ws len then s.fail c 0x0604 []
    else if !s.sigOk (getF (wAt ws 15) 0 8) bs then s.fail c 0x0602 []
    else if (List.range 16).any (fun n => decide (s.engState n = 1 ∨ s.engState n = 2) && s.rd (F.ENG_STATE_script n) = id) then s.fail c 0x0200 []
    else if !held && decide (s.lib.length ≥ 64) then s.fail c 0x0300 []
    else match libPlace s.lib len libBase 65 with
      | none => s.fail c 0x0301 []
      | some a =>
        let s := s.putWords a ws
        let l : List LibEnt := s.lib.filter (fun e => e.id ≠ id) ++ [LibEnt.mk id (getF (wAt ws 4) 16 16) a len]
        let s := { s with lib := l }
        s.done c [wAt ws 4, BitVec.ofNat 32 s.libFree])

/-- ENG.START (R284): carried out once to check and enter LOADING, and again to verify, load and start; `obs`: the load time measured, in µs. -/
def opEngStart (env : Env) (c : CmdRec) (s : State) : State :=
  let n := c.f 0 3 0
  let id := c.f 1 15 0
  if (s.eng n).loadSeq = some c.seq then
    match s.lib.find? (fun e => e.id = id) with
    | none => (s.engStop n (s.rd (F.ENG_STATE_cause n)) 0).fail c 0x0202 []
    | some e =>
      match bulkOf c 2 0 with
      | .error st => (s.engStop n (s.rd (F.ENG_STATE_cause n)) 0).fail c st []
      | .ok b =>
        match s.readBuf c env b with
        | (.wait, s) => s.again c
        | (.status st, s) => (s.engStop n (s.rd (F.ENG_STATE_cause n)) 0).fail c st []
        | (.data bs, s) =>
          let w := fun (i : Nat) => s.wordAt (e.addr + 4 * i)
          if s.anyBad e.addr e.len || !s.sigOk (getF (w 15) 0 8) (s.bytesAt e.addr e.len) then
            (s.engStop n (s.rd (F.ENG_STATE_cause n)) 0).fail c 0x0602 []
          else
            let s := s.engRun n e (bytesToWords bs)
            (if s.anyPending (0x10 + n) then s.engEvent n 18 else s).done c [wAt env.obs 0]
  else if !s.engIdle n then s.fail c 0x0200 []
  else match s.lib.find? (fun e => e.id = id && decide (e.version ≥ c.f 1 31 16)) with
    | none => s.fail c 0x0202 []
    | some e =>
      s.withBuf c env 2 (fun bs s =>
        let w := fun (i : Nat) => (s.wordAt (e.addr + 4 * i)).toNat
        if bs.length > w 12 then s.fail c 0x0105 []
        else if !s.ownsAll n (unitKind (w 13)) (bytesToWords bs) || decide ((ones 32 (s.handsOf n)).length < w 13 / 2 ^ 17 % 64) then s.fail c 0x0202 []
        else ((s.wr (F.ENG_STATE_state n) 1).setEng n (fun x => { x with loadSeq := some c.seq })).again c)

/-- ENG.STOP (R276, R277). -/
def opEngStop (c : CmdRec) (s : State) : State :=
  let l := (ones 16 (c.f 0 15 0)).filter (fun n => s.engState n = 2)
  (s.each l (fun n s => s.engStop n 1 3)).done c [BitVec.ofNat 32 (l.foldl (fun m n => m + 2 ^ n) 0)]

/-- ENG.MATRIX (R270, R279, R288, R304). -/
def opEngMatrix (c : CmdRec) (s : State) : State :=
  let n := c.f 0 3 0
  let us := lineMask c 1
  let cs := ones 16 (c.f 5 15 0)
  let other := fun (o : Option Nat) => match o with | some e => decide (e ≠ n) | none => false
  match c.f 0 9 8 with
  | 0 =>
    if !s.engIdle n || us.any (fun u => other (s.unitOwner u)) || cs.any (fun k => other (s.can k).owner) then s.fail c 0x0200 []
    else ((s.each (us.filter (fun u => s.unitOwner u = none)) (fun u s => s.giveUnit u (some n))).each (cs.filter (fun k => (s.can k).owner = none))
      (fun k s => s.setCanOwner k (some n))).done c []
  | 1 =>
    if !s.engIdle n || us.any (fun u => other (s.unitOwner u)) || cs.any (fun k => other (s.can k).owner) then s.fail c 0x0200 []
    else ((s.each (us.filter (fun u => s.unitOwner u = some n)) (fun u s => s.giveUnit u none)).each (cs.filter (fun k => (s.can k).owner = some n))
      (fun k s => s.setCanOwner k none)).done c []
  | 2 =>
    let ch := c.f 1 2 0
    let ep := c.f 1 5 4
    let u := c.f 1 11 8
    if ep = 3 then s.badEnc c
    else if !s.engIdle n then s.fail c 0x0200 []
    else if ep = 1 ∧ (s.can u).owner ≠ some n then s.fail c 0x0501 []
    else if ep = 2 ∧ u > 3 then s.badParam c 1
    else (((s.chanClear n ch).wr (F.ENG_CHCFG_endpoint n ch) ep).wr (F.ENG_CHCFG_unit n ch) u).done c []
  | _ => s.badEnc c

/-- ENG.HANDS (R270, R304). -/
def opEngHands (c : CmdRec) (s : State) : State :=
  let e := c.f 1 3 0
  let l := ones 32 (c.p 0)
  if !s.engIdle e || l.any (fun h => s.on (F.HAND_CTL_en h) || !s.engIdle (s.handOwner h)) then s.fail c 0x0200 []
  else
    (s.each l (fun h s =>
      let s := s.each (List.range 8) (fun k s => (s.wr (F.HAND_PIN_out h k) 0).wr (F.HAND_PIN_in h k) 0)
      ((s.wr (F.HAND_STAT_owner h) e).handFifoClr h).handRestart h)).done c []

/-- ENG.ADLIB (R267, R268). -/
def opEngAdlib (c : CmdRec) (s : State) : State :=
  let sel := c.f 0 3 0
  let k := c.f 0 21 16
  if c.f 0 8 8 = 0 then
    let ws := (List.range k).map (fun i => c.pw (1 + i))
    if s.adlib.locked then s.fail c 0x0203 []
    else if k > 32 then s.badParam c 0
    else if c.params.length < 1 + k then s.fail c 0x0101 []
    else match adlibBad ws with
      | some i => s.badParam c (1 + i)
      | none =>
        let s := { s with adlib := { s.adlib with entries := sins (sdel s.adlib.entries sel) sel ws } }
        s.done c [s.adlibWord]
  else
    s.withOut c 1 (fun b s =>
      if b.len < 128 then s.fail c 0x0105 []
      else
        let ws := s.adlibEnt sel
        (s.writeBuf c b (ws ++ List.replicate (32 - ws.length) 0)).done c [s.adlibWord, BitVec.ofNat 32 ws.length])

def opEngAdliblock (c : CmdRec) (s : State) : State :=
  if s.adlib.locked then s.fail c 0x0203 []
  else
    let s := { s with adlib := { s.adlib with locked := true } }
    s.done c [s.adlibWord]

def opEngStatus (c : CmdRec) (s : State) : State :=
  let n := c.f 0 3 0
  s.done c [s.reg (F.ENG_STATE_state n).addr, s.reg (F.ENG_STOPEPC n).addr, s.reg (F.ENG_STOPTVAL n).addr, BitVec.ofNat 32 (s.handsOf n)]

def execEngLoad (seq : Nat) (env : Env) (s : State) : Out := .next (s.runCmd 0x0700 seq (opEngLoad env))
def execEngStart (seq : Nat) (env : Env) (s : State) : Out := .next (s.runCmd 0x0701 seq (opEngStart env))
def execEngStop (seq : Nat) (s : State) : Out := .next (s.runCmd 0x0702 seq opEngStop)
def execEngMatrix (seq : Nat) (s : State) : Out := .next (s.runCmd 0x0703 seq opEngMatrix)
def execEngHands (seq : Nat) (s : State) : Out := .next (s.runCmd 0x0704 seq opEngHands)
def execEngAdlib (seq : Nat) (s : State) : Out := .next (s.runCmd 0x0705 seq opEngAdlib)
def execEngAdliblock (seq : Nat) (s : State) : Out := .next (s.runCmd 0x0706 seq opEngAdliblock)
def execEngStatus (seq : Nat) (s : State) : Out := .next (s.runCmd 0x0707 seq opEngStatus)

/-- The engine timer fires (R275). -/
def State.engTimer (s : State) (n : Nat) : State :=
  if s.on (F.ENG_TCTL_en n) && decide (s.domState n = 0) && decide (sgn 32 (wrapI 32 ((s.rawLo : Int) - s.rd (F.ENG_TCMP n))) ≥ 0) then (s.engEvent n 19).wr (F.ENG_TCTL_en n) 0
  else s
def execEngineTimer (n : Fin 16) (s : State) : Out := .next (s.guardUp (fun s => s.engTimer n))

/-- The engine watchdog expires (R278). -/
def State.engWatchdog (s : State) (n : Nat) : State :=
  let e := s.eng n
  if s.engState n = 2 ∧ s.domState n = 0 ∧ e.wdPeriod ≠ 0 ∧ s.raw ≥ e.wdRaw + e.wdPeriod * 4000 then s.engStop n 3 3 else s
def execEngineWatchdog (n : Fin 16) (s : State) : Out := .next (s.guardUp (fun s => s.engWatchdog n))

/-- A write of ENGnn_SYNC (R296): an engine reaches only the stagehands it owns. -/
def State.engSync (s : State) (id mask : Nat) : State :=
  let own := if 0x10 ≤ id ∧ id < 0x20 then s.handsOf (id - 0x10) else 2 ^ 32 - 1
  s.handSync (Nat.land mask own)
def execEngSync (id : Ident) (_n : Fin 16) (mask : Word) (s : State) : Out := .next (s.guardUp (fun s => s.engSync id mask.toNat))

/-- A kick restarts the engine watchdog (R278); in retention the watchdog is suspended, and wdRaw holds the time that had run (R470). -/
def State.wdKick (s : State) (n : Nat) : State := s.setEng n (fun x => { x with wdRaw := if s.domState n = 1 then 0 else s.raw })
def execEngWdkick (_id : Ident) (n : Fin 16) (s : State) : Out := .next (s.guardUp (fun s => s.wdKick n))

/-- A write of ENGnn_GTX (R281). -/
def State.engGtx (s : State) (n : Nat) (v : Word) : State :=
  if s.on (F.ENG_GTXSTAT_busy n) then s.wr (F.ENG_GTXSTAT_ovr n) 1
  else (s.wr (F.ENG_GTXSTAT_busy n) 1).setEng n (fun x => { x with gtx := some (getF v 2 15 * 4) })
def execEngGtx (_id : Ident) (n : Fin 16) (v : Word) (s : State) : Out := .next (s.guardUp (fun s => s.engGtx n v))

/-- The event word as a read finds it: the latched bits and the conditions of the level bits (R274). -/
def State.evtWord (s : State) (n : Nat) : Word :=
  let ch := (List.range 8).foldl (fun m c => if (s.chRx n c).isEmpty then m else m + 2 ^ c) 0
  let grx := if s.rd (F.ENG_GRXPTR_head n) = s.rd (F.ENG_GRXPTR_tail n) then 0 else 2 ^ 16
  BitVec.ofNat 32 (s.rd (F.ENG_EVT n) / 2 ^ 17 % 16 * 2 ^ 17 + s.rd (F.ENG_EVT n) / 2 ^ 24 * 2 ^ 24 + s.rd (F.ENG_EVT n) / 2 ^ 8 % 2 ^ 8 * 2 ^ 8 + ch + grx)

/-- W1C of the latched bits (R274); where an event sets a bit in the same cycle, its own command follows and the bit ends set (R275). -/
def State.evtClear (s : State) (n : Nat) (v : Word) : State := s.wr (F.ENG_EVT n) ((BitVec.ofNat 32 (s.rd (F.ENG_EVT n)) &&& ~~~ v).toNat)
def execEngEvtClear (_id : Ident) (n : Fin 16) (v : Word) (s : State) : Out := .next (s.guardUp (fun s => s.evtClear n v))

def State.engCntClr (s : State) (n : Nat) : State := s.clearRegs (F.ENG_CNT_PARITY n).addr 4
def execEngCntclr (_id : Ident) (n : Fin 16) (s : State) : Out := .next (s.guardUp (fun s => s.engCntClr n))

end Sys2Proof.Machine
end

