-- ==== Sys2Proof/Machine/Gate.lean ====
section
/-! DEFINITION. The gate: routing, rate adaptation, transactions and crossings (R191–R204), and the GATE commands (R205). -/
namespace Sys2Proof.Machine
open Sys2Proof

/-- Does a routing entry match (R194)? -/
def routeHit (src : Nat) (sid : Word) (w : List Word) : Bool :=
  let w0 := wAt w 0
  let ign := getF w0 24 5
  decide (getF w0 31 1 = 1 ∧ getF w0 16 8 = src ∧ sid.toNat / 2 ^ ign = (wAt w 1).toNat / 2 ^ ign)

/-- The matching entry with the fewest ignored bits, the lower index on a tie (R194); `routes` stands in index order. -/
def bestRoute (src : Nat) (sid : Word) (l : List (Nat × List Word)) : Option (List Word) :=
  l.foldl (fun r e => if routeHit src sid e.2 then (match r with
    | some b => if getF (wAt e.2 0) 24 5 < getF (wAt b 0) 24 5 then some e.2 else r
    | none => some e.2) else r) none

/-- The party of a port (R193). -/
def State.party (s : State) (p : Nat) : Nat := s.rd (subFld (F.GATE_PARTY (p / 4)) (8 * (p % 4)) 8)

/-- Parties that the parties in `l` wait on. -/
def State.waitsOn (s : State) (l : List Nat) : List Nat :=
  ((s.gate.txs.filter (fun t => t.remote.isNone && t.station = 0 && l.contains (s.party t.srcPort))).map (fun t => s.party t.dstPort)).filter (· ≠ 0)

/-- Does party `b` wait on party `a`, directly or through up to `k` parties (R201)? -/
def State.waitsFor (s : State) (a : Nat) : Nat → List Nat → Bool
  | 0, l => (s.waitsOn l).contains a
  | k + 1, l => let m := s.waitsOn l; m.contains a || s.waitsFor a k m

/-- The value of a rate entry, if the entry is valid and its value is fresh (R197). -/
def State.freshVal (s : State) (i : Nat) : Option (List Byte) :=
  match slook s.gate.rates i, slook s.gate.cache i with
  | some w, some e =>
    let age := getF (wAt w 1) 0 16
    if getF (wAt w 0) 31 1 = 1 ∧ (age = 0 ∨ s.raw - e.arrived ≤ age * tickMs) then some e.val else none
  | _, _ => none

/-- A value arrives at a rate entry (R197). -/
def State.rateValue (s : State) (i src raw : Nat) (data : List Byte) : State :=
  match slook s.gate.rates i with
  | none => s
  | some w =>
    if getF (wAt w 0) 31 1 = 0 then s
    else
      let n := getF (wAt w 0) 16 6
      let sent := match slook s.gate.cache i with | some e => e.sent | none => none
      let e : CacheEnt := { src := src, val := (data ++ List.replicate n 0).take n, arrived := s.raw, raw := raw, fresh := true, sent := sent }
      s.setGate (fun g => { g with cache := sins (sdel g.cache i) i e })

/-- The message at the head of the queue is done with. -/
def State.gatePop (s : State) : State := s.setGate (fun g => { g with inq := g.inq.tail })

/-- Send a message to the place that a routing or rate word 3 names (R195). -/
def State.gateSend (s : State) (w3 : Word) (m : Msg) : State :=
  let m := { m with dstPort := getF w3 24 8 }
  if getF w3 4 12 = 0 then s.deliverPort m
  else s.gateFrame (if getF w3 1 1 = 1 then 6 else 5) (getF w3 16 8) (getF w3 4 12) (decide (getF w3 3 1 = 1)) m

/-- Can a message of `n` data bytes go where word 3 says: a remote one needs ring egress (R367), and a side-band at most 16 bytes (R196). -/
def State.gateRoom (s : State) (w3 : Word) (n : Nat) : Bool := getF w3 4 12 = 0 || s.ringAdmits s.odir 1 (40 + n)
def sideTooLong (w3 : Word) (n : Nat) : Bool := decide (getF w3 4 12 ≠ 0 ∧ getF w3 1 1 = 1 ∧ n > 16)

/-- The lowest free transaction number (R200). -/
def State.freeTx (s : State) : Option Nat := (List.range 64).find? (fun n => !s.gate.txs.any (fun t => t.num = n))

/-- Open a transaction for a request on a route whose word 3 is `w3` (R195, R200): delivered at once, waiting at a port whose previous request is open,
or sent to another station. -/
def State.openTx (s : State) (t : GateTx) (w3 : Word) (m : Msg) : State :=
  let busy := t.station = 0 && s.gate.txs.any (fun x => x.station = 0 && x.dstPort = t.dstPort && x.waiting.isNone)
  let t := { t with waiting := if busy then some m else none }
  let s := (s.setGate (fun g => { g with txs := g.txs ++ [t] })).showGate
  if busy then s
  else if t.station = 0 then s.deliverPort { m with tx := t.num }
  else s.gateSend w3 { m with tx := t.num }

/-- An answer by its transaction number (R200); answers of a route with its cache bit set refresh the rate entry (R194). -/
def State.gateAnswer (s : State) (m : Msg) : State :=
  match s.gate.txs.find? (fun t => t.num = m.tx && t.waiting.isNone) with
  | none => s
  | some t =>
    let s := match t.cacheIdx with | some i => if m.busy then s else s.rateValue i m.srcPort m.raw m.data | none => s
    (s.txAnswer t m).txClose t

/-- A request that the gate answers itself, holding nothing (R197, R201). -/
def State.answerNow (s : State) (m : Msg) (dst : Nat) (v : Option (List Byte)) : State :=
  s.deliverPort { srcPort := dst, dstPort := m.srcPort, srcId := m.dstId, dstId := m.srcId, req := false, ans := true, tx := m.tx, raw := s.raw,
                  data := v.getD [], busy := v.isNone }

/-- A request on a route (R200, R201). -/
def State.gateRequest (s : State) (w : List Word) (m : Msg) : State :=
  let w0 := wAt w 0
  let w3 := wAt w 3
  let dst := getF w3 24 8
  let a := s.party m.srcPort
  let b := if getF w3 4 12 = 0 then s.party dst else 0
  if a ≠ 0 ∧ b ≠ 0 ∧ s.waitsFor a 8 [b] then
    match (if getF w0 29 1 = 1 then s.freshVal (getF w0 0 10) else none) with
    | some v => ((s.inc F.GATE_CNT_CACHEANS).gateLog 1 m.srcPort dst m.tx m.srcId m.dstId).answerNow m dst (some v)
    | none => ((s.inc F.GATE_CNT_BUSY).gateLog 2 m.srcPort dst m.tx m.srcId m.dstId).answerNow m dst none
  else match s.freeTx with
    | none => (s.inc F.GATE_CNT_BUSY).answerNow m dst none
    | some n =>
      s.openTx { num := n, srcPort := m.srcPort, dstPort := dst, srcId := m.srcId, dstId := m.dstId, start := s.raw, waiting := none,
                 cacheIdx := if getF w0 29 1 = 1 then some (getF w0 0 10) else none, ring := getF w3 16 8, station := getF w3 4 12, remote := none }
        w3 { m with dstPort := dst }

/-- A message on its route (R194, R195, R197). -/
def State.gateRoute (s : State) (w : List Word) (m : Msg) : State :=
  let w0 := wAt w 0
  let w3 := wAt w 3
  let ign := getF w0 24 5
  let id := if getF w3 2 1 = 1 then setF (wAt w 2) 0 ign (getF m.srcId 0 ign) else wAt w 2
  let m := { m with dstId := id }
  if getF w0 30 1 = 1 then
    let i := getF w0 0 10
    let poll := match slook s.gate.rates i with | some r => decide (getF (wAt r 0) 30 1 = 1) | none => false
    let s := s.gatePop
    if m.req && poll then
      match s.freshVal i with
      | some v => s.answerNow m (getF w3 24 8) (some v)
      | none => (s.inc F.GATE_CNT_BUSY).answerNow m (getF w3 24 8) none
    else s.rateValue i m.srcPort m.raw m.data
  else if sideTooLong w3 m.data.length then s.gatePop.inc F.GATE_CNT_QDROP
  else if !s.gateRoom w3 m.data.length then s
  else if m.req then s.gatePop.gateRequest w m
  else s.gatePop.gateSend w3 m

/-- The oldest message that waits for its routing is routed (R194); one bound for a ring egress without room waits (R367). -/
def State.gateHead (s : State) : State :=
  match s.gate.inq with
  | [] => s
  | m :: _ =>
    if !s.on F.GATE_CTL_en then s.gatePop.inc F.GATE_CNT_MISS
    else if m.ans then
      let far := match s.gate.txs.find? (fun t => t.num = m.tx && t.waiting.isNone) with | some t => t.remote.isSome | none => false
      if far && !s.ringAdmits s.odir 1 (40 + m.data.length) then s else s.gatePop.gateAnswer m
    else match bestRoute m.srcPort m.srcId s.gate.routes with
      | some w => s.gateRoute w m
      | none =>
        let s := s.gatePop
        if m.srcPort = 0xB0 then s
        else
          let s := s.inc F.GATE_CNT_MISS
          if s.on F.GATE_CFG_logmiss then s.gateLog 5 m.srcPort 0 0 m.srcId 0 else s

/-- The gate takes the message that an engine handed over in ENGnn_GTX (R281). -/
def State.gateTake (s : State) (n : Nat) : State :=
  match (s.eng n).gtx with
  | none => s
  | some o =>
    let a := engBase n
    let rd := fun (i : Nat) => s.byte (a + (o + i) % 0x20000)
    let w := fun (i : Nat) => wordOf (rd (4 * i)) (rd (4 * i + 1)) (rd (4 * i + 2)) (rd (4 * i + 3))
    let len := getF (w 0) 0 12
    let s := ((s.setEng n (fun x => { x with gtx := none })).wr (F.ENG_GTXSTAT_busy n) 0).engEvent n 17
    if getF (w 0) 16 8 / 8 ≠ n ∨ len > 2024 then (s.wr (F.ENG_GTXSTAT_err n) 1).inc (F.ENG_CNT_GTXERR n)
    else
      let m := msgOf ((List.range 5).map w) ((List.range len).map (fun i => rd (20 + i)))
      s.gateIn { m with srcId := m.dstId }

/-- MESSAGE_ENTERS_GATE: `src` 0–15 the message handed over by that engine, 16 the oldest of the messages that wait. -/
def State.gateEnter (s : State) (src : Nat) : State :=
  if src < 16 then (if (s.eng src).gtx.isSome then (s.gateTake src).gateHead else s) else s.gateHead
def execMessageEntersGate (src : Fin 17) (s : State) : Out := .next (s.guardUp (fun s => s.gateEnter src))

/-- A rate entry sends its latest value (R197). -/
def State.rateSend (s : State) (i : Nat) : State :=
  match slook s.gate.rates i, slook s.gate.cache i with
  | some w, some e =>
    let w0 := wAt w 0
    let due := match e.sent with | none => true | some t => decide (s.raw ≥ t + getF w0 0 16 * 4000)
    if getF w0 31 1 = 1 ∧ getF w0 30 1 = 0 ∧ e.fresh ∧ due = true ∧ s.on F.GATE_CTL_en ∧ s.gateRoom (wAt w 3) e.val.length then
      let s := s.setGate (fun g => { g with cache := sins (sdel g.cache i) i { e with fresh := false, sent := some s.raw } })
      let s := s.inc F.GATE_CNT_RATESENT
      if sideTooLong (wAt w 3) e.val.length then s.inc F.GATE_CNT_QDROP
      else s.gateSend (wAt w 3) { srcPort := e.src, dstPort := 0, srcId := 0, dstId := wAt w 2, req := false, ans := false, tx := 0, raw := e.raw,
                                  data := e.val, busy := false }
    else s
  | _, _ => s
def execRateEntrySend (i : Fin 1024) (s : State) : Out := .next (s.guardUp (fun s => s.rateSend i))

/-- A limit of transaction `n` has passed (R200): 3 the wait at a held port, 4 the answer. -/
def State.txLimit (s : State) (n cause : Nat) : State :=
  match s.gate.txs.find? (fun t => t.num = n) with
  | none => s
  | some t =>
    let lim := if cause = 3 then s.rd F.GATE_CFG_wait * tickUs else s.rd F.GATE_CFG_txlim * tickMs
    if t.waiting.isSome = decide (cause = 3) ∧ s.raw ≥ t.start + lim then (s.gateLog cause t.srcPort t.dstPort t.num t.srcId t.dstId).txBusy t else s
def execGateWaitLimit (n : Fin 64) (s : State) : Out := .next (s.guardUp (fun s => s.txLimit n 3))
def execGateAnswerLimit (n : Fin 64) (s : State) : Out := .next (s.guardUp (fun s => s.txLimit n 4))

/-- A message or side-band frame from the fabric, its payload words (R195, R196): delivered straight to its port; a request opens a transaction here. -/
def State.gateArrive (s : State) (ring station : Nat) (ws : List Word) : State :=
  let m := msgOf ws ((wordsToBytes ws).drop 20)
  if !s.on F.GATE_CTL_en then s.inc F.GATE_CNT_MISS
  else if m.ans then s.gateAnswer m
  else if m.req then
    match s.freeTx with
    | none =>
      (s.inc F.GATE_CNT_BUSY).gateFrame 5 ring station false
        { m with srcPort := m.dstPort, dstPort := m.srcPort, req := false, ans := true, data := [], raw := s.raw, busy := true }
    | some n =>
      s.openTx { num := n, srcPort := m.srcPort, dstPort := m.dstPort, srcId := m.srcId, dstId := m.dstId, start := s.raw, waiting := none,
                 cacheIdx := none, ring := 0, station := 0, remote := some (ring, station, m.tx) } 0 m
  else s.deliverPort m

def State.gateLogClr (s : State) : State := (s.clearRegs (F.GATE_LOG 0 0).addr 128).wr F.GATE_LOGSTAT_held 0
def execGateCtlLogclr (id : Ident) (s : State) : Out := .next (s.guardBs id F.GATE_CTL_en.addr State.gateLogClr)
def State.gateCntClr (s : State) : State := s.clearRegs F.GATE_CNT_MISS.addr 6
def execGateCtlCntclr (id : Ident) (s : State) : Out := .next (s.guardBs id F.GATE_CTL_en.addr State.gateCntClr)

/-- Show the valid entries (GATE_STAT). -/
def State.showRoutes (s : State) : State :=
  let n := fun (l : List (Nat × List Word)) => (l.filter (fun e => getF (wAt e.2 0) 31 1 = 1)).length
  (s.wr F.GATE_STAT_routes (n s.gate.routes)).wr F.GATE_STAT_rates (n s.gate.rates)

/-- Reserved encodings of a routing entry. -/
def routeBad (w : List Word) : Bool :=
  let p := getF (wAt w 0) 16 8
  let q := getF (wAt w 3) 24 8
  let ok := fun (x : Nat) => decide (x < 0x92 ∨ x = 0x98)
  decide (getF (wAt w 0) 31 1 = 1) && (decide (getF (wAt w 0) 10 6 ≠ 0 ∨ getF (wAt w 3) 0 1 ≠ 0) || !(ok p || p = 0xB0) || !ok q)

/-- Successive entries of four words. -/
def quads : Nat → List Word → List (List Word)
  | 0, _ => []
  | n + 1, l => l.take 4 :: quads n (l.drop 4)

def putEnts (l : List (Nat × List Word)) (i : Nat) (es : List (List Word)) : List (Nat × List Word) :=
  (es.zipIdx).foldl (fun l e => sins (sdel l (i + e.2)) (i + e.2) e.1) l

/-- GATE.ROUTE (R204, R205). -/
def opGateRoute (env : Env) (c : CmdRec) (s : State) : State :=
  let i := c.f 0 27 16
  let k := c.f 1 12 0
  match c.f 0 1 0 with
  | 2 => ((s.setGate (fun g => { g with routes := [] })).showRoutes).done c [0]
  | 3 => s.badEnc c
  | m =>
    if k = 0 ∨ k > 4096 then s.badParam c 1
    else if i + k > 4096 then s.badParam c 0
    else if m = 0 then
      s.withBuf c env 2 (fun bs s =>
        let es := quads k (bytesToWords bs)
        if bs.length ≠ 16 * k then s.fail c 0x0105 []
        else if es.any routeBad then s.badEnc c
        else ((s.setGate (fun g => { g with routes := putEnts g.routes i es })).showRoutes).done c [BitVec.ofNat 32 k])
    else
      s.withOut c 2 (fun b s =>
        if b.len < 16 * k then s.fail c 0x0105 []
        else (s.writeBuf c b ((List.range k).flatMap (fun j => (slook s.gate.routes (i + j)).getD [0, 0, 0, 0]))).done c [BitVec.ofNat 32 k])

/-- Reserved encodings of a rate entry. -/
def rateBad (w : List Word) : Bool :=
  decide (getF (wAt w 0) 31 1 = 1) && decide (getF (wAt w 0) 22 8 ≠ 0 ∨ getF (wAt w 0) 16 6 = 0 ∨ getF (wAt w 0) 16 6 > 32 ∨ getF (wAt w 1) 16 16 ≠ 0
    ∨ getF (wAt w 3) 0 1 ≠ 0)

/-- GATE.RATE (R204, R205): a rewritten entry keeps its cached value only where the value length is unchanged. -/
def opGateRate (c : CmdRec) (s : State) : State :=
  let i := c.f 0 9 0
  let k := c.f 0 19 16
  let es := quads k (c.params.drop 1)
  if k = 0 ∨ k > 14 ∨ i + k > 1024 then s.badParam c 0
  else if c.params.length < 1 + 4 * k then s.fail c 0x0101 []
  else if es.any rateBad then s.badEnc c
  else
    let len := fun (w : Option (List Word)) => getF (wAt (w.getD []) 0) 16 6
    let keep := s.gate.cache.filter (fun e => !(i ≤ e.1 && e.1 < i + k) || len (slook s.gate.rates e.1) = len (some (es.getD (e.1 - i) [])))
    ((s.setGate (fun g => { g with rates := putEnts g.rates i es, cache := keep })).showRoutes).done c []

/-- GATE.CACHE (R205). -/
def opGateCache (c : CmdRec) (s : State) : State :=
  let i := c.f 0 9 0
  let k := c.f 0 26 16
  if k = 0 ∨ k > 1024 ∨ i + k > 1024 then s.badParam c 0
  else
    s.withOut c 1 (fun b s =>
      if b.len < 48 * k then s.fail c 0x0105 []
      else
        let one := fun (j : Nat) => match slook s.gate.cache (i + j) with
          | some e => bytesToWords ((e.val ++ List.replicate 32 0).take 32) ++ [BitVec.ofNat 32 e.arrived, BitVec.ofNat 32 (e.arrived / 2 ^ 32),
              if (s.freshVal (i + j)).isSome then 1 else 0, 0]
          | none => List.replicate 12 0
        (s.writeBuf c b ((List.range k).flatMap one)).done c [BitVec.ofNat 32 k])

def opGateStatus (c : CmdRec) (s : State) : State :=
  s.done c [s.reg F.GATE_STAT_routes.addr, s.reg F.GATE_CNT_MISS.addr, s.reg F.GATE_CNT_QDROP.addr, s.reg F.GATE_LOGSTAT_held.addr]

def execGateRoute (seq : Nat) (env : Env) (s : State) : Out := .next (s.runCmd 0x0504 seq (opGateRoute env))
def execGateRate (seq : Nat) (s : State) : Out := .next (s.runCmd 0x0505 seq opGateRate)
def execGateCache (seq : Nat) (s : State) : Out := .next (s.runCmd 0x0506 seq opGateCache)
def execGateStatus (seq : Nat) (s : State) : Out := .next (s.runCmd 0x0507 seq opGateStatus)

end Sys2Proof.Machine
end

