-- ==== Sys2Proof/Machine/FabOps.lean ====
section
/-! DEFINITION. The fabric requester's windows, logs and prefetch buffers (R170, R173, R181, R183, R184), and the DMA registers (R421, R422). -/
namespace Sys2Proof.Machine
open Sys2Proof

def State.setFab (s : State) (f : FabSt → FabSt) : State := { s with fab := f s.fab }

/-- Window and offset of an aperture address (R170). -/
def winOf (a : Nat) : Nat := a / 0x01000000 - 16
def winOff (a : Nat) : Nat := a % 0x01000000

/-- The registers of window `w`, and the accesses outstanding through it. -/
def winRegs (w : Nat) : List Nat := [(F.FAB_WIN0_en w).addr, (F.FAB_WIN1_ring w).addr, (F.FAB_WIN2_end w).addr]
def State.winOut (s : State) (w : Nat) : Nat := (s.fab.tags.filter (fun t => t.any (fun e => e.window = w))).length

/-- Show the tags held, the accesses outstanding and the windows written and not committed (FAB_STAT, FAB_WINw). -/
def State.showFab (s : State) : State :=
  let s := s.wr F.FAB_STAT_tags (s.fab.tags.filter (fun t => t.isSome)).length
  s.each (List.range 16) (fun w s => s.wr (F.FAB_WIN3_out w) (s.winOut w))
def State.showWins (s : State) : State :=
  s.each (List.range 16) (fun w s => s.wr (bitFld F.FAB_STAT_pending w) (if s.anyShadow (winRegs w) then 1 else 0))

/-- The four words of a log entry (R181). -/
def fabEntry (posted : Bool) (tag cause ident ring station daddr raw : Nat) : List Word :=
  [BitVec.ofNat 32 (2 ^ 31 + (if posted then 2 ^ 30 else 0) + (if posted then 0 else tag * 2 ^ 24) + cause * 2 ^ 16 + ident),
   BitVec.ofNat 32 (ring * 2 ^ 24 + station * 2 ^ 12), BitVec.ofNat 32 daddr, BitVec.ofNat 32 raw]

/-- Write an entry of the fabric error log; a full log loses it (R181). -/
def State.fabLog (s : State) (posted : Bool) (tag cause ident ring station daddr : Nat) : State :=
  let n := s.rd F.FAB_ELOGSTAT_held
  let s := s.event F.FAB_EVT_errlog
  if n ≥ 32 then s.wr F.FAB_ELOGSTAT_ovf 1
  else
    let l := fabEntry posted tag cause ident ring station daddr s.rawLo
    (s.each (List.range 4) (fun i s => s.setReg (F.FAB_ELOG n i).addr (wAt l i))).wr F.FAB_ELOGSTAT_held (n + 1)

/-- Discard the prefetch buffer of window `w`: with se and bytes unread it is logged (R183, R184). -/
def State.pfDrop (s : State) (w : Nat) : State :=
  match s.fab.pf.getD w none with
  | none => s
  | some b =>
    let s := s.setFab (fun f => { f with pf := updAt f.pf w (fun _ => none) })
    if b.se && !b.left.isEmpty then
      let n := s.rd F.FAB_DLOGSTAT_held
      if n ≥ 16 then s.wr F.FAB_DLOGSTAT_ovf 1
      else
        let l := fabEntry false b.tag 0 b.ident b.ring b.station b.daddr s.rawLo
        ((s.each (List.range 4) (fun i s => s.setReg (F.FAB_DLOG n i).addr (wAt l i))).wr F.FAB_DLOGSTAT_held (n + 1)).event F.FAB_EVT_dlog
    else s

/-- The fields of window `w` take effect (R173). -/
def State.winApply (s : State) (w : Nat) : State :=
  let s := (s.pfDrop w).commitRegs (winRegs w)
  (s.setFab (fun f => { f with commitWait := f.commitWait.filter (· ≠ w) })).showWins

/-- Commit window `w`: once no access through it is outstanding (R173). -/
def State.winCommit (s : State) (w : Nat) : State :=
  if s.winOut w = 0 then s.winApply w
  else s.setFab (fun f => { f with commitWait := if f.commitWait.contains w then f.commitWait else f.commitWait ++ [w] })

/-- Free a tag; the commits that waited for it follow (R173, R175). -/
def State.freeTag (s : State) (t : Nat) : State :=
  let s := (s.setFab (fun f => { f with tags := updAt f.tags t (fun _ => none) })).showFab
  s.each s.fab.commitWait (fun w s => if s.winOut w = 0 then s.winApply w else s)

/-- The FAB counters and logs cleared (R205, R206). -/
def State.fabCntClr (s : State) : State := s.clearRegs F.FAB_CNT_NPREQ.addr 8
def State.fabElogClr (s : State) : State := ((s.clearRegs (F.FAB_ELOG 0 0).addr 128).wr F.FAB_ELOGSTAT_held 0).wr F.FAB_ELOGSTAT_ovf 0
def State.fabDlogClr (s : State) : State := ((s.clearRegs (F.FAB_DLOG 0 0).addr 64).wr F.FAB_DLOGSTAT_held 0).wr F.FAB_DLOGSTAT_ovf 0

/-- What a DMA channel holds, and a change of it. -/
def State.dma (s : State) (c : Nat) : DmaSt := s.memu.dma.getD c ⟨0, [], 0, false⟩
def State.setDma (s : State) (c : Nat) (f : DmaSt → DmaSt) : State := { s with memu := { s.memu with dma := updAt s.memu.dma c f } }

/-- Start a DMA channel at its first descriptor; ignored while busy (R421). -/
def State.dmaStart (s : State) (c : Nat) : State :=
  if s.on (F.MEM_DMA2_busy c) then s
  else
    ((s.wr (F.MEM_DMA2_busy c) 1).wr (F.MEM_DMA3_moved c) 0).setDma c (fun _ => ⟨s.rd (F.MEM_DMA1_desc c) * 16, [], 0, false⟩)

/-- A channel stops on an error (R422). -/
def State.dmaError (s : State) (c cause : Nat) : State :=
  if s.on (F.MEM_DMA2_busy c) then
    let s := ((s.wr (F.MEM_DMA2_busy c) 0).wr (F.MEM_DMA2_err c) 1).wr (F.MEM_DMA2_cause c) cause
    (s.setDma c (fun x => { x with waiting := false })).callEvent (s.rd (F.MEM_DMA0_chan c))
  else s

end Sys2Proof.Machine
end

