-- ==== Sys2Proof/Machine/Line.lean ====
section
/-! DEFINITION. The LINE and DIO commands (R330), the writes of the line registers, and what happens at serial and discrete lines (chapter 11). -/
namespace Sys2Proof.Machine
open Sys2Proof

/-- Commit LINEnn_MODE: a mode or termination that changes asks for a pass (R307, R324); a controller connected to another port is not taken twice
(R310). -/
def State.canTaken (s : State) (n k : Nat) : Bool :=
  (List.range 48).any (fun m => decide (m ≠ n ∧ s.rd (F.LINE_MODE_mode m) = 3 ∧ s.rd (F.LINE_MODE_cansel m) = k))
def modeWordOk (v : Word) : Bool := decide (getF v 0 3 ≤ 3 ∧ getF v 8 2 ≤ 2 ∧ (getF v 8 2 = 2 → getF v 0 3 = 3))
def State.lineCommit (s : State) (n : Nat) : State :=
  let a := (F.LINE_MODE_mode n).addr
  let v := s.shown a
  if !modeWordOk v || (decide (getF v 0 3 = 3) && s.canTaken n (getF v 16 4)) then s
  else
    let old := s.reg a
    let s := s.commitReg a
    (s.modeChanged n (decide (getF old 0 3 ≠ getF v 0 3 ∨ getF old 8 2 ≠ getF v 8 2))).showLine n

def execLineCtlCommit (id : Ident) (n : Fin 48) (s : State) : Out := .next (s.guardBs id (F.LINE_CTL_commit n).addr (fun s => s.lineCommit n))
def execLineCtlCalreq (id : Ident) (n : Fin 48) (s : State) : Out := .next (s.guardBs id (F.LINE_CTL_commit n).addr (fun s => s.passRequest n))
def State.lineClr (s : State) (n : Nat) : State := s.clearRegs (F.LINE_CNT_ABORT n).addr 4
def execLineCtlCntclr (id : Ident) (n : Fin 48) (s : State) : Out := .next (s.guardBs id (F.LINE_CTL_commit n).addr (fun s => s.lineClr n))

/-- The calibration period has elapsed since the apply (R324). -/
def execPassRequestPeriod (u : Fin 128) (s : State) : Out :=
  .next (s.guardUp (fun s => if unitOk u && s.on F.LINE_CALCFG_period
    && decide (s.raw ≥ (s.cal u).applied + s.rd F.LINE_CALCFG_period * 1000 * tickMs) then s.passRequest u else s))

/-- The group temperature has changed by tdelta since the apply (R324). -/
def execPassRequestTdelta (u : Fin 128) (s : State) : Out :=
  .next (s.guardUp (fun s => if unitOk u && s.on F.LINE_CALCFG2_tdelta then s.passRequest u else s))

/-- A pending step starts on an idle line or in a window (R320, R325). -/
def State.calStep (s : State) (u : Nat) : State :=
  let c := s.cal u
  if decide (c.st = 1) && !c.running && !c.applyDue && s.groupOn u && (s.windowOpen u || s.unitIdle u) then s.passGo u true else s
def execCalibrationStep (u : Fin 128) (s : State) : Out := .next (s.guardUp (fun s => if unitOk u then s.calStep u else s))

/-- The step in hand gives a result: `trim`, whether it lies outside its limits, and whether a repeat agrees with the first result (R322). -/
def State.stepDone (s : State) (u : Nat) (trim : Word) (out agree : Bool) : State :=
  let c := s.cal u
  if !c.running then s
  else
    let k := c.steps.headD 0
    let next := fun (s : State) => (s.setCal u (fun c => { c with steps := c.steps.tail, first := none })).passGo u true
    if !out then next (s.setCal u (fun c => { c with cand := sset 0 c.cand k trim }))
    else match c.first with
      | none => s.setCal u (fun c => { c with first := some trim })
      | some _ =>
        if agree then next ((s.setCal u (fun c => { c with bad := true, cand := sset 0 c.cand k (sget 0 c.oper k) })).event F.LINE_EVT_outrange)
        else (s.inc (cntAbort u)).setCal u (fun c => { c with running := false, first := none })
def execStepDone (u : Fin 128) (trim : Word) (out agree : Bool) (s : State) : Out := .next (s.guardUp (fun s => s.stepDone u trim out agree))

/-- An edge at the receiver of a serial port, or at the pad of a discrete line (R314, R321). -/
def State.padEdge (s : State) (u : Nat) (b : Bool) : State :=
  let s := if u < 64 then (s.setLine u (fun l => { l with rx := b })).showLine u
    else
      let n := u - 64
      let s := s.setDio n (fun d => { d with pad := b })
      if s.rd (F.DIO_CFG_mode n) = 0 ∨ s.windowOpen u = true then s else s.wr (dioRaw n) (if b then 1 else 0)
  s.foreground u
def execForegroundEvent (u : Fin 128) (b : Bool) (s : State) : Out := .next (s.guardUp (fun s => if unitOk u then s.padEdge u b else s))

def execPassApply (u : Fin 128) (s : State) : Out := .next (s.guardUp (fun s => if (s.cal u).applyDue then s.passApply u else s))

/-- A waiting step counts one starved interval (R324). -/
def execStarvedInterval (u : Fin 128) (s : State) : Out :=
  .next (s.guardUp (fun s => if unitOk u && decide ((s.cal u).st = 1) && !(s.cal u).steps.isEmpty && !(s.cal u).running then
    (s.inc (cntStarve u)).event F.LINE_EVT_starved else s))

/-- The duration of a maintenance window ends (R327). -/
def execMaintenanceWindowEnd (u : Fin 128) (s : State) : Out :=
  .next (s.guardUp (fun s => match s.lineWindow u with
    | some t => if s.raw ≥ t then s.windowEnd u else s
    | none => s))

/-- A driver has been in its current limit for 1 ms (R312). -/
def execDriverCurrentLimit (n : Fin 48) (s : State) : Out :=
  .next (s.guardUp (fun s => if s.rd (F.LINE_MODE_mode n) ≠ 0 then s.lineFault (F.LINE_STAT_drvlim n) else s))

/-- The quad sensor passes 165 °C (`hot`) or falls below 150 °C (R312). -/
def State.quadHot (s : State) (q : Nat) (hot : Bool) : State :=
  let s := s.setField (fun x => { x with hotQuads := if hot then q :: x.hotQuads.filter (· ≠ q) else x.hotQuads.filter (· ≠ q) })
  s.each (List.range 4) (fun i s => let s := if hot then s.lineFault (F.LINE_STAT_thermal (4 * q + i)) else s; s.showLine (4 * q + i))
def execQuadOvertemperature (q : Fin 12) (s : State) : Out := .next (s.guardUp (fun s => s.quadHot q true))
def execQuadTemperatureRecovery (q : Fin 12) (s : State) : Out := .next (s.guardUp (fun s => s.quadHot q false))

/-- The common mode leaves its range (`out`), and RXD is open until it returns; then the receiver reads `lvl` (R312, notes/assumptions/5.md). -/
def State.commonMode (s : State) (n : Nat) (out lvl : Bool) : State :=
  if out then (((s.lineFault (F.LINE_STAT_cmr n)).setLine n (fun l => { l with rx := s.freeW.getLsbD 0 })).useFree).showLine n
  else (s.setLine n (fun l => { l with rx := lvl })).showLine n
def execCommonModeFault (n : Fin 48) (out lvl : Bool) (s : State) : Out := .next (s.guardUp (fun s => s.commonMode n out lvl))

/-- TXD has been dominant for more than 4 ms in mode 3 (R312). -/
def execDominantTimeout (n : Fin 48) (s : State) : Out :=
  .next (s.guardUp (fun s => if s.rd (F.LINE_MODE_mode n) = 3 then s.lineFault (F.LINE_STAT_domto n) else s))

/-- Commit the configurations of octet `k`: a change of a line's mode asks for a pass (R313, R324). -/
def State.dioCommit1 (s : State) (n : Nat) : State :=
  let a := (F.DIO_CFG_mode n).addr
  let old := s.rd (F.DIO_CFG_mode n)
  let s := s.commitReg a
  let s := if s.rd (F.DIO_CFG_mode n) = 0 then (s.wr (dioRaw n) 0).wr (dioFilt n) 0 else s.showPad n
  s.modeChanged (64 + n) (decide (old ≠ s.rd (F.DIO_CFG_mode n)))
def State.dioCommit (s : State) (k : Nat) : State := s.each (List.range 8) (fun i s => s.dioCommit1 (8 * k + i))
def execDioCtlCommit (id : Ident) (k : Fin 8) (s : State) : Out := .next (s.guardBs id 0x04120000 (fun s => s.dioCommit k))
def State.dioClr (s : State) : State := s.each (List.range 64) (fun n s => s.clearRegs (F.DIO_CNT_ABORT n).addr 4)
def execDioCtlCntclr (id : Ident) (s : State) : Out := .next (s.guardBs id 0x04120000 (fun s => s.dioClr))

/-- A read of DIO_STAMPnn word 2 clears valid and ovr (DIO_STAMPnn). -/
def State.stampRead (s : State) (n : Nat) : State := (s.wr (F.DIO_STAMP2_valid n) 0).wr (F.DIO_STAMP2_ovr n) 0
def execDioStampRead (_id : Ident) (n : Fin 64) (s : State) : Out := .next (s.guardUp (fun s => s.stampRead n))

/-- Protections of the outputs (R316). -/
def execOutputShort (n : Fin 64) (s : State) : Out :=
  .next (s.guardUp (fun s => if s.dioOn n then (s.wr (bitFld (F.DIO_FAULT_short (n / 8)) (n % 8)) 1).event F.DIO_EVT_short else s))
def execOctetOvercurrent (k : Fin 8) (s : State) : Out :=
  .next (s.guardUp (fun s => (s.wr (F.DIO_FAULT_octet k) 1).event F.DIO_EVT_octet))
def execTotalOvercurrent (s : State) : Out := .next (s.guardUp (fun s => (s.wr F.DIO_GSTAT_total 1).event F.DIO_EVT_total))
def execOpenLoad (n : Fin 64) (s : State) : Out :=
  .next (s.guardUp (fun s => if s.on (F.DIO_CFG_openld n) && s.dioOn n then
    (s.wr (bitFld (F.DIO_FAULT_openload (n / 8)) (n % 8)) 1).event F.DIO_EVT_openload else s))
def execOpenLoadClear (n : Fin 64) (s : State) : Out := .next (s.guardUp (fun s => s.wr (bitFld (F.DIO_FAULT_openload (n / 8)) (n % 8)) 0))

/-- VFLD below 16 V, and back at 17 V (R317). -/
def execVfldLow (s : State) : Out := .next (s.guardUp (fun s =>
  (((s.wr F.DIO_GSTAT_vfldlow 1).event F.DIO_EVT_vfldlow).wr F.PWR_STAT_vfldlow 1).event F.PWR_EVT_vfldlow))
def execVfldRecovery (s : State) : Out := .next (s.guardUp (fun s => (s.wr F.DIO_GSTAT_vfldlow 0).wr F.PWR_STAT_vfldlow 0))

/-- LINE.MODE (R330). -/
def opLineMode (c : CmdRec) (s : State) : State :=
  let n := c.f 0 5 0
  let a := (F.LINE_MODE_mode n).addr
  if n ≥ 48 then s.badUnit c
  else if !s.groupOn n || s.windowOpen n then s.fail c 0x0200 []
  else if !modeWordOk (c.pw 1) || !legalWord a (c.pw 1) then s.badEnc c
  else if decide (c.f 1 2 0 = 3) && s.canTaken n (c.f 1 19 16) then s.badParam c 1
  else ((s.shadowCfg a (c.pw 1)).lineCommit n).done c []

/-- Do the mask words name a line whose group is off or in retention (R330)? -/
def State.anyOff (s : State) (us : List Nat) : Bool := us.any (fun u => !s.groupOn u)

/-- LINE.CAL: requests passes and waits for them up to the limit (R324, R330). -/
def opLineCal (c : CmdRec) (s : State) : State :=
  let us := lineMask c 0
  match s.field.waits.find? (fun w => w.seq = c.seq) with
  | some _ => s.again c
  | none =>
    if c.p 4 = 0 ∨ c.p 4 > 600000 then s.badParam c 4
    else if s.anyOff us then s.fail c 0x0200 []
    else if us.isEmpty then s.done c [0, 0, 0]
    else
      let s := s.each us (fun u s => s.passRequest u)
      (s.setField (fun x => { x with waits := x.waits ++ [⟨c.seq, us, [], []⟩] })).again c

/-- LINE.SCOPE (R326): `obs` gives whether the capture is complete (it waits where it is not), the raw time of its trigger and the samples, two to a
word. -/
def opLineScope (env : Env) (c : CmdRec) (s : State) : State :=
  let u := c.f 0 6 0
  let n := c.f 1 11 0 + 1
  if !unitOk u then s.badUnit c
  else if c.f 0 18 16 ≥ 4 then s.badEnc c
  else if !s.groupOn u then s.fail c 0x0200 []
  else s.withOut c 2 (fun b s =>
    if b.len < 2 * n then s.fail c 0x0105 []
    else if wAt env.obs 0 = 0 then s.again c
    else (s.writeBuf c b ((List.range ((n + 1) / 2)).map (fun i => wAt env.obs (3 + i)))).done c
      [if c.f 0 12 12 = 1 then 500 else 8000, wAt env.obs 1, wAt env.obs 2])

/-- The time limit of LINE.CAL runs out (R330). -/
def State.calLimit (s : State) (seq : Nat) : State :=
  match s.field.waits.find? (fun w => w.seq = seq), s.findCmd seq with
  | some w, some c => if s.raw ≥ c.startRaw + c.p 4 * tickMs then s.calEnd w else s
  | _, _ => s
def execLineCalTimeLimit (seq : Nat) (s : State) : Out := .next (s.guardUp (fun s => s.calLimit seq))

/-- An equivalent-time capture without its 16 repetitions after 100 ms fails (R326). -/
def State.scopeLimit (s : State) (seq : Nat) : State :=
  match s.findCmd seq with
  | some c => if c.opcode = 0x0802 ∧ c.started ∧ c.f 0 12 12 = 1 ∧ s.raw ≥ c.startRaw + 100 * tickMs then s.fail c 0x0200 [] else s
  | none => s
def execLineScopeTimeout (seq : Nat) (s : State) : Out := .next (s.guardUp (fun s => s.scopeLimit seq))

/-- LINE.ECHO (R328): `obs` gives the reflections, the largest one's distance and coefficient, and the 8,256 bytes of entries and trace. -/
def opLineEcho (env : Env) (c : CmdRec) (s : State) : State :=
  let n := c.f 0 5 0
  if n ≥ 48 then s.badUnit c
  else if !s.groupOn n || !s.windowOpen n then s.fail c 0x0200 []
  else if c.f 0 9 9 = 1 ∧ s.rd (F.LINE_MODE_mode n) ≠ 2 then s.badParam c 0
  else s.withOut c 2 (fun b s =>
    if b.len < 8256 then s.fail c 0x0105 []
    else (s.writeBuf c b ((List.range 2064).map (fun i => wAt env.obs (3 + i)))).done c [wAt env.obs 0, wAt env.obs 1, wAt env.obs 2])

/-- LINE.MAINT (R327, R330). -/
def State.windowStart (s : State) (u t : Nat) : State :=
  (if u < 64 then s.setLine u (fun l => { l with window := some t }) else s.setDio (u - 64) (fun d => { d with window := some t })).showUnit u
def opLineMaint (c : CmdRec) (s : State) : State :=
  let us := lineMask c 1
  let opening := c.f 0 0 0 = 1
  if opening ∧ (c.p 5 = 0 ∨ c.p 5 > 60000) then s.badParam c 5
  else if s.anyOff us then s.fail c 0x0200 []
  else if opening then (s.each us (fun u s => s.windowStart u (s.raw + c.p 5 * tickMs))).done c [BitVec.ofNat 32 s.rawLo]
  else (s.each us (fun u s => if s.windowOpen u then s.windowEnd u else s)).done c [BitVec.ofNat 32 s.rawLo]

/-- Saturate at 16 bits. -/
def sat16 (n : Nat) : Nat := min n 65535

/-- One telemetry record (R329); `m`: amplitude and common mode, rise and fall time, eye, group temperature as measured, or for a discrete line the load
current in the first, the pad voltage in the second and the temperature in the fourth. -/
def State.telem (s : State) (u : Nat) (m : List Word) : List Word :=
  let c := s.cal u
  let n := u % 64
  let w0 := BitVec.ofNat 32 ((if u < 64 then 2 ^ 24 else 2 * 2 ^ 24) + n * 2 ^ 16 + c.st * 2 ^ 14 + s.unitMode u)
  let w8 := BitVec.ofNat 32 (sat16 (s.rd (cntStarve u)) * 2 ^ 16 + sat16 (s.rd (cntAbort u)))
  let flt := (s.rd (F.DIO_FAULT_short (n / 8))) / 2 ^ (n % 8) % 2 + 2 * (s.rd (F.DIO_FAULT_openload (n / 8)) / 2 ^ (n % 8) % 2) + 4 * s.rd (F.DIO_FAULT_octet (n / 8))
  let mid := if u < 64 then [wAt m 0, wAt m 1, wAt m 2]
    else [BitVec.ofNat 32 (getF (wAt m 0) 0 16), BitVec.ofNat 32 (getF (wAt m 1) 0 16), BitVec.ofNat 32 (flt * 2 ^ 16)]
  [w0, s.reg (caltLo u).addr, s.reg (caltHi u).addr, BitVec.ofNat 32 s.rawLo, BitVec.ofNat 32 s.rawHi] ++ mid
    ++ [w8, BitVec.ofNat 32 (sat16 (s.rd (cntPass u))), BitVec.ofNat 32 (getF (wAt m 3) 0 16), 0, 0, 0, 0, 0]

/-- LINE.TELEM (R329, R330): `obs` gives four measured words for each record. -/
def opLineTelem (env : Env) (c : CmdRec) (s : State) : State :=
  let u := c.f 0 6 0
  let n := c.f 1 6 0
  let us := ((List.range n).map (fun i => u + i)).filter unitOk
  if !unitOk u then s.badUnit c
  else if n = 0 ∨ n > 64 then s.badParam c 1
  else if s.anyOff us then s.fail c 0x0200 []
  else s.withOut c 2 (fun b s =>
    let k := min us.length (b.len / 64)
    (s.writeBuf c b (((us.take k).zipIdx).flatMap (fun e => s.telem e.1 ((env.obs.drop (4 * e.2)).take 4)))).done c [BitVec.ofNat 32 k])

/-- DIO.MODE (R313, R330): the other fields of DIO_CFGnn keep their values. -/
def opDioMode (c : CmdRec) (s : State) : State :=
  let n := c.f 0 5 0
  let m := c.f 1 2 0
  if m > 4 ∨ (m = 4 ∧ n ≥ 16) then s.badEnc c
  else if !s.groupOn (64 + n) then s.fail c 0x0200 []
  else (((s.wrS (F.DIO_CFG_mode n) m).wrS (F.DIO_CFG_openld n) (c.f 1 18 18)).dioCommit1 n).done c []

/-- DIO.FILTER (R314, R330). -/
def opDioFilter (c : CmdRec) (s : State) : State :=
  let ns := ones 32 (c.p 0) ++ (ones 32 (c.p 1)).map (· + 32)
  if s.anyOff (ns.map (64 + ·)) then s.fail c 0x0200 []
  else (s.each ns (fun n s =>
    (((s.wrS (F.DIO_CFG_unit n) (c.f 2 0 0)).wrS (F.DIO_CFG_filter n) (c.f 2 15 4)).wrS (F.DIO_CFG_sbev n) (c.f 2 17 16)).dioCommit1 n)).done c []

/-- DIO.SET (R318, R330). -/
def opDioSet (c : CmdRec) (s : State) : State :=
  let k := c.f 0 2 0
  let m := c.f 1 7 0
  if !s.groupOn (64 + 8 * k) then s.fail c 0x0200 []
  else if ((s.octPair k).isSome && decide (m ≠ 0)) || (ones 8 m).any (fun i => (s.dio (8 * k + i)).owner.isSome) then s.fail c 0x0501 []
  else
    let s := s.each (ones 8 m) (fun i s =>
      let b := (c.f 1 15 8).testBit i
      if s.bitOf (F.DIO_OUT_out k) i = b then s else (s.wr (bitFld (F.DIO_OUT_out k) i) (if b then 1 else 0)).signalChange (64 + 8 * k + i) false)
    let s := if c.f 1 16 16 = 1 then ((s.wr (F.DIO_FAULT_short k) 0).wr (F.DIO_FAULT_octet k) 0).wr F.DIO_GSTAT_total 0 else s
    s.done c []

def opDioStatus (c : CmdRec) (s : State) : State :=
  let k := c.f 0 2 0
  if !s.groupOn (64 + 8 * k) then s.fail c 0x0200 []
  else
    let total := setF (s.reg F.DIO_GSTAT_total.addr) 16 16 (getF s.freeW 16 16)
    s.useFree.done c [s.reg (F.DIO_IN_filt k).addr, s.reg (F.DIO_FAULT_short k).addr, total, s.reg (F.DIO_OUT_out k).addr]

def execLineMode (seq : Nat) (_env : Env) (s : State) : Out := .next (s.runCmd 0x0800 seq opLineMode)
def execLineCal (seq : Nat) (_env : Env) (s : State) : Out := .next (s.runCmd 0x0801 seq opLineCal)
def execLineScope (seq : Nat) (env : Env) (s : State) : Out := .next (s.runCmd 0x0802 seq (opLineScope env))
def execLineEcho (seq : Nat) (env : Env) (s : State) : Out := .next (s.runCmd 0x0803 seq (opLineEcho env))
def execLineMaint (seq : Nat) (_env : Env) (s : State) : Out := .next (s.runCmd 0x0804 seq opLineMaint)
def execLineTelem (seq : Nat) (env : Env) (s : State) : Out := .next (s.runCmd 0x0805 seq (opLineTelem env))
def execDioMode (seq : Nat) (_env : Env) (s : State) : Out := .next (s.runCmd 0x0806 seq opDioMode)
def execDioFilter (seq : Nat) (_env : Env) (s : State) : Out := .next (s.runCmd 0x0807 seq opDioFilter)
def execDioSet (seq : Nat) (_env : Env) (s : State) : Out := .next (s.runCmd 0x0808 seq opDioSet)
def execDioStatus (seq : Nat) (_env : Env) (s : State) : Out := .next (s.runCmd 0x0809 seq opDioStatus)

end Sys2Proof.Machine
end

