-- ==== Sys2Proof/Machine/Motion.lean ====
section
/-! DEFINITION. The MOT commands (R401) and the events of the profile generators (chapter 14). -/
namespace Sys2Proof.Machine
open Sys2Proof

def execStepTimerExpiry (n : Fin 8) (s : State) : Out := .next (s.guardUp (fun s => s.motExpire n))

/-- A limit switch becomes active (R390): motion toward it stops at ESTOP; a homing fails with reason 5 (R392). -/
def State.limitSwitch (s : State) (n : Nat) (up : Bool) : State :=
  if s.limitOn n up && decide (s.motHeading n = if up then 1 else -1) && decide (s.motState n ≠ 5) then
    let s := (s.inc (F.MOT_CNT_LIMIT n)).homeFail n 5
    ((s.setMot n (fun x => { x with limitAfter := true })).wr (F.MOT_STATE_state n) 4).motPlan n .estop 0
  else s
def execLimitSwitch (n : Fin 8) (up : Bool) (s : State) : Out := .next (s.guardUp (fun s => s.limitSwitch n up))

def dirOf (up : Bool) (v : Nat) : Int := if up then v else -v

/-- The home switch changes during a homing (R392): the reversal, the release, or the edge that is latched. -/
def State.homeSwitch (s : State) (n : Nat) : State :=
  match (s.mot n).home with
  | none => s
  | some h =>
    match s.rd (F.MOT_STATE_hstate n), s.homeOn n with
    | 1, true => (s.wr (F.MOT_STATE_hstate n) 2).motPlan n (.vel (dirOf (!h.up) h.fast)) 0
    | 2, true => s.setMot n (fun x => { x with home := some { h with release := none } })
    | 2, false =>
      if h.release.isSome then s
      else (s.setMot n (fun x => { x with home := some { h with release := some (s.motPos n) } })).motBackoff n
    | 3, true =>
      let s := s.latch n ⟨s.dioEdgeRaw (s.rd (F.MOT_SW_homeline n)), none, true⟩
      if h.index then s.wr (F.MOT_STATE_hstate n) 4 else (s.wr (F.MOT_STATE_hstate n) 5).motPlan n .stop 0
    | _, _ => s
def execHomeSwitch (n : Fin 8) (s : State) : Out := .next (s.guardUp (fun s => s.homeSwitch n))

/-- The index edge during a homing (R392): a discrete input's newest stamp, or a capture input's edge now. -/
def State.indexEdge (s : State) (n : Nat) : State :=
  if s.rd (F.MOT_STATE_hstate n) = 4 ∧ s.on (F.MOT_SW_idxen n) then
    let t := if s.on (F.MOT_SW_idxkind n) then s.raw else s.dioEdgeRaw (s.rd (F.MOT_SW_idxnum n))
    ((s.latch n ⟨t, none, true⟩).wr (F.MOT_STATE_hstate n) 5).motPlan n .stop 0
  else s
def execIndexEdge (n : Fin 8) (s : State) : Out := .next (s.guardUp (fun s => s.indexEdge n))

/-- Standstill in SET (R392): the latched edge comes to lie at the home offset. Where the latched position is no whole unit, the spec does not say to
which side the position is rounded: an open value picks the side (notes/assumptions/24.md). -/
def State.homingSet (s : State) (n : Nat) : State :=
  match (s.mot n).home with
  | some h =>
    match h.latched with
    | some l =>
      if s.rd (F.MOT_STATE_hstate n) = 5 ∧ (s.mot n).plan = .none then
        let frac := decide (l % 256 ≠ 0)
        let edge := l / 256 + (if frac && s.freeW.getLsbD 0 then 1 else 0)
        let s := if frac then s.useFree else s
        let d := h.offset - edge
        let s := s.wrI (F.MOT_POS n) (s.motPos n + d)
        let s := s.setMot n (fun x => { x with home := none, hist := x.hist.map (fun e => (e.1, e.2 + d)) })
        ((((s.wr (F.MOT_STATE_hstate n) 0).wr (F.MOT_STATE_state n) 0).event (F.MOT_EVT_done n)).fin h.seq 0x0000 [BitVec.ofInt 32 l])
      else s
    | none => s
  | none => s
def execHomingSet (n : Fin 8) (s : State) : Out := .next (s.guardUp (fun s => s.homingSet n))

/-- The search limit of a homing is passed (R392): reason 1 FAST, 2 BACKOFF, 3 SLOW, 4 INDEX. -/
def State.searchLimit (s : State) (n : Nat) : State :=
  match (s.mot n).home with
  | some h =>
    let st := s.rd (F.MOT_STATE_hstate n)
    if 1 ≤ st ∧ st ≤ 4 ∧ h.limit < (s.motPos n - h.start).natAbs then ((s.homeFail n st).wr (F.MOT_STATE_state n) 4).motPlan n .stop 0 else s
  | none => s
def execSearchLimit (n : Fin 8) (s : State) : Out := .next (s.guardUp (fun s => s.searchLimit n))

def State.motGuard (s : State) (id : Ident) (n : Nat) (f : State → State) : State := s.guardBs id (F.MOT_CTL_commit n).addr f
def execMotCtlCommit (id : Ident) (n : Fin 8) (s : State) : Out := .next (s.motGuard id n (fun s => (s.motCommit n).2))
def execMotCtlStop (id : Ident) (n : Fin 8) (s : State) : Out := .next (s.motGuard id n (fun s => s.motHalt n true))
def State.motCntClr (s : State) (n : Nat) : State := s.clearRegs (F.MOT_CNT_STEPS n).addr 3
def execMotCtlCntclr (id : Ident) (n : Fin 8) (s : State) : Out := .next (s.motGuard id n (fun s => s.motCntClr n))

/-- A write of MOTn_TGT (MOTn_TGT, R381): a value that differs from the target starts a move, where a move may start and reach it. -/
def State.motTgt (s : State) (n : Nat) (v : Word) : State :=
  let s := s.setReg (F.MOT_TGT n).addr v
  let t := v.toInt
  let st := s.motState n
  if st = 5 ∨ st = 3 ∨ st = 6 ∨ s.on (F.MOT_CFG_src n) ∨ s.rdI (F.MOT_TARGET n) = t then s
  else if !s.motTargetOk n t || s.motBlocked n (t - s.motPos n) then s
  else s.motStart n (.pos t) 0
def execMotTgtWrite (_id : Ident) (n : Fin 8) (v : Word) (s : State) : Out := .next (s.guardUp (fun s => s.motTgt n v))

/-- A write of the ns word of MOTn_LATT latches at the presented time it completes (R394). -/
def State.motLatt (s : State) (n : Nat) (v : Word) : State :=
  let s := s.setReg (F.MOT_LATT n 2).addr v
  s.latchTime n (s.rd (F.MOT_LATT n 0) + s.rd (F.MOT_LATT n 1) * 2 ^ 32) v.toNat none
def execMotLattWrite (_id : Ident) (n : Fin 8) (v : Word) (s : State) : Out := .next (s.guardUp (fun s => s.motLatt n v))

def State.motLatRead (s : State) (n : Nat) : State := s.wr (F.MOT_LATCTL_valid n) 0
def execMotLatrawHiRead (_id : Ident) (n : Fin 8) (s : State) : Out := .next (s.guardUp (fun s => s.motLatRead n))

/-- MOT.CONFIG (R382, R401): the written values are discarded again where the commit is refused. -/
def opMotConfig (c : CmdRec) (s : State) : State :=
  let n := c.f 0 2 0
  let bad := (List.range 10).any (fun i => !legalWord ((F.MOT_CFG_route n).addr + 4 * i) (c.pw (1 + i)))
  if s.motState n = 5 then s.fail c 0x0200 []
  else if bad then s.badEnc c
  else if s.isC && decide (c.f 1 1 0 = 0) then s.fail c 0x0204 []
  else if c.f 1 18 16 > c.f 1 22 20 then s.badParam c 1
  else
    let was := s.shadow
    let t := s.each (List.range 10) (fun i s => s.shadowCfg ((F.MOT_CFG_route n).addr + 4 * i) (c.pw (1 + i)))
    match t.motCommit n with
    | (true, s) => s.done c []
    | (false, s) => ({ s with shadow := was }.showMot n).fail c 0x0200 []

/-- Microseconds of a length in CLK_ENG ticks, rounded up. -/
def engUs (t : Nat) : Word := BitVec.ofNat 32 ((t + 249) / 250)

/-- What refuses a move (R389, R392, R401). -/
def State.motBusy (s : State) (n : Nat) : Bool := decide (s.motState n = 5 ∨ s.motState n = 3) || s.on (F.MOT_CFG_src n)

/-- Start a plan at once or queue it (R381, R401); the result is how long it will take. -/
def State.motGo (s : State) (c : CmdRec) (n : Nat) (p : Plan) (vmax : Nat) : State :=
  let d := engUs (Config.planTicks (s.motKey n p vmax))
  if c.f 0 5 4 = 0 then (s.motStart n p vmax).done c [d]
  else
    let s := s.setMot n (fun x => { x with queued := some ⟨c.f 0 5 4, c.f 0 10 8, p, vmax⟩ })
    (if s.motState n = 0 then s.wr (F.MOT_STATE_state n) 1 else s).done c [d]

def opMotMove (c : CmdRec) (s : State) : State :=
  let n := c.f 0 2 0
  let t := c.pI 1 + (if c.f 0 12 12 = 1 then s.motPos n else 0)
  if c.f 0 5 4 = 3 then s.badEnc c
  else if s.motBusy n then s.fail c 0x0200 []
  else if !s.motTargetOk n t then s.badParam c 1
  else if c.p 2 ≥ 2 ^ 28 then s.badParam c 2
  else if s.motBlocked n (t - s.motPos n) then s.fail c 0x0200 []
  else s.motGo c n (.pos t) (c.p 2)

def opMotVelocity (c : CmdRec) (s : State) : State :=
  let n := c.f 0 2 0
  let v := c.pI 1
  if c.f 0 5 4 = 3 then s.badEnc c
  else if s.motBusy n then s.fail c 0x0200 []
  else if v.natAbs > s.rd (F.MOT_VMAX n) then s.badParam c 1
  else if s.motBlocked n v then s.fail c 0x0200 []
  else s.motGo c n (.vel v) 0

/-- MOT.STOP ends at standstill (R391, R401). -/
def opMotStop (c : CmdRec) (s : State) : State :=
  let n := c.f 0 2 0
  if s.motState n = 5 then s.fail c 0x0200 []
  else if (s.mot n).plan = .none then (s.motHalt n false).done c [BitVec.ofInt 32 (s.motPos n)]
  else (s.setMot n (fun x => { x with stopSeqs := x.stopSeqs ++ [c.seq] })).motHalt n (decide (c.f 0 8 8 = 1))

/-- MOT.HOME (R392). -/
def opMotHome (c : CmdRec) (s : State) : State :=
  let n := c.f 0 2 0
  let up := decide (c.f 0 5 5 = 1)
  let vm := s.rd (F.MOT_VMAX n)
  if s.motBusy n then s.fail c 0x0200 []
  else if c.p 1 = 0 ∨ c.p 1 > vm then s.badParam c 1
  else if c.p 2 = 0 ∨ c.p 2 > vm then s.badParam c 2
  else
    let h : Homing := { seq := c.seq, index := decide (c.f 0 4 4 = 1), up := up, fast := c.p 1, slow := c.p 2, back := c.p 3, limit := c.p 4,
                        offset := c.pI 5, start := s.motPos n, release := none, latched := none }
    let s := (s.setMot n (fun x => { x with home := some h, queued := none })).wr (F.MOT_STATE_state n) 3
    if s.homeOn n then (s.wr (F.MOT_STATE_hstate n) 2).motPlan n (.vel (dirOf (!up) h.fast)) 0
    else (s.wr (F.MOT_STATE_hstate n) 1).motPlan n (.vel (dirOf up h.fast)) 0

/-- MOT.LATCH (R393, R394, R401). -/
def opMotLatch (c : CmdRec) (s : State) : State :=
  let n := c.f 0 2 0
  if s.motState n = 5 then s.fail c 0x0200 []
  else match c.f 0 9 8 with
    | 0 => s.setMot n (fun x => { x with latArm := some (0, c.f 0 21 16, decide (c.f 0 24 24 = 0), c.seq) })
    | 1 => if c.f 0 21 16 > 7 then s.badParam c 0 else s.setMot n (fun x => { x with latArm := some (1, c.f 0 21 16, decide (c.f 0 24 24 = 0), c.seq) })
    | 2 => if c.p 3 > 999999999 then s.badParam c 3 else s.latchTime n (c.p 1 + c.p 2 * 2 ^ 32) (c.p 3) (some c.seq)
    | _ => s.badEnc c

def opMotStatus (c : CmdRec) (s : State) : State :=
  let n := c.f 0 2 0
  s.done c [s.reg (F.MOT_STATE_state n).addr, s.reg (F.MOT_POS n).addr, s.reg (F.MOT_VEL n).addr, s.reg (F.MOT_TARGET n).addr]

def execMotConfig (seq : Nat) (s : State) : Out := .next (s.runCmd 0x0B00 seq opMotConfig)
def execMotMove (seq : Nat) (s : State) : Out := .next (s.runCmd 0x0B01 seq opMotMove)
def execMotVelocity (seq : Nat) (s : State) : Out := .next (s.runCmd 0x0B02 seq opMotVelocity)
def execMotStop (seq : Nat) (s : State) : Out := .next (s.runCmd 0x0B03 seq opMotStop)
def execMotHome (seq : Nat) (s : State) : Out := .next (s.runCmd 0x0B04 seq opMotHome)
def execMotLatch (seq : Nat) (s : State) : Out := .next (s.runCmd 0x0B05 seq opMotLatch)
def execMotStatus (seq : Nat) (s : State) : Out := .next (s.runCmd 0x0B06 seq opMotStatus)

end Sys2Proof.Machine
end

