-- ==== Sys2Proof/Machine/Bus.lean ====
section
/-! DEFINITION. Register accesses by address: the view (R5, R442), reads and writes of each block with what they do besides storing (R6, R8, R9),
the record clears and the identity table (R22, R25, R444, R445). -/
namespace Sys2Proof.Machine
open Sys2Proof

/-- What an identity's view lets it reach at an address (R442). -/
inductive View where
  /-- the register at this backstage address -/
  | reg (b : Nat)
  /-- a view fault -/
  | fault
  /-- an unimplemented offset (R22) -/
  | none
  deriving DecidableEq, Repr

def viewOf (bs : Bool) (a : Nat) : View :=
  let high := decide (a ≥ 0x04800000)
  let b := if high then lessMul a 0x00800000 1 else a
  match findRow b with
  | none => .none
  | some r => if !r.back then .reg b else if !bs then .fault else if high then .none else .reg b

/-- The block, the offset in it, and the instance of instances of `size` bytes. -/
def blkOf (a : Nat) : Nat := a / 0x10000 % 0x400
def blkOff (a : Nat) : Nat := a % 0x10000

/-- The bits of the fields of type `t` whose written encoding is not reserved (R8). -/
def takenMask (t : FldTy) (r : RegRow) (v : Word) : Word :=
  r.fields.foldl (fun x f => if f.ty = t ∧ f.legLo ≤ getF v f.lo f.w ∧ getF v f.lo f.w ≤ f.legHi then x ||| fmask f.lo f.w else x) 0#32

/-- Show the pending bit of the block of a register just written (R9). -/
def State.showPend (s : State) (a : Nat) : State :=
  let o := blkOff a
  match blkOf a with
  | 0x03 => s.wr F.SAFE_STATE_pending 1
  | 0x04 => s.showQPending
  | 0x0A => if a = 0x040A0700 then s.wr F.RING_HEALSTAT_pending 1 else s.showRingPending
  | 0x0B => s.wr F.MRSH_STATE_pending 1
  | 0x0C => s.showWins
  | 0x0E => s.showSw
  | 0x0F => s.showMac (o / 0x1000)
  | 0x10 => s.showCanPend (o / 0x1000)
  | 0x11 => if o / 0x400 < 48 then s.showLine (o / 0x400) else s
  | 0x14 => s.showHandPend (o / 0x800)
  | 0x15 => (s.wr (F.STG_STATE_pending (o / 0x100 - 1)) 1)
  | 0x16 => s.showMot (o / 0x1000)
  | 0x17 => s.showDrv (o / 0x800)
  | 0x18 => s.wr F.HOST_STAT_pending 1
  | _ => s

/-- A written word in which each field that would leave a range that joins fields or instances holds what it held, as R8 has it: the region and the lap
phase of RING_WINd_n, HANDnn_WRAP, the period of a trigger, mode 4 of DIO16 to DIO63 (R313) and the masks of SW_FLOOD (notes/assumptions/116.md). -/
def State.inRange (s : State) (a : Nat) (v : Word) : Word :=
  let old := s.shown a
  let keep := fun (bad : Bool) (lo w : Nat) => if bad then setF v lo w (getF old lo w) else v
  if 0x040A0400 ≤ a ∧ a < 0x040A0500 then
    match a % 16 with
    | 4 => keep (decide (getF v 16 16 % 4 ≠ 0)) 16 16
    | 8 => keep (decide (getF v 0 18 % 4 ≠ 0)) 0 18
    | 12 => keep (decide (2 ^ getF v 4 3 ≤ getF v 8 7)) 8 7
    | _ => v
  else if blkOf a = 0x14 ∧ blkOff a % 0x800 = 0xC then
    if getF v 8 5 < getF v 0 5 then setF (setF v 8 5 (getF old 8 5)) 0 5 (getF old 0 5) else v
  else if 0x04090100 ≤ a ∧ a < 0x04090200 ∧ a % 0x20 = 0x14 then keep (decide (v = 0 ∧ getF (s.shown (a - 0x14)) 1 1 = 1)) 0 32
  else if 0x04120140 ≤ a ∧ a < 0x04120200 then keep (decide (getF v 0 3 = 4)) 0 3
  else if a = F.SW_FLOOD_ucast.addr then v &&& 0x7C7C#32
  else v

/-- Store a written word under its fields' types: RW at once, RWC in the shadow, W1C and W1S by their ones; reserved encodings are not taken (R6, R8,
R9). -/
def State.plainWrite (s : State) (a : Nat) (w : Word) : State :=
  match findRow a with
  | none => s
  | some r =>
    let v := s.inRange a w
    let rw := takenMask .rw r v
    let c := takenMask .rwc r v
    let old := s.reg a
    let s := s.setReg a ((((old &&& ~~~ rw) ||| (v &&& rw)) &&& ~~~ (v &&& tyMask .w1c r)) ||| (v &&& tyMask .w1s r))
    if c = 0#32 then s else (s.setShadow a ((s.shown a &&& ~~~ c) ||| (v &&& c))).showPend a

/-- W1C of SYS_DECERR_INFO.valid also clears the overflow (R22). -/
def State.clearDecErr (s : State) : State := (s.wr F.SYS_DECERR_INFO_valid 0).wr F.SYS_DECERR_INFO_ovf 0

/-- A write of any value clears both link error counters (SYS_LINKERR). -/
def State.clearLinkErr (s : State) : State := s.setReg 0x04000030 0

/-- W1C of VIEW_FAULT_INFO.valid also clears the overflow and the counter (R445). -/
def State.clearViewFault (s : State) : State := ((s.wr F.VIEW_FAULT_INFO_valid 0).wr F.VIEW_FAULT_INFO_ovf 0).wr F.VIEW_CNT_FAULT 0

/-- Identities with an entry in the table, and the bits of an entry that are fixed (R443). -/
def idtListed (i : Nat) : Bool :=
  decide (i ≤ 4 ∨ i = 8 ∨ i = 9 ∨ (0x10 ≤ i ∧ i ≤ 0x1F) ∨ (0x20 ≤ i ∧ i ≤ 0x2B) ∨ i = 0x3F)
def idtFree (i : Nat) : Word :=
  if !idtListed i then 0
  else if i = 0 ∨ i = 0x27 ∨ i = 0x29 ∨ i = 0x2A ∨ i = 0x2B ∨ i = 0x3F then 0
  else if i = 1 ∨ i = 2 then 2#32
  else if i = 8 ∨ i = 9 then 1#32
  else 3#32

/-- A write of an identity-table entry (R443, R444). -/
def State.writeIdt (s : State) (id a i : Nat) (v : Word) : State :=
  if s.on F.VIEW_LOCK_lock then s.viewFault id a true false
  else s.setReg (F.VIEW_IDT_bs i).addr ((s.reg (F.VIEW_IDT_bs i).addr &&& ~~~ idtFree i) ||| (v &&& idtFree i))

/-- What the bits of a write ask for, one after another: an action for each bit that is 1. -/
def State.acts (s : State) (v : Word) : List (Nat × (State → State)) → State
  | [] => s
  | (i, f) :: t => (if bit v.toNat i then f s else s).acts v t

/-- The SAFE block (R490, R492, R494). -/
def State.writeSafe (s : State) (a : Nat) (v : Word) : State :=
  if a = F.SAFE_TRIP_trip.addr then s.acts v [(0, fun s => s.trip 8)]
  else if a = F.SAFE_CTL_commit.addr then s.acts v [(0, State.safeCommit)]
  else if a = F.SAFE_LOCK_table.addr then
    s.acts v [(0, fun s => (s.wr F.SAFE_LOCK_table 1).wr F.SAFE_STATE_tablock 1), (1, fun s => (s.wr F.SAFE_LOCK_inj 1).wr F.SAFE_STATE_injlock 1),
      (2, State.lockDbg)]
  else s.plainWrite a v

/-- The CMD block: a cleared flag of CMD_FINAL answers its signal (R453). -/
def State.writeCmd (s : State) (a : Nat) (v : Word) : State :=
  let o := blkOff a
  if a = F.CMD_FINAL_final.addr then (s.plainWrite a v).each (ones 8 v.toNat) (fun q s => s.setQueue q (fun x => { x with sigFinal := false }))
  else if o ≥ 0x100 ∧ (o - 0x100) % 0x40 = 0x18 then s.writeQctl ((o - 0x100) / 0x40) v false
  else s.plainWrite a v

/-- The CALL block (R432–R437); `a` the address the identity used. -/
def State.writeCall (s : State) (id a b : Nat) (v : Word) : State :=
  let o := blkOff b
  if b = F.CALL_ERR_INFO_valid.addr then (if bit v.toNat 31 then s.clearCallErr else s)
  else if o = 0x84 then s.wr F.CALL_CNT_EVDROP 0
  else if 0x100 ≤ o ∧ o < 0x200 then s.writeBind ((o - 0x100) / 4) v
  else if o ≥ 0x1000 then
    let c := (o - 0x1000) / 0x80
    let r := (o - 0x1000) % 0x80
    if r < 0x40 then s.writeMessage id a c (r / 4) v
    else if r = 0x40 then s.writeDoorbell id a c v
    else if r = 0x44 then s.writeAck id a c v
    else if r = 0x4C then s.writeCallCfg id a c v
    else if r = 0x48 then s.callRefuse id a true
    else s
  else s.plainWrite b v

/-- The VIEW block (R444, R445). -/
def State.writeView (s : State) (id a b : Nat) (v : Word) : State :=
  if b = F.VIEW_FAULT_INFO_valid.addr then (if bit v.toNat 31 then s.clearViewFault else s)
  else if 0x04060100 ≤ b then s.writeIdt id a ((blkOff b - 0x100) / 4) v
  else s.plainWrite b v

/-- The MEM block (R421, R422, R430). -/
def State.writeMemReg (s : State) (id a b : Nat) (v : Word) : State :=
  if b = 0x04070000 then s.acts v [(0, State.memCntClr), (1, State.memLogClr)]
  else if 0x04070200 ≤ b ∧ b < 0x04070300 then
    let c := (blkOff b - 0x200) / 0x20
    if c = 7 ∧ id ≠ 0 then s.decErr id a true
    else if (blkOff b - 0x200) % 0x20 = 0 then (s.plainWrite b v).acts v [(1, fun s => s.dmaError c 5), (0, fun s => s.dmaStart c)]
    else if (blkOff b - 0x200) % 0x20 = 4 ∧ s.on (F.MEM_DMA2_busy c) then s
    else s.plainWrite b v
  else s.plainWrite b v

/-- The TIME block (R118, R125). -/
def State.writeTime (s : State) (b : Nat) (v : Word) : State :=
  if b = F.TIME_SNAPCTL_cap.addr then s.acts v [(0, State.snapshot), (1, State.timeCntClr)]
  else if 0x04090100 ≤ b ∧ b < 0x04090200 ∧ b % 0x20 = 0 then
    (s.plainWrite b v).acts v [(31, fun s => s.trigCommit ((blkOff b - 0x100) / 0x20))]
  else s.plainWrite b v

/-- The RING block. -/
def State.writeRing (s : State) (b : Nat) (v : Word) : State :=
  if b = 0x040A0014 then s.acts v [(0, State.ringCommit), (1, State.splitCommit), (2, State.ringCntClr)]
  else if b = 0x040A0050 then s.pubCommit (v.toNat % 65536)
  else s.plainWrite b v

/-- The MRSH block: a mode written takes effect as one that MRSH.MODE asks for; at rate 2 the mode reads 2 (R137, MRSH_MODE). -/
def State.writeMrsh (s : State) (b : Nat) (v : Word) : State :=
  if b = 0x040B0008 then s.acts v [(0, State.mrshCommit), (1, State.leaveOut)]
  else if b = F.MRSH_MODE_mode.addr then
    if getF v 0 2 ≥ 2 ∨ s.rd F.RING_CFG_rate = 2 then s
    else (s.wr F.MRSH_MODE_mode (getF v 0 2)).setMrsh (fun m => { m with modeReq := some (getF v 0 2) })
  else s.plainWrite b v

/-- The FAB and GATE blocks (R173, R205, GATE_RXq). -/
def State.writeFab (s : State) (b : Nat) (v : Word) : State :=
  if b = 0x040C0000 then
    let s := s.each (ones 16 v.toNat) (fun w s => s.winCommit w)
    s.acts v [(16, State.fabCntClr)]
  else s.plainWrite b v
def State.writeGate (s : State) (b : Nat) (v : Word) : State :=
  let o := blkOff b
  if b = 0x040D0000 then (s.plainWrite b v).acts v [(1, State.gateCntClr), (2, State.gateLogClr)]
  else if 0x20 ≤ o ∧ o < 0x50 ∧ o % 0x10 ≠ 4 ∧ s.on (F.GATE_RX2_en ((o - 0x20) / 0x10)) then s
  else s.plainWrite b v

/-- The SW block (R373, SW_HTX). -/
def State.writeSw (s : State) (b : Nat) (v : Word) : State :=
  let o := blkOff b
  if b = 0x040E0000 then s.acts v [(0, State.swCommit), (1, State.swCntClr)]
  else if 0x100 ≤ o ∧ o < 0x120 then
    let i := (o - 0x100) / 0x10
    if o % 0x10 = 0xC then (if i = 0 then s.htxWrite (getF v 0 12) ⟨[], false, []⟩ else s.hrxWrite (getF v 0 12) ⟨[], false, []⟩)
    else if s.on (F.SW_HR2_en i) then s
    else s.plainWrite b v
  else s.plainWrite b v

/-- The MAC block; modes 5 and 6 are reserved on MAC0 and MAC1 (R356). -/
def State.writeMac (s : State) (b : Nat) (v : Word) : State :=
  let m := blkOff b / 0x1000
  if b = (F.MAC_CTL_commit m).addr then s.acts v [(0, fun s => s.macCommit m), (1, fun s => s.gateCommit m), (2, fun s => s.macCntClr m)]
  else if b = (F.MAC_CFG_phy m).addr ∧ m < 2 ∧ 5 ≤ getF v 0 3 then s.plainWrite b (setF v 0 3 (s.rdS (F.MAC_CFG_phy m)))
  else s.plainWrite b v

/-- The CAN block. -/
def State.writeCan (s : State) (b : Nat) (v : Word) : State :=
  let n := blkOff b / 0x1000
  if b = (F.CAN_CTL_commit n).addr then
    s.acts v [(0, fun s => s.canCommit n none), (1, fun s => s.canFltCommit n), (2, fun s => s.canRecover n), (3, fun s => s.canCntClr n)]
  else if b = (F.CAN_TXW n).addr then s.canTxw n v
  else if b = (F.CAN_CANCEL_tag n).addr then (s.canCancel n (getF v 0 8)).2
  else s.plainWrite b v

/-- The LINE and DIO blocks (R271, R311, R313, R318). -/
def State.writeLine (s : State) (b : Nat) (v : Word) : State :=
  let n := blkOff b / 0x400
  if n < 48 ∧ b = (F.LINE_CTL_commit n).addr then
    s.acts v [(0, fun s => s.lineCommit n), (1, fun s => s.passRequest n), (2, fun s => s.lineClr n)]
  else if n < 48 ∧ b = (F.LINE_OUT_txd n).addr then s.writeLineOut n v
  else s.plainWrite b v
def State.writeDio (s : State) (id b : Nat) (v : Word) : State :=
  if b = 0x04120000 then
    let s := s.each (ones 8 v.toNat) (fun k s => s.dioCommit k)
    s.acts v [(8, State.dioClr)]
  else if 0x04120010 ≤ b ∧ b < 0x04120030 then s.writeDioOut id ((blkOff b - 0x10) / 4) (getF v 0 8)
  else s.plainWrite b v

/-- The ENG block (R274, R278, R280, R281, R296). -/
def State.writeEng (s : State) (id b : Nat) (v : Word) : State :=
  let n := blkOff b / 0x1000
  match blkOff b % 0x1000 with
  | 0x004 => s.evtClear n v
  | 0x018 => s.engSync id v.toNat
  | 0x01C => s.wdKick n
  | 0x020 => if s.on (F.ENG_GRXCFG_en n) then s else s.plainWrite b v
  | 0x028 => s.engGtx n v
  | 0x0FC => s.engCntClr n
  | _ => s.plainWrite b v

/-- The HAND block (R288, R295, R299, R302). -/
def State.writeHand (s : State) (b : Nat) (v : Word) : State :=
  let h := blkOff b / 0x800
  let o := blkOff b % 0x800
  if o = 0 then s.writeHandCtl h v
  else if b = (F.HAND_A h).addr then s.handWriteMem h (F.HAND_A h) v.toNat
  else if b = (F.HAND_B h).addr then s.handWriteMem h (F.HAND_B h) v.toNat
  else if b = (F.HAND_TSR h).addr then s.handWriteMem h (F.HAND_TSR h) v.toNat
  else if b = (F.HAND_TXF h).addr then (s.handPush h v).2
  else if 0x40 ≤ o ∧ o < 0x60 then s.handWritePin h ((o - 0x40) / 4) v
  else if 0x100 ≤ o ∧ o < 0x180 then s.handWriteMem h (F.HAND_IMEM h ((o - 0x100) / 4)) (getF v 0 16)
  else s.plainWrite b v

/-- The MOT and DRV blocks (R381, R391, R394, R397). -/
def State.writeMot (s : State) (b : Nat) (v : Word) : State :=
  let n := blkOff b / 0x1000
  if b = (F.MOT_CTL_commit n).addr then s.acts v [(0, fun s => (s.motCommit n).2), (1, fun s => s.motHalt n true), (2, fun s => s.motCntClr n)]
  else if b = (F.MOT_TGT n).addr then s.motTgt n v
  else if b = (F.MOT_LATT n 2).addr then s.motLatt n v
  else s.plainWrite b v
def State.writeDrv (s : State) (b : Nat) (v : Word) : State :=
  let n := blkOff b / 0x800
  if b = (F.DRV_CTL_en n).addr then s.drvCtl n v else if s.isC then s else s.plainWrite b v

/-- The HOST counters cleared (R466). -/
def State.hostCntClr (s : State) : State := s.clearRegs F.HOST_CNT_UR.addr 7

/-- The HOST block; routes 17–31 ignore writes (HOST_IRQMAPs). -/
def State.writeHost (s : State) (b : Nat) (v : Word) : State :=
  if b = F.HOST_CTL_commit.addr then s.acts v [(0, State.hostCommit), (1, State.hostCntClr)]
  else if (F.HOST_IRQMAP_dest 17).addr ≤ b then s
  else s.plainWrite b v

/-- A register write that the view allows: `a` the address used, `b` the register's backstage address. The STG and DBG control words follow in
Access.lean. -/
def State.regWrite (s : State) (id a b : Nat) (v : Word) : State :=
  match blkOf b with
  | 0x00 => if b = 0x04000024 then (if bit v.toNat 31 then s.clearDecErr else s) else if b = 0x04000034 then s.clearLinkErr else s.plainWrite b v
  | 0x03 => s.writeSafe b v
  | 0x04 => s.writeCmd b v
  | 0x05 => s.writeCall id a b v
  | 0x06 => s.writeView id a b v
  | 0x07 => s.writeMemReg id a b v
  | 0x09 => s.writeTime b v
  | 0x0A => s.writeRing b v
  | 0x0B => s.writeMrsh b v
  | 0x0C => s.writeFab b v
  | 0x0D => s.writeGate b v
  | 0x0E => s.writeSw b v
  | 0x0F => s.writeMac b v
  | 0x10 => s.writeCan b v
  | 0x11 => s.writeLine b v
  | 0x12 => s.writeDio id b v
  | 0x13 => s.writeEng id b v
  | 0x14 => s.writeHand b v
  | 0x16 => s.writeMot b v
  | 0x17 => s.writeDrv b v
  | 0x18 => s.writeHost b v
  | _ => s.plainWrite b v

/-- Fields that show a measurement as it is made: an open value (notes/assumptions/5.md). -/
def measured (b : Nat) : Word :=
  if 0x04010004 ≤ b ∧ b ≤ 0x0401000C then 0x0000FFFF#32
  else if b = F.HOST_HSSTAT_vinma.addr then 0xFFFF0000#32
  else if blkOf b = 0x17 ∧ b % 0x800 = 0x18 then 0xFFFF0000#32
  else if blkOf b = 0x17 ∧ b % 0x800 = 0x28 then 0x0000FFFF#32
  else if b = F.DIO_GSTAT_itotal.addr then 0xFFFF0000#32
  else if 0x04120200 ≤ b ∧ b < 0x04120300 then 0x0000FFFF#32
  else 0#32

/-- A read of a channel's registers by an identity that is no party and not backstage is refused (R434). -/
def State.callReadOk (s : State) (id b : Nat) : Bool :=
  let c := (blkOff b - 0x1000) / 0x80
  s.backstage id || s.isSender id c || s.isReceiver id c

/-- A register read that the view allows, with what it takes away (R6 and the registers named). -/
def State.regRead (s : State) (id a b : Nat) : Word × State :=
  let v := s.shown b
  let o := blkOff b
  match blkOf b with
  | 0x05 => if o ≥ 0x1000 ∧ s.callReadOk id b = false then (0, s.callRefuse id a false) else (v, s)
  | 0x09 =>
    if 0x200 ≤ o ∧ o < 0x280 ∧ o % 0x10 = 0xC then (v, s.popCapture ((o - 0x200) / 0x10))
    else if 0x300 ≤ o ∧ o < 0x360 ∧ o % 0x10 = 0xC then (v, s.popStamp ((o - 0x300) / 0x10))
    else (v, s)
  | 0x0B =>
    if b = F.MRSH_WLOG1.addr then (v, s.popWlog) else if b = F.MRSH_MODE_mode.addr ∧ s.rd F.RING_CFG_rate = 2 then (2, s) else (v, s)
  | 0x0F => if o % 0x1000 = 8 then (s.macStat (o / 0x1000), s) else (v, s)
  | 0x10 => if o % 0x1000 = 0x4C then (v, s.txevRead (o / 0x1000)) else (v, s)
  | 0x12 => if 0x600 ≤ o ∧ o < 0xA00 ∧ o % 0x10 = 8 then (v, s.stampRead ((o - 0x600) / 0x10)) else (v, s)
  | 0x13 => if o % 0x1000 = 4 then (s.evtWord (o / 0x1000), s) else (v, s)
  | 0x14 => if o % 0x800 = 0x2C then (let r := s.handPop (o / 0x800); (r.1, r.2.2)) else (v, s)
  | 0x16 => if o % 0x1000 = 0x60 then (v, s.motLatRead (o / 0x1000)) else (v, s)
  | 0x17 => if s.isC then (0, s) else if measured b = 0#32 then (v, s) else ((v &&& ~~~ measured b) ||| (s.freeW &&& measured b), s.useFree)
  | _ => if measured b = 0#32 then (v, s) else ((v &&& ~~~ measured b) ||| (s.freeW &&& measured b), s.useFree)

/-- Read the register word at address `a` as identity `id` (R22, R442). -/
def State.busRead (s : State) (id a : Nat) : Found × State :=
  match viewOf (s.backstage id) a with
  | .reg b => let r := s.regRead id a b; (.ok r.1, r.2)
  | .fault => (.none, s.viewFault id a false false)
  | .none => (.none, s.decErr id a false)

/-- Write a register word at address `a` as identity `id` (R22, R442). -/
def State.busWrite (s : State) (id a : Nat) (v : Word) : Wrote × State :=
  match viewOf (s.backstage id) a with
  | .reg b => (.ok, s.regWrite id a b v)
  | .fault => (.refused, s.viewFault id a true false)
  | .none => (.none, s.decErr id a true)

def execSysDecerrInfoClear (_id : Ident) (s : State) : Out := .next (s.guardUp State.clearDecErr)
def execSysLinkerrClear (_id : Ident) (s : State) : Out := .next (s.guardUp State.clearLinkErr)
def execViewIdtWrite (id : Ident) (i : Fin 64) (v : Word) (s : State) : Out :=
  .next (s.guardBs id (F.VIEW_IDT_bs i).addr (fun s => s.writeIdt id (F.VIEW_IDT_bs i).addr i v))
def execViewLock (id : Ident) (s : State) : Out := .next (s.guardBs id F.VIEW_LOCK_lock.addr (fun s => s.wr F.VIEW_LOCK_lock 1))
def execViewFaultInfoClear (id : Ident) (s : State) : Out := .next (s.guardBs id F.VIEW_FAULT_INFO_valid.addr State.clearViewFault)

def execHostCtlCommit (id : Ident) (s : State) : Out := .next (s.guardBs id F.HOST_CTL_commit.addr State.hostCommit)
def execHostCtlCntclr (id : Ident) (s : State) : Out := .next (s.guardBs id F.HOST_CTL_commit.addr State.hostCntClr)
/-- W1C of one function's fence (R463). -/
def execHostFenceClear (id : Ident) (fn : Fin 2) (s : State) : Out :=
  .next (s.guardBs id F.HOST_FENCE_f0.addr (fun s => s.wr (bitFld F.HOST_FENCE_f0 fn) 0))
def execFabCtlWincommit (id : Ident) (w : Fin 16) (s : State) : Out := .next (s.guardBs id 0x040C0000 (fun s => s.winCommit w))
def execFabCtlCntclr (id : Ident) (s : State) : Out := .next (s.guardBs id 0x040C0000 State.fabCntClr)
/-- Starts of DMA7 come from the command core alone (MEM_DMAc). -/
def execMemDmaStart (id : Ident) (c : Fin 8) (s : State) : Out :=
  .next (s.guardUp (fun s => if c.val = 7 ∧ id.val ≠ 0 then s.decErr id (F.MEM_DMA0_chan c).addr true else s.dmaStart c))
def execMemDmaAbort (id : Ident) (c : Fin 8) (s : State) : Out :=
  .next (s.guardUp (fun s => if c.val = 7 ∧ id.val ≠ 0 then s.decErr id (F.MEM_DMA0_chan c).addr true else s.dmaError c 5))

end Sys2Proof.Machine
end

