-- ==== Sys2Proof/Machine/Float.lean ====
section
/-! DEFINITION. FLOAT32 arithmetic (R243): IEEE 754 binary32, round to nearest with ties to even, subnormals, every NaN result 0x7FC0_0000. A finite
value is held exactly as a sign and a fraction of two numbers, and is rounded once. -/
namespace Sys2Proof.Machine
open Sys2Proof

/-- A binary32 value: NaN, an infinity or a finite value (−1)^neg × n ÷ d. -/
inductive F32 where
  | nan
  | inf (neg : Bool)
  | fin (neg : Bool) (n d : Nat)
  deriving DecidableEq, Repr

def f32NaN : Word := 0x7FC00000#32
def f32Inf (neg : Bool) : Word := if neg then 0xFF800000#32 else 0x7F800000#32

/-- The value a word stands for. -/
def f32Of (x : Word) : F32 :=
  let e := getF x 23 8
  let m := getF x 0 23
  let neg := decide (getF x 31 1 = 1)
  if e = 255 then (if m = 0 then .inf neg else .nan)
  else if e = 0 then .fin neg m (2 ^ 149)
  else if e ≥ 150 then .fin neg ((2 ^ 23 + m) * 2 ^ (e - 150)) 1
  else .fin neg (2 ^ 23 + m) (2 ^ (150 - e))

/-- `n ÷ d × 2^k` as a fraction. -/
def scale2 (n d : Nat) (k : Int) : Nat × Nat := if k ≥ 0 then (n * 2 ^ k.toNat, d) else (n, d * 2 ^ (-k).toNat)

/-- The exponent `e` for which n ÷ d lies in [2^e, 2^(e+1)), given n and d not zero. -/
def expOf (n d : Nat) : Int :=
  let e : Int := (Nat.log2 n : Int) - Nat.log2 d
  let r := scale2 n d (-e)
  if r.1 < r.2 then e - 1 else e

/-- Quotient rounded to nearest, ties to even; `exact2` asks only for the remainder's comparison with half. -/
def divRne (n d : Nat) : Nat :=
  let q := n / d
  let r := n % d
  if 2 * r > d ∨ (2 * r = d ∧ q % 2 = 1) then q + 1 else q

/-- The word nearest to (−1)^neg × n ÷ d. -/
def f32Round (neg : Bool) (n d : Nat) : Word :=
  let sgnBit := if neg then 2 ^ 31 else 0
  if n = 0 then BitVec.ofNat 32 sgnBit
  else
    let e := max (expOf n d) (-126)
    let r := scale2 n d (23 - e)
    let q := divRne r.1 r.2
    let v : Nat := if q < 2 ^ 23 then q else (e + 126).toNat * 2 ^ 23 + q
    if v ≥ 0x7F800000 then f32Inf neg else BitVec.ofNat 32 (sgnBit + v)

/-- Sum of two finite values; an exact zero is +0 unless both are −0. -/
def f32AddFin (na : Bool) (a b : Nat) (nb : Bool) (c d : Nat) : Word :=
  let x : Int := (if na then -(a * d : Nat) else (a * d : Nat))
  let y : Int := (if nb then -(c * b : Nat) else (c * b : Nat))
  let z := x + y
  if z = 0 then (if na && nb then 0x80000000#32 else 0#32) else f32Round (decide (z < 0)) z.natAbs (b * d)

def f32Add (x y : Word) : Word :=
  match f32Of x, f32Of y with
  | .nan, _ => f32NaN
  | _, .nan => f32NaN
  | .inf a, .inf b => if a = b then f32Inf a else f32NaN
  | .inf a, _ => f32Inf a
  | _, .inf b => f32Inf b
  | .fin na a b, .fin nb c d => f32AddFin na a b nb c d

/-- The value with its sign inverted. -/
def f32Neg (x : Word) : Word := x ^^^ 0x80000000#32
def f32Sub (x y : Word) : Word := f32Add x (f32Neg y)

def f32Zero (v : F32) : Bool := match v with | .fin _ n _ => decide (n = 0) | _ => false

def f32Mul (x y : Word) : Word :=
  match f32Of x, f32Of y with
  | .nan, _ => f32NaN
  | _, .nan => f32NaN
  | .inf a, .inf b => f32Inf (a != b)
  | .inf a, .fin b n _ => if n = 0 then f32NaN else f32Inf (a != b)
  | .fin a n _, .inf b => if n = 0 then f32NaN else f32Inf (a != b)
  | .fin na a b, .fin nb c d => f32Round (na != nb) (a * c) (b * d)

def f32Div (x y : Word) : Word :=
  match f32Of x, f32Of y with
  | .nan, _ => f32NaN
  | _, .nan => f32NaN
  | .inf _, .inf _ => f32NaN
  | .inf a, .fin b _ _ => f32Inf (a != b)
  | .fin a _ _, .inf b => f32Round (a != b) 0 1
  | .fin na a b, .fin nb c d =>
    if c = 0 then (if a = 0 then f32NaN else f32Inf (na != nb)) else f32Round (na != nb) (a * d) (b * c)

/-- Integer square root by bits: the largest r with r × r ≤ n, r below 2^fuel. -/
def isqrt (n : Nat) : Nat → Nat → Nat
  | 0, r => r
  | k + 1, r => if (r + 2 ^ k) * (r + 2 ^ k) ≤ n then isqrt n k (r + 2 ^ k) else isqrt n k r

/-- Square root: computed to 40 bits beyond what rounding needs, with a sticky bit. -/
def f32Sqrt (x : Word) : Word :=
  match f32Of x with
  | .nan => f32NaN
  | .inf neg => if neg then f32NaN else f32Inf false
  | .fin neg n d =>
    if n = 0 then x
    else if neg then f32NaN
    else
      let m := n * d * 2 ^ 128
      let r := isqrt m 260 0
      f32Round false (2 * r + (if r * r = m then 0 else 1)) (2 * d * 2 ^ 64)

/-- Order of two values that are not NaN: a < b. -/
def f32LtV (a b : F32) : Bool :=
  match a, b with
  | .nan, _ => false
  | _, .nan => false
  | .inf x, .inf y => x && !y
  | .inf x, .fin _ _ _ => x
  | .fin _ _ _, .inf y => !y
  | .fin na n d, .fin nb m e =>
    let x : Int := (if na then -(n * e : Nat) else (n * e : Nat))
    let y : Int := (if nb then -(m * d : Nat) else (m * d : Nat))
    decide (x < y)

def f32IsNaN (x : Word) : Bool := decide (f32Of x = .nan)
def f32Lt (x y : Word) : Bool := f32LtV (f32Of x) (f32Of y)
def f32Eq (x y : Word) : Bool := !f32IsNaN x && !f32IsNaN y && !f32Lt x y && !f32Lt y x
def f32Le (x y : Word) : Bool := f32Lt x y || f32Eq x y

/-- Minimum and maximum: of a NaN and a value the value; of two NaN the NaN result. Of +0 and −0, which compare equal, one of the two, left open:
`pick` says which (notes/assumptions/23.md). -/
def f32Min (pick : Bool) (x y : Word) : Word :=
  if f32IsNaN x then (if f32IsNaN y then f32NaN else y) else if f32IsNaN y then x
  else if f32Lt y x then y else if f32Lt x y then x else if pick then x else y
def f32Max (pick : Bool) (x y : Word) : Word :=
  if f32IsNaN x then (if f32IsNaN y then f32NaN else y) else if f32IsNaN y then x
  else if f32Lt x y then y else if f32Lt y x then x else if pick then x else y

/-- A signed integer as a FLOAT32. -/
def f32OfInt (z : Int) : Word := f32Round (decide (z < 0)) z.natAbs 1

/-- A FLOAT32 rounded to a signed integer of `w` bits, saturating; NaN gives 0 (R223, R243). -/
def f32ToInt (w : Nat) (x : Word) : Int :=
  match f32Of x with
  | .nan => 0
  | .inf neg => if neg then -(2 ^ (w - 1) : Nat) else (2 ^ (w - 1) : Nat) - 1
  | .fin neg n d => satI w (if neg then -(divRne n d : Nat) else (divRne n d : Nat))

/-- As `f32ToInt`, rounded toward zero. -/
def f32ToIntZ (w : Nat) (x : Word) : Int :=
  match f32Of x with
  | .nan => 0
  | .inf neg => if neg then -(2 ^ (w - 1) : Nat) else (2 ^ (w - 1) : Nat) - 1
  | .fin neg n d => satI w (if neg then -(n / d : Nat) else (n / d : Nat))

end Sys2Proof.Machine
end

