-- ==== Sys2Proof/Machine/Stage.lean ====
section
/-! DEFINITION. The stage sequencer (chapter 08): the stage image (R210, R211), read inputs, write outputs, refresh and safe actions (R212–R217), the
retained journal (R219), restarts (R220), the understudy and its cue (R222–R226), the output hold and undelivered outputs (R228, R229), the STAGE
commands (R230) and the writes of the STG registers. -/
namespace Sys2Proof.Machine
open Sys2Proof

/-- Identity of pair `p` and its sequencer (R26, R209). -/
def pairId (p : Nat) : Nat := 8 + p

/-- Code half `h`, data TCM and retained area of pair `p` (R208). -/
def codeBase (p h : Nat) : Nat := 0x01400000 + p * 0x80000 + h * 0x20000
def dataBase (p : Nat) : Nat := 0x01440000 + p * 0x80000
def retBase (p : Nat) : Nat := 0x02D80000 + p * 0x40000
def retVars (p : Nat) : Nat := retBase p + 0x4000
def slotBase (k : Nat) : Nat := 0x02200000 + k * 0x00400000

/-- State of pair `p` (STG_PpSTATE.state). -/
def State.pst (s : State) (p : Nat) : Nat := s.rd (F.STG_STATE_state p)
def pOFF : Nat := 0
def pLOADING : Nat := 1
def pSTOP : Nat := 2
def pRUN : Nat := 3
def pHOLD : Nat := 4
def pFAULT : Nat := 5
def State.setPst (s : State) (p n : Nat) : State := if s.pst p = n then s else (s.wr (F.STG_STATE_state p) n).event (F.STG_EVT_state p)
def State.setPhase (s : State) (p n : Nat) : State := s.wr (F.STG_STATE_phase p) n

/-- Section header words by name (R210). -/
def Section.w (x : Section) (i : Nat) : Nat := nAt x.hdr i
def Section.base (x : Section) : Nat := slotBase x.slot

/-- A map entry (R211). -/
structure MapEnt where
  reg : Bool
  keep : Bool
  station : Nat
  addr : Nat
  len : Nat
  idx : Nat
  act : Nat
  safe : Nat
  raw : List Word
  deriving DecidableEq, Repr

def mapEnt (ws : List Word) : MapEnt :=
  { reg := getF (wAt ws 0) 30 2 = 1, keep := getF (wAt ws 0) 29 1 = 1, station := getF (wAt ws 0) 16 12,
    addr := if getF (wAt ws 0) 30 2 = 1 then 0x04000000 + nAt ws 1 else getF (wAt ws 1) 0 18, len := getF (wAt ws 2) 4 12,
    idx := getF (wAt ws 2) 16 16, act := getF (wAt ws 3) 30 2, safe := getF (wAt ws 3) 0 16, raw := ws }

/-- The entries of a map of `n` at byte offset `off` of a slot. -/
def State.mapAt (s : State) (slot off n : Nat) : List MapEnt := (List.range n).map (fun i => mapEnt (s.wordsAt (slotBase slot + off + 16 * i) 4))
def State.inMap (s : State) (x : Section) : List MapEnt := s.mapAt x.slot (x.w 6) (x.w 7)
def State.outMap (s : State) (x : Section) : List MapEnt := s.mapAt x.slot (x.w 8) (x.w 9)

/-- The running section's maps; empty where none runs. -/
def State.inEnts (s : State) (p : Nat) : List MapEnt := match (s.pair p).sect with | some x => s.inMap x | none => []
def State.outEnts (s : State) (p : Nat) : List MapEnt := match (s.pair p).sect with | some x => s.outMap x | none => []

/-- The register that the view of identity `id` lets it reach at `a` (R442). -/
def State.viewReg (s : State) (id a : Nat) : Option Nat :=
  match viewOf (s.backstage id) a with
  | .reg b => some b
  | _ => none
/-- Does a register entry cover DIO_OUTk (R318), and does it cover that of an octet of the other pair? -/
def State.coversOct (s : State) (p k : Nat) (e : MapEnt) : Bool :=
  e.reg && (List.range e.len).any (fun i => decide (s.viewReg (pairId p) (e.addr + 4 * i) = some (F.DIO_OUT_out k).addr))
def State.coversDio (s : State) (p : Nat) (e : MapEnt) : Bool :=
  (List.range 8).any (fun k => decide (s.octPair k = some (1 - p)) && s.coversOct p k e)

/-- Show which pair owns each octet: one that is not OFF and whose running section covers DIO_OUTk (R318). -/
def State.showOwn (s : State) : State :=
  let own := fun (p k : Nat) => decide (s.rd (F.STG_STATE_state p) ≠ 0) && (s.outEnts p).any (s.coversOct p k)
  s.each (List.range 8) (fun k s => s.wr (ownFld k) (if own 0 k then 1 else if own 1 k then 2 else 0))

/-- Take the word an access of the sequencer finds: an open value where it is uncorrectable (notes/assumptions/5.md), 0 where nothing answers. -/
def takeWord (r : Found × State) : Word × State :=
  match r.1 with
  | .ok v => (v, r.2)
  | .bad => (r.2.freeW, r.2.useFree)
  | .wait => (0, r.2)
  | .none => (0, r.2)

/-- Copy `n` words from `src` to `dst` as identity `id`. -/
def State.copyWords (s : State) (id src dst : Nat) : Nat → State
  | 0 => s
  | n + 1 =>
    let r := takeWord (s.rdMem id src)
    (r.2.wrMem id dst r.1).2.copyWords id (src + 4) (dst + 4) n

/-- Copy `n` registers from `src` to memory at `dst`. -/
def State.copyRegs (s : State) (id src dst : Nat) : Nat → State
  | 0 => s
  | n + 1 =>
    let r := takeWord (s.busRead id src)
    (r.2.wrMem id dst r.1).2.copyRegs id (src + 4) (dst + 4) n

/-- Write `n` words of memory at `src` to registers from `dst`. -/
def State.writeRegs (s : State) (id src dst : Nat) : Nat → State
  | 0 => s
  | n + 1 =>
    let r := takeWord (s.rdMem id src)
    (r.2.busWrite id dst r.1).2.writeRegs id (src + 4) (dst + 4) n

/-- Write zeros to `n` registers, or to `n` words of memory. -/
def State.zeroRegs (s : State) (id dst : Nat) : Nat → State
  | 0 => s
  | n + 1 => (s.busWrite id dst 0).2.zeroRegs id (dst + 4) n
def State.zeroWords (s : State) (a : Nat) : Nat → State
  | 0 => s
  | n + 1 => (s.putWord a 0).zeroWords (a + 4) n

/-- Change one byte of a data TCM by a whole-word read-modify-write (R209). -/
def State.tcmByte (s : State) (p a v : Nat) : State :=
  let w := a / 4 * 4
  let r := takeWord (s.rdMem (pairId p) w)
  (r.2.wrMem (pairId p) w (setF r.1 (8 * (a % 4)) 8 v)).2
def State.tcmGet (s : State) (p a : Nat) : Nat := (s.byte a).toNat + 0 * p

/-- Is station `n` present in the front receive map (R78)? -/
def State.inFront (s : State) (n : Nat) : Bool := s.bitOf (F.RING_RXMAP (n / 32)) (n % 32)

/-- Byte arrays of the running section: input status, output status, and the receive-map copy. -/
def State.inStat (s : State) (p i : Nat) : Nat := match (s.pair p).sect with | some x => dataBase p + 4 * (x.w 15 / 65536) + i | none => 0
def State.outStat (s : State) (p i : Nat) : Nat := match (s.pair p).sect with | some x => dataBase p + 4 * (x.w 16 % 65536) + i | none => 0
def State.mapCopy (s : State) (p : Nat) : Nat := match (s.pair p).sect with | some x => dataBase p + 4 * (x.w 15 % 65536) | none => 0

/-- One input entry (R213, R214): its data, its age, its status byte. -/
def State.readInput (s : State) (p i : Nat) (e : MapEnt) : State :=
  if s.pst p = pFAULT then s
  else
    let dst := dataBase p + 4 * e.idx
    if e.reg then (s.copyRegs (pairId p) e.addr dst e.len).tcmByte p (s.inStat p i) 1
    else if s.inFront e.station then
      ((s.setPair p (fun x => { x with ages := updAt x.ages i (fun _ => 0) })).copyWords (pairId p) (s.frontBase + e.addr) dst e.len).tcmByte p
        (s.inStat p i) 1
    else
      let age := min ((s.pair p).ages.getD i 0 + 1) 63
      let s := (s.setPair p (fun x => { x with ages := updAt x.ages i (fun _ => age) })).inc (F.STG_CNT_STALE p)
      let s := s.event (F.STG_EVT_stale p)
      if e.keep then s.tcmByte p (s.inStat p i) (age * 4 + 2)
      else (s.copyWords (pairId p) (s.frontBase + e.addr) dst e.len).tcmByte p (s.inStat p i) (age * 4)

/-- The next read inputs clears the undelivered bit of every entry whose consumer is present (R228). -/
def State.clearUndel (s : State) (p : Nat) : State :=
  s.each ((s.outEnts p).zipIdx) (fun e s =>
    let a := s.outStat p e.2
    if !e.1.reg && decide (e.1.station ≠ 0) && s.inFront e.1.station && (s.tcmGet p a).testBit 0 then s.tcmByte p a (s.tcmGet p a / 2 * 2) else s)

def State.readInputs (s : State) (p : Nat) : State :=
  let s := s.setPhase p 1
  let s := s.clearUndel p
  let s := s.copyRegs 0 0x040A1000 (s.mapCopy p) 128
  s.each ((s.inEnts p).zipIdx) (fun e s => s.readInput p e.2 e.1)

/-- Duration of read inputs in ticks, rounded up (R212): 0.15 µs + 8 ns a map entry + 0.125 ns a byte. -/
def inTicks (l : List MapEnt) : Nat := (1200 + 64 * l.length + l.foldl (fun n e => n + 4 * e.len) 0 + 19) / 20

/-- Start the cores of a pair at a code address of the active half. -/
def State.enterAt (s : State) (p pc : Nat) : State := s.setProc p (fun x => { x with pc := pc, stall := .none, got := [] })
/-- A restart or a cue leaves w1–w31 and the RW special registers 0 (R235, R236). -/
def State.freshProc (s : State) (p : Nat) : State := (s.forgetProc p).setProc p (fun x => { x with w := List.replicate 32 0, sr := startSr x.sr, got := [] })
def State.haltCores (s : State) (p : Nat) : State := s.setProc p (fun x => { x with stall := .cycle })

/-- Start a cycle at the boundary: its number, read inputs, and the logic at the cycle entry (R212). -/
def State.startCycle (s : State) (p gap : Nat) : State :=
  let n := s.rd (F.STG_CYCNUM_LO p) + s.rd (F.STG_CYCNUM_HI p) * 2 ^ 32 + 1
  let s := (s.wr (F.STG_CYCNUM_LO p) (n % 2 ^ 32)).wr (F.STG_CYCNUM_HI p) (n / 2 ^ 32 % 2 ^ 32)
  let from_ := s.raw + gap + inTicks (s.inEnts p)
  let s := s.setPair p (fun x => { x with cycRaw := s.raw, cycLaps := 0, logicFrom := from_, free := false, wrDue := false })
  let s := s.readInputs p
  if s.pst p = pFAULT then s
  else
    match (s.pair p).sect with
    | none => s.setPhase p 0
    | some x => (s.enterAt p (x.w 13)).setPhase p 2

/-- Words that safe actions of the lap-image entries put into the image (R211, R217): zeros, or the safe values; hold leaves what is there. -/
def State.safeWords (s : State) (p : Nat) : List (Nat × Word) :=
  (s.outEnts p).flatMap (fun e =>
    if e.reg ∨ e.act = 1 then []
    else (List.range e.len).map (fun i => (e.addr + 4 * i, if e.act = 2 then s.wordAt (dataBase p + 4 * (e.safe + i)) else 0)))

/-- Safe action of one register entry (R211, R229). -/
def State.safeReg (s : State) (p : Nat) (e : MapEnt) : State :=
  if !e.reg then s
  else if e.act = 0 then s.zeroRegs (pairId p) e.addr e.len
  else if e.act = 2 then s.writeRegs (pairId p) (dataBase p + 4 * e.safe) e.addr e.len
  else s
def State.safeRegs (s : State) (p : Nat) : State := s.each (s.outEnts p) (fun e s => s.safeReg p e)

/-- The safe actions of every output entry: registers at once, the lap image from the next refresh (R217). -/
def State.safeActions (s : State) (p : Nat) : State :=
  let l := s.safeWords p
  (s.safeRegs p).setPair p (fun x => { x with safeImg := l })

/-- Publish the regions of a section (R215). -/
def State.publish (s : State) (p : Nat) : State :=
  match (s.pair p).sect with
  | none => s
  | some x => (s.pubCommit (x.w 12 % 65536)).setPair p (fun y => { y with published := true })

/-- Refresh at a lap boundary: each lap-image region from the front half into the back half, the safe values over it, then the mask (R215, R217). -/
def State.refresh (s : State) (p : Nat) : State :=
  let img := (s.pair p).safeImg
  let s := s.each (s.outEnts p) (fun e s =>
    if e.reg then s else s.copyWords (pairId p) (s.frontBase + e.addr) (s.backBase + e.addr) e.len)
  let s := s.each img (fun e s => (s.wrMem (pairId p) (s.backBase + e.1) e.2).2)
  (s.setPair p (fun x => { x with safeImg := [], refreshed := true })).publish p

/-- Write the journal record of the retained words buffered in the cycle into the next slot (R219): count, cycle number, pairs, CRC. -/
def journalWords (base cyc : Nat) (l : List (Nat × Word)) : List Word :=
  let body := [BitVec.ofNat 32 l.length, BitVec.ofNat 32 cyc] ++ l.flatMap (fun e => [BitVec.ofNat 32 (e.1 - base), e.2])
  body ++ [crc32cWords body]
def journalSlot (p k : Nat) : Nat := retBase p + 0x1000 + k * 0x1800

/-- Apply the pending record to the variables; the header takes its cycle number (R219). -/
def State.journalApply (s : State) (p : Nat) : State :=
  let x := s.pair p
  if x.jpend.isEmpty then s
  else
    let s := s.each x.jpend (fun e s => s.putWord e.1 e.2)
    (s.putWord (retBase p + 4) (BitVec.ofNat 32 x.jcyc)).setPair p (fun y => { y with jpend := [] })

def State.journalWrite (s : State) (p : Nat) : State :=
  let s := if (s.pair p).rbuf.isEmpty then s else s.journalApply p
  let x := s.pair p
  if x.rbuf.isEmpty then s
  else
    let cyc := s.rd (F.STG_CYCNUM_LO p)
    let s := s.putWords (journalSlot p x.jslot) (journalWords (retVars p) cyc x.rbuf)
    s.setPair p (fun y => { y with jpend := x.rbuf, rbuf := [], jcyc := cyc, jslot := 1 - y.jslot })

/-- One output entry (R215). -/
def State.writeOutput (s : State) (p : Nat) (e : MapEnt) : State :=
  if s.pst p = pFAULT then s
  else if e.reg then
    if s.on (F.STG_STATE_ohold p) then s else s.writeRegs (pairId p) (dataBase p + 4 * e.idx) e.addr e.len
  else s.copyWords (pairId p) (dataBase p + 4 * e.idx) (s.backBase + e.addr) e.len

/-- Entries up to and with the last lap-image entry, and those after it: the mask is written between them (R215). -/
def splitLast (l : List MapEnt) : List MapEnt × List MapEnt :=
  let tail := l.reverse.takeWhile (fun e => e.reg)
  ((l.take (l.length - tail.length)), tail.reverse)

/-- Load a pair from its active slot (R220): `none` where the section is not valid or unreadable, with the reason of R225. -/
def State.sectionOf (s : State) (slot p : Nat) : Option Section :=
  let off := nAt (s.wordsAt (slotBase slot) 16) (4 + p)
  if s.wordAt (slotBase slot) = 0x47545356#32 ∧ off ≠ 0 ∧ off + 128 ≤ 0x00400000 then some ⟨slot, s.wordsAt (slotBase slot + off) 32⟩ else none

/-- Byte `i` onward of a slot, `n` bytes. -/
def State.slotBytes (s : State) (slot off n : Nat) : List Byte := s.bytesAt (slotBase slot + off) n

/-- Section hash (R210). -/
def State.sectHash (s : State) (x : Section) : Nat :=
  let part := fun (o n : Nat) => s.slotBytes x.slot o n
  sha256 (wordsToBytes x.hdr ++ part (x.w 0) (x.w 1) ++ part (x.w 2) (x.w 3) ++ part (x.w 4) (x.w 5) ++ part (x.w 6) (16 * x.w 7)
    ++ part (x.w 8) (16 * x.w 9) ++ part (x.w 10) (16 * x.w 11))

/-- The predecessor hash a section names. -/
def Section.pred (x : Section) : Nat := beNat (wordsToBytes ((x.hdr.drop 24).take 8))

/-- A carry entry (R223). -/
structure CarryEnt where
  op : Nat
  osz : Nat
  nsz : Nat
  space : Nat
  early : Bool
  count : Nat
  old : Nat
  new : Nat
  raw : List Word
  deriving DecidableEq, Repr

def carryEnt (ws : List Word) : CarryEnt :=
  { op := getF (wAt ws 0) 28 4, osz := getF (wAt ws 0) 26 2, nsz := getF (wAt ws 0) 24 2, space := getF (wAt ws 0) 19 1,
    early := getF (wAt ws 0) 18 1 = 1, count := getF (wAt ws 0) 0 16, old := nAt ws 1, new := nAt ws 2, raw := ws }
def State.carryMap (s : State) (x : Section) : List CarryEnt := (List.range (x.w 11)).map (fun i => carryEnt (s.wordsAt (x.base + x.w 10 + 16 * i) 4))

/-- Bytes of the new elements of an entry. -/
def CarryEnt.newBytes (e : CarryEnt) : Nat := e.count * 2 ^ e.nsz

/-- Converted bytes of a space (R224). -/
def converted (l : List CarryEnt) (space : Nat) : Nat :=
  l.foldl (fun n e => if e.space = space ∧ e.early = false ∧ e.op ≠ 0 then n + e.newBytes else n) 0

/-- The gap in whole nanoseconds, rounded up (R224). -/
def gapNs (ct cr : Nat) : Nat := if ct ≤ 1024 then (460000 + 1500 * ct + 20000 * cr + 999) / 1000 else 500 + 6 * ct + 20 * cr

/-- Convert one element of `osz` bytes to `nsz` bytes (R223). -/
def carryElem (op osz nsz v : Nat) : Nat :=
  let sv := sgn (8 * osz) v
  let nw := 8 * nsz
  match op with
  | 2 => wrapI nw sv
  | 3 => v % 2 ^ nw
  | 4 => wrapI nw (satI nw sv)
  | 5 => min v (2 ^ nw - 1)
  | 6 => (f32OfInt sv).toNat
  | 7 => wrapI nw (f32ToInt nw (BitVec.ofNat 32 v))
  | _ => v

/-- Little-endian value of bytes, and bytes of a value. -/
def leNat (bs : List Byte) : Nat := bs.foldr (fun b n => n * 256 + b.toNat) 0
def leBytes (n v : Nat) : List Byte := (List.range n).map (fun i => BitVec.ofNat 8 (v / 2 ^ (8 * i)))

/-- The base of a carry entry's space. -/
def carryBase (p space : Nat) : Nat := if space = 0 then dataBase p else retVars p

/-- Write bytes into TCM or MRAM by whole words, each taking a fresh code (R209). -/
def State.putByteW (s : State) (a : Nat) (b : Byte) : State :=
  let w := a / 4 * 4
  s.putWord w (setF (s.wordAt w) (8 * (a % 4)) 8 b.toNat)
def State.putBytesW (s : State) (a : Nat) : List Byte → State
  | [] => s
  | b :: t => (s.putByteW a b).putBytesW (a + 1) t

/-- One carry entry of section `x` for pair `p` (R223): the old elements are read before any new element is written. -/
def State.carry (s : State) (p : Nat) (x : Section) (e : CarryEnt) : State :=
  let base := carryBase p e.space
  let on_ := 2 ^ e.osz
  let nn := 2 ^ e.nsz
  match e.op with
  | 0 => s
  | 8 => s.putBytesW (base + e.new) (List.replicate e.newBytes 0)
  | 9 => s.putBytesW (base + e.new) (s.slotBytes x.slot (x.w 2 + e.old) e.newBytes)
  | _ =>
    s.putBytesW (base + e.new) ((List.range e.count).flatMap (fun i =>
      leBytes nn (carryElem e.op on_ nn (leNat (s.bytesAt (base + e.old + i * on_) on_)))))

/-- Record the active slot of a pair in its retained header and its state (R222). -/
def State.setSlot (s : State) (p k : Nat) : State :=
  (s.putWord (retBase p) (setF (s.wordAt (retBase p)) 0 1 k)).wr (F.STG_STATE_slot p) k

/-- Does the section equal the one the pair runs (R222)? -/
def State.sameSect (s : State) (p : Nat) (x : Section) : Bool :=
  match (s.pair p).sect with
  | none => false
  | some y => decide (s.sectHash y = s.sectHash x)

/-- Gap of a cue to section `x` (R222, R224). -/
def State.cueGap (s : State) (p : Nat) (x : Section) : Nat := if s.sameSect p x then 0 else x.w 17

/-- Everything of a slot that a section of it needs can be read (R518). -/
def State.sectBad (s : State) (x : Section) : Bool :=
  s.anyBad x.base 64 || s.anyBad (x.base + nAt (s.wordsAt x.base 16) 4) 128 || s.anyBad (x.base + x.w 0) (x.w 1) || s.anyBad (x.base + x.w 2) (x.w 3)
    || s.anyBad (x.base + x.w 4) (x.w 5) || s.anyBad (x.base + x.w 6) (16 * x.w 7) || s.anyBad (x.base + x.w 8) (16 * x.w 9)
    || s.anyBad (x.base + x.w 10) (16 * x.w 11)

/-- Steps 2 to 5 of a cue (R226). -/
def State.doCue (s : State) (p : Nat) (x : Section) : State :=
  let gap := s.cueGap p x
  let l := if s.sameSect p x then [] else s.carryMap x
  let s := s.setPhase p 4
  let s := s.setPair p (fun y => { y with half := 1 - y.half })
  let s := s.each l (fun e s => if e.early then s else s.carry p x e)
  let s := s.setSlot p x.slot
  let s := s.setPair p (fun y => { y with sect := some x, armed := none, cue := none, ages := List.replicate (x.w 7) 0 })
  let s := (((s.wr (F.STG_STATE_armed p) 0).wr (F.STG_STATE_cuepend p) 0).wr (F.STG_GAP p) gap).setPhase p 0
  (((s.freshProc p).showOwn).inc (F.STG_CNT_CUE p)).event (F.STG_EVT_cue p)

/-- The STAGE.CUE command ends once no pair of it is still to be cued (R230). -/
def State.cueDone (s : State) (seq : Nat) : State :=
  if (s.pair 0).cue.any (fun c => c.1 = seq) || (s.pair 1).cue.any (fun c => c.1 = seq) then s
  else
    match s.findCmd seq with
    | none => s
    | some c =>
      let g := fun (p : Nat) => if c.f 0 (8 + p) (8 + p) = 1 then s.reg (F.STG_GAP p).addr else 0
      s.done c [g 0, g 1, BitVec.ofNat 32 s.lap]

/-- Cue pair `p` now: not made where the slot cannot be read, and the pair runs on (R518). The answer is the gap in ticks. -/
def State.cuePair (s : State) (p seq : Nat) : Nat × State :=
  match (s.pair p).armed with
  | none => (0, ((s.setPair p (fun y => { y with cue := none })).wr (F.STG_STATE_cuepend p) 0).fin seq 0x0200 [])
  | some k =>
    match s.sectionOf k p with
    | none => (0, ((s.setPair p (fun y => { y with cue := none })).wr (F.STG_STATE_cuepend p) 0).fin seq 0x0604 [10])
    | some x =>
      let no := fun (r : Word) => (0, ((s.setPair p (fun y => { y with cue := none })).wr (F.STG_STATE_cuepend p) 0).fin seq 0x0604 [r])
      if s.sectBad x then no 10
      else if (s.outMap x).any (s.coversDio p) then no 9
      else
        let g := s.cueGap p x
        ((g * 2 + 4) / 5, (s.doCue p x).cueDone seq)

/-- Is lap `m` a cycle boundary of pair `p` under the committed fields (R212)? -/
def State.isCyc (s : State) (p m : Nat) : Bool := decide (m % s.rd (F.STG_CYC_len p) = s.rd (F.STG_CYC_phase p))

/-- The registers of the cycle fields of pair `p` (R230). -/
def cycRegs (p : Nat) : List Nat := [(F.STG_CYC_len p).addr, (F.STG_OUTOFS_ofs p).addr, (F.STG_WDOG_limit p).addr]
def State.showStg (s : State) (p : Nat) : State := s.wr (F.STG_STATE_pending p) (if s.anyShadow (cycRegs p) then 1 else 0)

/-- The cycle fields as they will be: R212, R216 and the ranges of R230. -/
def State.cycOk (s : State) (len phase ofs limit : Nat) : Bool :=
  let lap := s.rd F.RING_LAPCFG_len
  decide (len ≠ 0 ∧ phase < len ∧ limit ≠ 0 ∧ len * lap ≥ 10000 ∧ ofs < len * lap ∧ limit < len * lap) && (decide (ofs = 0) || decide (limit ≤ ofs))

/-- Commit of the cycle fields: at the next cycle boundary under the old ones (R230). A commit that breaks R212 or R216 takes no effect
(notes/assumptions/20.md). -/
def State.stgCommit (s : State) (p : Nat) : State :=
  if s.cycOk (s.rdS (F.STG_CYC_len p)) (s.rdS (F.STG_CYC_phase p)) (s.rdS (F.STG_OUTOFS_ofs p)) (s.rdS (F.STG_WDOG_limit p)) then
    if s.lapsRun && decide (s.pst p ≠ pOFF) then s.setPair p (fun x => { x with cycReq := true }) else (s.commitRegs (cycRegs p)).showStg p
  else s

/-- What a lap boundary does with the lap-image outputs published in the lap that ended (R228). -/
def State.undelivered (s : State) (p : Nat) : State :=
  let s := if (s.pair p).published then
      s.each ((s.outEnts p).zipIdx) (fun e s =>
        if !e.1.reg && decide (e.1.station ≠ 0) && !s.inFront e.1.station then
          ((s.inc (F.STG_CNT_UNDEL p)).event (F.STG_EVT_undel p)).tcmByte p (s.outStat p e.2) (s.tcmGet p (s.outStat p e.2) / 2 * 2 + 1)
        else s)
    else s
  s.setPair p (fun x => { x with published := false, refreshed := false })

/-- Is the lap that begins a missing lap of the pair (R229)? -/
def State.missingLap (s : State) (p : Nat) : Bool :=
  (s.outEnts p).any (fun e => e.reg && decide (e.station ≠ 0) && !s.inFront e.station) || decide (s.time.missed > 0) || decide (s.rd F.RING_STATE_join ≠ 5)

def State.holdCount (s : State) (p : Nat) : State :=
  if s.missingLap p then s.wr (F.STG_OHOLD_count p) (min (s.rd (F.STG_OHOLD_count p) + 1) 255)
  else (s.wr (F.STG_OHOLD_count p) 0).wr (F.STG_STATE_ohold p) 0

/-- The threshold is reached: the safe action of every register entry (R229). -/
def State.outputHold (s : State) (p : Nat) : State :=
  let n := s.rd (F.STG_OHOLD_laps p)
  if n ≠ 0 ∧ s.rd (F.STG_OHOLD_count p) ≥ n ∧ s.on (F.STG_STATE_ohold p) = false then
    (((s.safeRegs p).wr (F.STG_STATE_ohold p) 1).event (F.STG_EVT_ohold p)).inc (F.STG_CNT_OHOLD p)
  else s
def execOutputHold (p : Fin 2) (s : State) : Out := .next (s.guardUp (fun s => s.outputHold p))

/-- Enter STOP or HOLD with what R217 gives for the outputs. -/
def State.enterStop (s : State) (p : Nat) : State :=
  ((((((s.haltCores p).safeActions p).wr (F.STG_STATE_midhold p) 0).setPhase p 0).setPair p (fun x => { x with free := false, wrDue := false })).setPst p pSTOP)
def State.enterHold (s : State) (p : Nat) : State := (if s.on (F.STG_CFG_holdout p) then s.safeActions p else s).setPst p pHOLD

/-- Has the running cycle ended, write outputs included? -/
def State.idlePair (s : State) (p : Nat) : Bool := decide (s.rd (F.STG_STATE_phase p) = 0) && !(s.pair p).wrDue

/-- A change of mode that waits takes effect at a cycle boundary (R217). -/
def State.modeNow (s : State) (p : Nat) : State :=
  match (s.pair p).want with
  | none => s
  | some (m, seq) =>
    let s := s.setPair p (fun x => { x with want := none })
    let s := if m = 2 then s.enterStop p else if m = 4 then s.enterHold p else (s.setPair p (fun x => { x with step1 := decide (m = 5) })).setPst p pRUN
    s.finO seq 0x0000 []

/-- Lap in which write outputs falls, counted from the cycle boundary; for an offset of 0, or a resumed cycle, the lap in which the logic ends, which
the lap boundary is told (notes/assumptions/21.md). -/
def State.outLap (s : State) (p : Nat) (told : Bool) : Bool :=
  let x := s.pair p
  let busy := decide (s.rd (F.STG_STATE_phase p) = 2) || x.wrDue
  if !busy then false
  else if x.free || decide (s.rd (F.STG_OUTOFS_ofs p) = 0) then told
  else decide (x.cycLaps = s.rd (F.STG_OUTOFS_ofs p) / max 1 (s.rd F.RING_LAPCFG_len))

/-- The sequencer at the boundary of lap `m`, pair `p` (R212–R217, R226, R228–R230); `told`: write outputs falls into this lap. -/
def State.stageBoundary (s : State) (p m : Nat) (told : Bool) : State :=
  let s := (s.undelivered p).holdCount p
  if s.pst p = pFAULT then
    if s.bitOf F.SAFE_MISC_lapsafe p then
      let l := s.safeWords p
      (s.setPair p (fun x => { x with safeImg := l })).refresh p
    else s
  else if s.pst p = pOFF then s.refresh p
  else
    let cyc := s.isCyc p m && s.idlePair p && (s.pair p).restart.isNone && decide (s.pst p ≠ pLOADING)
    let s := if cyc && (s.pair p).cycReq then ((s.commitRegs (cycRegs p)).setPair p (fun x => { x with cycReq := false })).showStg p else s
    let cyc := cyc && s.isCyc p m
    let s := s.setPair p (fun x => { x with cycLaps := x.cycLaps + 1 })
    let s := if cyc then s.modeNow p else s
    let r := match (s.pair p).cue with
      | some (seq, l) => if cyc && decide (l = m) then s.cuePair p seq else (0, s)
      | none => (0, s)
    let s := r.2
    let s := if cyc && decide (s.pst p = pRUN) then s.startCycle p r.1 else s
    if s.pst p = pFAULT || s.outLap p told then s else s.refresh p

/-- The program ends its cycle, or the init entry of a load (R212, R220, R263). -/
def State.endLogic (s : State) (p : Nat) : State :=
  let s := s.haltCores p
  let x := s.pair p
  if s.pst p = pLOADING then
    match x.loading with
    | none => s
    | some (seq, t) =>
      let s := s.setPair p (fun y => { y with loading := none, armed := none })
      let s := (s.wr (F.STG_STATE_armed p) 0).setPst p (if t = 1 then pRUN else if t = 2 then pHOLD else pSTOP)
      s.finO seq 0x0000 [x.loadUs]
  else
    let d := s.raw - x.logicFrom
    let s := (s.wr (F.STG_LOGIC p) (d % 2 ^ 32)).wr (F.STG_LOGICMAX p) (max (s.rd (F.STG_LOGICMAX p)) (d % 2 ^ 32))
    (s.setPair p (fun y => { y with wrDue := true })).setPhase p 0

/-- After write outputs: a single step holds again (R217). -/
def State.cycleEnd (s : State) (p : Nat) : State :=
  let s := s.setPair p (fun x => { x with wrDue := false, free := false })
  if (s.pair p).step1 then (s.setPair p (fun x => { x with step1 := false })).setPst p pHOLD else s

/-- Write outputs (R212, R215): due at the later of logic end and the offset. -/
def State.writeOutputs (s : State) (p : Nat) : State :=
  let x := s.pair p
  if x.wrDue && !x.refreshed && decide (s.pst p = pRUN) && (x.free || decide (s.raw ≥ x.cycRaw + s.rd (F.STG_OUTOFS_ofs p))) then
    let s := s.setPhase p 3
    let l := splitLast (s.outEnts p)
    let s := s.each l.1 (fun e s => s.writeOutput p e)
    let s := if s.pst p = pFAULT then s else s.publish p
    let s := s.each l.2 (fun e s => s.writeOutput p e)
    if s.pst p = pFAULT then s else ((s.journalWrite p).setPhase p 0).cycleEnd p
  else s
def execWriteOutputs (p : Fin 2) (s : State) : Out := .next (s.guardUp (fun s => s.writeOutputs p))

def execRetainedJournalApply (p : Fin 2) (s : State) : Out := .next (s.guardUp (fun s => s.journalApply p))

/-- The cycle watchdog expires: only in the logic phase of a cycle that it watches (R216). -/
def State.cycleWdog (s : State) (p : Nat) : State :=
  if s.pst p = pRUN ∧ s.rd (F.STG_STATE_phase p) = 2 ∧ (s.pair p).free = false ∧ s.raw ≥ (s.pair p).cycRaw + s.rd (F.STG_WDOG_limit p) then
    (((s.haltCores p).inc (F.STG_CNT_WDOG p)).event (F.STG_EVT_wdog p)).pairFault p
  else s
def execCycleWatchdog (p : Fin 2) (s : State) : Out := .next (s.guardUp (fun s => s.cycleWdog p))

/-- A debug halt: the cores halt at once, midhold if in the logic phase, outputs per holdout (R217); write outputs still due is not made
(notes/assumptions/22.md). -/
def State.debugHalt (s : State) (p : Nat) : State :=
  if s.pst p = pRUN then
    let mid := s.rd (F.STG_STATE_phase p) = 2
    let s := (s.setPair p (fun x => { x with wrDue := false, step1 := false })).wr (F.STG_STATE_midhold p) (if mid then 1 else 0)
    let s := s.setPhase p (if mid then 2 else 0)
    (s.enterHold p).emit (.halt p)
  else s

def execDbgCtlHalt0 (id : Ident) (s : State) : Out := .next (s.guardBs id F.DBG_CTL_attached.addr (fun s => s.debugHalt 0))
def execDbgCtlHalt1 (id : Ident) (s : State) : Out := .next (s.guardBs id F.DBG_CTL_attached.addr (fun s => s.debugHalt 1))

def State.stgWrite (s : State) (v : Nat) : State := s.each (ones 2 (v / 256)) (fun p s => s.stgCommit p)
def execStgCtlCommit (id : Ident) (p : Fin 2) (s : State) : Out := .next (s.guardBs id 0x04150000 (fun s => s.stgCommit p))
def State.stgCntClr (s : State) : State := (s.clearRegs (F.STG_CNT_STALE 0).addr 6).clearRegs (F.STG_CNT_STALE 1).addr 6
def execStgCtlCntclr (id : Ident) (s : State) : Out := .next (s.guardBs id 0x04150000 (fun s => s.stgCntClr))

/-- Pairs named by a mask in bits [9:8] of parameter word 0 (R230). -/
def CmdRec.pairs (c : CmdRec) : List Nat := ones 2 (c.f 0 9 8)

/-- STAGE.LOAD (R222, R230). -/
def opStageLoad (env : Env) (c : CmdRec) (s : State) : State :=
  let k := c.f 0 0 0
  if s.rd (F.STG_STATE_slot 0) = k ∨ s.rd (F.STG_STATE_slot 1) = k then s.fail c 0x0200 []
  else if c.f 3 23 0 > 0x00400000 then s.fail c 0x0302 []
  else s.withBuf c env 1 (fun bs s =>
    let ws := bytesToWords bs
    let s := s.each (List.range 2) (fun p s => s.setPair p (fun x =>
      { x with verified := if x.verified = some k then none else x.verified, armed := if x.armed = some k then none else x.armed }))
    let s := s.each (List.range 2) (fun p s => s.wr (F.STG_STATE_armed p) (if (s.pair p).armed.isSome then 1 else 0))
    (s.putWords (slotBase k) ws).done c [wAt ws 3])

/-- Is the image header of a slot good: 1 magic, format or reserved fields, 2 part, 3 length (R225)? -/
def headReason (ws : List Word) : Option Nat :=
  let len := nAt ws 2
  if wAt ws 0 ≠ 0x47545356#32 ∨ getF (wAt ws 1) 0 16 ≠ 1 ∨ getF (wAt ws 6) 8 24 ≠ 0 ∨ ((ws.drop 7).take 9).any (fun w => w ≠ 0#32) then some 1
  else if getF (wAt ws 1) 16 16 ≠ 0x7748 then some 2
  else if len % 4 ≠ 0 ∨ len > 0x00400000 ∨ len < 64 + 64 then some 3
  else none

/-- Reserved fields of a section header (R210). -/
def sectReserved (x : Section) : Bool :=
  x.w 12 / 65536 = 0 && x.w 16 / 65536 = 0 && ((x.hdr.drop 20).take 4).all (fun w => w = 0#32)

/-- Does a word range of `n` words from index `i` lie in the data TCM? -/
def inTcm (i n : Nat) : Bool := decide (i + n ≤ 65536)

/-- Registers an input entry may not name, whose read has an effect (R211). -/
def readEffect (a : Nat) : Bool :=
  decide ((0x04090200 ≤ a ∧ a < 0x04090280) ∨ (0x04090300 ≤ a ∧ a < 0x04090360) ∨ a = F.MRSH_WLOG0.addr ∨ a = F.MRSH_WLOG1.addr
    ∨ (0x04120600 ≤ a ∧ a < 0x04120A00))
    || (List.range 32).any (fun h => a = (F.HAND_RXF h).addr) || (List.range 8).any (fun n => a = (F.MOT_LATRAW_HI n).addr)
    || (List.range 16).any (fun n => decide ((F.CAN_TXEV n 0).addr ≤ a ∧ a < (F.CAN_TXEV n 0).addr + 0x10))

/-- Every field of the register at `a` is RW or RSV (R211). -/
def allRw (a : Nat) : Bool := match findRow a with | some r => r.fields.all (fun f => f.ty = .rw) | none => false

def State.regEntry (s : State) (p : Nat) (e : MapEnt) (output : Bool) : Bool :=
  decide (e.addr % 4 = 0) && (List.range e.len).all (fun i =>
    match s.viewReg (pairId p) (e.addr + 4 * i) with
    | none => false
    | some b => if output then allRw b else !readEffect b)

/-- A map entry within its spaces and, for a register entry, within R211. -/
def State.mapOk (s : State) (p : Nat) (e : MapEnt) (output : Bool) : Bool :=
  let r := e.raw
  decide (getF (wAt r 0) 31 1 = 0 ∧ getF (wAt r 0) 28 1 = 0 ∧ getF (wAt r 0) 0 16 = 0 ∧ getF (wAt r 2) 0 4 = 0 ∧ getF (wAt r 3) 16 14 = 0 ∧ 1 ≤ e.len)
    && inTcm e.idx e.len
    && (if output then decide (e.act < 3 ∧ getF (wAt r 0) 29 1 = 0) && (if e.act = 2 then inTcm e.safe e.len else decide (e.safe = 0))
        else decide (wAt r 3 = 0#32) && (!e.reg || decide (e.station = 0)))
    && (if e.reg then s.regEntry p e output else decide (nAt r 1 < 2 ^ 18 ∧ e.addr % 4 = 0 ∧ e.addr + 4 * e.len ≤ 0x40000))

/-- A carry entry that obeys R223. -/
def carryOk (dataLen : Nat) (e : CarryEnt) : Bool :=
  let lim := if e.space = 0 then 0x40000 else 245760
  let oldLim := if e.op = 9 then dataLen else lim
  let oldBytes := if e.op = 9 then e.newBytes else e.count * 2 ^ e.osz
  decide (e.op ≤ 9 ∧ 1 ≤ e.count ∧ getF (wAt e.raw 0) 20 4 = 0 ∧ getF (wAt e.raw 0) 16 2 = 0 ∧ wAt e.raw 3 = 0#32 ∧ e.new + e.newBytes ≤ lim)
    && (decide (e.op = 8) || decide (e.old + oldBytes ≤ oldLim))
    && (match e.op with
        | 0 => decide (e.old = e.new ∧ e.osz = e.nsz)
        | 1 => decide (e.osz = e.nsz)
        | 2 => decide (e.osz < e.nsz)
        | 3 => decide (e.osz < e.nsz)
        | 4 => decide (e.nsz < e.osz)
        | 5 => decide (e.nsz < e.osz)
        | 6 => decide (e.osz ≤ 2 ∧ e.nsz = 2)
        | 7 => decide (e.osz = 2)
        | _ => true)

/-- The carry order: no entry's new range overlaps the old range of a later entry (R225). -/
def carryOrder : List CarryEnt → Bool
  | [] => true
  | e :: t => t.all (fun l => l.op = 8 || l.op = 9 || l.space ≠ e.space || !overlap e.new e.newBytes l.old (l.count * 2 ^ l.osz)) && carryOrder t

/-- The first check of R225 that a section fails, after the header and the signature. -/
def State.sectReason (s : State) (p : Nat) (x : Section) : Option Nat :=
  let len := nAt (s.wordsAt x.base 16) 2 - 64
  let fits := fun (o n : Nat) => decide (o + n ≤ len)
  let carries := s.carryMap x
  let running := match (s.pair p).sect with | some y => s.sectHash y | none => 0
  if !sectReserved x then some 1
  else if x.pred ≠ running && !s.sameSect p x then some 4
  else if !(decide (4 ≤ x.w 1 ∧ x.w 1 ≤ 131072 ∧ x.w 1 % 4 = 0 ∧ x.w 3 ≤ 262144 ∧ x.w 3 % 4 = 0 ∧ x.w 5 ≤ 245760 ∧ x.w 5 % 4 = 0 ∧ x.w 7 ≤ 4095
        ∧ x.w 9 ≤ 4095 ∧ x.w 11 ≤ 65535 ∧ x.w 13 < x.w 1 ∧ x.w 13 % 2 = 0 ∧ x.w 14 < x.w 1 ∧ x.w 14 % 2 = 0)
      && fits (x.w 0) (x.w 1) && fits (x.w 2) (x.w 3) && fits (x.w 4) (x.w 5) && fits (x.w 6) (16 * x.w 7) && fits (x.w 8) (16 * x.w 9)
      && fits (x.w 10) (16 * x.w 11) && inTcm (x.w 15 % 65536) 128 && decide (4 * (x.w 15 / 65536) + x.w 7 ≤ 0x40000)
      && decide (4 * x.w 16 + x.w 9 ≤ 0x40000)) then some 5
  else if !((s.inMap x).all (fun e => s.mapOk p e false) && (s.outMap x).all (fun e => s.mapOk p e true)) then some 5
  else if !(carries.all (carryOk (x.w 3)) && carryOrder carries) then some 6
  else if x.w 18 ≠ converted carries 0 ∨ x.w 19 ≠ converted carries 1 ∨ x.w 17 ≠ gapNs (converted carries 0) (converted carries 1) then some 7
  else if (s.outMap x).any (fun e => s.coversDio p e) then some 9
  else none

/-- The reason for which a slot fails STAGE.VERIFY for the pairs of a mask, or its status 0x0602 (R225). -/
def State.verifyReason (s : State) (k : Nat) (ps : List Nat) : Except Nat (Option Nat) :=
  let ws := s.wordsAt (slotBase k) 16
  if s.anyBad (slotBase k) 64 then .ok (some 10)
  else match headReason ws with
    | some r => .ok (some r)
    | none =>
      let len := nAt ws 2
      if s.anyBad (slotBase k) len then .ok (some 10)
      else if !s.sigOk (getF (wAt ws 6) 0 8) (s.slotBytes k 0 len) then .error 0x0602
      else
        let one := fun (p : Nat) => match s.sectionOf k p with
          | none => some 8
          | some x => if nAt ws (4 + p) + 128 > len - 64 then some 5 else s.sectReason p x
        .ok (ps.foldl (fun r p => match r with | some n => some n | none => one p) none)

/-- STAGE.VERIFY (R225, R230). -/
def opStageVerify (c : CmdRec) (s : State) : State :=
  let k := c.f 0 0 0
  match s.verifyReason k c.pairs with
  | .error st => s.fail c st []
  | .ok (some r) => s.fail c 0x0604 [BitVec.ofNat 32 r]
  | .ok none =>
    let s := s.each c.pairs (fun p s => s.setPair p (fun x => { x with verified := some k }))
    let res := fun (p : Nat) => match s.sectionOf k p with
      | some x => if c.pairs.contains p then [BitVec.ofNat 32 (s.cueGap p x), BitVec.ofNat 32 (x.w 18 % 65536 + x.w 19 * 65536)] else [0, 0]
      | none => [0, 0]
    s.done c (res 0 ++ res 1)

/-- Arm pair `p` with slot `k`: code into the inactive half, the early entries, armed (R225). -/
def State.armPair (s : State) (p k : Nat) (x : Section) : State :=
  let s := s.putWords (codeBase p (1 - (s.pair p).half)) (s.wordsAt (x.base + x.w 0) (x.w 1 / 4))
  let l := if s.sameSect p x then [] else s.carryMap x
  let s := s.each l (fun e s => if e.early then s.carry p x e else s)
  (s.setPair p (fun y => { y with armed := some k })).wr (F.STG_STATE_armed p) 1

/-- STAGE.ARM (R225, R230, R518). -/
def opStageArm (c : CmdRec) (s : State) : State :=
  let k := c.f 0 0 0
  let sects := c.pairs.filterMap (fun p => (s.sectionOf k p).map (fun x => (p, x)))
  if c.pairs.any (fun p => (s.pair p).verified ≠ some k) || decide (sects.length ≠ c.pairs.length) then s.fail c 0x0200 []
  else if sects.any (fun e => s.sectBad e.2) then s.fail c 0x0604 [10]
  else if sects.any (fun e => decide (s.cueGap e.1 e.2 * 2 ≥ s.rd (F.STG_WDOG_limit e.1) * 5)) then s.badParam c 0
  else (s.each sects (fun e s => s.armPair e.1 k e.2)).done c []

/-- First cycle boundary of a pair at least one lap after now (R230). -/
def State.nextCyc (s : State) (p : Nat) : Nat :=
  let len := max 1 (s.rd (F.STG_CYC_len p))
  let m := s.lap + 2
  m + (s.rd (F.STG_CYC_phase p) + len - m % len) % len

/-- STAGE.CUE (R226, R230): at once for a pair in STOP. -/
def opStageCue (c : CmdRec) (s : State) : State :=
  let l := c.p 1 + c.f 2 15 0 * 2 ^ 32
  if c.pairs.any (fun p => (s.pair p).armed.isNone || decide (s.pst p = pFAULT) || s.on (F.STG_STATE_midhold p)) then s.fail c 0x0200 []
  else if l ≠ 0 ∧ (l ≤ s.lap ∨ c.pairs.any (fun p => !s.isCyc p l) = true) then s.badParam c 1
  else
    let s := s.each c.pairs (fun p s =>
      (s.setPair p (fun x => { x with cue := some (c.seq, if l = 0 then s.nextCyc p else l) })).wr (F.STG_STATE_cuepend p) 1)
    let s := s.each c.pairs (fun p s => if s.pst p = pSTOP then (s.cuePair p c.seq).2 else s)
    if c.pairs.isEmpty then s.done c [0, 0, 0] else s

/-- Clear an understudy, and with it a cue commanded for it. -/
def State.disarm (s : State) (p : Nat) : State :=
  let s := s.finO ((s.pair p).cue.map (fun x => x.1)) 0x0200 []
  let s := s.setPair p (fun x => { x with armed := none, cue := none })
  (s.wr (F.STG_STATE_armed p) 0).wr (F.STG_STATE_cuepend p) 0
def opStageDisarm (c : CmdRec) (s : State) : State := (s.each c.pairs (fun p s => s.disarm p)).done c []

/-- The pair a word of parameter 0 names in bit 8. -/
def CmdRec.pair (c : CmdRec) : Nat := c.f 0 8 8

/-- Ask for a mode at the next cycle boundary; the command ends when it takes effect (R217). -/
def State.askMode (s : State) (p m seq : Nat) : State :=
  let s := s.finO ((s.pair p).want.bind (fun w => w.2)) 0x0200 []
  s.setPair p (fun x => { x with want := some (m, some seq) })

/-- STAGE.MODE (R217, R230). -/
def opStageMode (c : CmdRec) (s : State) : State :=
  let p := c.pair
  let st := s.pst p
  let mid := s.on (F.STG_STATE_midhold p)
  match c.f 0 1 0 with
  | 0 => if st = pRUN then s.askMode p 2 c.seq else if st = pHOLD then (s.enterStop p).done c [] else s.fail c 0x0200 []
  | 1 =>
    if st = pHOLD ∧ mid = true then
      (((s.setPair p (fun x => { x with free := true })).wr (F.STG_STATE_midhold p) 0).setPst p pRUN).done c []
    else if st = pSTOP ∨ st = pHOLD then s.askMode p 3 c.seq
    else s.fail c 0x0200 []
  | 2 => if st = pRUN then s.askMode p 4 c.seq else s.fail c 0x0200 []
  | _ => if st = pHOLD ∧ mid = false then s.askMode p 5 c.seq else s.fail c 0x0200 []

/-- Load pair `p` from section `x` and start the init entry (R220). -/
def State.loadPair (s : State) (p : Nat) (x : Section) (cold : Bool) (seq : Option Nat) (thenS : Nat) (us : Word) : State :=
  let s := s.putWords (codeBase p (s.pair p).half) (s.wordsAt (x.base + x.w 0) (x.w 1 / 4))
  let s := (s.putWords (dataBase p) (s.wordsAt (x.base + x.w 2) (x.w 3 / 4))).zeroWords (dataBase p + x.w 3) (65536 - x.w 3 / 4)
  let s := if cold then
      ((s.putWords (retVars p) (s.wordsAt (x.base + x.w 4) (x.w 5 / 4))).zeroWords (retVars p + x.w 5) (61440 - x.w 5 / 4)).zeroWords
        (retBase p + 0x1000) 3072
    else s
  let s := s.setPair p (fun y => { y with sect := some x, loading := some (seq, thenS), loadUs := us, restart := none, want := none, step1 := false,
                                          free := false, wrDue := false, rbuf := [], jpend := if cold then [] else y.jpend,
                                          ages := List.replicate (x.w 7) 0 })
  let s := (((s.wr (F.STG_STATE_midhold p) 0).wr (F.STG_CYCNUM_LO p) 0).wr (F.STG_CYCNUM_HI p) 0).setPhase p 0
  ((((s.disarm p).setPst p pLOADING).freshProc p).showOwn).enterAt p (x.w 14)

/-- Does the section a restart would load cover an octet of the other pair (R318)? -/
def State.restartCovers (s : State) (p : Nat) : Bool :=
  match s.sectionOf (getF (s.wordAt (retBase p)) 0 1) p with
  | none => false
  | some x => !s.sectBad x && (s.outMap x).any (s.coversDio p)

/-- Restart pair `p` from its active slot (R217, R220): where the section is not valid the pair is OFF after the safe actions; one that covers an octet of
the other pair leaves the pair as it was (R318). A pair out of FAULT is no trip cause any more (R490). -/
def State.restartPair (s : State) (p : Nat) (cold : Bool) (seq : Option Nat) (thenS : Nat) (us : Word) : State :=
  let k := getF (s.wordAt (retBase p)) 0 1
  if s.restartCovers p then (s.setPair p (fun y => { y with restart := none })).finO seq 0x0604 [9]
  else
  let s := s.finO ((s.pair p).want.bind (fun w => w.2)) 0x0200 []
  let s := s.uncause p
  let s := (s.safeActions p).wr (F.STG_STATE_slot p) k
  let off := fun (rs : List Word) (s : State) => ((((s.haltCores p).setPair p (fun y => { y with restart := none, want := none })).setPst p pOFF).showOwn).finO seq 0x0604 rs
  match s.verifyReason k [] with
  | .error _ => off [] s
  | .ok (some r) => off [BitVec.ofNat 32 r] s
  | .ok none =>
    match s.sectionOf k p with
    | none => off [8] s
    | some x => if s.sectBad x then off [10] s else s.loadPair p x cold seq thenS us

/-- STAGE.RESTART waits for write outputs of the running cycle (R220, R230); `obs`: the load time measured, in µs. -/
def opStageRestart (env : Env) (c : CmdRec) (s : State) : State :=
  let p := c.pair
  if c.f 0 5 4 = 3 then s.badEnc c
  else if s.pst p = pLOADING then s.fail c 0x0200 []
  else if s.pst p = pRUN ∧ s.idlePair p = false then (s.setPair p (fun x => { x with restart := some c.seq })).again c
  else s.restartPair p (c.f 0 0 0 = 1) (some c.seq) (c.f 0 5 4) (wAt env.obs 0)

/-- STAGE.CYCLE (R230): the lap at which the fields take effect. -/
def opStageCycle (c : CmdRec) (s : State) : State :=
  let p := c.pair
  if c.f 0 7 0 = 0 ∨ c.p 2 = 0 then s.badEnc c
  else if !s.cycOk (c.f 0 7 0) (c.f 0 23 16) (c.p 1) (c.p 2) then s.badParam c (if c.f 0 23 16 ≥ c.f 0 7 0 ∨ c.f 0 7 0 * s.rd F.RING_LAPCFG_len < 10000 then 0 else if c.p 1 ≥ c.f 0 7 0 * s.rd F.RING_LAPCFG_len then 1 else 2)
  else
    let len := max 1 (s.rd (F.STG_CYC_len p))
    let m := s.lap + 1
    let at_ := m + (s.rd (F.STG_CYC_phase p) + len - m % len) % len
    let s := ((s.wrS (F.STG_CYC_len p) (c.f 0 7 0)).wrS (F.STG_CYC_phase p) (c.f 0 23 16)).wrS (F.STG_OUTOFS_ofs p) (c.p 1)
    (((s.wrS (F.STG_WDOG_limit p) (c.p 2)).showStg p).stgCommit p).done c [BitVec.ofNat 32 at_]

def opStageStatus (c : CmdRec) (s : State) : State :=
  let p := c.pair
  s.done c [s.reg (F.STG_STATE_state p).addr, s.reg (F.STG_CYCNUM_LO p).addr, s.reg (F.STG_LOGIC p).addr, s.reg (F.STG_LOGICMAX p).addr]

def execStageLoad (seq : Nat) (env : Env) (s : State) : Out := .next (s.runCmd 0x0600 seq (opStageLoad env))
def execStageVerify (seq : Nat) (_env : Env) (s : State) : Out := .next (s.runCmd 0x0601 seq opStageVerify)
def execStageArm (seq : Nat) (_env : Env) (s : State) : Out := .next (s.runCmd 0x0602 seq opStageArm)
def execStageCue (seq : Nat) (_env : Env) (s : State) : Out := .next (s.runCmd 0x0603 seq opStageCue)
def execStageDisarm (seq : Nat) (_env : Env) (s : State) : Out := .next (s.runCmd 0x0604 seq opStageDisarm)
def execStageMode (seq : Nat) (_env : Env) (s : State) : Out := .next (s.runCmd 0x0605 seq opStageMode)
def execStageRestart (seq : Nat) (env : Env) (s : State) : Out := .next (s.runCmd 0x0606 seq (opStageRestart env))
def execStageCycle (seq : Nat) (_env : Env) (s : State) : Out := .next (s.runCmd 0x0607 seq opStageCycle)
def execStageStatus (seq : Nat) (_env : Env) (s : State) : Out := .next (s.runCmd 0x0608 seq opStageStatus)

end Sys2Proof.Machine
end

