-- ==== Sys2Proof/Machine/Access.lean ====
section
/-! DEFINITION. Accesses to the local address map by a master identity (R21–R24, R407, R408, R414, R442): whole words, narrow accesses, and
REGISTER_WRITE. -/
namespace Sys2Proof.Machine
open Sys2Proof

/-- Write a register word: the control words of the stage and of debug, and every other one (R6, R22, R442). -/
def State.regPut (s : State) (id a : Nat) (v : Word) : Wrote × State :=
  match viewOf (s.backstage id) a with
  | .reg b =>
    if b = 0x04150000 then
      let s := s.acts v [(0, State.stgCntClr)]
      (.ok, s.stgWrite v.toNat)
    else if b = F.DBG_CTL_attached.addr then (.ok, s.acts v [(1, fun s => s.debugHalt 0), (2, fun s => s.debugHalt 1)])
    else (.ok, s.regWrite id a b v)
  | _ => s.busWrite id a v

/-- Word address that an access of at most four bytes lies in. -/
def wordAddr (a : Nat) : Nat := a / 4 * 4

/-- Read one aligned word of the local map; the aperture is not read here. -/
def State.locRead (s : State) (id a : Nat) : Found × State :=
  match area a with
  | .reg => s.busRead id a
  | .addAlias => s.atomic id (lessMul a 0x00800000 1) (fun w => w + 1)
  | .swapAlias => s.atomic id (lessMul a 0x00400000 3) (fun _ => 0)
  | _ => s.rdMem id a

/-- What an atomic write found, as the outcome of a write. -/
def atomicWrote : Found → Wrote
  | .ok _ => .ok
  | .bad => .refused
  | .wait => .wait
  | .none => .none

/-- A write through an alias (R407, R408). -/
def State.atomicPut (s : State) (id a : Nat) (f : Word → Word) : Wrote × State :=
  let r := s.atomic id a f
  (atomicWrote r.1, r.2)

/-- Write one aligned word of the local map; the aperture is not written here (R407). -/
def State.locWrite (s : State) (id a : Nat) (v : Word) : Wrote × State :=
  match area a with
  | .reg => s.regPut id a v
  | .addAlias => s.atomicPut id (lessMul a 0x00800000 1) (fun w => w + v)
  | .swapAlias => s.atomicPut id (lessMul a 0x00400000 3) (fun _ => v)
  | _ => s.wrMem id a v

/-- Is memory of this range coded, so that narrow writes fault (R413, R414)? -/
def codedArea (a : Nat) : Bool :=
  match area a with
  | .house => true
  | .addAlias => true
  | .swapAlias => true
  | .tcm => true
  | .lap => true
  | .mram => true
  | _ => false

/-- Read `n` bytes within a word: from a register or memory the addressed bytes of the word, from an alias zero (R23, R407). -/
def State.locNarrowRead (s : State) (id a n : Nat) : Found × State :=
  match area a with
  | .addAlias => (.ok 0, s)
  | .swapAlias => (.ok 0, s)
  | .engl =>
    match s.ready a with
    | (0, s) =>
      let v := (s.wordAt (wordAddr a) >>> (8 * (a % 4))) &&& fmask 0 (8 * n)
      if s.parityBad a n then s.parityFound id a v else (.ok v, s)
    | (1, s) => (.wait, s)
    | (_, s) => (.none, s.decErr id a false)
  | _ =>
    match s.locRead id (wordAddr a) with
    | (.ok w, s) => (.ok ((w >>> (8 * (a % 4))) &&& fmask 0 (8 * n)), s)
    | r => r

/-- Write `n` bytes of engine local memory from `a` upward: each byte takes a fresh parity bit (R272, R273). -/
def State.englBytes (s : State) (a v : Nat) : Nat → State
  | 0 => s
  | n + 1 =>
    let s := s.setByte a (BitVec.ofNat 8 v)
    (s.setEng (a / 0x20000 - 128) (fun e => { e with parity := e.parity.filter (· ≠ a) })).englBytes (a + 1) (v / 256) n

/-- A write of `n` < 4 bytes within a word (R23, R272, R407, R414). -/
def State.locNarrowWrite (s : State) (id a n v : Nat) : Wrote × State :=
  if codedArea a then (.narrow, s.narrowFault id a)
  else
    match area a with
    | .engl =>
      if s.englRefused id a n then (.refused, s.decErr id a true)
      else match s.ready a with
        | (0, s) => (.ok, s.englBytes a v n)
        | (1, s) => (.wait, s)
        | (_, s) => (.none, s.decErr id a true)
    | .reg => (.narrow, s.decErr id a true)
    | _ => (.none, s.decErr id a true)

/-- REGISTER_WRITE: a write of one word, or narrower, to a register (R6, R8, R9, R22, R23, R442). -/
def State.registerWrite (s : State) (id a : Nat) (whole : Bool) (v : Word) : State :=
  if area a ≠ .reg then s
  else if !whole ∨ a % 4 ≠ 0 then s.decErr id a true
  else (s.regPut id a v).2
def execRegisterWrite (id : Ident) (a : Fin 0x10000000) (whole : Bool) (v : Word) (s : State) : Out :=
  .next (s.guardUp (fun s => s.registerWrite id a whole v))

end Sys2Proof.Machine
end

