-- ==== Sys2Proof/Machine/Fabric.lean ====
section
/-! DEFINITION. The fabric requester's grants, tags, completions and prefetch (R170–R183), the target port and its inbound buffer (R172, R184–R188),
messages from the ring (R195), and the FAB commands (R205). -/
namespace Sys2Proof.Machine
open Sys2Proof

/-- The outcome of an aperture access for a host interface (R180, R190, R455–R458): answers of reads leave the station; the QSPI port is busy until
none of its accesses is left, and err reports a failure. -/
def State.qspiLeft (s : State) : Bool :=
  let w := fun (a : FabAcc) => decide (a.ret = .host 3 ∧ a.kind = .write)
  s.fab.reqs.any w || s.fab.tags.any (fun t => t.any (fun e => w e.acc)) || s.host.pend.any (fun r => decide (r.ident = 3 ∧ r.kind = 1))
def State.hostDone (s : State) (id : Nat) (read : Bool) (data : List Word) (ok : Bool) : State :=
  if id = 3 then
    let s := if read then s.emit (.answer 3 data !ok) else s
    { s with host := { s.host with qbusy := s.qspiLeft, qerr := s.host.qerr || !ok } }
  else if id = 4 then
    let w := wAt data 0
    let s := if read then s.emit (.answer 4 [w &&& 0xFFFF#32] !ok) else s
    { s with host := { s.host with perr := s.host.perr || !ok, rdHigh := if read then w.toNat / 65536 else s.host.rdHigh } }
  else if read && !s.fenced (fnOf id) then s.emit (.answer id data !ok)
  else s

/-- A DMA channel has moved one more word. -/
def State.dmaMoved (s : State) (c : Nat) : State :=
  (s.addc (F.MEM_DMA3_moved c) 4).setDma c (fun x => { x with done := x.done + 4, waiting := false })

/-- The destination of a DMA word that is no aperture address (R22, R24, R422, R442). -/
def State.dmaPut (s : State) (c dst : Nat) (v : Word) : State :=
  match s.locWrite (0x20 + c) dst v with
  | (.ok, s) => s.dmaMoved c
  | (.wait, s) => s.setDma c (fun x => { x with waiting := false })
  | (_, s) => s.dmaError c 3

/-- Ask the fabric requester for an access (R174). -/
def State.fabIssue (s : State) (a : FabAcc) : State := s.setFab (fun f => { f with reqs := f.reqs ++ [a] })

/-- A finished access: its data, all ones where it failed (R180), go to its initiator. -/
def State.fabDone (s : State) (a : FabAcc) (data : List Word) (ok : Bool) : State :=
  let d := if ok then data else List.replicate (a.bytes / 4) 0xFFFFFFFF#32
  let read := decide (a.kind ≠ .write)
  match a.ret with
  | .drop => s
  | .proc p => s.setProc p (fun x => { x with got := x.got ++ [if read then wAt d 0 else 0], stall := if x.stall = .fabric then .none else x.stall })
  | .host id => s.hostDone id read d ok
  | .dmaRead c dst =>
    if !s.on (F.MEM_DMA2_busy c) then s
    else if !ok then s.dmaError c 4
    else if area dst = .aperture then
      s.fabIssue { ident := 0x20 + c, kind := .write, addr := dst, bytes := 4, fbe := 15, lbe := 0, data := d, ret := .dmaWrite c }
    else s.dmaPut c dst (wAt d 0)
  | .dmaWrite c => if !s.on (F.MEM_DMA2_busy c) then s else if ok then s.dmaMoved c else s.dmaError c 4

/-- The destination of an aperture address through the committed fields of its window (R170). -/
def State.fabRing (s : State) (a : Nat) : Nat := s.rd (F.FAB_WIN1_ring (winOf a))
def State.fabStation (s : State) (a : Nat) : Nat := s.rd (F.FAB_WIN1_station (winOf a))
def State.fabDaddr (s : State) (a : Nat) : Nat := s.rd (F.FAB_WIN1_hi (winOf a)) * 2 ^ 24 + winOff a

/-- Is an access a posted write: PCIe writes always are (R173, R190)? -/
def State.fabPosted (s : State) (a : FabAcc) : Bool :=
  decide (a.kind = .write) && (!s.on (F.FAB_WIN0_np (winOf a.addr)) || decide (a.ident = 1 ∨ a.ident = 2))

/-- The cause of a local refusal (R171, R179). -/
def State.fabRefusal (s : State) (a : FabAcc) : Option Nat :=
  if !s.on (F.FAB_WIN0_en (winOf a.addr)) then some 0x12
  else if s.fabRing a.addr = 255 ∨ s.fabStation a.addr = 0 then some 0x13
  else if s.rd F.RING_STATE_join ≠ 5 then some 0x11
  else if s.fabStation a.addr = 4095 ∧ s.fabPosted a = false then some 0x14
  else none

/-- The access fails: logged, and its initiator gets all ones (R180, R181). -/
def State.fabFail (s : State) (a : FabAcc) (tag cause : Nat) : State :=
  (s.fabLog (s.fabPosted a) tag cause a.ident (s.fabRing a.addr) (s.fabStation a.addr) (s.fabDaddr a.addr)).fabDone a [] false

/-- The request control word (R177). -/
def fabCtl (a : FabAcc) (np spec : Bool) (tag gen : Nat) : Word :=
  BitVec.ofNat 32 ((if np then 2 ^ 31 else 0) + (if spec then 2 ^ 30 else 0) + tag * 2 ^ 24 + gen * 2 ^ 22 + a.ident * 2 ^ 16 + a.fbe * 2 ^ 12
    + a.lbe * 2 ^ 8 + (match a.kind with | .write => 0 | .read => 1 | .add => 2 | .swap => 3))

/-- Payload words and frame type of a request (R64, R177). -/
def fabPayload (a : FabAcc) (ctl : Word) : List Word :=
  match a.kind with
  | .write => ctl :: a.data
  | .read => [ctl, BitVec.ofNat 32 a.bytes]
  | _ => [ctl, wAt a.data 0]
def fabType (k : AccKind) : Nat := match k with | .write => 2 | .read => 3 | _ => 7

/-- Is the read-sensitive sub-range of a window empty, and does an offset range meet it (R182)? -/
def State.rsStart (s : State) (w : Nat) : Nat := s.rd (F.FAB_WIN2_start w) * 4096
def State.rsEnd (s : State) (w : Nat) : Nat := s.rd (F.FAB_WIN2_end w) * 4096
def State.sensitive (s : State) (w off n : Nat) : Bool := decide (s.rsStart w < s.rsEnd w ∧ off < s.rsEnd w ∧ s.rsStart w < off + n)

/-- The lowest free tag. -/
def State.freeTagNo (s : State) : Option Nat := (List.range 64).find? (fun t => (s.fab.tags.getD t none).isNone)

/-- Take tag `t` for an access: its generation steps, and its timer starts (R175, R176). -/
def State.takeTag (s : State) (t : Nat) (a : FabAcc) (spec : Bool) : State :=
  let e : TagEnt := ⟨a, s.fabRing a.addr, s.fabStation a.addr, s.fabDaddr a.addr, winOf a.addr, s.raw, spec⟩
  (s.setFab (fun f => { f with tags := updAt f.tags t (fun _ => some e), tgens := updAt f.tgens t (fun g => (g + 1) % 4) })).showFab

/-- Send the frame of a granted access (R174, R177). -/
def State.fabSend (s : State) (a : FabAcc) (np spec : Bool) (tag : Nat) : State :=
  let ctl := fabCtl a np spec tag (if np then s.fab.tgens.getD tag 0 else 0)
  s.sendFrame (fabType a.kind) (s.fabRing a.addr) (s.fabStation a.addr) (s.fabDaddr a.addr) (wordsToBytes (fabPayload a ctl))
    (decide (a.kind = .write) && s.on (F.FAB_WIN0_stamp (winOf a.addr)))

/-- The speculative read of the 64 bytes from aperture address `e` upward (R183): cut at the window's end and at the read-sensitive sub-range, and
not sent below 4 bytes or without a free tag. -/
def State.speculate (s : State) (ident e w : Nat) : State :=
  let off := e - (0x10000000 + w * 0x01000000)
  let lim := if s.rsStart w < s.rsEnd w ∧ off < s.rsEnd w then max off (s.rsStart w) else 0x01000000
  let n := min (min 64 (0x01000000 - off)) (lim - off) / 4 * 4
  match s.freeTagNo with
  | none => s
  | some t =>
    if n < 4 then s
    else
      let a : FabAcc := ⟨ident, .read, e, n, 15, if n = 4 then 0 else 15, [], .drop⟩
      ((s.takeTag t a true).inc F.FAB_CNT_NPREQ).fabSend a true true t

/-- Does the prefetch buffer of window `w` hold the word at aperture address `a` (R183)? -/
def State.pfHit (s : State) (w a n : Nat) : Option PfBuf :=
  match s.fab.pf.getD w none with
  | some b => if b.addr ≤ a ∧ a + n ≤ b.addr + 4 * b.data.length then some b else none
  | none => none

/-- Discard every buffer that covers a written address (R183). -/
def State.pfWritten (s : State) (ring station daddr n : Nat) : State :=
  s.each (List.range 16) (fun w s =>
    match s.fab.pf.getD w none with
    | some b => if b.ring = ring ∧ b.station = station ∧ b.daddr < daddr + n ∧ daddr < b.daddr + 4 * b.data.length then s.pfDrop w else s
    | none => s)

/-- What the target port answers to a request: its cause, or that it has to wait for a memory (R179, R186). -/
inductive TargetAns where
  | wait
  | done (cause : Nat) (data : List Word) (se : Bool)
  deriving DecidableEq, Repr

/-- The bytes of a word that enables name, as (offset, length) runs. -/
def beRuns (be : Nat) : List (Nat × Nat) := ((List.range 4).filter (fun i => be.testBit i)).map (fun i => (i, 1))

/-- Cause of a refused or failed word. -/
def causeOf (a : Nat) : Wrote → Nat
  | .ok => 0
  | .refused => 2
  | .wait => 0
  | .narrow => 3
  | .none => if area a = .reg ∨ area a = .none then 1 else 2

/-- Write one word under byte enables as ring inbound (R177, R186). -/
def State.inWrite (s : State) (a be : Nat) (v : Word) : Nat × State :=
  if be = 15 then let r := s.locWrite 0x28 a v; (causeOf a r.1, r.2)
  else if be = 0 then (0, s)
  else if area a = .engl then
    (beRuns be).foldl (fun r e => if r.1 ≠ 0 then r
      else let q := r.2.locNarrowWrite 0x28 (a + e.1) e.2 (getF v (8 * e.1) 8); (causeOf a q.1, q.2)) (0, s)
  else let r := s.locNarrowWrite 0x28 a 1 0; (causeOf a r.1, r.2)

/-- The enables of word `i` of `n` (R177). -/
def beOf (ctl : Word) (n i : Nat) : Nat := if i = 0 then getF ctl 12 4 else if i + 1 = n then getF ctl 8 4 else 15

/-- Carry out a write word by word in ascending order, up to the first failure. -/
def State.inWrites (s : State) (a : Nat) (ctl : Word) (n i : Nat) : List Word → Nat × State
  | [] => (0, s)
  | v :: t =>
    match s.inWrite (a + 4 * i) (beOf ctl n i) v with
    | (0, s) => s.inWrites a ctl n (i + 1) t
    | r => r

/-- The cause with which a read that nothing serves is answered (R186). -/
def State.readCause (s : State) (a : Nat) : Nat :=
  if area a = .mram then 2 else if area a = .reg ∧ viewOf (s.backstage 0x28) a = .fault then 2 else 1

/-- Read one word as ring inbound: its cause, 0 for none, and the word (R186). -/
def State.inRead (s : State) (a : Nat) : (Nat × Word) × State :=
  let x := s.locRead 0x28 a
  match x.1 with
  | .ok v => ((0, v), x.2)
  | .bad => ((4, 0), x.2)
  | .wait => ((x.2.readCause a, 0), x.2)
  | .none => ((x.2.readCause a, 0), x.2)

/-- Read words as ring inbound, up to the first that is refused. -/
def State.inReads (s : State) (a : Nat) : Nat → (Nat × List Word) × State
  | 0 => ((0, []), s)
  | n + 1 =>
    let x := s.inRead a
    let r := x.2.inReads (a + 4) n
    if x.1.1 = 0 then ((r.1.1, x.1.2 :: r.1.2), r.2) else ((x.1.1, []), x.2)

/-- Does a read touch a register whose read has an effect, or a side-effect range (R184)? -/
def State.seRead (s : State) (a n : Nat) : Bool :=
  (List.range ((n + 3) / 4)).any (fun i =>
    let b := a + 4 * i
    (decide (area b = .reg) && readEffect (if b ≥ 0x04800000 then lessMul b 0x00800000 1 else b))
      || (List.range 8).any (fun k => decide (s.rd (F.FAB_SEMAP0_start k) * 4 ≤ b ∧ b < s.rd (F.FAB_SEMAP1_end k) * 4)))

/-- Does a memory of the range have to wake or finish its initialisation (R405, R472)? -/
def State.inWaits (s : State) (a n : Nat) : Bool × State :=
  let h := fun (x : Nat) => match area x with | .addAlias => lessMul x 0x00800000 1 | .swapAlias => lessMul x 0x00400000 3 | _ => x
  match s.ready (h a) with
  | (1, s) => (true, s)
  | (_, s) => match s.ready (h (a + n - 1)) with
    | (1, s) => (true, s)
    | (_, s) => (false, s)

/-- The right of ring inbound to be served at all (R186). -/
def State.inRight (s : State) (ring : Nat) (atomic : Bool) : Bool :=
  s.on F.FAB_INCTL_en && !(s.on F.FAB_INCTL_ringonly && decide (ring ≠ s.ringId)) && (s.on F.FAB_INCTL_atomics || !atomic)

/-- Carry out a request at the target port (R172, R177, R185, R186). -/
def State.target (s : State) (r : InReq) : TargetAns × State :=
  let a := r.daddr
  let n := if r.typ = 2 then 4 * r.words.length else if r.typ = 3 then getF (wAt r.words 0) 0 12 else 4
  if !s.inRight r.ring (decide (r.typ = 7)) then (.done 2 [] false, s)
  else if r.typ = 7 then
    if area a ≠ .house ∨ a % 4 ≠ 0 then (.done 6 [] false, s)
    else
      match s.inWaits a 4 with
      | (true, s) => (.wait, s)
      | (false, s) =>
        match s.atomic 0x28 a (fun w => if getF r.ctl 0 4 = 2 then w + wAt r.words 0 else wAt r.words 0) with
        | (.ok v, s) => (.done 0 [v] false, s)
        | (.bad, s) => (.done 4 [] false, s)
        | (.wait, s) => (.done 1 [] false, s)
        | (.none, s) => (.done 1 [] false, s)
  else if area a = .aperture then (.done 1 [] false, s)
  else if area a = .none ∨ a % 4 ≠ 0 then (.done 1 [] false, s.decErr 0x28 a (decide (r.typ = 2)))
  else if a + n > areaEnd a then (.done 7 [] false, s)
  else
    match s.inWaits a n with
    | (true, s) => (.wait, s)
    | (false, s) =>
      if r.typ = 2 then let q := s.inWrites a r.ctl r.words.length 0 r.words; (.done q.1 [] false, q.2)
      else
        let q := s.inReads a (n / 4)
        (.done q.1.1 (if q.1.1 = 0 then q.1.2 else []) (getF r.ctl 30 1 = 1 && s.seRead a n), q.2)

/-- The completion control word (R178). -/
def cplWord (ctl : Word) (cause : Nat) (se : Bool) : Word :=
  BitVec.ofNat 32 (getF ctl 24 6 * 2 ^ 24 + getF ctl 22 2 * 2 ^ 22 + (if se then 2 ^ 21 else 0) + cause * 2 ^ 8)

/-- Send a completion (R178). -/
def State.complete (s : State) (r : InReq) (cause : Nat) (data : List Word) (se : Bool) : State :=
  s.sendFrame 4 r.ring r.station r.daddr (wordsToBytes (cplWord r.ctl cause se :: data)) false

/-- A request has been carried out or refused: counted, and answered where an answer is due (R179, R180). -/
def State.inAnswer (s : State) (r : InReq) (cause : Nat) (data : List Word) (se : Bool) : State :=
  let s := if cause = 0 then s.inc F.FAB_CNT_INREQ else s.inc F.FAB_CNT_INERR
  if r.typ ≠ 2 ∨ getF r.ctl 31 1 = 1 then s.complete r cause data se else s

/-- Take the head of the inbound buffer out where it can be carried out (R188). -/
def State.drainOne (s : State) : State :=
  match s.fab.inbound with
  | [] => s
  | r :: t =>
    let out := fun (s : State) => s.setFab (fun f => { f with inbound := t })
    if r.typ = 5 ∨ r.typ = 6 then (out s).gateArrive r.ring r.station r.words
    else match s.target r with
      | (.wait, s) => s
      | (.done c d se, s) => (out s).inAnswer r c d se
def execInboundBufferDrain (s : State) : Out := .next (s.guardUp State.drainOne)

/-- Bytes of the inbound buffer in use (R188). -/
def inBytes (l : List InReq) : Nat := l.foldl (fun n r => n + 24 + 4 * r.words.length) 0

/-- An accepted request enters the inbound buffer, and is carried out at once where nothing older waits (R187, R188). -/
def State.inPush (s : State) (f : RFrame) : State :=
  let r : InReq := ⟨f.sring, f.sstation, f.daddr, f.typ, f.pw 0, f.words.drop 1⟩
  let was := s.fab.inbound.isEmpty
  let s := s.setFab (fun x => { x with inbound := x.inbound ++ [r] })
  if was then s.drainOne else s

/-- A request of a fenced source is refused (R165, R180). -/
def State.inFenced (s : State) (f : RFrame) : State :=
  s.inAnswer ⟨f.sring, f.sstation, f.daddr, f.typ, f.pw 0, f.words.drop 1⟩ 5 [] false

/-- A request frame of type `t` (R187): without room in the inbound buffer it is not accepted, and its source goes to RECOVER (R188). -/
def State.inRequest (s : State) (p : Nat) (f : RFrame) : State :=
  match s.arrive p f id with
  | (false, s) => s
  | (true, s) =>
    match s.accept f with
    | (.yes, t) =>
      if inBytes s.fab.inbound + 20 + f.payload.length > 65536 then
        ((s.inc F.FAB_CNT_INBUSY).event F.FAB_EVT_inbusy).enterRecover f.sring f.sstation
      else t.inPush f
    | (.no, t) => t
    | (.fenced, t) => t.inFenced f

def execWrite (p : Fin 2) (f : RFrame) (s : State) : Out := .next (if s.rxUp p ∧ rxIs 2 f then s.inRequest p f else s)
def execReadRequest (p : Fin 2) (f : RFrame) (s : State) : Out := .next (if s.rxUp p ∧ rxIs 3 f then s.inRequest p f else s)
def execAtomic (p : Fin 2) (f : RFrame) (s : State) : Out := .next (if s.rxUp p ∧ rxIs 7 f then s.inRequest p f else s)

/-- A message or side-band goes to the gate once every earlier request of its source has been acted on (R187, R195). -/
def State.inMessage (s : State) (p : Nat) (f : RFrame) : State :=
  s.arriveSeq p f (fun s =>
    if s.fab.inbound.any (fun r => r.ring = f.sring && r.station = f.sstation) then
      s.setFab (fun x => { x with inbound := x.inbound ++ [⟨f.sring, f.sstation, f.daddr, f.typ, f.pw 0, f.words⟩] })
    else s.gateArrive f.sring f.sstation f.words) (fun s => s)
def execMessage (p : Fin 2) (f : RFrame) (s : State) : Out := .next (if s.rxUp p ∧ rxIs 5 f then s.inMessage p f else s)
def execSideBand (p : Fin 2) (f : RFrame) (s : State) : Out := .next (if s.rxUp p ∧ rxIs 6 f then s.inMessage p f else s)

/-- An access to this station is carried out by its own target port at once (R172). -/
def State.fabOwn (s : State) (a : FabAcc) : Option State :=
  let np := !s.fabPosted a
  let ctl := fabCtl a np false 0 0
  let r : InReq := ⟨s.ringId, s.station, s.fabDaddr a.addr, fabType a.kind, ctl, (fabPayload a ctl).drop 1⟩
  match s.target r with
  | (.wait, _) => none
  | (.done c d _, s) =>
    let s := if c = 0 then s.inc F.FAB_CNT_INREQ else s.inc F.FAB_CNT_INERR
    some (if c = 0 then s.fabDone a d true else if np then s.fabFail a 0 c else s.fabDone a [] false)

/-- The granted access leaves: a prefetch hit is served, a posted write is finished as it is queued, and another holds its tag (R174–R176, R183). -/
def State.fabGo (s : State) (a : FabAcc) : State :=
  let w := winOf a.addr
  let ring := s.fabRing a.addr
  let st := s.fabStation a.addr
  let da := s.fabDaddr a.addr
  let pf := decide (a.kind = .read) && s.on (F.FAB_WIN0_pf w) && !s.sensitive w (winOff a.addr) a.bytes
  let s := if a.kind = .read then s else s.pfWritten ring st da a.bytes
  if s.fabPosted a then ((s.inc F.FAB_CNT_POSTED).fabSend a false false 0).fabDone a [] true
  else
    let e := a.addr + a.bytes
    let seqRead := decide (s.fab.lastEnd.getD w 0 = a.addr)
    let s := if a.kind = .read then s.setFab (fun f => { f with lastEnd := updAt f.lastEnd w (fun _ => e) }) else s
    match if pf then s.pfHit w a.addr a.bytes else none with
    | some b =>
      let i := (a.addr - b.addr) / 4
      let n := a.bytes / 4
      let s := s.setFab (fun f => { f with pf := updAt f.pf w (fun _ => some { b with left := b.left.filter (fun j => !(i ≤ j && j < i + n)) }) })
      let s := (s.inc F.FAB_CNT_PFHIT).fabDone a ((b.data.drop i).take n) true
      if b.addr + 4 * b.data.length < e + 32 then s.speculate a.ident e w else s
    | none =>
      match s.freeTagNo with
      | none => s
      | some t =>
        let s := ((s.takeTag t a false).inc F.FAB_CNT_NPREQ).fabSend a true false t
        if pf && seqRead then s.speculate a.ident e w else s

/-- May the access be granted now: no commit of its window waits, and it finds a tag and room where it needs them (R173, R175)? -/
def State.mayGrant (s : State) (a : FabAcc) : Bool :=
  let w := winOf a.addr
  if s.fab.commitWait.contains w then false
  else if (s.fabRefusal a).isSome then true
  else if s.fabRing a.addr = s.ringId ∧ s.fabStation a.addr = s.station then (s.fabOwn a).isSome
  else
    let hit := decide (a.kind = .read) && s.on (F.FAB_WIN0_pf w) && !s.sensitive w (winOff a.addr) a.bytes && (s.pfHit w a.addr a.bytes).isSome
    hit || ((s.fabPosted a || s.freeTagNo.isSome) && s.ringAdmits s.odir 1 (24 + 4 * a.data.length))

/-- The next identity in turn whose oldest access may be granted (R174). -/
def State.nextGrant (s : State) : Option FabAcc :=
  ((List.range 64).filterMap (fun i =>
    let id := (s.fab.last + 1 + i) % 64
    match s.fab.reqs.find? (fun a => a.ident = id) with
    | some a => if s.mayGrant a then some a else none
    | none => none)).head?

/-- Remove the oldest access of an identity. -/
def dropFirst (id : Nat) : List FabAcc → List FabAcc
  | [] => []
  | a :: t => if a.ident = id then t else a :: dropFirst id t

/-- FABRIC_GRANT (R171, R172, R174, R462). -/
def State.fabGrant (s : State) : State :=
  match s.nextGrant with
  | none => s
  | some a =>
    let s := s.setFab (fun f => { f with last := a.ident, reqs := dropFirst a.ident f.reqs })
    if (a.ident = 1 ∨ a.ident = 2) ∧ s.fenced (fnOf a.ident) = true then (s.inc F.HOST_CNT_FENCEREJ).fabDone a [] false
    else match s.fabRefusal a with
      | some c => s.fabFail a 0 c
      | none =>
        if s.fabRing a.addr = s.ringId ∧ s.fabStation a.addr = s.station then
          let s := if s.fabPosted a then s.inc F.FAB_CNT_POSTED else s.inc F.FAB_CNT_NPREQ
          (s.fabOwn a).getD s
        else s.fabGo a
def execFabricGrant (s : State) : Out := .next (s.guardUp State.fabGrant)

/-- A completion for a held tag (R176, R178, R183); a late one is discarded and counted. -/
def State.completion (s : State) (f : RFrame) : State :=
  let c := f.pw 0
  let t := getF c 24 6
  match s.fab.tags.getD t none with
  | none => (s.inc F.FAB_CNT_LATECPL).event F.FAB_EVT_latecpl
  | some e =>
    if getF c 22 2 ≠ s.fab.tgens.getD t 0 then (s.inc F.FAB_CNT_LATECPL).event F.FAB_EVT_latecpl
    else if getF c 8 8 ≠ 0 then
      ((s.fabLog false t (getF c 8 8) e.acc.ident e.ring e.station e.daddr).freeTag t).fabDone e.acc [] false
    else if e.spec then
      let d := f.words.drop 1
      let s := s.freeTag t
      let s := s.pfDrop e.window
      s.setFab (fun x => { x with pf := updAt x.pf e.window (fun _ =>
        some ⟨e.acc.addr, d, getF c 21 1 = 1, List.range d.length, s.raw, e.acc.ident, t, e.ring, e.station, e.daddr⟩) })
    else (s.freeTag t).fabDone e.acc (f.words.drop 1) true
def execCompletion (p : Fin 2) (f : RFrame) (s : State) : Out :=
  .next (if s.rxUp p ∧ rxIs 4 f then s.arriveSeq p f (fun s => s.completion f) (fun s => s) else s)

/-- The timer of tag `t` expires (R176). -/
def State.tagTimeout (s : State) (t : Nat) : State :=
  match s.fab.tags.getD t none with
  | none => s
  | some e =>
    if s.raw ≥ e.start + s.rd (F.FAB_WIN0_timeout e.window) * tickUs then
      (((s.inc F.FAB_CNT_TIMEOUT).fabLog false t 0x10 e.acc.ident e.ring e.station e.daddr).freeTag t).fabDone e.acc [] false
    else s
def execTagTimeout (t : Fin 64) (s : State) : Out := .next (s.guardUp (fun s => s.tagTimeout t))

/-- A prefetch buffer reaches its age limit (R183). -/
def State.pfAge (s : State) (w : Nat) : State :=
  match s.fab.pf.getD w none with
  | some b => if s.raw ≥ b.raw + s.rd F.FAB_PFCFG_age * tickUs then s.pfDrop w else s
  | none => s
def execPrefetchAge (w : Fin 16) (s : State) : Out := .next (s.guardUp (fun s => s.pfAge w))

/-- FAB.WINDOW (R173, R205). -/
def opFabWindow (c : CmdRec) (s : State) : State :=
  let w := c.f 0 3 0
  let l := winRegs w
  if !legalWord (l.getD 0 0) (c.pw 1) then s.badEnc c
  else if c.f 3 28 16 > 4096 then s.badParam c 3
  else ((((s.shadowCfg (l.getD 0 0) (c.pw 1)).shadowCfg (l.getD 1 0) (c.pw 2)).shadowCfg (l.getD 2 0) (c.pw 3)).showWins.winCommit w).done c []

/-- FAB.LOGREAD (R205): the entries held of the logs named, the error log first. -/
def opFabLogread (c : CmdRec) (s : State) : State :=
  s.withOut c 1 (fun b s =>
    if b.len < 768 then s.fail c 0x0105 []
    else
      let ne := if c.f 0 0 0 = 1 then s.rd F.FAB_ELOGSTAT_held else 0
      let nd := if c.f 0 1 1 = 1 then s.rd F.FAB_DLOGSTAT_held else 0
      let ws := (List.range (4 * ne)).map (fun i => s.reg ((F.FAB_ELOG 0 0).addr + 4 * i))
        ++ (List.range (4 * nd)).map (fun i => s.reg ((F.FAB_DLOG 0 0).addr + 4 * i))
      (s.writeBuf c b ws).done c [BitVec.ofNat 32 ne, BitVec.ofNat 32 nd, BitVec.ofNat 32 (s.rd F.FAB_ELOGSTAT_ovf + 2 * s.rd F.FAB_DLOGSTAT_ovf)])

/-- FAB.LOGCLR (R205). -/
def opFabLogclr (c : CmdRec) (s : State) : State :=
  let s := if c.f 0 0 0 = 1 then s.fabElogClr else s
  let s := if c.f 0 1 1 = 1 then s.fabDlogClr else s
  (if c.f 0 2 2 = 1 then s.fabCntClr else s).done c []

def execFabWindow (seq : Nat) (_env : Env) (s : State) : Out := .next (s.runCmd 0x0500 seq opFabWindow)
def execFabLogread (seq : Nat) (_env : Env) (s : State) : Out := .next (s.runCmd 0x0501 seq opFabLogread)
def execFabLogclr (seq : Nat) (_env : Env) (s : State) : Out := .next (s.runCmd 0x0502 seq opFabLogclr)

end Sys2Proof.Machine
end

