-- ==== Sys2Proof/Machine/HostPcie.lean ====
section
/-! DEFINITION. Requests of the host interfaces to the local map, and the PCIe endpoint: memory requests, AtomicOps, Bus Master Enable, MSI-X masks, the
link and the loss of a function (R447–R452, R461, R462). -/
namespace Sys2Proof.Machine
open Sys2Proof

def State.setHost (s : State) (f : HostSt → HostSt) : State := { s with host := f s.host }

/-- The accesses of `n` bytes from `a` upward, by words in ascending address order; a partial word at either end is a narrower access (R449). -/
def hostSegs (a n : Nat) : List (Nat × Nat) :=
  (List.range ((a % 4 + n + 3) / 4)).map (fun i =>
    let w := wordAddr a + 4 * i
    (max a w, min (a + n) (w + 4) - max a w))

/-- The words of write data for those accesses, each with its bytes at the low end. -/
def segWords (segs : List (Nat × Nat)) (bs : List Byte) : List Word :=
  (segs.foldl (fun (r : List Word × List Byte) x => (r.1 ++ [BitVec.ofNat 32 (leNat (r.2.take x.2))], r.2.drop x.2)) ([], bs)).1

/-- An aperture access of a host interface (R170, R190). -/
def hostAcc (id : Nat) (k : AccKind) (a n : Nat) (v : Word) (ret : Ret) : FabAcc :=
  { ident := id, kind := k, addr := wordAddr a, bytes := 4, fbe := (2 ^ n - 1) * 2 ^ (a % 4), lbe := 0, data := [v <<< (8 * (a % 4))], ret := ret }

/-- Is the identity that of a fenced PCIe function (R462)? -/
def State.idFenced (s : State) (id : Nat) : Bool := decide (id = 1 ∨ id = 2) && s.fenced (fnOf id)

/-- A request of an interface is done (R449, R450, R455–R458). -/
def State.hostEnd (s : State) (r : HostReq) : State :=
  if r.kind = 1 then (if r.ident = 3 then s.setHost (fun h => { h with qbusy := s.qspiLeft }) else s)
  else if r.data.isEmpty then s
  else if r.ident = 4 then
    (s.setHost (fun h => { h with rdHigh := (wAt r.data 0).toNat / 65536 })).emit (.answer 4 [wAt r.data 0 &&& 0xFFFF#32] false)
  else if r.ident = 3 then s.emit (.answer 3 r.data false)
  else s.emit (.answer r.ident (if r.bad then r.data.map (fun _ => 0xFFFFFFFF#32) else r.data) r.bad)

/-- A request that has to wait for a memory (R405, R472). -/
def State.hostPend (s : State) (r : HostReq) : State := s.setHost (fun h => { h with pend := h.pend ++ [r] })

/-- An atomic operation of an interface on house memory (R408, R450). -/
def State.hostAtomic (s : State) (r : HostReq) (a : Nat) : State :=
  let v := wAt r.data 0
  match s.atomic r.ident a (fun old => if r.kind = 2 then old + v else v) with
  | (.ok old, s) => s.hostEnd { r with todo := [], data := [old] }
  | (.bad, s) => s.hostEnd { r with todo := [], data := [0xFFFFFFFF#32], bad := true }
  | (.wait, s) => s.hostPend r
  | (.none, s) => s.hostEnd { r with todo := [], data := [0] }

/-- One word read of a request: a word, with whether it was uncorrectable; none where it went to the fabric or has to wait. -/
inductive HostRd where
  | word (v : Word) (bad : Bool)
  | sent
  | wait
  deriving DecidableEq, Repr
/-- What the boot ROM answers without firmware: zero, but for SYS_ID and SYS_BOOT (R479). -/
def State.romWord (s : State) (a : Nat) : Word :=
  let b := if a ≥ 0x04800000 then lessMul (wordAddr a) 0x00800000 1 else wordAddr a
  if b = F.SYS_ID_code.addr ∨ b = F.SYS_BOOT_slot.addr then s.reg b else 0#32
/-- Does the boot ROM answer the interface: PCIe or QSPI, without firmware (R479)? -/
def State.romAnswers (s : State) (id : Nat) : Bool := s.noFw && decide (1 ≤ id ∧ id ≤ 3)
def State.hostRead (s : State) (id a n : Nat) : HostRd × State :=
  if s.romAnswers id then (.word (s.romWord a) false, s)
  else if area a = .aperture then
    if s.idFenced id then (.word 0xFFFFFFFF#32 false, s.inc F.HOST_CNT_FENCEREJ) else (.sent, s.fabIssue (hostAcc id .read a n 0 (.host id)))
  else match (if n = 4 then s.locRead id a else s.locNarrowRead id a n) with
    | (.ok v, s) => (.word (v <<< (8 * (a % 4))) false, s)
    | (.bad, s) => (.word 0xFFFFFFFF#32 true, s)
    | (.wait, s) => (.wait, s)
    | (.none, s) => (.word 0 false, s)

/-- One word write of a request: does it have to wait? -/
def State.hostWrite (s : State) (id a n : Nat) (v : Word) : Bool × State :=
  if s.romAnswers id then (false, s)
  else if area a = .aperture then
    if s.idFenced id then (false, s.inc F.HOST_CNT_FENCEREJ)
    else
      let acc := hostAcc id .write a n v .drop
      (false, s.fabIssue (if s.fabPosted acc then acc else { acc with ret := .host id }))
  else match (if n = 4 then s.locWrite id a v else s.locNarrowWrite id a n v.toNat) with
    | (.wait, s) => (true, s)
    | (_, s) => (false, s)

/-- Carry out a read or a write in ascending address order, until it is done or has to wait. -/
def State.hostReads (s : State) (id : Nat) (got : List Word) (bad : Bool) : List (Nat × Nat) → State
  | [] => s.hostEnd ⟨id, 0, [], got, bad⟩
  | (a, n) :: t =>
    match s.hostRead id a n with
    | (.word v b, s) => s.hostReads id (got ++ [v]) (bad || b) t
    | (.sent, s) => s.hostReads id got bad t
    | (.wait, s) => s.hostPend ⟨id, 0, (a, n) :: t, got, bad⟩
def State.hostWrites (s : State) (id : Nat) (ds : List Word) : List (Nat × Nat) → State
  | [] => s.hostEnd ⟨id, 1, [], [], false⟩
  | (a, n) :: t =>
    match s.hostWrite id a n (wAt ds 0) with
    | (false, s) => s.hostWrites id ds.tail t
    | (true, s) => s.hostPend ⟨id, 1, (a, n) :: t, ds, false⟩

/-- Carry out a request, after those of its interface that already wait. -/
def State.hostRun (s : State) (r : HostReq) : State :=
  if s.host.pend.any (fun x => x.ident = r.ident) then s.hostPend r
  else match r.kind with
    | 0 => s.hostReads r.ident r.data r.bad r.todo
    | 1 => s.hostWrites r.ident r.data r.todo
    | _ => s.hostAtomic r (r.todo.headD (0, 4)).1

/-- A memory has woken: the requests that waited go on, in order (R405, R472). -/
def State.hostResume (s : State) : State := (s.setHost (fun h => { h with pend := [] })).each s.host.pend (fun r s => s.hostRun r)

/-- Does the PCIe endpoint take requests (R446, R447)? -/
def State.pcieUp (s : State) : Bool := s.alive && s.on F.HOST_CFG_pcien && s.on F.HOST_STAT_link

/-- PCIE_MEMORY_READ: `n` bytes at offset `x` of BAR0 of function `fn` (R449). -/
def State.pcieRead (s : State) (fn x n : Nat) : State :=
  if s.pcieUp && decide (1 ≤ n ∧ n ≤ 4096 ∧ x + n ≤ 0x20000000) then s.hostRun ⟨1 + fn, 0, hostSegs x n, [], false⟩ else s
def execPcieMemoryRead (fn : Fin 2) (x : Fin 0x20000000) (n : Fin 4097) (s : State) : Out := .next (s.pcieRead fn x n)

/-- PCIE_MEMORY_WRITE: at most 256 bytes at offset `x` (R449). -/
def State.pcieWrite (s : State) (fn x : Nat) (bs : List Byte) : State :=
  let n := bs.length
  if s.pcieUp && decide (1 ≤ n ∧ n ≤ 256 ∧ x + n ≤ 0x20000000) then s.hostRun ⟨1 + fn, 1, hostSegs x n, segWords (hostSegs x n) bs, false⟩ else s
def execPcieMemoryWrite (fn : Fin 2) (x : Fin 0x20000000) (bs : List Byte) (s : State) : Out := .next (s.pcieWrite fn x bs)

/-- A request that completes as Unsupported Request, or as Completer Abort (R449, R450). -/
def State.pcieReject (s : State) (fn : Nat) (abort : Bool) : State := (s.inc F.HOST_CNT_UR).emit (.reject (1 + fn) abort)

/-- PCIE_ATOMICOP: kind 0 FetchAdd, 1 Swap, 2 CAS; `wide`: a 64-bit operation (R450). -/
def State.pcieAtomic (s : State) (fn x kind : Nat) (wide : Bool) (v : Word) : State :=
  if !s.pcieUp then s
  else if wide || decide (kind = 2) then s.pcieReject fn false
  else if x % 4 ≠ 0 then s.pcieReject fn true
  else if s.noFw then s.emit (.answer (1 + fn) [0] false)
  else match area x with
    | .house => s.hostRun ⟨1 + fn, 2 + kind, [(x, 4)], [v], false⟩
    | .aperture =>
      if s.fenced fn then (s.inc F.HOST_CNT_FENCEREJ).emit (.answer (1 + fn) [0xFFFFFFFF#32] false)
      else s.fabIssue (hostAcc (1 + fn) (if kind = 0 then .add else .swap) x 4 v (.host (1 + fn)))
    | _ => s.pcieReject fn true
def execPcieAtomicop (fn : Fin 2) (x : Fin 0x20000000) (kind : Fin 3) (wide : Bool) (v : Word) (s : State) : Out :=
  .next (s.pcieAtomic fn x kind wide v)

/-- PCIE_UNSUPPORTED_REQUEST (R449). -/
def State.pcieUnsupported (s : State) (fn : Nat) : State := if s.pcieUp then s.pcieReject fn false else s
def execPcieUnsupportedRequest (fn : Fin 2) (s : State) : Out := .next (s.pcieUnsupported fn)

/-- Send the messages of a list that wait: those still masked stay pending (R451, R452). -/
def State.msixAll (s : State) (fn : Nat) (vs : List Nat) : State := s.each vs (fun v s => s.msix fn v)

/-- BUS_MASTER_ENABLE: a host write of the bit; set, it releases the writes and the messages that wait (R451). -/
def State.busMaster (s : State) (fn : Nat) (on_ : Bool) : State :=
  if !s.pcieUp then s
  else
    let s := s.wr (bitFld F.HOST_STAT_bme fn) (if on_ then 1 else 0)
    if !on_ then s
    else
      let ws := s.host.writes.filter (fun w => w.fn = fn)
      let vs := (s.fn fn).waiting
      let s := s.setHost (fun h => { h with writes := h.writes.filter (fun w => w.fn ≠ fn) })
      let s := s.each ws (fun w s => s.emit (.hostWrite w.fn w.addr w.data))
      ((s.setFn fn (fun f => { f with waiting := [] })).msixAll fn vs).each (List.range 8) (fun q s =>
        if s.hostQueue q && decide (s.owner q = 1 + fn) then s.drainAll q false else s)
def execBusMasterEnable (fn : Fin 2) (on_ : Bool) (s : State) : Out := .next (s.busMaster fn on_)

/-- MSIX_MASK_CHANGE: MSI-X Enable, the function mask and the vector masks as the host has written them; pending messages that are no longer masked go
out (R452). -/
def State.msixMasks (s : State) (fn : Nat) (en fmask : Bool) (mask : Nat) : State :=
  if !s.pcieUp then s
  else
    let s := s.setFn fn (fun f => { f with msixEn := en, fmask := fmask, vmask := ones 64 mask })
    if !en || fmask then s
    else
      let vs := (s.fn fn).pba.filter (fun v => !mask.testBit v)
      (s.setFn fn (fun f => { f with pba := f.pba.filter (fun v => mask.testBit v) })).msixAll fn vs
def execMsixMaskChange (fn : Fin 2) (en fmask : Bool) (mask : BitVec 64) (s : State) : Out := .next (s.msixMasks fn en fmask mask.toNat)

/-- PCIE_LINK_UP: training has ended within the committed limits (R447); `two`: two lanes. -/
def State.linkTrained (s : State) (gen : Nat) (two : Bool) : State :=
  if s.alive && s.on F.HOST_CFG_pcien && !s.on F.HOST_STAT_link && decide (1 ≤ gen ∧ gen ≤ s.rd F.HOST_CFG_maxgen) && (!two || s.on F.HOST_CFG_maxwidth) then
    ((((s.wr F.HOST_STAT_link 1).wr F.HOST_STAT_gen gen).wr F.HOST_STAT_width (if two then 2 else 1)).wr F.HOST_STAT_perst 0).event F.HOST_EVT_linkup
  else s
def execPcieLinkUp (gen : Fin 5) (two : Bool) (s : State) : Out := .next (s.linkTrained gen two)

/-- What the loss of one function does (R461). -/
def State.loseFn (s : State) (fn : Nat) : State :=
  let id := 1 + fn
  let s := (s.wr (if fn = 0 then F.HOST_FENCE_f0 else F.HOST_FENCE_f1) 1).event F.HOST_EVT_fence
  let s := (s.wr (bitFld F.HOST_STAT_bme fn) 0).setFn fn (fun _ => FnSt.init)
  let s := s.setHost (fun h => { h with writes := h.writes.filter (fun w => w.fn ≠ fn), pend := h.pend.filter (fun r => !(r.ident = id && r.kind ≠ 1)) })
  let s := s.setFab (fun f => { f with reqs := f.reqs.filter (fun a => a.ident ≠ id) })
  let s := s.each (List.range 8) (fun q s => if s.owner q = id then (s.wr (F.CMD_QSTAT_halted q) 1).drainAll q false else s)
  if s.rd F.SW_HOSTCFG_owner = id then
    (s.each (List.range 2) (fun i s => if s.hrHost i then s.wr (F.SW_HR2_en i) 0 else s)).setNet (fun x => { x with hdesc := [] })
  else s

/-- FUNCTION_LOSS: DL_Down loses both functions, a function-level reset its own (R461); `perst`: DL_Down by PCIE_PERST_N. -/
def State.fnLoss (s : State) (down perst : Bool) (fn : Nat) : State :=
  if !s.alive || !s.on F.HOST_STAT_link then s
  else if down then
    let s := (((s.wr F.HOST_STAT_link 0).wr F.HOST_STAT_gen 0).wr F.HOST_STAT_width 0).wr F.HOST_STAT_perst (if perst then 1 else 0)
    (((s.inc F.HOST_CNT_LINKDOWN).event F.HOST_EVT_linkdown).loseFn 0).loseFn 1
  else (s.event F.HOST_EVT_flr).loseFn fn
def execFunctionLoss (down perst : Bool) (fn : Fin 2) (s : State) : Out := .next (s.fnLoss down perst fn)

end Sys2Proof.Machine
end

