-- ==== Sys2Proof/Machine/HostBus.lean ====
section
/-! DEFINITION. The QSPI target (R454–R456), the parallel bus (R457, R458) and the hot-swap controller (R464). -/
namespace Sys2Proof.Machine
open Sys2Proof

/-- Has an interface an access outstanding that holds its bus (R190, R459)? -/
def State.busHeld (s : State) (id : Nat) : Bool :=
  let f := fun (a : FabAcc) => decide (a.ret = .host id) && (decide (id = 4) || decide (a.kind ≠ .write))
  s.fab.reqs.any f || s.fab.tags.any (fun t => t.any (fun e => f e.acc)) || s.host.pend.any (fun r => decide (r.ident = id) && (decide (id = 4) || decide (r.kind ≠ 1)))

def State.qspiUp (s : State) : Bool := s.alive && s.on F.HOST_CFG_qspien && !s.busHeld 3
/-- A read or write instruction; while busy it is ignored and counted (R456). -/
def State.qspiOp (s : State) (f : State → State) : State :=
  if !s.qspiUp then s
  else if s.host.qbusy then (s.event F.HOST_EVT_qspiovr).inc F.HOST_CNT_QSPIOVR
  else f s

/-- Read of n + 1 words from word address `w` (R454, R455). -/
def State.qspiRead (s : State) (w n : Nat) : State := s.hostRun ⟨3, 0, (List.range (n + 1)).map (fun i => (4 * (w + i) % 2 ^ 32, 4)), [], false⟩
/-- Write of n + 1 words, carried out after the last data byte; a transaction that ends before it writes nothing (R456). -/
def State.qspiWrite (s : State) (w n : Nat) (ds : List Word) : State :=
  if ds.length < n + 1 then s
  else s.hostRun ⟨3, 1, (List.range (n + 1)).map (fun i => (4 * (w + i) % 2 ^ 32, 4)), ds.take (n + 1), false⟩

def execQspiRead (w : Fin 0x40000000) (n : Fin 64) (s : State) : Out := .next (s.qspiOp (fun s => s.qspiRead w n))
def execQspiQuadRead (w : Fin 0x40000000) (n : Fin 64) (s : State) : Out := .next (s.qspiOp (fun s => s.qspiRead w n))
def execQspiWrite (w : Fin 0x40000000) (n : Fin 64) (ds : List Word) (s : State) : Out := .next (s.qspiOp (fun s => s.qspiWrite w n ds))
def execQspiQuadWrite (w : Fin 0x40000000) (n : Fin 64) (ds : List Word) (s : State) : Out := .next (s.qspiOp (fun s => s.qspiWrite w n ds))

/-- The status byte; reading it clears err (R456). -/
def State.qspiStatus (s : State) : State :=
  if !s.qspiUp then s
  else
    let v := (if s.host.qbusy then 1 else 0) + (if s.host.qerr then 2 else 0) + (if s.irqPin then 4 else 0)
    (s.setHost (fun h => { h with qerr := false })).emit (.answer 3 [BitVec.ofNat 32 v] false)
def execQspiStatus (s : State) : Out := .next s.qspiStatus

/-- An unknown instruction is ignored and counted (R454). -/
def State.qspiUnknown (s : State) (code : BitVec 8) : State :=
  if s.qspiUp && !([0x0B#8, 0xEB#8, 0x02#8, 0x38#8, 0x05#8].contains code) then s.inc F.HOST_CNT_QSPIBAD else s
def execQspiUnknownInstruction (code : BitVec 8) (s : State) : Out := .next (s.qspiUnknown code)

def State.parOp (s : State) (f : State → State) : State := if s.alive && s.on F.HOST_CFG_paren && !s.busHeld 4 then f s else s

/-- A write of a pointer half; it empties a full write latch (R457, R458). -/
def State.parPtr (s : State) (hi : Bool) (v : BitVec 16) : State :=
  let s := if s.host.latch.isSome then s.inc F.HOST_CNT_PARDISC else s
  let n := v.toNat
  s.setHost (fun h => { h with latch := none, ptr := if hi then n * 65536 + h.ptr % 65536 else h.ptr / 65536 * 65536 + n / 4 * 4 })
def execParPointerWrite (hi : Bool) (v : BitVec 16) (s : State) : Out := .next (s.parOp (fun s => s.parPtr hi v))
def execParControlWrite (v : BitVec 16) (s : State) : Out := .next (s.parOp (fun s => s.setHost (fun h => { h with autoinc := v.getLsbD 0 })))

/-- The status half-word; reading it clears err (R457). Busy is 0: an access in progress holds the bus. -/
def State.parStatus (s : State) : State :=
  let v := (if s.host.perr then 2 else 0) + (if s.irqPin then 4 else 0) + (if s.host.latch.isSome then 8 else 0)
  (s.setHost (fun h => { h with perr := false })).emit (.answer 4 [BitVec.ofNat 32 v] false)
def execParStatusRead (s : State) : Out := .next (s.parOp State.parStatus)

/-- The word read at the pointer (R458). -/
def execParDataLowRead (s : State) : Out := .next (s.parOp (fun s => s.hostRun ⟨4, 0, [(s.host.ptr, 4)], [], false⟩))
/-- Autoincrement, after a data-high access (R458). -/
def State.parStep (s : State) : State := s.setHost (fun h => if h.autoinc then { h with ptr := (h.ptr + 4) % 2 ^ 32 } else h)
def State.parHighRead (s : State) : State := (s.emit (.answer 4 [BitVec.ofNat 32 s.host.rdHigh] false)).parStep
def execParDataHighRead (s : State) : Out := .next (s.parOp State.parHighRead)
def execParDataLowWrite (v : BitVec 16) (s : State) : Out := .next (s.parOp (fun s => s.setHost (fun h => { h with latch := some v.toNat })))
/-- The word write of both halves at the pointer; with the latch empty nothing is written (R458). -/
def State.parHighWrite (s : State) (v : BitVec 16) : State :=
  match s.host.latch with
  | none => (s.inc F.HOST_CNT_PARDISC).parStep
  | some lo =>
    let s := s.setHost (fun h => { h with latch := none })
    (s.hostRun ⟨4, 1, [(s.host.ptr, 4)], [BitVec.ofNat 32 (v.toNat * 65536 + lo)], false⟩).parStep
def execParDataHighWrite (v : BitVec 16) (s : State) : Out := .next (s.parOp (fun s => s.parHighWrite v))

/-- The gate reaches VIN + 10 V: the module regulators start (R464). -/
def State.hotGood (s : State) : State := if s.on F.HOST_HSSTAT_fault then s else s.wr F.HOST_HSSTAT_good 1
def execHotSwapGood (s : State) : Out := .next s.hotGood
/-- The gate is pulled low and the fault latches (R464). -/
def State.hotFault (s : State) : State := ((s.wr F.HOST_HSSTAT_good 0).wr F.HOST_HSSTAT_fault 1).event F.HOST_EVT_hsfault
def execHotSwapFault (s : State) : Out := .next s.hotFault

end Sys2Proof.Machine
end

