-- ==== Sys2Proof/Machine/LapEnd.lean ====
section
/-! DEFINITION. Events that reach many units at once: the lap boundary (R19, R71–R82, R87, R106, R212, R370, R388), split points (R81), triggers (R118,
R119), edges of capture and discrete inputs (R120, R315, R394), and delay requests while no lap runs (R99). -/
namespace Sys2Proof.Machine
open Sys2Proof

/-- The halves of the lap buffer and the receive maps exchange (R80). -/
def State.lapSwap (s : State) : State :=
  let m := s.ring.backMap
  let s := s.wr F.RING_LAPFRONT_front (1 - s.rd F.RING_LAPFRONT_front)
  let s := s.each (List.range 128) (fun i s =>
    s.wr (F.RING_RXMAP i) ((m.filter (fun k => k / 32 = i)).foldl (fun n k => n ||| 2 ^ (k % 32)) 0))
  (s.setRing (fun r => { r with backMap := [], published := 0, splitFired := 0 })).wr F.RING_LAPSTAT_pubdone 0

/-- Credit pools are refilled; an overdraw is deducted and what was left is lost (R77). -/
def State.creditRefill (s : State) : State :=
  let u := fun (i : Nat) => if i < 2 then s.rd (F.RING_CREDIT_req i) else s.rd (F.RING_CREDIT_resp (i - 2))
  s.setRing (fun r => { r with credit := (List.range 4).map (fun i => (64 * u i : Nat) + min 0 (r.credit.getD i 0)) })

/-- The split points committed take effect (R82). -/
def State.splitApply (s : State) : State :=
  if s.ring.splitReq then ((s.commitRegs splitRegs).setRing (fun r => { r with splitReq := false })).showRingPending else s

/-- Device entry 0x02_0000: ring ID, station address and the active schedule image (R482, notes/assumptions/30.md). -/
def State.ringEntry (s : State) : List Word :=
  [s.reg F.RING_ID_ring.addr, BitVec.ofNat 32 (s.rd F.RING_GEN_active)] ++ (List.range 82).map (fun i => s.reg (imageAddr (i + 1)))
/-- The command core brings the ring-role entry of the store up to date; where the record does not read back good, it stays due (R31, R482). -/
def State.ringRecord (s : State) (bad : Bool) : State :=
  if s.cmd.halted then s
  else match s.ring.recDue with
    | 0 => s
    | 1 =>
      match s.storeDevice 0x020000 s.ringEntry bad with
      | (true, s) => s.setRing (fun r => { r with recDue := 0 })
      | (false, s) => s
    | _ =>
      match s.storeDrop 0x020000 bad with
      | (true, s) => s.setRing (fun r => { r with recDue := 0 })
      | (false, s) => s

/-- What the ring unit, the heal unit and the marshal do at a boundary (R77, R80, R82, R87, R89, R127, R155). -/
def State.ringBoundary (s : State) : State :=
  let s := ((s.lapSwap).creditRefill).splitApply
  (((s.applyCommits).joinBoundary).healBoundary).mrshApply.mrshBoundary

/-- The boundary at a station that is a member of a running ring: `dep0`, `dep1` the departures of its lap frames and delay requests after the tick, in
subticks; `told` whether write outputs of a pair falls into the lap that begins (notes/assumptions/21.md). -/
def State.memberBoundary (s : State) (dep0 dep1 : Nat) (told0 told1 : Bool) : State :=
  let s := (s.timeBoundary).ringBoundary
  let s := if s.isStarter then s.sendLap dep0 dep1 else s
  let s := (s.delayRequest 0 (dep0 % 32)).delayRequest 1 (dep1 % 32)
  let s := (s.stageBoundary 0 s.lap told0).stageBoundary 1 s.lap told1
  s.motBoundary.netBoundary

/-- The boundary at a station that is joining: laps are counted from the lap frames it has seen, and the credit pools are refilled (R77, R87, R89). -/
def State.joiningBoundary (s : State) : State :=
  let s := (s.openLap.creditRefill).setRing (fun r => { r with silentLaps := r.silentLaps + 1 })
  s.applyCommits.joinBoundary
def State.joining (s : State) : Bool :=
  let j := s.rd F.RING_STATE_join
  decide (2 ≤ j ∧ j ≤ 4 ∧ s.time.nextLap ≠ 0)

/-- LAP_BOUNDARY: local time reaches the announced start of the next lap (R19); a follower that has seen no lap frame yet has no next lap. -/
def State.lapBoundary (s : State) (dep0 dep1 : Nat) (told0 told1 bad : Bool) : State :=
  if !s.alive then s
  else if s.lapsRun then (if s.time.nextLap ≠ 0 ∧ s.time.nextStart ≤ s.nowU then (s.memberBoundary dep0 dep1 told0 told1).ringRecord bad else s)
  else if s.joining then s.joiningBoundary.ringRecord bad
  else s
def execLapBoundary (dep0 dep1 : Fin 1024) (told0 told1 bad : Bool) (s : State) : Out := .next (s.lapBoundary dep0 dep1 told0 told1 bad)

/-- DELAY_REQUEST_INTERVAL: with no lap running, 10 µs after the last request (R99). -/
def State.delayInterval (s : State) (sub0 sub1 : Nat) : State :=
  if s.lapsRun || decide (s.raw < s.time.reqRaw + 10 * tickUs) then s
  else ((s.setTime (fun t => { t with reqRaw := s.raw })).delayRequest 0 sub0).delayRequest 1 sub1
def execDelayRequestInterval (sub0 sub1 : Fin 32) (s : State) : Out := .next (s.guardUp (fun s => s.delayInterval sub0 sub1))

/-- Is split point n due in this lap: enabled, in its lap, its offset reached and below the lap length, and not yet fired (R81)? -/
def State.splitDue (s : State) (n : Nat) : Bool :=
  s.lapsRun && s.on (F.RING_SPLIT0_en n) && decide (s.lap % 2 ^ s.rd (F.RING_SPLIT2_period n) = s.rd (F.RING_SPLIT2_phase n))
    && decide (s.rd (F.RING_SPLIT0_offset n) < s.rd F.RING_LAPCFG_len) && decide (s.time.lapStart + s.rd (F.RING_SPLIT0_offset n) * uTick ≤ s.nowU)
    && !s.ring.splitFired.testBit n

/-- Every action a split point selects (R81, R198). -/
def State.splitFire (s : State) (n : Nat) : State :=
  if !s.splitDue n then s
  else
    let t := s.rd (F.RING_SPLIT2_target n)
    let s := s.setRing (fun r => { r with splitFired := r.splitFired ||| 2 ^ n })
    let s := s.handSync (s.rd (F.RING_SPLIT1_hands n))
    let s := s.motFire 1 n (s.rd (F.RING_SPLIT2_motion n))
    let s := if s.on (F.RING_SPLIT2_irq n) then s.msix (s.rd F.HOST_CFG_splitfn) t else s
    let s := if s.on (F.RING_SPLIT2_callev n) then s.callEvent t else s
    s.sideBand 6 n 0
def execSplitPointFire (n : Fin 16) (s : State) : Out := .next (s.guardUp (fun s => s.splitFire n))

/-- TRIGEVk: stagehands, engines, stage pairs, the gate and queued moves (R118, R198, R263, R274, R297, R381). -/
def State.trigEvent (s : State) (k : Nat) : State :=
  let s := s.handTrig k
  let s := s.each (List.range 16) (fun n s => s.engEvent n (24 + k))
  let s := (s.pairEvent 0 k).pairEvent 1 k
  (s.sideBand 5 k 0).motFire 2 k 255

/-- The pin of a trigger driven active or back to its inactive level (R118). -/
def State.trigDrive (s : State) (n : Nat) (on_ : Bool) : State :=
  let s := s.setTrig n (fun t => { t with active := on_ })
  s.emit (.pin 0 n (if s.trigPin n then 1 else 0))

/-- What follows an occurrence: none left, or the first future one; late where a step has passed it (R119). -/
def State.trigNext (s : State) (n : Nat) (t : Int) : State :=
  let now := s.nowU
  let s := if s.on (F.TIME_TRIG0_pin n) then s.trigDrive n true else s
  let s := if now - t ≥ 2 * uTick then s.wr (F.TIME_TRIG0_late n) 1 else s
  s.setTrig n (fun x => match x.left with
    | some 1 => { x with next := none, left := none }
    | l => { x with next := some (nextOcc t (s.trigPeriod n) now), left := l.map (fun k => k - 1) })

/-- TRIGGER_FIRE: the station's time has reached the occurrence (R118, R119). -/
def State.trigFire (s : State) (n : Nat) : State :=
  match (s.time.trigs.getD n TrigSt.init).next with
  | none => s
  | some t => if t ≤ s.nowU then (s.trigNext n t).trigEvent n else s
def execTriggerFire (n : Fin 8) (s : State) : Out := .next (s.guardUp (fun s => s.trigFire n))

/-- TRIGGER_PULSE_END: the width has elapsed (R118). -/
def State.trigEnd (s : State) (n : Nat) : State := if (s.time.trigs.getD n TrigSt.init).active then s.trigDrive n false else s
def execTriggerPulseEnd (n : Fin 8) (s : State) : Out := .next (s.guardUp (fun s => s.trigEnd n))

/-- CAPTURE_EDGE: the pin's level, the capture queue, and a latch that waits for the edge (R120, R394). -/
def State.capEdge (s : State) (n : Nat) (rising : Bool) : State :=
  let s := s.setField (fun x => { x with capPins := updAt x.capPins n (fun _ => rising) })
  (s.captureEdge n rising).motEdge 1 n rising s.raw
def execCaptureEdge (n : Fin 8) (rising : Bool) (s : State) : Out := .next (s.guardUp (fun s => s.capEdge n rising))

/-- FILTERED_EDGE: the filter of a discrete input passes a new level; a latch that waits for the edge takes it (R315, R394). -/
def State.filtEdge (s : State) (n : Nat) (b : Bool) : State :=
  let t := s.filteredEdge n b
  if t.on (dioFilt n) = s.on (dioFilt n) then t else t.motEdge 0 n b (t.dioEdgeRaw n)
def execFilteredEdge (n : Fin 64) (b : Bool) (s : State) : Out := .next (s.guardUp (fun s => s.filtEdge n b))

end Sys2Proof.Machine
end

