-- ==== Sys2Proof/Machine/Power.lean ====
section
/-! DEFINITION. Power and clocks (chapter 18): the power-fail warning and hold-up (R469), power domains (R470–R472), the clock, rail and temperature
monitors (R474, R485, R486), and the PWR commands (R483). -/
namespace Sys2Proof.Machine
open Sys2Proof

def State.setPower (s : State) (f : PowerSt → PowerSt) : State := { s with power := f s.power }

/-- The power-fail warning and the actions PWR_HOLDUP selects (R469). -/
def State.pfWarn (s : State) : State :=
  let s := ((s.setPower (fun p => { p with low := true })).wr F.PWR_STAT_pfw 1).event F.PWR_EVT_pfw
  let s := { s with cmd := { s.cmd with accStop := s.cmd.accStop || s.on F.PWR_HOLDUP_stopacc, recoverRaw := none } }
  if s.on F.PWR_HOLDUP_gate then s.trip 6 else s
def execPowerFailWarning (s : State) : Out := .next (s.guardUp (fun s => if s.power.low then s else s.pfWarn))

/-- VIN above the turn-on threshold again: consumption resumes 10 ms later (R469). -/
def State.vinBack (s : State) : State :=
  let s := ((s.setPower (fun p => { p with low := false })).wr F.PWR_STAT_pfw 0).event F.PWR_EVT_vinrec
  if s.cmd.accStop then { s with cmd := { s.cmd with recoverRaw := some s.raw } } else s
def execVinRecovery (s : State) : Out := .next (s.guardUp (fun s => if s.power.low then s.vinBack else s))

def State.resumeAcc (s : State) : State :=
  match s.cmd.recoverRaw with
  | some t => if s.raw ≥ t + 10 * tickMs then { s with cmd := { s.cmd with accStop := false, recoverRaw := none } } else s
  | none => s
def execConsumptionResume (s : State) : Out := .next (s.guardUp State.resumeAcc)

/-- The units of a quad or octet domain, by code (R470). -/
def domUnits (code : Nat) : List Nat :=
  if code < 0x2C then (List.range 4).map (fun i => 4 * (code - 0x20) + i) else (List.range 8).map (fun i => 64 + 8 * (code - 0x30) + i)

/-- Does PWR.DOMAIN refuse the change of a domain to state `st` (R471)? -/
def State.domRefused (s : State) (st code : Nat) : Bool :=
  if st = 0 then false
  else if code < 0x10 then decide (st = 2 ∧ (s.engState code = 1 ∨ s.engState code = 2))
  else if code < 0x12 then decide (s.pst (code - 0x10) ≠ pOFF ∧ s.pst (code - 0x10) ≠ pSTOP)
  else if code < 0x38 then (domUnits code).any s.windowOpen
  else s.on (F.DRV_CTL_en (code - 0x38))

/-- An engine domain goes OFF: its memory is lost and it is OFF (R470). -/
def State.engGone (s : State) (n : Nat) : State :=
  ((s.zeroMem (engBase n) 0x20000).setEng n (fun x => { x with parity := [] })).wr (F.ENG_STATE_state n) 0

/-- A stage pair domain goes OFF: its TCMs are lost and the pair is OFF (R217, R470). -/
def State.pairGone (s : State) (p : Nat) : State :=
  let a := 0x01400000 + p * 0x80000
  let s := s.zeroMem a 0x80000
  let inT := fun (x : Nat) => decide (a ≤ x ∧ x < a + 0x80000)
  let m := s.memu
  let m' := { m with flips := m.flips.filter (fun e => !inT e.1), cntd := m.cntd.filter (fun x => !inT x), wbq := m.wbq.filter (fun e => !inT e.1) }
  let s := ({ s with memu := m' }).setPair p (fun x => { x with sect := none, armed := none, verified := none })
  ((s.wr (F.STG_STATE_armed p) 0).setPst p pOFF).showOwn

/-- A domain enters RETENTION or OFF (R470). -/
def State.domDown (s : State) (st code : Nat) : State :=
  let was := s.domState code
  let s := s.setDom code st
  if code < 0x10 then
    let s := if was = 0 then s.setEng code (fun x => { x with wdRaw := s.raw - x.wdRaw }) else s
    if st = 2 then s.engGone code else s
  else if code < 0x12 then (if st = 2 then s.pairGone (code - 0x10) else s)
  else if code < 0x38 then
    s.each (domUnits code) (fun u s => (if st = 2 then s.setCal u (fun c => { c with oper := [] }) else s).calNone u)
  else
    let s := s.drvOff (code - 0x38)
    if st = 2 then (s.setReg (F.DRV_MEAS_r (code - 0x38)).addr 0).setReg (F.DRV_COILT_rise (code - 0x38)).addr 0 else s

/-- PWR.DOMAIN puts one domain into a state; a wake takes its time (R470, R472). -/
def State.domTo (s : State) (st code : Nat) : State :=
  if st = 0 then (if s.domState code = 0 then s else s.setDom code 3) else if s.domState code = st then s else s.domDown st code

/-- The wake of a domain ends (R439, R472): a watchdog goes on, lines ask for a pass (R325), and accesses that waited are made. -/
def State.domUp (s : State) (code : Nat) : State :=
  if s.domState code ≠ 3 then s
  else
    let s := s.wakeDom code
    let s := if code < 0x10 then s.setEng code (fun x => { x with wdRaw := s.raw - x.wdRaw })
      else if 0x20 ≤ code ∧ code < 0x38 then s.each (domUnits code) (fun u s => (s.passRequest u).showUnit u)
      else s
    s.hostResume
def execDomainWake (code : Fin 64) (s : State) : Out := .next (s.guardUp (fun s => s.domUp code))

/-- Every word of a bank in INIT has been written zero (R405); the zeros stand since MEM.POWER. -/
def State.bankInit (s : State) (k : Nat) : State := if s.bankState k = 3 then (s.setBank k 0).hostResume else s
def execBankInitDone (k : Fin 64) (s : State) : Out := .next (s.guardUp (fun s => s.bankInit k))

/-- The domains that PWR.DOMAIN names (R483). -/
def domNamed (c : CmdRec) : List Nat :=
  ones 16 (c.f 1 15 0) ++ (ones 2 (c.f 2 1 0)).map (· + 0x10) ++ (ones 12 (c.f 2 27 16)).map (· + 0x20)
    ++ (ones 8 (c.f 3 7 0)).map (· + 0x30) ++ (ones 8 (c.f 3 15 8)).map (· + 0x38)

/-- PWR.DOMAIN: all or none (R471, R483). -/
def opPwrDomain (c : CmdRec) (s : State) : State :=
  let st := c.f 0 1 0
  let l := domNamed c
  if st = 3 then s.badEnc c
  else if s.isC && decide (c.f 3 15 8 ≠ 0) then s.fail c 0x0204 []
  else if l.any (s.domRefused st) then s.fail c 0x0200 []
  else (s.each l (fun d s => s.domTo st d)).done c [BitVec.ofNat 32 (l.filter (fun d => s.domState d ≠ st)).length]

def opPwrHoldup (c : CmdRec) (s : State) : State := (s.putCfg F.PWR_HOLDUP_gate.addr (c.pw 0)).done c []

/-- The highest of the temperatures (R483). -/
def State.topTemp (s : State) : Int := (List.range 6).foldl (fun m k => max m (s.rdI (F.PWR_TEMP k))) (s.rdI (F.PWR_TEMP 0))

/-- PWR.STATUS; the rails are measured (notes/assumptions/5.md). -/
def opPwrStatus (c : CmdRec) (s : State) : State :=
  let vin := s.freeW &&& 0xFFFF#32
  let s := s.useFree
  let vf := s.freeW &&& 0xFFFF#32
  s.useFree.done c [s.reg F.PWR_STAT_pfw.addr, vin, vf, BitVec.ofNat 32 (wrapI 16 s.topTemp)]

def execPwrDomain (seq : Nat) (_env : Env) (s : State) : Out := .next (s.runCmd 0x0F03 seq opPwrDomain)
def execPwrHoldup (seq : Nat) (_env : Env) (s : State) : Out := .next (s.runCmd 0x0F04 seq opPwrHoldup)
def execPwrStatus (seq : Nat) (_env : Env) (s : State) : Out := .next (s.runCmd 0x0F05 seq opPwrStatus)

/-- The cause clock is over once no clock and no reference is flagged (R474, R490). -/
def State.clockOver (s : State) : State := if s.on F.CLK_STAT_mon || s.on F.CLK_STAT_refloss then s else s.uncause 3

/-- A monitor of the clocks flags: bit `i` of CLK_STAT.mon, or 8 for the reference (R474). -/
def State.clockFlag (s : State) (i : Nat) : State :=
  let s := s.setPower (fun p => { p with goodWin := updAt p.goodWin i (fun _ => 0) })
  let s := if i < 8 then (s.wr (bitFld F.CLK_STAT_mon i) 1).event (bitFld F.CLK_EVT_mon i) else (s.wr F.CLK_STAT_refloss 1).event F.CLK_EVT_refloss
  s.trip 3

/-- A good window: the eighth in a row clears the bit (R474). -/
def State.clockGood (s : State) (i : Nat) : State :=
  let s := s.setPower (fun p => { p with goodWin := updAt p.goodWin i (· + 1) })
  let s := if s.power.goodWin.getD i 0 ≥ 8 then s.wr (if i < 8 then bitFld F.CLK_STAT_mon i else F.CLK_STAT_refloss) 0 else s
  s.clockOver

/-- CLOCK_MONITOR_WINDOW: a 10 µs window of clock `i` ends with a deviation in 0.01 % (R474); an injection has moved the limit (R497). -/
def State.clockWindow (s : State) (i : Nat) (dev : Int) : State :=
  let s := s.wrI (F.CLK_DEV i) dev
  if decide (dev.natAbs > 200) || s.power.moved.contains 5 then
    (s.setPower (fun p => { p with moved := p.moved.filter (· ≠ 5) })).clockFlag i
  else s.clockGood i
def execClockMonitorWindow (i : Fin 8) (dev : BitVec 16) (s : State) : Out := .next (s.guardUp (fun s => s.clockWindow i dev.toInt))

/-- REFERENCE_LOSS: the reference is off by more than 10 % or missing for 1 µs (`lost`), or a window of its monitor is good (R474). -/
def execReferenceLoss (lost : Bool) (s : State) : Out := .next (s.guardUp (fun s => if lost then s.clockFlag 8 else s.clockGood 8))

/-- RAIL_OUT_OF_WINDOW: rail `r` in the order of R486, VIO last, has been outside its window for 2 µs. -/
def State.railOut (s : State) (r mv : Nat) : State :=
  let s := s.setPower (fun p => { p with railsOut := r :: p.railsOut.filter (· ≠ r), moved := p.moved.filter (· ≠ 6) })
  let s := if r = 6 ∧ mv < 1500 then s.wr F.PWR_STAT_vioabs 1 else s
  s.trip 4
def execRailOutOfWindow (r : Fin 7) (mv : Fin 65536) (s : State) : Out := .next (s.guardUp (fun s => s.railOut r mv))

/-- The rail is back inside its window (R490). -/
def State.railIn (s : State) (r : Nat) : State :=
  let s := s.setPower (fun p => { p with railsOut := p.railsOut.filter (· ≠ r) })
  let s := if r = 6 then s.wr F.PWR_STAT_vioabs 0 else s
  if s.power.railsOut.isEmpty then s.uncause 4 else s
def execRailBackInWindow (r : Fin 7) (s : State) : Out := .next (s.guardUp (fun s => s.railIn r))

/-- TEMPERATURE_MONITOR: sensor `k` reads `t` in 0.1 °C (R485); an injection has moved the limit (R497). -/
def State.tempSample (s : State) (k : Nat) (t : Int) : State :=
  let s := s.wrI (F.PWR_TEMP k) t
  let s := if t > 1400 then s.event F.SAFE_EVT_twarn else s
  if decide (t > 1500) || s.power.moved.contains 7 then
    (s.setPower (fun p => { p with hot := k :: p.hot.filter (· ≠ k), moved := p.moved.filter (· ≠ 7) })).trip 5
  else
    let s := s.setPower (fun p => { p with hot := p.hot.filter (· ≠ k) })
    if s.power.hot.isEmpty then s.uncause 5 else s
def execTemperatureMonitor (k : Fin 6) (t : BitVec 16) (s : State) : Out := .next (s.guardUp (fun s => s.tempSample k t.toInt))

/-- PLL_LOCK: the core PLL locks and the units leave reset (R473). -/
def State.pllLock (s : State) : State :=
  if s.power.on && !s.power.pll then (s.setPower (fun p => { p with pll := true })).wr F.CLK_STAT_lock 1 else s
def execPllLock (s : State) : Out := .next s.pllLock

end Sys2Proof.Machine
end

