-- ==== Sys2Proof/Machine/Reset.lean ====
section
/-! DEFINITION. The resets (R468, R475, R476): what power-on, cold and warm reset keep and clear, and the undervoltage lockout. -/
namespace Sys2Proof.Machine
open Sys2Proof

/-- Registers loaded from the factory region: part code and station ID (notes/assumptions/10.md). -/
def State.factoryRegs (s : State) : State :=
  let s := s.wr F.SYS_ID_code (getF (s.wordAt 0x02E00110) 0 1)
  (s.setReg F.RING_SID_LO.addr (s.wordAt 0x02E00108)).setReg F.RING_SID_HI.addr (s.wordAt 0x02E0010C)

/-- Is a local address in MRAM, whose contents survive every reset and every loss of power (R419)? -/
def inMram (a : Nat) : Bool := decide (0x02000000 ≤ a ∧ a < 0x03000000)

/-- The station after power-on or cold reset, before its conditions outside are seen again (R475): MRAM with its codes, and the script directory held
in it, stay; every register has its Cold value; the model's own fields run on. -/
def State.coldBase (s : State) (cause : Nat) : State :=
  let m := MemSt.init
  let x : State := { State.reset with mem := s.mem.filter (fun c => inMram c.1), memu := { m with flips := s.memu.flips.filter (fun e => inMram e.1) } }
  let x : State := { x with lib := s.lib, out := s.out, free := s.free, pending := s.pending }
  let x : State := { x with power := { PowerSt.init with starting := some cause } }
  (x.factoryRegs).wr F.SYS_RSTCAUSE_cause cause

/-- What a command abandoned from STARTED leaves in MRAM: STAGE.LOAD no valid image in its slot (R231), SYS.FWLOAD an invalid slot (R483). One that has
already failed has changed nothing. -/
def State.abandonLoad (s : State) (c : CmdRec) : State :=
  let hit := c.started && c.fin.all (fun r => decide (r.1 = 0))
  if hit && decide (c.opcode = 0x0600) then
    (if s.rd (F.STG_STATE_slot 0) = c.f 0 0 0 ∨ s.rd (F.STG_STATE_slot 1) = c.f 0 0 0 then s else s.putWord (slotBase (c.f 0 0 0)) 0)
  else if hit && decide (c.opcode = 0x0004) then s.putWord (fwBase (1 - s.rd F.SYS_BOOT_slot)) 0
  else s
def State.abandonLoads (s : State) : State := s.each s.cmd.cmds (fun c s => s.abandonLoad c)

/-- Levels and conditions outside the device, which a reset does not change (notes/assumptions/39.md). -/
def State.outside (s t : State) : State :=
  let s : State := { s with lines := s.lines.zipWith (fun x y => { x with rx := y.rx }) t.lines }
  let s : State := { s with field := { s.field with dios := s.field.dios.zipWith (fun x y => { x with pad := y.pad }) t.field.dios } }
  let s : State := { s with field := { s.field with capPins := t.field.capPins } }
  { s with power := { s.power with low := t.power.low, railsOut := t.power.railsOut, hot := t.power.hot } }

/-- The conditions still present are seen again: VFLD, VIO, the rails and temperatures, and the power-fail warning with its actions, which a reset leaves
in force (R317, R476, R485, R486). -/
def State.seeAgain (s t : State) : State :=
  let s := if t.on F.DIO_GSTAT_vfldlow then ((s.wr F.DIO_GSTAT_vfldlow 1).wr F.PWR_STAT_vfldlow 1).event F.PWR_EVT_vfldlow else s
  let s := if t.on F.PWR_STAT_vioabs then s.wr F.PWR_STAT_vioabs 1 else s
  let s := if s.power.railsOut.isEmpty then s else s.trip 4
  let s := if s.power.hot.isEmpty then s else s.trip 5
  if s.power.low then { s.pfWarn with cmd := { s.pfWarn.cmd with accStop := s.pfWarn.cmd.accStop || t.cmd.accStop } } else s

/-- Cold reset: the regulators run on and the hot-swap controller keeps its state, but for the fault latch under PORST_N (R464, R475). The slot that
SYS.FWSELECT named is still to be run (R479, notes/assumptions/31.md). -/
def State.coldReset (s : State) (cause : Nat) : State :=
  let x := (s.coldBase cause).outside s
  let x := (x.setReg F.HOST_HSSTAT_good.addr (s.reg F.HOST_HSSTAT_good.addr)).wr F.HOST_HSSTAT_vinma 0
  let x := if cause = 2 then x.wr F.HOST_HSSTAT_fault 0 else x
  let x := (x.wr F.SYS_BOOT_next (s.rd F.SYS_BOOT_next)).wr F.CLK_STAT_refcmos (s.rd F.CLK_STAT_refcmos)
  x.seeAgain s
def execColdReset (pin : Bool) (s : State) : Out :=
  .next (if s.power.on && (pin || s.cmd.resetReq = some 3) then s.abandonLoads.coldReset (if pin then 2 else 3) else s)

/-- POWER_ON_RESET: VIN first exceeds the turn-on threshold; `cmos` is the level of REF_SEL (R468, R473). -/
def execPowerOnReset (cmos : Bool) (s : State) : Out :=
  .next (if s.power.on then s else (s.coldBase 1).wr F.CLK_STAT_refcmos (if cmos then 1 else 0))

/-- UNDERVOLTAGE_LOCKOUT: every internal rail goes; nothing on the module runs, and HS_GATE is held low (R468). -/
def State.lockout (s : State) : State :=
  ((s.abandonLoads.setPower (fun p => { p with on := false, pll := false, low := false })).wr F.HOST_HSSTAT_good 0).emit (.pin 1 0 0)
def execUndervoltageLockout (s : State) : Out := .next (if s.power.on then s.lockout else s)

/-- The word a register holds after warm reset (R7). -/
def warmWord (a : Nat) (v : Word) : Word :=
  match findRow a with
  | none => v
  | some r => r.fields.foldl (fun x f => match f.warm with | .kept => x | .to n => setF x f.lo f.w n) v

/-- Every register field takes its Warm value, and no shadow stays (R7, R9). -/
def State.warmRegs (s : State) : State :=
  let l := s.regs.foldl (fun m e => sset (coldWord e.1) m e.1 (warmWord e.1 e.2)) []
  { s with regs := l, shadow := [] }

/-- A stage pair halts: the safe actions are applied, and the record of an unfinished cycle is discarded (R221). A complete record is applied by the
sequencer, which is kept (R219). -/
def State.warmPair (s : State) (p : Nat) : State :=
  let s := (s.safeActions p).journalApply p
  let s := (s.setProc p (fun x => { x with stall := .cycle, got := [] })).dropRets p
  s.setPair p (fun x => { x with want := none, step1 := false, free := false, wrDue := false, loading := none, restart := none, cycReq := false,
                                 rbuf := [], armed := none, verified := none, cue := none, ev := 0 })

/-- A DMA channel stops with cause 5 (R429). -/
def State.warmDma (s : State) (busy : List Nat) : State :=
  let f := fun (a : FabAcc) => match a.ret with
    | .dmaRead _ _ => { a with ret := .drop }
    | .dmaWrite _ => { a with ret := .drop }
    | _ => a
  let s := s.setFab (fun x => { x with reqs := x.reqs.map f, tags := x.tags.map (fun t => t.map (fun e => { e with acc := f e.acc })) })
  s.each busy (fun c s => ((s.wr (F.MEM_DMA2_err c) 1).wr (F.MEM_DMA2_cause c) 5).setDma c (fun _ => ⟨0, [], 0, false⟩))

/-- A profile generator stops issuing steps at once, keeps its position and goes to IDLE (R400). -/
def State.warmMot (s : State) (n : Nat) : State :=
  s.setMot n (fun x => { MotSt.init with vmax := x.vmax, hist := x.hist, stillRaw := s.raw })

/-- A bridge takes its safe-state reaction and clears en (R400). -/
def State.warmDrv (s : State) (n : Nat) : State :=
  let forced := s.rd (F.DRV_STAT_forced n)
  (((s.drvForce n).wr (F.DRV_STAT_forced n) forced).wr (F.DRV_CTL_en n) 0).setDrv n (fun x => { x with measuring := false, holding := false })

/-- What of the units goes before the registers take their Warm values. -/
def State.warmDown (s : State) : State :=
  let s := s.each (List.range 16) (fun n s => if s.engState n = 0 then s else s.engStop n 5 0)
  let s := s.each (List.range 32) (fun h s => (s.handOff h).handRestart h)
  let s := (s.warmPair 0).warmPair 1
  s.each (List.range 16) (fun w s => s.pfDrop w)

/-- The command core: every command is gone, to be abandoned at start-up (R51); pointers are zeroed, limits and enables kept (R59, R488). A core that a
lockstep mismatch had halted runs again (notes/assumptions/32.md). -/
def State.warmCore (s : State) : State :=
  let c := s.cmd
  let q := fun (x : QueueSt) => { x with order := [], unsig := 0, sig := false, sigFinal := false, epochWait := none }
  let s := if c.halted then s.uncause 2 else s
  { s with cmd := { c with cmds := [], queues := c.queues.map q, turn := 0, turns := 1, halted := false, resetReq := none, inject := [] } }

/-- The controllers and field units: CAN off and flushed (R351), LINE.CAL forgotten, the network engine's records and host rings as their registers. -/
def State.warmField (s : State) : State :=
  let s : State := { s with cans := s.cans.map (fun x => { CanSt.init with owner := x.owner }) }
  let s := s.setField (fun f => { f with waits := [] })
  let s := (s.setFab (fun f => { f with commitWait := [] })).setRing (fun r => { r with splitReq := false })
  let s := s.setNet (fun n => { n with macs := n.macs.map (fun m => { m with gpos := none, gdue := none, greq := false, pauseEnd := 0 }), hdesc := [] })
  let s := s.setGate (fun g => { g with inq := [], txs := [] })
  s.setMrsh (fun m => { m with wlog := [], commitReq := false, modeReq := none })

/-- Fields that show what lasts through the reset: lines and inputs, captures, tags, the cell pool, and the supply's conditions (notes/assumptions/33.md). -/
def State.warmShow (s t : State) : State :=
  let s := s.each (List.range 48) (fun n s => s.showLine n)
  let s := s.each (List.range 64) (fun n s => if s.rd (F.DIO_CFG_mode n) = 0 then s else s.wr (dioRaw n) (if (s.dio n).pad then 1 else 0))
  let s := s.setTime (fun x => { x with tsqs := List.replicate 6 [] })
  let s := s.each (List.range 6) (fun q s => s.showStamp q)
  let s := s.each (List.range 8) (fun n s => s.showCapture n)
  let s := ((s.showFab).showPool).showGate
  let s := if t.on F.DIO_GSTAT_vfldlow then (s.wr F.DIO_GSTAT_vfldlow 1).wr F.PWR_STAT_vfldlow 1 else s
  let s := if t.on F.PWR_STAT_vioabs then s.wr F.PWR_STAT_vioabs 1 else s
  if s.power.low then s.wr F.PWR_STAT_pfw 1 else s

/-- Warm reset (R475, R476): the start-up begins anew, with the steps of the reset whose start-up it interrupts. -/
def State.warmReset (s : State) (cause : Nat) : State :=
  let busy := (List.range 8).filter (fun c => s.on (F.MEM_DMA2_busy c))
  let t := ((s.abandonLoads.warmDown).warmRegs).warmCore
  let t := ((t.warmField).warmDma busy).each (List.range 16) (fun n s => s.wr (F.ENG_STATE_cause n) 5)
  let t := t.each (List.range 8) (fun n s => if s.isC then s.warmMot n else (s.warmMot n).warmDrv n)
  let t := (t.showOwn).warmShow s
  let t := t.setPower (fun p => { p with full := p.full && p.starting.isSome, starting := some cause, todo := [], cur := none, booted := false })
  t.wr F.SYS_RSTCAUSE_cause cause
def execWarmReset (s : State) : Out :=
  .next (match s.cmd.resetReq with
    | some 4 => if s.alive then s.warmReset 4 else s
    | some 5 => if s.alive then s.warmReset 5 else s
    | _ => s)

end Sys2Proof.Machine
end

