-- ==== Sys2Proof/Machine/StartUp.lean ====
section
/-! DEFINITION. Start-up (R481): the self-test (R495), the choice of firmware (R479), the scan of the prompt book (R46, R51), the stored remaps (R418), the
store (R425, R427), the ring role (R482), the stored commands, the stage pairs (R219, R221), and the end of start-up (R31, R59). -/
namespace Sys2Proof.Machine
open Sys2Proof

/-- Zero a range of memory and give every word of it valid check bits. -/
def State.clearMem (s : State) (a n : Nat) : State :=
  let s := s.zeroMem a n
  let out := fun (x : Nat) => !(decide (a ≤ x ∧ x < a + n))
  { s with memu := { s.memu with flips := s.memu.flips.filter (fun e => out e.1), cntd := s.memu.cntd.filter out } }

/-- The start-up self-test of a power-on or cold reset with its outcome, laid out as SAFE_BIST (R491, R495). A cause that is present when the gate becomes
ARMED trips it (R490). -/
def State.selfTest (s : State) (bist : Word) : State :=
  let s := ((s.clearMem 0 0x10000).clearMem 0x01400000 0x100000).clearMem 0x01800000 0x80000
  let s := s.setReg F.SAFE_BIST_pass.addr (bist &&& 0xFF01#32)
  if getF bist 0 1 = 1 then
    if s.rd F.SAFE_STATE_state = 0 then
      let s := ((s.uncause 9).wr F.SAFE_CAUSE (s.rd F.SAFE_CAUSE &&& 0x1FF)).wr F.SAFE_STATE_state 1
      (s.wr F.SAFE_CAUSE 0).each (ones 10 (s.rd F.SAFE_CAUSENOW)) (fun c s => s.trip c)
    else s
  else
    let s := s.event F.SAFE_EVT_bistfail
    if s.rd F.SAFE_STATE_state = 0 then s.wr F.SAFE_STATE_state 2 else s.trip 9

/-- The slot the boot ROM takes first (R479): the one SYS_BOOT.next names, or of the valid ones the newer, or A. -/
def State.bootChoice (s : State) : Option Nat :=
  if s.rd F.SYS_BOOT_next = 2 then some 0
  else if s.rd F.SYS_BOOT_next = 3 then some 1
  else match s.fwValid 0, s.fwValid 1 with
    | true, true => some (if newer (s.fwVersion 1) (s.fwVersion 0) then 1 else 0)
    | true, false => some 0
    | false, true => some 1
    | false, false => none

/-- Start firmware slot `k` (R479). -/
def State.bootRun (s : State) (k fallback : Nat) : State :=
  let s := ((s.wr F.SYS_BOOT_slot k).wr F.SYS_BOOT_fallback fallback).setReg F.SYS_FWVER.addr (s.fwVersion k)
  s.setPower (fun p => { p with booted := true, bootRaw := s.raw })

/-- The boot ROM selects, verifies and starts firmware; with no valid slot the command core does not start (R479). -/
def State.boot (s : State) : State :=
  let va := s.fwValid 0
  let vb := s.fwValid 1
  let s := (s.wr F.SYS_BOOT_valida (if va then 1 else 0)).wr F.SYS_BOOT_validb (if vb then 1 else 0)
  let s := (s.wr F.SYS_FWVERA (if va then (s.fwVersion 0).toNat else 0)).wr F.SYS_FWVERB (if vb then (s.fwVersion 1).toNat else 0)
  let c := s.bootChoice
  let s := s.wr F.SYS_BOOT_next 0
  let stop := (s.wr F.SYS_FWVER 0).setPower (fun p => { p with starting := none, full := false })
  match c with
  | none => stop
  | some k =>
    if s.fwValid k then s.bootRun k 0 else if s.fwValid (1 - k) then s.bootRun (1 - k) 1 else stop

/-- Positions of the prompt book. -/
def bookPlaces : List Nat := List.range 16384

/-- The highest sequence number of a valid entry (R46). -/
def State.bookTop (s : State) : Nat := bookPlaces.foldl (fun m i => if s.bookValid i then max m (s.bookSeq i) else m) 0

/-- Abandon the entry at a position that is ACCEPTED or STARTED (R47, R48, R51); after a power-on or cold reset its end time is unknown. -/
def State.bookAbandon (s : State) (cold : Bool) (i : Nat) : State :=
  let st := s.bookState i
  if s.bookValid i && (st = 1 || st = 2) then
    let acc := (s.bookW i 4).toNat + (s.bookW i 5).toNat * 2 ^ 32
    let d := if cold then 2 * 2 ^ 30 + 0x3FFFFFFF else bookDelta ((s.raw + 2 ^ 64 - acc) % 2 ^ 64)
    s.bookSet i 5 (if st = 1 then 0x0F10 else 0x0F11) d
  else s

/-- The prompt book at start-up (R46, R51): unreadable positions are rewritten, entries abandoned, and the restart entry made. -/
def State.bookStart (s : State) (cause : Nat) : State :=
  let top := s.bookTop
  let s := s.each (bookPlaces.filter (fun i => !s.bookReadable i)) (fun i s => s.putWords (bookAddr i) (List.replicate 8 0))
  let s := s.each bookPlaces (fun i s => s.bookAbandon (decide (cause ≤ 3)) i)
  { s with cmd := { s.cmd with book := top } }.bookInternal 0x0002 0 (BitVec.ofNat 32 cause)

/-- Select the active store bank and show what was found (R425). -/
def State.storeStart (s : State) : State :=
  let pick := s.storePick
  let s := s.each [0, 1] (fun b s => if s.storeValid b then s.storeShow b true (s.storeSeq b) else (s.storeShow b false 0).event F.STORE_EVT_invalid)
  match pick with
  | none => ((s.wr F.STORE_STAT_fresh 1).wr F.STORE_STAT_active 0).wr F.STORE_USED 0
  | some b => ((s.wr F.STORE_STAT_fresh 0).wr F.STORE_STAT_active b).wr F.STORE_USED (s.wordAt (storeBase b + 8)).toNat

/-- The data of a device entry. -/
def State.deviceData (s : State) (key : Nat) : Option (List Word) := (s.storeEnts.find? (fun e => e.kind = 3 && e.key = key)).map (fun e => e.data)

/-- After power-on and cold reset: the stored remaps and the last recorded queue epochs (R31, R418). -/
def State.deviceStart (s : State) : State :=
  let as := ((s.deviceData 0x010000).getD []).map (fun w => w.toNat % 2 ^ 22)
  let s := { s with memu := { s.memu with remapped := as } }.each as (fun a s => s.wr (sparesFld (bankOf a)) (s.rd (sparesFld (bankOf a)) + 1))
  s.each (List.range 8) (fun q s => match s.deviceData q with
    | some (e :: _) => s.setReg (F.CMD_QEPOCH q).addr e
    | _ => s)

/-- Write the register runs in ascending key (R427). -/
def State.runsStart (s : State) : State :=
  s.each (s.storeEnts.filter (fun e => e.kind = 0)) (fun e s =>
    s.each e.data.zipIdx (fun w s => (s.busWrite 0 (0x04000000 + e.key + 4 * w.2) w.1).2))

/-- A unit that start-up commits: its registers, its commit, and whether a commit of it is still to take effect (R427). -/
structure CommitUnit where
  regs : List Nat
  run : State → State
  waits : State → Bool

def unitsLow : List CommitUnit :=
  [⟨safeRegs, State.safeCommit, fun _ => false⟩]
    ++ (List.range 8).map (fun q => ⟨queueRegs q, fun s => s.queueCommit q, fun _ => false⟩)
    ++ (List.range 8).map (fun n => ⟨trigRegs n, fun s => s.trigCommit n, fun _ => false⟩)
    ++ [⟨[0x040A0010], State.ringCommit, fun _ => false⟩, ⟨splitRegs, State.splitCommit, fun s => s.ring.splitReq⟩,
        ⟨mrshRegs, State.mrshCommit, fun s => s.mrsh.commitReq⟩]
    ++ (List.range 16).map (fun w => ⟨winRegs w, fun s => s.winCommit w, fun s => s.fab.commitWait.contains w⟩)
    ++ [⟨swLimits, State.swCommit, fun _ => false⟩]
    ++ (List.range 4).flatMap (fun m => [⟨macRegs m, fun s => s.macCommit m, fun _ => false⟩, ⟨gateRegs m, fun s => s.gateCommit m, fun s => (s.mac m).greq⟩])

def unitsHigh : List CommitUnit :=
  (List.range 16).flatMap (fun n =>
      [⟨canRegs n, fun s => s.canCommit n none, fun s => (s.can n).commitReq⟩, ⟨canFlt n, fun s => s.canFltCommit n, fun _ => false⟩])
    ++ (List.range 48).map (fun n => ⟨[(F.LINE_MODE_mode n).addr], fun s => s.lineCommit n, fun _ => false⟩)
    ++ (List.range 8).map (fun k => ⟨(List.range 8).map (fun i => (F.DIO_CFG_mode (8 * k + i)).addr), fun s => s.dioCommit k, fun _ => false⟩)
    ++ (List.range 32).map (fun h => ⟨handRegs h, fun s => s.handCommit h, fun s => (s.hand h).commitReq⟩)
    ++ (List.range 2).map (fun p => ⟨cycRegs p, fun s => s.stgCommit p, fun s => (s.pair p).cycReq⟩)
    ++ (List.range 8).map (fun n => ⟨motRegs n, fun s => (s.motCommit n).2, fun _ => false⟩)
    ++ (List.range 8).map (fun b => ⟨drvRegs b, fun s => s.drvCommit b, fun _ => false⟩)
    ++ [⟨[0x04180000], State.hostCommit, fun _ => false⟩]

/-- Commit a unit that a run wrote; a commit that its checks refuse is journaled FAILED (R427, notes/assumptions/34.md). -/
def State.commitUnit (s : State) (u : CommitUnit) : State :=
  if s.anyShadow u.regs then
    let s := u.run s
    if s.anyShadow u.regs && !u.waits s then s.bookInternal 0x0100 0x0200 0 else s
  else s

/-- Restore the ring role of a founding member (R108, R111, R481, R482, notes/assumptions/30.md). -/
def State.ringStart (s : State) : State :=
  match s.deviceData 0x020000 with
  | none => s
  | some ws =>
    let s := (s.setReg F.RING_ID_ring.addr (wAt ws 0)).wr F.RING_GEN_active (nAt ws 1)
    let s := s.each (List.range 82) (fun i s => s.setReg (imageAddr (i + 1)) (wAt ws (i + 2)))
    let s := s.wr F.RING_HEALSTAT_odira (s.rd F.RING_HEALCFG_odir)
    let s := ((s.wr F.RING_CFG_een 1).wr F.RING_CFG_wen 1).ringCfgNew
    s.enterStart.bookInternal 0x0200 0 0

/-- Number of pairs and words of a journal slot, if its record checks good (R219). -/
def State.journalRecord (s : State) (p k : Nat) : Option (Word × List Word) :=
  let a := journalSlot p k
  let n := (s.wordAt a).toNat
  let ws := s.wordsAt a (2 + 2 * min n 512)
  if 1 ≤ n ∧ n ≤ 512 ∧ s.anyBad a (4 * (3 + 2 * n)) = false ∧ s.wordAt (a + 4 * (2 + 2 * n)) = crc32cWords ws then some (wAt ws 1, ws.drop 2) else none

/-- Pairs of offset and value, written to the retained variables (R219). -/
def State.journalPut (s : State) (p : Nat) : List Word → State
  | o :: v :: t => (s.putWord (retVars p + o.toNat) v).journalPut p t
  | _ => s

/-- Apply a record whose cycle number is newer than the header's (R219). -/
def State.journalTake (s : State) (p k : Nat) : State :=
  match s.journalRecord p k with
  | none => s
  | some (cyc, ws) => if newer cyc (s.wordAt (retBase p + 4)) then (s.journalPut p ws).putWord (retBase p + 4) cyc else s

/-- Replay the journal of a pair, the older record first (R219). -/
def State.journalStart (s : State) (p : Nat) : State :=
  let first := match s.journalRecord p 0, s.journalRecord p 1 with
    | some a, some b => if newer a.1 b.1 then 1 else 0
    | _, _ => 0
  (s.journalTake p first).journalTake p (1 - first)

/-- Steps 1 to 5, and the steps still to come (R481). -/
def State.startSteps (s : State) (cause : Nat) (bist : Word) : State :=
  let full := s.power.full
  let s := if full then s.selfTest bist else s
  let s := s.boot
  if !s.power.booted then s
  else
    let s := (s.bookStart cause).storeStart
    let s := if full then s.deviceStart else s
    let s := (s.runsStart).each (unitsLow ++ unitsHigh) (fun u s => s.commitUnit u)
    let s := s.bookInternal 0x0100 0 0
    let s := if full then s.ringStart else s
    let s := (s.journalStart 0).journalStart 1
    let l := (s.storeEnts.filter (fun e => e.kind = 1)).map (fun e => BootStep.stored e.data)
    s.setPower (fun p => { p with todo := l ++ [.pair 0, .pair 1], cur := none })

/-- The packet of the internal restart of a pair, as STG_PpCFG.boot gives it: into STOP, warm into RUN or cold into RUN (R221, R230,
notes/assumptions/35.md). -/
def State.bootPacket (s : State) (p : Nat) : List Word :=
  let b := s.rd (F.STG_CFG_boot p)
  [0x06060005#32, 0, 0, 0, BitVec.ofNat 32 (p * 256 + (if b = 0 then 0 else 16) + (if b = 2 then 1 else 0))]

/-- The first check of R37 that a stored command fails, beside those of its queue. -/
def storedStatus (c : CmdRec) : Option Nat :=
  match opRow c.opcode with
  | none => some 0x0100
  | some r => if c.len < 4 + r.params then some 0x0101 else if c.flags / 16 % 16 ≠ 0 then some 0x0102 else if c.flags % 4 = 3 then some 0x0108 else none

/-- Begin an internal command: accepted, recorded and started, or FAILED (R51, R427). -/
def State.bootCommand (s : State) (ws : List Word) (inner : Option (List Byte)) : State :=
  let n := s.cmd.book + 1
  let c := recOfPacket ws n 8 0 true s.raw 0 inner
  match storedStatus c with
  | some st => s.bookInternal c.opcode st 0
  | none =>
    let s := s.bookPut n 8 0 1 c.opcode 0x0001 0 s.raw (3 * 2 ^ 30) (if c.len ≤ 4 then 0#32 else crc32cWords c.params)
    let s := { s with cmd := { s.cmd with book := n, cmds := s.cmd.cmds ++ [c] } }.showBook
    (s.startCmd c false).setPower (fun p => { p with cur := some n })

/-- The end of start-up: a device that leaves a warm reset gives every enabled queue a new epoch, and then queues accept commands (R31, R59, R481). -/
def State.startEnd (s : State) (cause : Nat) (bad : Bool) : State :=
  let s := if cause ≤ 3 then s
    else s.each (List.range 8) (fun q s => if s.on (F.CMD_QCTL_enable q) then s.newEpoch q ((s.rd (F.CMD_QEPOCH q) + 1) % 2 ^ 32) bad else s)
  (s.wr F.CMD_STATUS_ready 1).setPower (fun p => { p with starting := none, full := false, cur := none })

/-- The next of the steps still to come, once the command in hand has ended (R427, R481, notes/assumptions/36.md). -/
def State.startNext (s : State) (cause : Nat) (bad : Bool) : State :=
  if s.power.cur.any (fun n => (s.findCmd n).isSome) then s
  else
    match s.power.todo with
    | [] => s.startEnd cause bad
    | x :: t =>
      let s := s.setPower (fun p => { p with todo := t, cur := none })
      match x with
      | .stored d => s.bootCommand d (some (wordsToBytes d))
      | .pair p => s.bootCommand (s.bootPacket p) none

/-- START_UP (R481): `bist` is the outcome of the self-test, `bad` what a read-back of the store finds wrong (notes/assumptions/12.md). -/
def State.startUp (s : State) (bist : Word) (bad : Bool) : State :=
  match s.power.starting with
  | none => s
  | some c => if !s.alive || s.cmd.halted then s else if s.power.booted then s.startNext c bad else s.startSteps c bist
def execStartUp (bist : Word) (bad : Bool) (s : State) : Out := .next (s.startUp bist bad)

/-- READY_TIMEOUT: the firmware has not set CMD_STATUS.ready within 1 s (R479). -/
def State.readyTimeout (s : State) : State :=
  if s.alive && s.power.booted && !s.on F.CMD_STATUS_ready && decide (s.raw ≥ s.power.bootRaw + 1000 * tickMs) then
    { s with cmd := { s.cmd with resetReq := some 5 } }.wr F.SYS_BOOT_next (if s.on F.SYS_BOOT_slot then 2 else 3)
  else s
def execReadyTimeout (s : State) : Out := .next s.readyTimeout

end Sys2Proof.Machine
end

