-- ==== Sys2Proof/Machine/Diag.lean ====
section
/-! DEFINITION. The DIAG commands (R488, R497), lockstep mismatches (R209, R485) and the attachment of a debugger (R254). -/
namespace Sys2Proof.Machine
open Sys2Proof

/-- May DIAG.BIST run on its target (R497)? -/
def State.bistReady (s : State) (c : CmdRec) : Bool :=
  let u := c.f 0 7 4
  match c.f 0 1 0 with
  | 0 => decide (s.pst u = pOFF ∨ s.pst u = pSTOP)
  | 1 => s.engIdle u
  | _ => decide (s.rd F.SAFE_STATE_state = 2)

/-- DIAG.BIST (R491, R497): its outcome and duration are observed. A pass of the gate path ends the cause that a failed start-up test left. -/
def opDiagBist (env : Env) (c : CmdRec) (s : State) : State :=
  let t := c.f 0 1 0
  if t = 3 then s.badEnc c
  else if t = 0 ∧ c.f 0 7 4 > 1 then s.badUnit c
  else if !s.bistReady c then s.fail c 0x0200 []
  else if env.obs.isEmpty then s.again c
  else
    let r := wAt env.obs 0 &&& 0xFF01#32
    let s := if t = 2 && getF r 0 1 = 1 then s.uncause 9 else s
    s.done c [r, wAt env.obs 1]

/-- DIAG.LOOP (R485, R497): a serial loopback in an open window, or a test pulse on a discrete output; the outcome is observed. -/
def opDiagLoop (env : Env) (c : CmdRec) (s : State) : State :=
  let u := c.f 0 6 0
  let kind := c.f 0 8 8
  if !unitOk u then s.badUnit c
  else if decide (u < 64) ≠ decide (kind = 0) then s.badParam c 0
  else if kind = 1 ∧ (c.p 1 < 200 ∨ c.p 1 > 1000) then s.badParam c 1
  else if (kind = 0 ∧ s.windowOpen u = false) ∨ (s.unitOwner u).isSome = true then s.fail c 0x0200 []
  else if env.obs.isEmpty then s.again c
  else
    let r := wAt env.obs 0 &&& 7#32
    (if getF r 0 1 = 0 then s.event F.SAFE_EVT_loopfail else s).done c [r, wAt env.obs 1]

/-- Invert a stored bit of a word: one inverted twice is restored (R497). -/
def State.flipBit (s : State) (a b : Nat) : State :=
  let l := s.memu.flips
  { s with memu := { s.memu with flips := if l.contains (a, b) then l.filter (fun e => e ≠ (a, b)) else l ++ [(a, b)] } }

/-- Is the address that of a word with check bits (R413)? -/
def codedWord (a : Nat) : Bool :=
  decide (a % 4 = 0) && decide (a < 0x00400000 ∨ (0x01400000 ≤ a ∧ a < 0x01500000) ∨ (0x01800000 ≤ a ∧ a < 0x01880000) ∨ (0x02000000 ≤ a ∧ a < 0x03000000))

/-- The two cores of a stage pair disagree (R209, R217). -/
def State.pairMismatch (s : State) (p : Nat) : State := if s.pst p = pOFF ∨ s.pst p = pFAULT then s else (s.haltCores p).pairFault p

/-- DIAG.INJECT of kinds 2–9 (R497). -/
def State.injectKind (s : State) (k pair eng seq : Nat) : State :=
  if k = 2 ∨ k = 3 then s.pairMismatch (k - 2)
  else if k = 4 then { s with cmd := { s.cmd with inject := seq :: s.cmd.inject } }
  else if k ≤ 7 then s.setPower (fun p => { p with moved := k :: p.moved.filter (· ≠ k) })
  else if k = 8 then
    (if s.pst pair = pRUN then (((s.haltCores pair).inc (F.STG_CNT_WDOG pair)).event (F.STG_EVT_wdog pair)).pairFault pair else s)
  else if s.engState eng = 2 then s.engStop eng 3 3 else s

def opDiagInject (c : CmdRec) (s : State) : State :=
  let k := c.f 0 3 0
  let a := c.p 1
  let x := c.f 2 5 0
  let y := c.f 2 13 8
  if s.on F.SAFE_LOCK_inj then s.fail c 0x0203 []
  else if k ≥ 10 then s.badEnc c
  else if k ≥ 2 then (s.injectKind k (c.f 0 8 8) (c.f 0 15 12) c.seq).done c []
  else if !codedWord a then s.badParam c 1
  else if x > 38 ∨ (k = 1 ∧ (y > 38 ∨ x = y)) then s.badParam c 2
  else (if k = 1 then (s.flipBit a x).flipBit a y else s.flipBit a x).done c []

/-- DIAG.WDOG (R278, R488, R497). -/
def opDiagWdog (c : CmdRec) (s : State) : State :=
  if c.f 0 15 0 = 0 ∨ c.f 0 31 16 = 0 then s.badParam c 0
  else
    let s := { s with cmd := { s.cmd with limS := c.f 0 15 0, limQ := c.f 0 31 16 } }
    (s.each (ones 16 (c.f 1 15 0)) (fun n s => s.setEng n (fun x => { x with wdPeriod := c.f 2 15 0 }))).done c []

def execDiagBist (seq : Nat) (env : Env) (s : State) : Out := .next (s.runCmd 0x0D03 seq (opDiagBist env))
def execDiagLoop (seq : Nat) (env : Env) (s : State) : Out := .next (s.runCmd 0x0D04 seq (opDiagLoop env))
def execDiagInject (seq : Nat) (_env : Env) (s : State) : Out := .next (s.runCmd 0x0D05 seq opDiagInject)
def execDiagWdog (seq : Nat) (_env : Env) (s : State) : Out := .next (s.runCmd 0x0D06 seq opDiagWdog)

/-- LOCKSTEP_MISMATCH: of stage pair 0 or 1, or of the command core (R209, R485). -/
def execLockstepMismatch (who : Fin 3) (s : State) : Out :=
  .next (s.guardUp (fun s => if who.val < 2 then s.pairMismatch who else if s.cmd.halted then s else s.coreFault))

/-- DEBUGGER_ATTACH: a debugger connects to the debug pads or leaves them; a locked port counts none. An engine that `brk` halted goes on when the
debugger leaves (R254, DBG_CTL, notes/assumptions/37.md). -/
def State.debugger (s : State) (on : Bool) : State :=
  if on then (if s.on F.SAFE_LOCK_dbg then s else s.wr F.DBG_CTL_attached 1)
  else
    (s.wr F.DBG_CTL_attached 0).each (List.range 16) (fun n s =>
      if (s.proc (2 + n)).stall = .debug then s.setProc (2 + n) (fun x => { x with stall := .none }) else s)
def execDebuggerAttach (on : Bool) (s : State) : Out := .next (s.guardUp (fun s => s.debugger on))

end Sys2Proof.Machine
end

