-- ==== Sys2Proof/Machine/Dma.lean ====
section
/-! DEFINITION. DMA channels: a descriptor, its words in ascending address, its end and the chain (R421, R422). -/
namespace Sys2Proof.Machine
open Sys2Proof

/-- Master identity of a channel (R26, R421). -/
def dmaId (c : Nat) : Nat := 0x20 + c

/-- Fields of a descriptor (R421). -/
def descLen (ws : List Word) : Nat := getF (wAt ws 2) 0 24
def descSrc (ws : List Word) : Nat := nAt ws 0
def descDst (ws : List Word) : Nat := nAt ws 1
def descOk (ws : List Word) : Bool :=
  let n := descLen ws
  decide (getF (wAt ws 2) 24 6 = 0 ∧ 4 ≤ n ∧ n ≤ 16777212 ∧ n % 4 = 0 ∧ descSrc ws % 4 = 0 ∧ descDst ws % 4 = 0)

/-- Read the descriptor at its address: one that does not lie in house memory, or is malformed, stops the channel with cause 1, an uncorrectable word
with cause 2 (R413, R421, R422). -/
def State.dmaDesc (s : State) (c : Nat) : State :=
  let a := (s.dma c).desc
  if !(s.dma c).words.isEmpty then s
  else if a % 4 ≠ 0 ∨ 0x00400000 < a + 16 then s.dmaError c 1
  else if (s.ready a).1 = 1 then (s.ready a).2
  else match s.rdList (dmaId c) a 4 with
    | (none, s) => s.dmaError c 2
    | (some ws, s) => if descOk ws then s.setDma c (fun x => { x with words := ws, done := 0 }) else s.dmaError c 1

/-- Move the next word of a descriptor. -/
def State.dmaWord (s : State) (c src dst : Nat) : State :=
  let acc := fun (k : AccKind) (a : Nat) (d : List Word) (r : Ret) => FabAcc.mk (dmaId c) k a 4 15 0 d r
  let hold := fun (s : State) => s.setDma c (fun x => { x with waiting := true })
  let put := fun (s : State) (v : Word) =>
    if area dst = .aperture then (hold s).fabIssue (acc .write dst [v] (.dmaWrite c)) else s.dmaPut c dst v
  if area src = .aperture then (hold s).fabIssue (acc .read src [] (.dmaRead c dst))
  else match s.locRead (dmaId c) src with
    | (.ok v, s) => put s v
    | (.bad, s) => s.dmaError c 2
    | (.wait, s) => s
    | (.none, s) => put s 0

/-- Move words until the descriptor ends, the channel stops, or it has to wait. -/
def State.dmaGo (s : State) (c : Nat) : Nat → State
  | 0 => s
  | n + 1 =>
    let x := s.dma c
    if !s.on (F.MEM_DMA2_busy c) || x.waiting || decide (x.done ≥ descLen x.words) then s
    else
      let t := s.dmaWord c (descSrc x.words + x.done) (descDst x.words + x.done)
      if (t.dma c).done = x.done then t else t.dmaGo c n

/-- The end of a descriptor: its event, then the next one, or the end of the chain (R421, R422). -/
def State.dmaEnd (s : State) (c : Nat) : State :=
  let x := s.dma c
  if !s.on (F.MEM_DMA2_busy c) || x.waiting || x.words.isEmpty || decide (x.done < descLen x.words) then s
  else
    let s := if getF (wAt x.words 2) 30 1 = 1 then s.callEvent (s.rd (F.MEM_DMA0_chan c)) else s
    if getF (wAt x.words 2) 31 1 = 1 then (s.wr (F.MEM_DMA2_busy c) 0).wr (F.MEM_DMA2_done c) 1
    else s.setDma c (fun _ => ⟨nAt x.words 3, [], 0, false⟩)

/-- A channel goes on to the end of its descriptor (R421). -/
def State.dmaDescriptor (s : State) (c : Nat) : State :=
  if !s.on (F.MEM_DMA2_busy c) then s
  else
    let s := s.dmaDesc c
    (s.dmaGo c (descLen (s.dma c).words / 4)).dmaEnd c
def execDmaDescriptorEnd (c : Fin 8) (s : State) : Out := .next (s.guardUp (fun s => s.dmaDescriptor c))

end Sys2Proof.Machine
end

