-- ==== Sys2Proof/Machine/HostRead.lean ====
section
/-! DEFINITION. The device's reads of host memory (R451): what a completion delivers, and what 50 ms without an answer fail. -/
namespace Sys2Proof.Machine
open Sys2Proof

/-- Give the bytes of a host buffer to the command that reads one (R35, R451). -/
def State.giveBuffer (s : State) (seq : Nat) (env : Env) : State :=
  match s.findCmd seq with
  | none => s
  | some c =>
    match c.opcode with
    | 0x0004 => s.runCmd 0x0004 seq (opSysFwload env)
    | 0x0101 => s.runCmd 0x0101 seq (opStoreWrite env)
    | 0x0201 => s.runCmd 0x0201 seq (opRingSchedule env)
    | 0x0203 => s.runCmd 0x0203 seq (opRingJoin env)
    | 0x0504 => s.runCmd 0x0504 seq (opGateRoute env)
    | 0x0600 => s.runCmd 0x0600 seq (opStageLoad env)
    | 0x0700 => s.runCmd 0x0700 seq (opEngLoad env)
    | 0x0701 => s.runCmd 0x0701 seq (opEngStart env)
    | 0x0C03 => s.runCmd 0x0C03 seq (opMemCopy env)
    | _ => s

/-- HOST_READ_COMPLETION: of a slot (0), the buffer of command `seq` (1), the transmit ring (2) or a receive descriptor (3) (R37, R373, R451). -/
def State.hostReadDone (s : State) (what seq : Nat) (env : Env) : State :=
  match what with
  | 0 => if s.coreUp && !s.cmd.accStop then s.consume env else s
  | 1 => s.giveBuffer seq env
  | 2 => s.txRing env.host env.hostFail 4096
  | _ => s.fetchRx env.host 4096
def execHostReadCompletion (what : Fin 4) (seq : Nat) (env : Env) (s : State) : Out := .next (s.guardUp (fun s => s.hostReadDone what seq env))

/-- Has the command failed for its buffer? -/
def State.bufferFailed (s : State) (seq : Nat) : Bool := (s.findCmd seq).any (fun c => c.fin.any (fun r => decide (r.1 = 0x0105)))

/-- A buffer read that has had no answer for 50 ms fails its command (R451); the time is taken from the command's start (notes/assumptions/38.md). -/
def State.bufferTimeout (s : State) (seq : Nat) : State :=
  match s.findCmd seq with
  | none => s
  | some c =>
    if s.raw ≥ c.startRaw + 50 * tickMs then
      let t := s.giveBuffer seq ⟨[], true, []⟩
      if t.bufferFailed seq then t else s
    else s

/-- HOST_READ_TIMEOUT: of the buffer of command `seq`, or of the transmit ring (R451). -/
def State.hostReadLate (s : State) (ring : Bool) (seq : Nat) : State := if ring then s.txRing [] true 4096 else s.bufferTimeout seq
def execHostReadTimeout (ring : Bool) (seq : Nat) (s : State) : Out := .next (s.guardUp (fun s => s.hostReadLate ring seq))

end Sys2Proof.Machine
end

