-- ==== Sys2Proof/Machine/Isa.lean ====
section
/-! DEFINITION. The stage instruction set (chapter 09): words and formats (R238, R239), fetch and issue (R233–R235), traps (R256–R258), and the
integer, FLOAT32, immediate, bit-field and branch instructions (R240–R243, R247–R249). Processors 0 and 1 are the stage pairs, 2 + n is ENGn. -/
namespace Sys2Proof

/-- Words of the formats (R238, R248, R250, R260, R265). -/
def RFmt.word (maj fn : Nat) (r : RFmt) : Word := BitVec.ofNat 32 (maj * 2 ^ 26 + fn * 2 ^ 20 + r.x * 2 ^ 15 + r.wt * 2 ^ 10 + r.wd * 2 ^ 5 + r.ws)
def IFmt.word (maj : Nat) (r : IFmt) : Word := BitVec.ofNat 32 (maj * 2 ^ 26 + r.imm.toNat * 2 ^ 10 + r.wd * 2 ^ 5 + r.ws)
def BFmt.word (maj : Nat) (r : BFmt) : Word := BitVec.ofNat 32 (maj * 2 ^ 26 + r.off.toNat * 2 ^ 10 + r.wt * 2 ^ 5 + r.ws)
def jWord (maj : Nat) (off : BitVec 26) : Word := BitVec.ofNat 32 (maj * 2 ^ 26 + off.toNat)
def bit1 (b : Bool) : Nat := if b then 1 else 0
def FieldFmt.word (maj : Nat) (r : FieldFmt) : Word :=
  BitVec.ofNat 32 (maj * 2 ^ 26 + r.pos * 2 ^ 21 + r.wm1 * 2 ^ 16 + bit1 r.sg * 2 ^ 15 + r.z * 2 ^ 10 + r.wd * 2 ^ 5 + r.ws)
def StrFmt.word (op : Nat) (r : StrFmt) : Word := BitVec.ofNat 32 (0x1A * 2 ^ 26 + op * 2 ^ 24 + r.size * 2 ^ 22 + r.ss * 2 ^ 18 + r.ds * 2 ^ 14 + r.z)
def IoFmt.word (fn : Nat) (r : IoFmt) : Word :=
  BitVec.ofNat 32 (0x38 * 2 ^ 26 + r.wr * 2 ^ 21 + r.wm * 2 ^ 16 + r.unit * 2 ^ 10 + bit1 r.nb * 2 ^ 9 + r.z * 2 ^ 4 + fn)
def AdlibFmt.word (r : AdlibFmt) : Word := BitVec.ofNat 32 (0x3C * 2 ^ 26 + r.sel * 2 ^ 22 + r.wd * 2 ^ 17 + r.ws * 2 ^ 12 + r.wt * 2 ^ 7 + r.imm7)

/-- Legal fields of the bit-field instructions (R248). -/
def FieldFmt.ok (r : FieldFmt) : Bool := decide (r.pos.val + r.wm1.val + 1 ≤ 32 ∧ r.z = 0)

end Sys2Proof

namespace Sys2Proof.Machine
open Sys2Proof

/-- Major opcodes that need no function code, and the function codes of the others (R238–R245, R247, R254, R260). -/
def oneMajor (m : Nat) : Bool :=
  decide ((4 ≤ m ∧ m ≤ 0x0D) ∨ (0x10 ≤ m ∧ m ≤ 0x14) ∨ (0x16 ≤ m ∧ m ≤ 0x18) ∨ m = 0x1A ∨ (0x1C ≤ m ∧ m ≤ 0x23) ∨ m = 0x26 ∨ m = 0x27 ∨ m = 0x3C)
def fnListed (m fn : Nat) : Bool :=
  match m with
  | 0x00 => decide ((1 ≤ fn ∧ fn ≤ 0x0A) ∨ (0x10 ≤ fn ∧ fn ≤ 0x12) ∨ (0x14 ≤ fn ∧ fn ≤ 0x16) ∨ fn = 0x18 ∨ (0x1C ≤ fn ∧ fn ≤ 0x1F))
  | 0x01 => decide (fn ≤ 6)
  | 0x03 => decide (fn ≤ 0x0C)
  | 0x19 => decide (fn ≤ 1)
  | 0x24 => decide (fn ≤ 1)
  | 0x25 => decide (fn ≤ 6)
  | _ => false
/-- Is a word some instruction's, whatever its operand fields (R239)? -/
def isInstr (w : Word) : Bool :=
  let m := getF w 26 6
  oneMajor m || fnListed m (getF w 20 6) || (decide (m = 0x38) && decide (getF w 0 4 ≤ 5))

/-- Master identity of a processor (R26). -/
def procId (p : Nat) : Nat := if p < 2 then 8 + p else 0x10 + (p - 2)

/-- Does the processor execute: powered, in RUN with its logic phase going or in an init entry, and not stalled or halted (R212, R220, R276)? -/
def State.procRuns (s : State) (p : Nat) : Bool :=
  decide ((s.proc p).stall = .none) &&
    (if p < 2 then decide (s.domState (0x10 + p) = 0) && ((decide (s.pst p = pRUN) && decide (s.rd (F.STG_STATE_phase p) = 2))
        || (decide (s.pst p = pLOADING) && (s.pair p).loading.isSome))
      else decide (s.domState (p - 2) = 0) && decide (s.engState (p - 2) = 2))

/-- General registers: w0 reads zero and is never written (R233). -/
def State.getW (s : State) (p : Nat) (i : Nat) : Word := if i = 0 then 0#32 else wAt (s.proc p).w i
def State.setW (s : State) (p i : Nat) (v : Word) : State := if i = 0 then s else s.setProc p (fun x => { x with w := updAt x.w i (fun _ => v) })
def State.setPc (s : State) (p a : Nat) : State := s.setProc p (fun x => { x with pc := a, got := [] })
def State.pcOf (s : State) (p : Nat) : Nat := (s.proc p).pc

/-- Special registers by number, and SR_STATUS and SR_VBASE fields (R235). -/
def State.sr (s : State) (p i : Nat) : Word := wAt (s.proc p).sr i
def State.setSr (s : State) (p i : Nat) (v : Word) : State := s.setProc p (fun x => { x with sr := updAt x.sr i (fun _ => v) })
def stIntrap (w : Word) : Bool := decide (getF w 0 1 = 1)
def stIe (w : Word) : Bool := decide (getF w 1 1 = 1)
def State.vbase (s : State) (p : Nat) : Nat := getF (s.sr p 4) 8 24 * 256
def State.vecOn (s : State) (p : Nat) : Bool := decide (getF (s.sr p 4) 0 1 = 1)

/-- SR_STATUS on entry: pie := ie, ie := 0, intrap := 1 (R257). -/
def entryStatus (w : Word) : Word := setF (setF (setF w 2 1 (getF w 1 1)) 1 1 0) 0 1 1
/-- SR_STATUS on `tret`: ie := pie, intrap := 0 (R254). -/
def returnStatus (w : Word) : Word := setF (setF w 1 1 (getF w 2 1)) 0 1 0

/-- Record EPC, CAUSE and TVAL (R257, R258). -/
def State.recordTrap (s : State) (p : Nat) (epc cause tval : Word) : State := ((s.setSr p 1 epc).setSr p 2 cause).setSr p 3 tval
/-- Continue in a handler at an offset from the vector base (R257, R259). -/
def State.enterHandler (s : State) (p off : Nat) : State := (s.setSr p 0 (entryStatus (s.sr p 0))).setPc p (s.vbase p + off)

/-- Take a trap: the handler's entry, or, unhandled, FAULT of the pair or a stop of the engine (R257, R258). -/
def State.takeTrap (s : State) (p cause : Nat) (tval : Word) : State :=
  let s := s.recordTrap p (BitVec.ofNat 32 (s.pcOf p)) (BitVec.ofNat 32 cause) tval
  let s := if p < 2 then s else s.inc (F.ENG_CNT_TRAP (p - 2))
  if s.vecOn p && !stIntrap (s.sr p 0) then s.enterHandler p 0
  else if p < 2 then (s.setProc p (fun x => { x with stall := .cycle, got := [] })).pairFault p
  else s.engStop (p - 2) 2 3

/-- How an instruction ends. -/
inductive Res where
  /-- done: on to the next word -/
  | next
  /-- done: on at a program address -/
  | jump (a : Nat)
  | trap (cause : Nat) (tval : Word)
  /-- not done: the processor is where it was, or no longer executes -/
  | hold
  deriving DecidableEq, Repr

/-- End an instruction of the processor. -/
def State.retire (p : Nat) (r : Res × State) : State :=
  match r with
  | (.next, s) => s.setPc p (s.pcOf p + 4)
  | (.jump a, s) => s.setPc p a
  | (.trap c v, s) => s.takeTrap p c v
  | (.hold, s) => s

/-- What the word at a program address is found to be. -/
inductive Fetched where
  | word (w : Word)
  /-- outside the fetch space, or not aligned (R234) -/
  | trap
  /-- uncorrectable or a parity error: the pair is in FAULT, or the engine stops with cause 4 (R217, R273) -/
  | dead
  /-- the memory does not serve the fetch yet -/
  | wait
  deriving DecidableEq, Repr

/-- Local address of a program address (R208, R234, R272). -/
def State.codeAddr (s : State) (p a : Nat) : Nat := if p < 2 then codeBase p (s.pair p).half + a else engBase (p - 2) + a
def State.fetch (s : State) (p a : Nat) : Fetched × State :=
  if a % 4 ≠ 0 ∨ 0x20000 ≤ a then (.trap, s)
  else
    match s.rdMem (procId p) (s.codeAddr p a) with
    | (.ok w, s) => (.word w, s)
    | (.bad, s) => (.dead, if p < 2 then s else s.engStop (p - 2) 4 3)
    | (.wait, s) => (.wait, s)
    | (.none, s) => (.wait, s)

/-- The processor executes the instruction word `w` if that is what stands at its PC: `ok` says that its fields are legal. Where another instruction stands
there, nothing happens; a word that is no instruction's raises ILLEGAL, whatever is asked (R239). -/
def State.issue (s : State) (p : Nat) (w : Word) (ok : Bool) (body : State → Res × State) : State :=
  if !s.alive || !s.procRuns p then s
  else
    match s.fetch p (s.pcOf p) with
    | (.trap, s) => s.takeTrap p 2 (BitVec.ofNat 32 (s.pcOf p))
    | (.dead, s) => s
    | (.wait, s) => s
    | (.word x, t) =>
      if x = w then (if ok then State.retire p (body t) else t.takeTrap p 1 w)
      else if isInstr x then s
      else t.takeTrap p 1 x

/-- An instruction that writes wd from ws and wt. -/
def State.alu2 (s : State) (p : Nat) (w : Word) (ok : Bool) (wd ws wt : Fin 32) (f : Word → Word → Word) : State :=
  s.issue p w ok (fun s => (.next, s.setW p wd (f (s.getW p ws) (s.getW p wt))))
/-- An instruction that writes wd from ws. -/
def State.alu1 (s : State) (p : Nat) (w : Word) (ok : Bool) (wd ws : Fin 32) (f : Word → Word) : State :=
  s.issue p w ok (fun s => (.next, s.setW p wd (f (s.getW p ws))))

/-- Format R with x zero (R240, R241, R243), and with wt zero too. -/
def State.intR (s : State) (p : Fin 18) (maj fn : Nat) (r : RFmt) (f : Word → Word → Word) : State :=
  s.alu2 p (r.word maj fn) (decide (r.x = 0)) r.wd r.ws r.wt f
def State.intR1 (s : State) (p : Fin 18) (maj fn : Nat) (r : RFmt) (f : Word → Word) : State :=
  s.alu1 p (r.word maj fn) (decide (r.x = 0 ∧ r.wt = 0)) r.wd r.ws f
/-- Shift by the x field (R240). -/
def State.shiftK (s : State) (p : Fin 18) (fn : Nat) (r : RFmt) (f : Word → Nat → Word) : State :=
  s.alu1 p (r.word 0 fn) (decide (r.wt = 0)) r.wd r.ws (fun a => f a r.x)
/-- Format I (R242). -/
def State.intI (s : State) (p : Fin 18) (maj : Nat) (r : IFmt) (ok : Bool) (f : Word → Word) : State := s.alu1 p (r.word maj) ok r.wd r.ws f

def boolW (b : Bool) : Word := if b then 1#32 else 0#32
/-- Leading zero bits of a word (R240). -/
def clz32 (x : Word) : Word := BitVec.ofNat 32 (if x = 0 then 32 else 31 - Nat.log2 x.toNat)
/-- Products and quotients (R241). -/
def mulHi (x y : Word) : Word := BitVec.ofInt 32 (x.toInt * y.toInt / 2 ^ 32)
def mulHiU (x y : Word) : Word := BitVec.ofNat 32 (x.toNat * y.toNat / 2 ^ 32)
def divS (x y : Word) : Word := if y = 0 then 0xFFFFFFFF#32 else BitVec.ofInt 32 (Int.tdiv x.toInt y.toInt)
def divU (x y : Word) : Word := if y = 0 then 0xFFFFFFFF#32 else BitVec.ofNat 32 (x.toNat / y.toNat)
def remS (x y : Word) : Word := if y = 0 then x else BitVec.ofInt 32 (x.toInt - y.toInt * Int.tdiv x.toInt y.toInt)
def remU (x y : Word) : Word := if y = 0 then x else BitVec.ofNat 32 (x.toNat % y.toNat)

def execAdd (p : Fin 18) (r : RFmt) (s : State) : Out := .next (s.intR p 0 0x01 r (fun a b => a + b))
def execSub (p : Fin 18) (r : RFmt) (s : State) : Out := .next (s.intR p 0 0x02 r (fun a b => a - b))
def execAnd (p : Fin 18) (r : RFmt) (s : State) : Out := .next (s.intR p 0 0x03 r (fun a b => a &&& b))
def execOr (p : Fin 18) (r : RFmt) (s : State) : Out := .next (s.intR p 0 0x04 r (fun a b => a ||| b))
def execXor (p : Fin 18) (r : RFmt) (s : State) : Out := .next (s.intR p 0 0x05 r (fun a b => a ^^^ b))
def execNor (p : Fin 18) (r : RFmt) (s : State) : Out := .next (s.intR p 0 0x06 r (fun a b => ~~~ (a ||| b)))
def execAndn (p : Fin 18) (r : RFmt) (s : State) : Out := .next (s.intR p 0 0x07 r (fun a b => a &&& ~~~ b))
def execCplt (p : Fin 18) (r : RFmt) (s : State) : Out := .next (s.intR p 0 0x08 r (fun a b => boolW (a.slt b)))
def execCpltu (p : Fin 18) (r : RFmt) (s : State) : Out := .next (s.intR p 0 0x09 r (fun a b => boolW (a.ult b)))
def execCpeq (p : Fin 18) (r : RFmt) (s : State) : Out := .next (s.intR p 0 0x0A r (fun a b => boolW (decide (a = b))))
def execShl (p : Fin 18) (r : RFmt) (s : State) : Out := .next (s.intR p 0 0x10 r (fun a b => a <<< (b.toNat % 32)))
def execShr (p : Fin 18) (r : RFmt) (s : State) : Out := .next (s.intR p 0 0x11 r (fun a b => a >>> (b.toNat % 32)))
def execShra (p : Fin 18) (r : RFmt) (s : State) : Out := .next (s.intR p 0 0x12 r (fun a b => a.sshiftRight (b.toNat % 32)))
def execShlK (p : Fin 18) (r : RFmt) (s : State) : Out := .next (s.shiftK p 0x14 r (fun a n => a <<< n))
def execShrK (p : Fin 18) (r : RFmt) (s : State) : Out := .next (s.shiftK p 0x15 r (fun a n => a >>> n))
def execShraK (p : Fin 18) (r : RFmt) (s : State) : Out := .next (s.shiftK p 0x16 r (fun a n => a.sshiftRight n))
def execClz (p : Fin 18) (r : RFmt) (s : State) : Out := .next (s.intR1 p 0 0x18 r clz32)
def execMin (p : Fin 18) (r : RFmt) (s : State) : Out := .next (s.intR p 0 0x1C r (fun a b => if a.slt b then a else b))
def execMax (p : Fin 18) (r : RFmt) (s : State) : Out := .next (s.intR p 0 0x1D r (fun a b => if a.slt b then b else a))
def execMinu (p : Fin 18) (r : RFmt) (s : State) : Out := .next (s.intR p 0 0x1E r (fun a b => if a.ult b then a else b))
def execMaxu (p : Fin 18) (r : RFmt) (s : State) : Out := .next (s.intR p 0 0x1F r (fun a b => if a.ult b then b else a))

def execMul (p : Fin 18) (r : RFmt) (s : State) : Out := .next (s.intR p 1 0x00 r (fun a b => a * b))
def execMulh (p : Fin 18) (r : RFmt) (s : State) : Out := .next (s.intR p 1 0x01 r mulHi)
def execMulhu (p : Fin 18) (r : RFmt) (s : State) : Out := .next (s.intR p 1 0x02 r mulHiU)
def execDiv (p : Fin 18) (r : RFmt) (s : State) : Out := .next (s.intR p 1 0x03 r divS)
def execDivu (p : Fin 18) (r : RFmt) (s : State) : Out := .next (s.intR p 1 0x04 r divU)
def execRem (p : Fin 18) (r : RFmt) (s : State) : Out := .next (s.intR p 1 0x05 r remS)
def execRemu (p : Fin 18) (r : RFmt) (s : State) : Out := .next (s.intR p 1 0x06 r remU)

/-- `fmin` and `fmax`: which of +0 and −0 is taken is an open value (notes/assumptions/23.md). -/
def State.fPick (s : State) (p : Fin 18) (fn : Nat) (r : RFmt) (f : Bool → Word → Word → Word) : State :=
  s.issue p (r.word 3 fn) (decide (r.x = 0)) (fun s =>
    (.next, s.useFree.setW p r.wd (f (decide (s.freeW.toNat % 2 = 0)) (s.getW p r.ws) (s.getW p r.wt))))

def execFadd (p : Fin 18) (r : RFmt) (s : State) : Out := .next (s.intR p 3 0x00 r f32Add)
def execFsub (p : Fin 18) (r : RFmt) (s : State) : Out := .next (s.intR p 3 0x01 r f32Sub)
def execFmul (p : Fin 18) (r : RFmt) (s : State) : Out := .next (s.intR p 3 0x02 r f32Mul)
def execFdiv (p : Fin 18) (r : RFmt) (s : State) : Out := .next (s.intR p 3 0x03 r f32Div)
def execFsqrt (p : Fin 18) (r : RFmt) (s : State) : Out := .next (s.intR1 p 3 0x04 r f32Sqrt)
def execFmin (p : Fin 18) (r : RFmt) (s : State) : Out := .next (s.fPick p 0x05 r f32Min)
def execFmax (p : Fin 18) (r : RFmt) (s : State) : Out := .next (s.fPick p 0x06 r f32Max)
def execFeq (p : Fin 18) (r : RFmt) (s : State) : Out := .next (s.intR p 3 0x07 r (fun a b => boolW (f32Eq a b)))
def execFlt (p : Fin 18) (r : RFmt) (s : State) : Out := .next (s.intR p 3 0x08 r (fun a b => boolW (f32Lt a b)))
def execFle (p : Fin 18) (r : RFmt) (s : State) : Out := .next (s.intR p 3 0x09 r (fun a b => boolW (f32Le a b)))
def execItof (p : Fin 18) (r : RFmt) (s : State) : Out := .next (s.intR1 p 3 0x0A r (fun a => f32OfInt a.toInt))
def execFtoi (p : Fin 18) (r : RFmt) (s : State) : Out := .next (s.intR1 p 3 0x0B r (fun a => BitVec.ofInt 32 (f32ToInt 32 a)))
def execFtoiz (p : Fin 18) (r : RFmt) (s : State) : Out := .next (s.intR1 p 3 0x0C r (fun a => BitVec.ofInt 32 (f32ToIntZ 32 a)))

def execAddK (p : Fin 18) (r : IFmt) (s : State) : Out := .next (s.intI p 0x04 r true (fun a => a + r.imm.signExtend 32))
def execAndK (p : Fin 18) (r : IFmt) (s : State) : Out := .next (s.intI p 0x05 r true (fun a => a &&& r.imm.setWidth 32))
def execOrK (p : Fin 18) (r : IFmt) (s : State) : Out := .next (s.intI p 0x06 r true (fun a => a ||| r.imm.setWidth 32))
def execXorK (p : Fin 18) (r : IFmt) (s : State) : Out := .next (s.intI p 0x07 r true (fun a => a ^^^ r.imm.setWidth 32))
def execCpltK (p : Fin 18) (r : IFmt) (s : State) : Out := .next (s.intI p 0x08 r true (fun a => boolW (a.slt (r.imm.signExtend 32))))
def execCpltuK (p : Fin 18) (r : IFmt) (s : State) : Out := .next (s.intI p 0x09 r true (fun a => boolW (a.ult (r.imm.signExtend 32))))
def execLdhi (p : Fin 18) (r : IFmt) (s : State) : Out := .next (s.intI p 0x0A r (decide (r.ws = 0)) (fun _ => r.imm.setWidth 32 <<< 16))

/-- Byte permutation (R249): nibble k of `sel` chooses byte k of the result from ws, then the old wd. -/
def bperm (sel : BitVec 16) (ws wd : Word) : Word :=
  let src := fun (k : Nat) =>
    let n := sel.toNat / 2 ^ (4 * k) % 16
    if n < 4 then (byteOf ws n) else if n < 8 then byteOf wd (n - 4) else 0#8
  wordOf (src 0) (src 1) (src 2) (src 3)
def State.runBperm (s : State) (p : Fin 18) (r : IFmt) : State :=
  s.issue p (r.word 0x0B) true (fun s => (.next, s.setW p r.wd (bperm r.imm (s.getW p r.ws) (s.getW p r.wd))))
def execBperm (p : Fin 18) (r : IFmt) (s : State) : Out := .next (s.runBperm p r)

/-- The field of `w` bits at `pos`, zero- or sign-extended (R248). -/
def fieldOut (pos w : Nat) (sg : Bool) (x : Word) : Word := if sg then BitVec.ofInt 32 (sgn w (getF x pos w)) else BitVec.ofNat 32 (getF x pos w)
def State.runBfx (s : State) (p : Fin 18) (r : FieldFmt) : State := s.alu1 p (r.word 0x0C) r.ok r.wd r.ws (fieldOut r.pos (r.wm1 + 1) r.sg)
def execBfx (p : Fin 18) (r : FieldFmt) (s : State) : Out := .next (s.runBfx p r)
def State.runBfi (s : State) (p : Fin 18) (r : FieldFmt) : State :=
  s.alu2 p (r.word 0x0D) (r.ok && !r.sg) r.wd r.ws r.wd (fun x d => setF d r.pos (r.wm1 + 1) x.toNat)
def execBfi (p : Fin 18) (r : FieldFmt) (s : State) : Out := .next (s.runBfi p r)

/-- A program address plus a signed word offset, modulo 2^32 (R247). -/
def target4 (pc : Nat) (off : Int) : Nat := (((pc : Int) + 4 * off) % 2 ^ 32).toNat
/-- Conditional branches of format B (R247). -/
def State.branch (s : State) (p : Fin 18) (maj : Nat) (r : BFmt) (c : Word → Word → Bool) : State :=
  s.issue p (r.word maj) true (fun s => (if c (s.getW p r.ws) (s.getW p r.wt) then .jump (target4 (s.pcOf p) r.off.toInt) else .next, s))
def execBrEq (p : Fin 18) (r : BFmt) (s : State) : Out := .next (s.branch p 0x1C r (fun a b => decide (a = b)))
def execBrNe (p : Fin 18) (r : BFmt) (s : State) : Out := .next (s.branch p 0x1D r (fun a b => decide (a ≠ b)))
def execBrLt (p : Fin 18) (r : BFmt) (s : State) : Out := .next (s.branch p 0x1E r (fun a b => a.slt b))
def execBrGe (p : Fin 18) (r : BFmt) (s : State) : Out := .next (s.branch p 0x1F r (fun a b => !a.slt b))
def execBrLtu (p : Fin 18) (r : BFmt) (s : State) : Out := .next (s.branch p 0x20 r (fun a b => a.ult b))
def execBrGeu (p : Fin 18) (r : BFmt) (s : State) : Out := .next (s.branch p 0x21 r (fun a b => !a.ult b))
def execBrAny (p : Fin 18) (r : BFmt) (s : State) : Out := .next (s.branch p 0x26 r (fun a b => decide (a &&& b ≠ 0)))
def execBrNone (p : Fin 18) (r : BFmt) (s : State) : Out := .next (s.branch p 0x27 r (fun a b => decide (a &&& b = 0)))

/-- Write the address of the next word to w31 (R247). -/
def State.link (s : State) (p : Nat) (on_ : Bool) : State := if on_ then s.setW p 31 (BitVec.ofNat 32 (s.pcOf p + 4)) else s
def State.jumpJ (s : State) (p : Fin 18) (maj : Nat) (off : BitVec 26) (call : Bool) : State :=
  s.issue p (jWord maj off) true (fun s => (.jump (target4 (s.pcOf p) off.toInt), s.link p call))
def State.jumpR (s : State) (p : Fin 18) (fn : Nat) (r : RFmt) (call : Bool) : State :=
  s.issue p (r.word 0x24 fn) (decide (r.x = 0 ∧ r.wt = 0 ∧ r.wd = 0)) (fun s => (.jump (s.getW p r.ws).toNat, s.link p call))
def execJmp (p : Fin 18) (off : BitVec 26) (s : State) : Out := .next (s.jumpJ p 0x22 off false)
def execCall (p : Fin 18) (off : BitVec 26) (s : State) : Out := .next (s.jumpJ p 0x23 off true)
def execJmpr (p : Fin 18) (r : RFmt) (s : State) : Out := .next (s.jumpR p 0x00 r false)
def execCallr (p : Fin 18) (r : RFmt) (s : State) : Out := .next (s.jumpR p 0x01 r true)

end Sys2Proof.Machine
end

