-- ==== Sys2Proof/Machine/IsaCtl.lean ====
section
/-! DEFINITION. The stage instruction set: loads, stores, atomics and `drain` (R219, R244–R246), block repeat and string instructions (R250–R253), and the
time and system instructions (R235, R254, R255). -/
namespace Sys2Proof.Machine
open Sys2Proof

/-- The results recorded for the instruction in hand (R190): those still to be used, and those used, oldest first. -/
structure Trail where
  g : List Word
  h : List Word
  deriving DecidableEq, Repr

/-- What a data access of an instruction comes to. -/
inductive Acc where
  | val (v : Word)
  | trap (cause : Nat) (tval : Word)
  | hold
  deriving DecidableEq, Repr

def State.trail (s : State) (p : Nat) : Trail := ⟨(s.proc p).got, []⟩
/-- Keep what an instruction has read so far, for its next attempt. -/
def State.keepTrail (s : State) (p : Nat) (t : Trail) : State := s.setProc p (fun x => { x with got := t.h })
/-- The processor stalls until its aperture access has finished (R190). -/
def State.stallFab (s : State) (p : Nat) (t : Trail) : State := s.setProc p (fun x => { x with got := t.h, stall := .fabric })

/-- The `n` bytes at address `a` out of the word that holds them. -/
def laneOut (a n : Nat) (w : Word) : Word := if n = 4 then w else (w >>> (8 * (a % 4))) &&& fmask 0 (8 * n)
/-- An aperture access of a processor (R177, R190). -/
def procAcc (p : Nat) (kind : AccKind) (a n : Nat) (v : Word) (ret : Ret) : FabAcc :=
  { ident := procId p, kind := kind, addr := wordAddr a, bytes := 4, fbe := (2 ^ n - 1) * 2 ^ (a % 4), lbe := 0, data := [v <<< (8 * (a % 4))], ret := ret }

/-- Is an address among the own retained variables of a stage pair (R208, R219)? -/
def ownRet (p a : Nat) : Bool := decide (p < 2 ∧ retVars p ≤ a ∧ a < retVars p + 0x3C000)
/-- Does an address lie in the pair's own TCM (R208)? -/
def ownTcm (p a : Nat) : Bool := decide (p < 2) && decide (area a = .tcm) && decide (domOf a = 0x10 + p)

/-- The value a buffered or not yet applied retained word has (R219). -/
def State.retWord (s : State) (p a : Nat) : Option Word :=
  if !ownRet p a then none
  else match slook (s.pair p).rbuf (wordAddr a) with
    | some v => some v
    | none => slook (s.pair p).jpend (wordAddr a)

/-- Read `n` bytes at `a` (R244). -/
def State.accRead (s : State) (p a n : Nat) (t : Trail) : Acc × Trail × State :=
  if a % n ≠ 0 then (.trap 3 (BitVec.ofNat 32 a), t, s)
  else
    match t.g with
    | v :: g => (.val (if area a = .aperture then laneOut a n v else v), ⟨g, t.h ++ [v]⟩, s)
    | [] =>
      if area a = .aperture then (.hold, t, (s.stallFab p t).fabIssue (procAcc p .read a n 0 (.proc p)))
      else
        match s.retWord p a with
        | some w => (.val (laneOut a n w), ⟨[], t.h ++ [laneOut a n w]⟩, s)
        | none =>
          match (if n = 4 then s.locRead (procId p) a else s.locNarrowRead (procId p) a n) with
          | (.ok v, s) => (.val v, ⟨[], t.h ++ [v]⟩, s)
          | (.bad, s) => if ownTcm p a then (.hold, t, s) else (.trap 6 (BitVec.ofNat 32 a), t, s)
          | (.wait, s) => (.hold, t, s.keepTrail p t)
          | (.none, s) => (.val 0, ⟨[], t.h ++ [0]⟩, s)

/-- A word stored to the pair's own retained variables: into the retained write buffer, or, as a 513th distinct word, straight to MRAM (R219). -/
def State.retStore (s : State) (p a : Nat) (v : Word) : State :=
  let l := (s.pair p).rbuf
  if l.any (fun e => e.1 = a) then s.setPair p (fun x => { x with rbuf := l.map (fun e => if e.1 = a then (a, v) else e) })
  else if l.length < 512 then s.setPair p (fun x => { x with rbuf := l ++ [(a, v)] })
  else ((s.putWord a v).event (F.STG_EVT_retovf p)).inc (F.STG_CNT_RETOVF p)

/-- Write the low `n` bytes of `v` at `a` (R244). -/
def State.accWrite (s : State) (p a n : Nat) (v : Word) (t : Trail) : Acc × State :=
  if a % n ≠ 0 then (.trap 3 (BitVec.ofNat 32 a), s)
  else if area a = .aperture then
    let acc := procAcc p .write a n (laneOut 0 n v) .drop
    if s.fabPosted acc then (.val 0, s.fabIssue acc)
    else if t.g.isEmpty then (.hold, (s.stallFab p t).fabIssue { acc with ret := .proc p })
    else (.val 0, s)
  else if ownRet p a && decide (n = 4) then (.val 0, s.retStore p a v)
  else
    match (if n = 4 then s.locWrite (procId p) a v else s.locNarrowWrite (procId p) a n v.toNat) with
    | (.wait, s) => (.hold, s.keepTrail p t)
    | (.narrow, s) => if area a = .reg then (.val 0, s) else (.trap 4 (BitVec.ofNat 32 a), s)
    | (_, s) => (.val 0, s)

/-- What a read of `n` bytes gives in a register: zero- or sign-extended. -/
def extend (n : Nat) (sg : Bool) (v : Word) : Word := if sg then fieldOut 0 (8 * n) true v else v

/-- ws + sign-extended imm16 (R244). -/
def State.ea (s : State) (p : Nat) (r : IFmt) : Nat := (s.getW p r.ws + r.imm.signExtend 32).toNat

/-- Loads (R244). -/
def State.loadBody (p n : Nat) (sg : Bool) (r : IFmt) (s : State) : Res × State :=
  match s.accRead p (s.ea p r) n (s.trail p) with
  | (.val v, _, s) => (.next, s.setW p r.wd (extend n sg v))
  | (.trap c a, _, s) => (.trap c a, s)
  | (.hold, _, s) => (.hold, s)
def State.load (s : State) (p : Fin 18) (maj n : Nat) (sg : Bool) (r : IFmt) : State := s.issue p (r.word maj) true (State.loadBody p n sg r)
/-- Stores (R244): the data comes from the wd field. -/
def State.storeBody (p n : Nat) (r : IFmt) (s : State) : Res × State :=
  match s.accWrite p (s.ea p r) n (s.getW p r.wd) (s.trail p) with
  | (.val _, s) => (.next, s)
  | (.trap c a, s) => (.trap c a, s)
  | (.hold, s) => (.hold, s)
def State.store (s : State) (p : Fin 18) (maj n : Nat) (r : IFmt) : State := s.issue p (r.word maj) true (State.storeBody p n r)

def execLdB (p : Fin 18) (r : IFmt) (s : State) : Out := .next (s.load p 0x10 1 true r)
def execLdBu (p : Fin 18) (r : IFmt) (s : State) : Out := .next (s.load p 0x11 1 false r)
def execLdH (p : Fin 18) (r : IFmt) (s : State) : Out := .next (s.load p 0x12 2 true r)
def execLdHu (p : Fin 18) (r : IFmt) (s : State) : Out := .next (s.load p 0x13 2 false r)
def execLdW (p : Fin 18) (r : IFmt) (s : State) : Out := .next (s.load p 0x14 4 false r)
def execStB (p : Fin 18) (r : IFmt) (s : State) : Out := .next (s.store p 0x16 1 r)
def execStH (p : Fin 18) (r : IFmt) (s : State) : Out := .next (s.store p 0x17 2 r)
def execStW (p : Fin 18) (r : IFmt) (s : State) : Out := .next (s.store p 0x18 4 r)

/-- Atomics (R245): house memory at its bank, the aperture as an atomic frame, any other address an ATOMIC trap. -/
def State.atomicBody (p : Nat) (kind : AccKind) (f : Word → Word → Word) (r : RFmt) (s : State) : Res × State :=
  let a := (s.getW p r.ws).toNat
  let b := s.getW p r.wt
  let w := BitVec.ofNat 32 a
  if a % 4 ≠ 0 then (.trap 3 w, s)
  else if area a = .aperture then
    match (s.trail p).g with
    | v :: _ => (.next, s.setW p r.wd v)
    | [] => (.hold, (s.stallFab p ⟨[], []⟩).fabIssue (procAcc p kind a 4 b (.proc p)))
  else if area a ≠ .house then (.trap 5 w, s)
  else
    match s.atomic (procId p) a (fun old => f old b) with
    | (.ok v, s) => (.next, s.setW p r.wd v)
    | (.bad, s) => (.trap 6 w, s)
    | (.wait, s) => (.hold, s)
    | (.none, s) => (.next, s.setW p r.wd 0)
def State.atomicOp (s : State) (p : Fin 18) (fn : Nat) (kind : AccKind) (f : Word → Word → Word) (r : RFmt) : State :=
  s.issue p (r.word 0x19 fn) (decide (r.x = 0)) (State.atomicBody p kind f r)
def execAmadd (p : Fin 18) (r : RFmt) (s : State) : Out := .next (s.atomicOp p 0 .add (fun old b => old + b) r)
def execAmswap (p : Fin 18) (r : RFmt) (s : State) : Out := .next (s.atomicOp p 1 .swap (fun _ b => b) r)

/-- How an element step ends (R251). -/
inductive Elem where
  /-- w5 is zero, or the elements compared differ: nothing was done -/
  | ended
  | did
  | trap (cause : Nat) (tval : Word)
  | hold
  deriving DecidableEq, Repr

/-- Advance an address register by a stride of elements of `n` bytes. -/
def State.stepW (s : State) (p i n : Nat) (stride : Nat) : State := s.setW p i (s.getW p i + BitVec.ofInt 32 (sgn 4 stride * n))
def State.countW (s : State) (p : Nat) : State := s.setW p 5 (s.getW p 5 - 1)

/-- `movs`: read at w6, write at w7. -/
def State.elemMove (s : State) (p n ss ds : Nat) : Elem × State :=
  match s.accRead p (s.getW p 6).toNat n (s.trail p) with
  | (.val v, t, s) =>
    match s.accWrite p (s.getW p 7).toNat n v t with
    | (.val _, s) => (.did, ((s.stepW p 6 n ss).stepW p 7 n ds).countW p)
    | (.trap c a, s) => (.trap c a, s)
    | (.hold, s) => (.hold, s)
  | (.trap c a, _, s) => (.trap c a, s)
  | (.hold, _, s) => (.hold, s)
/-- `fills`: write w6 at w7. -/
def State.elemFill (s : State) (p n ds : Nat) : Elem × State :=
  match s.accWrite p (s.getW p 7).toNat n (s.getW p 6) (s.trail p) with
  | (.val _, s) => (.did, (s.stepW p 7 n ds).countW p)
  | (.trap c a, s) => (.trap c a, s)
  | (.hold, s) => (.hold, s)
/-- `cmps`: compare the elements at w6 and w7. -/
def State.elemCmp (s : State) (p n ss ds : Nat) : Elem × State :=
  match s.accRead p (s.getW p 6).toNat n (s.trail p) with
  | (.val v, t, s) =>
    match s.accRead p (s.getW p 7).toNat n t with
    | (.val u, _, s) => if v = u then (.did, ((s.stepW p 6 n ss).stepW p 7 n ds).countW p) else (.ended, s)
    | (.trap c a, _, s) => (.trap c a, s)
    | (.hold, _, s) => (.hold, s)
  | (.trap c a, _, s) => (.trap c a, s)
  | (.hold, _, s) => (.hold, s)

/-- One element step: op 0 `movs`, 1 `fills`, 2 `cmps`; size 0, 1, 2 (R250, R251). -/
def State.element (s : State) (p op size ss ds : Nat) : Elem × State :=
  let n := 2 ^ size
  if s.getW p 5 = 0 then (.ended, s)
  else match op with
    | 0 => s.elemMove p n ss ds
    | 1 => s.elemFill p n ds
    | _ => s.elemCmp p n ss ds

/-- Legal fields of a string instruction (R250). -/
def strOk (op size ss z : Nat) : Bool := decide (size ≠ 3 ∧ z = 0 ∧ (op = 1 → ss = 0))
def State.stringBody (p op : Nat) (r : StrFmt) (s : State) : Res × State :=
  match s.element p op r.size r.ss r.ds with
  | (.trap c a, s) => (.trap c a, s)
  | (.hold, s) => (.hold, s)
  | (_, s) => (.next, s)
def State.string (s : State) (p : Fin 18) (op : Nat) (r : StrFmt) : State :=
  s.issue p (r.word op) (strOk op r.size r.ss r.z) (State.stringBody p op r)
def execMovs (p : Fin 18) (r : StrFmt) (s : State) : Out := .next (s.string p 0 r)
def execFills (p : Fin 18) (r : StrFmt) (s : State) : Out := .next (s.string p 1 r)
def execCmps (p : Fin 18) (r : StrFmt) (s : State) : Out := .next (s.string p 2 r)

/-- Is a word a string instruction that may follow `rep` (R252)? -/
def isString (x : Word) : Bool :=
  decide (getF x 26 6 = 0x1A ∧ getF x 24 2 ≠ 3) && strOk (getF x 24 2) (getF x 22 2) (getF x 18 4) (getF x 0 14)
/-- One element step of a block instruction; the PC stays at the `rep` until the block ends (R252, R253). -/
def State.repBody (p : Nat) (w : Word) (s : State) : Res × State :=
  let pc := s.pcOf p
  match s.fetch p (pc + 4) with
  | (.trap, s) => (.trap 1 w, s)
  | (.dead, s) => (.hold, s)
  | (.wait, s) => (.hold, s)
  | (.word x, s) =>
    if !isString x then (.trap 1 w, s)
    else match s.element p (getF x 24 2) (getF x 22 2) (getF x 18 4) (getF x 14 4) with
      | (.trap c a, s) => (.trap c a, s)
      | (.hold, s) => (.hold, s)
      | (.ended, s) => (.jump (pc + 8), s)
      | (.did, s) => (.jump (if s.getW p 5 = 0 then pc + 8 else pc), s)
def State.runRep (s : State) (p : Fin 18) (r : StrFmt) : State :=
  s.issue p (r.word 3) (decide (r.size = 0 ∧ r.ss = 0 ∧ r.ds = 0 ∧ r.z = 0)) (State.repBody p (r.word 3))
def execRep (p : Fin 18) (r : StrFmt) (s : State) : Out := .next (s.runRep p r)

/-- Format R of major 0x25: which of x, wt, wd, ws are used (R254). -/
def RFmt.uses (r : RFmt) (x wt wd ws : Bool) : Bool := (x || decide (r.x = 0)) && (wt || decide (r.wt = 0)) && (wd || decide (r.wd = 0)) && (ws || decide (r.ws = 0))
def State.sysOp (s : State) (p : Fin 18) (fn : Nat) (r : RFmt) (ok : Bool) (body : State → Res × State) : State := s.issue p (r.word 0x25 fn) ok body

def State.runTrap (s : State) (p : Fin 18) (r : RFmt) : State :=
  s.sysOp p 0 r (RFmt.uses r true true false false) (fun s => (.trap 7 (BitVec.ofNat 32 (r.x * 32 + r.wt)), s))
def execTrap (p : Fin 18) (r : RFmt) (s : State) : Out := .next (s.runTrap p r)

/-- `brk`: a debug halt if a debugger is attached, with the PC at the next word (notes/assumptions/28.md), otherwise a BREAK trap (R254). -/
def State.brkBody (p : Nat) (w : Word) (s : State) : Res × State :=
  if !s.on F.DBG_CTL_attached then (.trap 8 w, s)
  else
    let s := s.setPc p (s.pcOf p + 4)
    (.hold, if p < 2 then s.debugHalt p else (s.setProc p (fun x => { x with stall := .debug })).emit (.halt p))
def State.runBrk (s : State) (p : Fin 18) (r : RFmt) : State := s.sysOp p 1 r (RFmt.uses r false false false false) (State.brkBody p (r.word 0x25 1))
def execBrk (p : Fin 18) (r : RFmt) (s : State) : Out := .next (s.runBrk p r)

/-- `tret` (R254). -/
def State.runTret (s : State) (p : Fin 18) (r : RFmt) : State :=
  s.sysOp p 2 r (RFmt.uses r false false false false) (fun s => (.jump (s.sr p 1).toNat, s.setSr p 0 (returnStatus (s.sr p 0))))
def execTret (p : Fin 18) (r : RFmt) (s : State) : Out := .next (s.runTret p r)

/-- What `rds` reads (R235). -/
def State.srRead (s : State) (p n : Nat) : Word :=
  match n with
  | 6 => BitVec.ofNat 32 (procId p)
  | 7 => if p < 2 then s.reg (F.STG_CYCNUM_LO p).addr else 0#32
  | _ => s.sr p n
/-- What `wrs` writes: the RW fields; ie only on engines (R235). -/
def State.srWrite (s : State) (p n : Nat) (v : Word) : State :=
  match n with
  | 0 => if p < 2 then s else s.setSr p 0 (setF (s.sr p 0) 1 1 (getF v 1 1))
  | 1 => s.setSr p 1 v
  | 4 => s.setSr p 4 (v &&& 0xFFFFFF01#32)
  | 5 => s.setSr p 5 v
  | _ => s
def State.runRds (s : State) (p : Fin 18) (r : RFmt) : State :=
  s.sysOp p 3 r (RFmt.uses r false true true false && decide (r.wt.val < 8)) (fun s => (.next, s.setW p r.wd (s.srRead p r.wt)))
def execRds (p : Fin 18) (r : RFmt) (s : State) : Out := .next (s.runRds p r)
def State.runWrs (s : State) (p : Fin 18) (r : RFmt) : State :=
  s.sysOp p 4 r (RFmt.uses r false true false true && decide (r.wt.val < 8)) (fun s => (.next, s.srWrite p r.wt (s.getW p r.ws)))
def execWrs (p : Fin 18) (r : RFmt) (s : State) : Out := .next (s.runWrs p r)

/-- `drain`: a store to a memory or register has reached it when the store is done here; a posted fabric write has once it is granted (R174, R246). -/
def State.drainBody (p : Nat) (s : State) : Res × State := if s.fab.reqs.any (fun a => a.ident = procId p) then (.hold, s) else (.next, s)
def State.runDrain (s : State) (p : Fin 18) (r : RFmt) : State := s.sysOp p 5 r (RFmt.uses r false false false false) (State.drainBody p)
def execDrain (p : Fin 18) (r : RFmt) (s : State) : Out := .next (s.runDrain p r)

/-- Program time (R218, R255, notes/assumptions/27.md). -/
def State.progTime (s : State) (p : Nat) : Nat :=
  if p < 2 then (((s.raw : Int) - (s.rd (F.STG_PTOFS_LO p) + s.rd (F.STG_PTOFS_HI p) * 2 ^ 32)) % 2 ^ 64).toNat else s.raw
def tgetOk (r : RFmt) : Bool := RFmt.uses r true false true false && (decide (r.x = 2) || (decide (r.x.val < 2) && decide (r.wd.val % 2 = 0 ∧ 2 ≤ r.wd.val)))
def State.tgetBody (p : Nat) (r : RFmt) (s : State) : Res × State :=
  if r.x = 2 then (.next, s.setW p r.wd (BitVec.ofNat 32 s.rawLo))
  else
    let v := if r.x = 0 then s.raw else s.progTime p
    (.next, (s.setW p r.wd (BitVec.ofNat 32 v)).setW p (r.wd + 1) (BitVec.ofNat 32 (v / 2 ^ 32)))
def State.runTget (s : State) (p : Fin 18) (r : RFmt) : State := s.sysOp p 6 r (tgetOk r) (State.tgetBody p r)
def execTget (p : Fin 18) (r : RFmt) (s : State) : Out := .next (s.runTget p r)

end Sys2Proof.Machine
end

