-- ==== Sys2Proof/Machine/IsaIo.lean ====
section
/-! DEFINITION. The stage instruction set: the engine I/O extension and the end of a cycle (R260–R264), interrupt entry (R259), and ad-lib instructions
(R265–R267). -/
namespace Sys2Proof.Machine
open Sys2Proof

/-- The engine number of a processor that is an engine. -/
def engNo (p : Nat) : Nat := p - 2
/-- Does the engine own the stagehand (R261, R270)? -/
def State.ownsHand (s : State) (p h : Nat) : Bool := decide (s.handOwner h = engNo p)
/-- Endpoint of channel `c`: 0 none, 1 CAN, 2 MAC (R279). -/
def State.chanEp (s : State) (p c : Nat) : Nat := s.rd (F.ENG_CHCFG_endpoint (engNo p) c)
/-- Does a unit field name a unit of the engine: a stagehand it owns, or a channel with an endpoint (R261, R279)? -/
def State.ioOwned (s : State) (p u : Nat) : Bool := if u < 32 then s.ownsHand p u else decide (s.chanEp p (u - 32) ≠ 0)

/-- SR_STATUS.drop and .stale (R235, R262). -/
def State.setDrop (s : State) (p : Nat) (b : Bool) : State := s.setSr p 0 (setF (s.sr p 0) 9 1 (bit1 b))
def State.setStale (s : State) (p : Nat) (b : Bool) : State := s.setSr p 0 (setF (s.sr p 0) 8 1 (bit1 b))

/-- Is there room for a word in the transmit FIFO of a unit, and is there one in its receive FIFO (R262)? -/
def State.ioRoom (s : State) (p u : Nat) : Bool :=
  if u < 32 then decide ((s.hand u).txf.length < 8) else decide ((s.chTx (engNo p) (u - 32)).length < 16)
def State.ioAny (s : State) (p u : Nat) : Bool := if u < 32 then !(s.hand u).rxf.isEmpty else !(s.chRx (engNo p) (u - 32)).isEmpty

/-- A word into the transmit FIFO of a channel that has room: the endpoint takes what it can (R279, R340, R374). -/
def State.chanPush (s : State) (e c : Nat) (v : Word) : State :=
  let u := s.rd (F.ENG_CHCFG_unit e c)
  if s.rd (F.ENG_CHCFG_endpoint e c) = 1 then (s.setTx e c (s.chTx e c ++ [v])).canTake u else s.engPush e c (u % 4) v
/-- The oldest word of a channel's receive FIFO; the endpoint refills it. -/
def State.chanPop (s : State) (e c : Nat) : Word × State :=
  let l := s.chRx e c
  let v := l.headD 0
  let s := (s.setRx e c l.tail).setEng e (fun x => { x with lastPop := sins (sdel x.lastPop (32 + c)) (32 + c) v })
  (v, if s.rd (F.ENG_CHCFG_endpoint e c) = 1 then s.canFill (s.rd (F.ENG_CHCFG_unit e c)) else s.netFill (e * 8 + c) 256)

/-- `push` (R261, R262). -/
def State.pushBody (p : Nat) (r : IoFmt) (w : Word) (s : State) : Res × State :=
  let u := r.unit.val
  let v := s.getW p r.wr
  if !s.ioOwned p u then (.trap 10 w, s)
  else if s.ioRoom p u then
    let s := if r.nb then s.setDrop p false else s
    (.next, if u < 32 then (s.handPush u v).2 else s.chanPush (engNo p) (u - 32) v)
  else if !r.nb then (.hold, s)
  else
    let s := s.setDrop p true
    (.next, if u < 32 then (s.handPush u v).2
      else (s.inc (F.ENG_CHSTAT_drops (engNo p) (u - 32))).wr (F.ENG_CHSTAT_drop (engNo p) (u - 32)) 1)

/-- `pop` (R261, R262). -/
def State.popBody (p : Nat) (r : IoFmt) (w : Word) (s : State) : Res × State :=
  let u := r.unit.val
  if !s.ioOwned p u then (.trap 10 w, s)
  else if s.ioAny p u then
    let s := if r.nb then s.setStale p false else s
    if u < 32 then (let a := s.handPop u; (.next, a.2.2.setW p r.wr a.1)) else (let a := s.chanPop (engNo p) (u - 32); (.next, a.2.setW p r.wr a.1))
  else if !r.nb then (.hold, s)
  else
    let s := s.setStale p true
    if u < 32 then (let a := s.handPop u; (.next, a.2.2.setW p r.wr a.1))
    else (.next, (s.wr (F.ENG_CHSTAT_stale (engNo p) (u - 32)) 1).setW p r.wr ((slook (s.eng (engNo p)).lastPop u).getD 0))

/-- Legal fields and kind of processor of the functions (R239, R256, R260, R261). -/
def ioUnitOk (p : Nat) (r : IoFmt) : Bool := decide (2 ≤ p) && decide (r.wm = 0 ∧ r.z = 0 ∧ r.unit.val < 40)
def State.ioOp (s : State) (p : Fin 18) (fn : Nat) (r : IoFmt) (ok : Bool) (body : State → Res × State) : State := s.issue p (r.word fn) ok body
def State.runPush (s : State) (p : Fin 18) (r : IoFmt) : State := s.ioOp p 0 r (ioUnitOk p r) (State.pushBody p r (r.word 0))
def execPush (p : Fin 18) (r : IoFmt) (s : State) : Out := .next (s.runPush p r)
def State.runPop (s : State) (p : Fin 18) (r : IoFmt) : State := s.ioOp p 1 r (ioUnitOk p r) (State.popBody p r (r.word 1))
def execPop (p : Fin 18) (r : IoFmt) (s : State) : Out := .next (s.runPop p r)

/-- `hctl`: op 0 disable, 1 enable, 2 restart, as the control register does (R261, R300, R301); a unit that is no stagehand of the engine faults. -/
def State.hctlBody (p : Nat) (r : IoFmt) (w : Word) (s : State) : Res × State :=
  let h := r.unit.val
  if h ≥ 32 || !s.ownsHand p h then (.trap 10 w, s)
  else (.next, match r.wm.val with | 0 => s.handOff h | 1 => s.handOn h | _ => s.handRestart h)
def hctlOk (p : Nat) (r : IoFmt) : Bool := decide (2 ≤ p) && decide (r.wr = 0 ∧ r.nb = false ∧ r.z = 0 ∧ r.wm.val < 3 ∧ r.unit.val < 40)
def State.runHctl (s : State) (p : Fin 18) (r : IoFmt) : State := s.ioOp p 2 r (hctlOk p r) (State.hctlBody p r (r.word 2))
def execHctl (p : Fin 18) (r : IoFmt) (s : State) : Out := .next (s.runHctl p r)

/-- `hsync` (R261, R296). -/
def State.hsyncBody (p : Nat) (r : IoFmt) (w : Word) (s : State) : Res × State :=
  let m := (s.getW p r.wr).toNat
  if (ones 32 m).any (fun h => !s.ownsHand p h) then (.trap 10 w, s) else (.next, s.handSync m)
def hsyncOk (p : Nat) (r : IoFmt) : Bool := decide (2 ≤ p) && decide (r.wm = 0 ∧ r.nb = false ∧ r.z = 0 ∧ r.unit = 0)
def State.runHsync (s : State) (p : Fin 18) (r : IoFmt) : State := s.ioOp p 3 r (hsyncOk p r) (State.hsyncBody p r (r.word 3))
def execHsync (p : Fin 18) (r : IoFmt) (s : State) : Out := .next (s.runHsync p r)

/-- Pending events of a processor, and the clearing of those returned (R263, R274). -/
def State.evPending (s : State) (p : Nat) : Word := if p < 2 then BitVec.ofNat 32 (s.pair p).ev else s.evtWord (engNo p)
def State.evTake (s : State) (p : Nat) (m : Word) : State :=
  if p < 2 then s.setPair p (fun x => { x with ev := (BitVec.ofNat 32 x.ev &&& ~~~ m).toNat }) else s.evtClear (engNo p) m
/-- `wev` (R263). -/
def State.wevBody (p : Nat) (r : IoFmt) (s : State) : Res × State :=
  let m := s.getW p r.wm
  let e := s.evPending p &&& m
  if e = 0 ∧ m ≠ 0 ∧ r.nb = false then (.hold, s) else (.next, (s.evTake p e).setW p r.wr e)
def State.runWev (s : State) (p : Fin 18) (r : IoFmt) : State := s.ioOp p 4 r (decide (r.z = 0 ∧ r.unit = 0)) (State.wevBody p r)
def execWev (p : Fin 18) (r : IoFmt) (s : State) : Out := .next (s.runWev p r)

/-- `wev.eoc`: the cores of the pair wait for their next entry (R264). -/
def State.eocBody (p : Nat) (s : State) : Res × State := (.hold, (s.setPc p (s.pcOf p + 4)).endLogic p)
def eocOk (p : Nat) (r : IoFmt) : Bool := decide (p < 2) && decide (r.wr = 0 ∧ r.wm = 0 ∧ r.nb = false ∧ r.z = 0 ∧ r.unit = 0)
def State.runEoc (s : State) (p : Fin 18) (r : IoFmt) : State := s.ioOp p 5 r (eocOk p r) (State.eocBody p)
def execWevEoc (p : Fin 18) (r : IoFmt) (s : State) : Out := .next (s.runEoc p r)

/-- INTERRUPT_ENTRY (R259): an engine with ie 1 and intrap 0 and an enabled event pending, between instructions or element steps, or in a waiting I/O
instruction. With the vectors not valid it takes none (notes/assumptions/29.md). -/
def State.interrupt (s : State) (n : Nat) : State :=
  let p := 2 + n
  let x := s.proc p
  if s.procRuns p && x.got.isEmpty && stIe (s.sr p 0) && !stIntrap (s.sr p 0) && s.vecOn p
      && decide (s.evtWord n &&& s.reg (F.ENG_IEN n).addr ≠ 0) then
    (s.recordTrap p (BitVec.ofNat 32 x.pc) 0x80000000#32 0).enterHandler p 0x80
  else s
def execInterruptEntry (n : Fin 16) (s : State) : Out := .next (s.guardUp (fun s => s.interrupt n))

/-- Operands and temporaries of one ad-lib execution (R266). -/
structure Adlib where
  wd : Word
  ws : Word
  wt : Word
  imm : Word
  t : List Word
  deriving DecidableEq, Repr

/-- The source a or b names (R266). -/
def uopSrc (e : Adlib) (k : Nat) : Word :=
  if k < 8 then wAt e.t k
  else match k with
    | 8 => e.wd
    | 9 => e.ws
    | 10 => e.wt
    | 11 => e.imm
    | _ => 0#32
def uopImm (u : Word) : Word := BitVec.ofInt 32 (sgn 12 (getF u 0 12))
/-- Micro-operations without a memory access (R266). -/
def uopAlu (u a b : Word) : Word :=
  let sh := b.toNat % 32
  match uopOp u with
  | 0 => a + b
  | 1 => a - b
  | 2 => a &&& b
  | 3 => a ||| b
  | 4 => a ^^^ b
  | 5 => a <<< sh
  | 6 => a >>> sh
  | 7 => a.sshiftRight sh
  | 8 => a * b
  | 9 => mulHiU a b
  | 10 => boolW (a.slt b)
  | 11 => boolW (a.ult b)
  | 12 => if a.slt b then a else b
  | 13 => if a.slt b then b else a
  | 14 => clz32 a
  | 21 => fieldOut (getF u 0 5) (getF u 5 5 + 1) (decide (getF u 10 1 = 1)) a
  | 22 => setF a (getF u 0 5) (getF u 5 5 + 1) b.toNat
  | 23 => uopImm u
  | 24 => f32Add a b
  | _ => f32Mul a b
/-- Bytes of a memory micro-operation. -/
def uopBytes (op : Nat) : Nat := match op with | 15 => 4 | 16 => 1 | 17 => 2 | 18 => 4 | 19 => 2 | _ => 1

/-- The micro-operations of an entry, in order; `out`: the value for wd (R265–R267). -/
def State.uops (s : State) (p : Nat) (e : Adlib) (out : Option Word) (t : Trail) : List Word → (Res × Option Word) × State
  | [] => ((.next, out), s)
  | u :: rest =>
    let a := uopSrc e (getF u 18 4)
    let b := uopSrc e (getF u 14 4)
    let at_ := (a + uopImm u).toNat
    let n := uopBytes (uopOp u)
    let d := uopDst u
    let put := fun (v : Word) => (if d < 8 then { e with t := updAt e.t d (fun _ => v) } else e, if d = 8 then some v else out)
    if uopIsLd u then
      match s.accRead p at_ n t with
      | (.val v, t, s) => s.uops p (put v).1 (put v).2 t rest
      | (.trap c x, _, s) => ((.trap c x, none), s)
      | (.hold, _, s) => ((.hold, none), s)
    else if uopIsSt u then
      match s.accWrite p at_ n b t with
      | (.val _, s) => s.uops p e out t rest
      | (.trap c x, s) => ((.trap c x, none), s)
      | (.hold, s) => ((.hold, none), s)
    else s.uops p (put (uopAlu u a b)).1 (put (uopAlu u a b)).2 t rest

/-- An ad-lib instruction (R265). -/
def State.adlibBody (p : Nat) (r : AdlibFmt) (s : State) : Res × State :=
  let l := s.adlibEnt r.sel
  if l.isEmpty then (.trap 9 r.word, s)
  else
    let e : Adlib := ⟨s.getW p r.wd, s.getW p r.ws, s.getW p r.wt, BitVec.ofInt 32 (sgn 7 r.imm7), List.replicate 8 0⟩
    match s.uops p e none (s.trail p) l with
    | ((.next, some v), s) => (.next, s.setW p r.wd v)
    | ((x, _), s) => (x, s)
def State.runAdlib (s : State) (p : Fin 18) (r : AdlibFmt) : State := s.issue p r.word true (State.adlibBody p r)
def execAdLib (p : Fin 18) (r : AdlibFmt) (s : State) : Out := .next (s.runAdlib p r)

end Sys2Proof.Machine
end

