-- ==== Sys2Proof/Machine/Dispatch.lean ====
section
/-! DEFINITION. The effect of a command: one arm per constructor of Instr, each a direct call of its meaning. -/
namespace Sys2Proof.Machine

def exec (i : Instr) (s : State) : Host.Outcome State Fault Refusal :=
  match i with
  | .sysNop seq env => Sys2Proof.Machine.execSysNop seq env s
  | .sysIdent seq env => Sys2Proof.Machine.execSysIdent seq env s
  | .sysReset seq env => Sys2Proof.Machine.execSysReset seq env s
  | .sysStatus seq env => Sys2Proof.Machine.execSysStatus seq env s
  | .sysFwload seq env => Sys2Proof.Machine.execSysFwload seq env s
  | .sysFwselect seq env => Sys2Proof.Machine.execSysFwselect seq env s
  | .storeRead seq env => Sys2Proof.Machine.execStoreRead seq env s
  | .storeWrite seq env => Sys2Proof.Machine.execStoreWrite seq env s
  | .storeList seq env => Sys2Proof.Machine.execStoreList seq env s
  | .storeErase seq env => Sys2Proof.Machine.execStoreErase seq env s
  | .storeStatus seq env => Sys2Proof.Machine.execStoreStatus seq env s
  | .storeFactory seq env => Sys2Proof.Machine.execStoreFactory seq env s
  | .ringConfig seq => Sys2Proof.Machine.execRingConfig seq s
  | .ringSchedule seq env => Sys2Proof.Machine.execRingSchedule seq env s
  | .ringCommit seq => Sys2Proof.Machine.execRingCommit seq s
  | .ringJoin seq env => Sys2Proof.Machine.execRingJoin seq env s
  | .ringLeave seq => Sys2Proof.Machine.execRingLeave seq s
  | .ringSplit seq => Sys2Proof.Machine.execRingSplit seq s
  | .ringCredits seq => Sys2Proof.Machine.execRingCredits seq s
  | .ringHeal seq => Sys2Proof.Machine.execRingHeal seq s
  | .ringStatus seq => Sys2Proof.Machine.execRingStatus seq s
  | .timeStarter seq => Sys2Proof.Machine.execTimeStarter seq s
  | .timeSet seq => Sys2Proof.Machine.execTimeSet seq s
  | .timeAsym seq => Sys2Proof.Machine.execTimeAsym seq s
  | .timeTrig seq => Sys2Proof.Machine.execTimeTrig seq s
  | .timeCapt seq => Sys2Proof.Machine.execTimeCapt seq s
  | .timeUtc seq => Sys2Proof.Machine.execTimeUtc seq s
  | .timePtp seq => Sys2Proof.Machine.execTimePtp seq s
  | .timeStatus seq => Sys2Proof.Machine.execTimeStatus seq s
  | .mrshConfig seq => Sys2Proof.Machine.execMrshConfig seq s
  | .mrshMode seq => Sys2Proof.Machine.execMrshMode seq s
  | .mrshStatus seq => Sys2Proof.Machine.execMrshStatus seq s
  | .mrshClear seq => Sys2Proof.Machine.execMrshClear seq s
  | .fabWindow seq env => Sys2Proof.Machine.execFabWindow seq env s
  | .fabLogread seq env => Sys2Proof.Machine.execFabLogread seq env s
  | .fabLogclr seq env => Sys2Proof.Machine.execFabLogclr seq env s
  | .fabFenceclr seq => Sys2Proof.Machine.execFabFenceclr seq s
  | .gateRoute seq env => Sys2Proof.Machine.execGateRoute seq env s
  | .gateRate seq => Sys2Proof.Machine.execGateRate seq s
  | .gateCache seq => Sys2Proof.Machine.execGateCache seq s
  | .gateStatus seq => Sys2Proof.Machine.execGateStatus seq s
  | .stageLoad seq env => Sys2Proof.Machine.execStageLoad seq env s
  | .stageVerify seq env => Sys2Proof.Machine.execStageVerify seq env s
  | .stageArm seq env => Sys2Proof.Machine.execStageArm seq env s
  | .stageCue seq env => Sys2Proof.Machine.execStageCue seq env s
  | .stageDisarm seq env => Sys2Proof.Machine.execStageDisarm seq env s
  | .stageMode seq env => Sys2Proof.Machine.execStageMode seq env s
  | .stageRestart seq env => Sys2Proof.Machine.execStageRestart seq env s
  | .stageCycle seq env => Sys2Proof.Machine.execStageCycle seq env s
  | .stageStatus seq env => Sys2Proof.Machine.execStageStatus seq env s
  | .engLoad seq env => Sys2Proof.Machine.execEngLoad seq env s
  | .engStart seq env => Sys2Proof.Machine.execEngStart seq env s
  | .engStop seq => Sys2Proof.Machine.execEngStop seq s
  | .engMatrix seq => Sys2Proof.Machine.execEngMatrix seq s
  | .engHands seq => Sys2Proof.Machine.execEngHands seq s
  | .engAdlib seq => Sys2Proof.Machine.execEngAdlib seq s
  | .engAdliblock seq => Sys2Proof.Machine.execEngAdliblock seq s
  | .engStatus seq => Sys2Proof.Machine.execEngStatus seq s
  | .lineMode seq env => Sys2Proof.Machine.execLineMode seq env s
  | .lineCal seq env => Sys2Proof.Machine.execLineCal seq env s
  | .lineScope seq env => Sys2Proof.Machine.execLineScope seq env s
  | .lineEcho seq env => Sys2Proof.Machine.execLineEcho seq env s
  | .lineMaint seq env => Sys2Proof.Machine.execLineMaint seq env s
  | .lineTelem seq env => Sys2Proof.Machine.execLineTelem seq env s
  | .dioMode seq env => Sys2Proof.Machine.execDioMode seq env s
  | .dioFilter seq env => Sys2Proof.Machine.execDioFilter seq env s
  | .dioSet seq env => Sys2Proof.Machine.execDioSet seq env s
  | .dioStatus seq env => Sys2Proof.Machine.execDioStatus seq env s
  | .canMode seq env => Sys2Proof.Machine.execCanMode seq env s
  | .canTiming seq env => Sys2Proof.Machine.execCanTiming seq env s
  | .canDetect seq env => Sys2Proof.Machine.execCanDetect seq env s
  | .canFilter seq env => Sys2Proof.Machine.execCanFilter seq env s
  | .canPair seq env => Sys2Proof.Machine.execCanPair seq env s
  | .canRecover seq env => Sys2Proof.Machine.execCanRecover seq env s
  | .canStatus seq env => Sys2Proof.Machine.execCanStatus seq env s
  | .netPort seq => Sys2Proof.Machine.execNetPort seq s
  | .netQueue seq => Sys2Proof.Machine.execNetQueue seq s
  | .netGates seq => Sys2Proof.Machine.execNetGates seq s
  | .netVlan seq => Sys2Proof.Machine.execNetVlan seq s
  | .netFdb seq => Sys2Proof.Machine.execNetFdb seq s
  | .netLimits seq => Sys2Proof.Machine.execNetLimits seq s
  | .netMirror seq => Sys2Proof.Machine.execNetMirror seq s
  | .netStatus seq => Sys2Proof.Machine.execNetStatus seq s
  | .motConfig seq => Sys2Proof.Machine.execMotConfig seq s
  | .motMove seq => Sys2Proof.Machine.execMotMove seq s
  | .motVelocity seq => Sys2Proof.Machine.execMotVelocity seq s
  | .motStop seq => Sys2Proof.Machine.execMotStop seq s
  | .motHome seq => Sys2Proof.Machine.execMotHome seq s
  | .motLatch seq => Sys2Proof.Machine.execMotLatch seq s
  | .motStatus seq => Sys2Proof.Machine.execMotStatus seq s
  | .drvConfig seq => Sys2Proof.Machine.execDrvConfig seq s
  | .drvEnable seq => Sys2Proof.Machine.execDrvEnable seq s
  | .drvCoil seq => Sys2Proof.Machine.execDrvCoil seq s
  | .drvClear seq => Sys2Proof.Machine.execDrvClear seq s
  | .drvStatus seq => Sys2Proof.Machine.execDrvStatus seq s
  | .memPower seq env => Sys2Proof.Machine.execMemPower seq env s
  | .memScrub seq env => Sys2Proof.Machine.execMemScrub seq env s
  | .memRemap seq env => Sys2Proof.Machine.execMemRemap seq env s
  | .memCopy seq env => Sys2Proof.Machine.execMemCopy seq env s
  | .memStatus seq env => Sys2Proof.Machine.execMemStatus seq env s
  | .safeTable seq env => Sys2Proof.Machine.execSafeTable seq env s
  | .safeRelease seq env => Sys2Proof.Machine.execSafeRelease seq env s
  | .safeStatus seq env => Sys2Proof.Machine.execSafeStatus seq env s
  | .diagBist seq env => Sys2Proof.Machine.execDiagBist seq env s
  | .diagLoop seq env => Sys2Proof.Machine.execDiagLoop seq env s
  | .diagInject seq env => Sys2Proof.Machine.execDiagInject seq env s
  | .diagWdog seq env => Sys2Proof.Machine.execDiagWdog seq env s
  | .bookHead seq env => Sys2Proof.Machine.execBookHead seq env s
  | .bookRead seq env => Sys2Proof.Machine.execBookRead seq env s
  | .bookFind seq env => Sys2Proof.Machine.execBookFind seq env s
  | .bookMark seq env => Sys2Proof.Machine.execBookMark seq env s
  | .hostConfig seq env => Sys2Proof.Machine.execHostConfig seq env s
  | .hostUnfence seq env => Sys2Proof.Machine.execHostUnfence seq env s
  | .hostStatus seq env => Sys2Proof.Machine.execHostStatus seq env s
  | .pwrDomain seq env => Sys2Proof.Machine.execPwrDomain seq env s
  | .pwrHoldup seq env => Sys2Proof.Machine.execPwrHoldup seq env s
  | .pwrStatus seq env => Sys2Proof.Machine.execPwrStatus seq env s
  | .callDoorbellWrite id c v => Sys2Proof.Machine.execCallDoorbellWrite id c v s
  | .callMessageWrite id c w v => Sys2Proof.Machine.execCallMessageWrite id c w v s
  | .callAckWrite id c v => Sys2Proof.Machine.execCallAckWrite id c v s
  | .callEvclr id c => Sys2Proof.Machine.execCallEvclr id c s
  | .callBindWrite id c v => Sys2Proof.Machine.execCallBindWrite id c v s
  | .callLock id => Sys2Proof.Machine.execCallLock id s
  | .callErrInfoClear id => Sys2Proof.Machine.execCallErrInfoClear id s
  | .callCntEvdropClear id => Sys2Proof.Machine.execCallCntEvdropClear id s
  | .doorbellProcessing c => Sys2Proof.Machine.execDoorbellProcessing c s
  | .slotConsumption env => Sys2Proof.Machine.execSlotConsumption env s
  | .commandStart seq env => Sys2Proof.Machine.execCommandStart seq env s
  | .commandEnd seq env => Sys2Proof.Machine.execCommandEnd seq env s
  | .completionInterrupt q => Sys2Proof.Machine.execCompletionInterrupt q s
  | .commandWatchdog seq => Sys2Proof.Machine.execCommandWatchdog seq s
  | .coreHeartbeat => Sys2Proof.Machine.execCoreHeartbeat s
  | .epochRecordRetry env => Sys2Proof.Machine.execEpochRecordRetry env s
  | .cmdQctlReset id q env => Sys2Proof.Machine.execCmdQctlReset id q env s
  | .cmdQctlCommit id q => Sys2Proof.Machine.execCmdQctlCommit id q s
  | .cmdQctlEnable id q env => Sys2Proof.Machine.execCmdQctlEnable id q env s
  | .cmdQctlDisable id q => Sys2Proof.Machine.execCmdQctlDisable id q s
  | .registerWrite id a whole v => Sys2Proof.Machine.execRegisterWrite id a whole v s
  | .sysDecerrInfoClear id => Sys2Proof.Machine.execSysDecerrInfoClear id s
  | .sysLinkerrClear id => Sys2Proof.Machine.execSysLinkerrClear id s
  | .viewIdtWrite id k v => Sys2Proof.Machine.execViewIdtWrite id k v s
  | .viewLock id => Sys2Proof.Machine.execViewLock id s
  | .viewFaultInfoClear id => Sys2Proof.Machine.execViewFaultInfoClear id s
  | .ringCtlCommit id => Sys2Proof.Machine.execRingCtlCommit id s
  | .ringCtlSplitcommit id => Sys2Proof.Machine.execRingCtlSplitcommit id s
  | .ringCtlCntclr id => Sys2Proof.Machine.execRingCtlCntclr id s
  | .ringPubcommit v => Sys2Proof.Machine.execRingPubcommit v s
  | .lapBoundary dep0 dep1 told0 told1 bad => Sys2Proof.Machine.execLapBoundary dep0 dep1 told0 told1 bad s
  | .outputHold p => Sys2Proof.Machine.execOutputHold p s
  | .scheduledWindow d n subtick => Sys2Proof.Machine.execScheduledWindow d n subtick s
  | .openWindowInsertion d subtick => Sys2Proof.Machine.execOpenWindowInsertion d subtick s
  | .transitBufferRelease d => Sys2Proof.Machine.execTransitBufferRelease d s
  | .splitPointFire n => Sys2Proof.Machine.execSplitPointFire n s
  | .lapFrame p f subtick res => Sys2Proof.Machine.execLapFrame p f subtick res s
  | .processFrame p f subtick => Sys2Proof.Machine.execProcessFrame p f subtick s
  | .write p f => Sys2Proof.Machine.execWrite p f s
  | .readRequest p f => Sys2Proof.Machine.execReadRequest p f s
  | .atomic p f => Sys2Proof.Machine.execAtomic p f s
  | .completion p f => Sys2Proof.Machine.execCompletion p f s
  | .message p f => Sys2Proof.Machine.execMessage p f s
  | .sideBand p f => Sys2Proof.Machine.execSideBand p f s
  | .inboundBufferDrain => Sys2Proof.Machine.execInboundBufferDrain s
  | .joinRequest p f => Sys2Proof.Machine.execJoinRequest p f s
  | .joinGrant p f => Sys2Proof.Machine.execJoinGrant p f s
  | .joinRefuse p f => Sys2Proof.Machine.execJoinRefuse p f s
  | .joinBusy p f => Sys2Proof.Machine.execJoinBusy p f s
  | .joinNoAnswer => Sys2Proof.Machine.execJoinNoAnswer s
  | .closeNotice p f => Sys2Proof.Machine.execCloseNotice p f s
  | .leaveRequest p f => Sys2Proof.Machine.execLeaveRequest p f s
  | .leaveNotice p f => Sys2Proof.Machine.execLeaveNotice p f s
  | .startClaim p f => Sys2Proof.Machine.execStartClaim p f s
  | .listenTime => Sys2Proof.Machine.execListenTime s
  | .settleTime => Sys2Proof.Machine.execSettleTime s
  | .eightMissedLaps => Sys2Proof.Machine.execEightMissedLaps s
  | .takeover dep0 dep1 => Sys2Proof.Machine.execTakeover dep0 dep1 s
  | .servoUpdate => Sys2Proof.Machine.execServoUpdate s
  | .delayMarkerReceivedRequest p n turn => Sys2Proof.Machine.execDelayMarkerReceivedRequest p n turn s
  | .delayMarkerResponse p n turn subtick => Sys2Proof.Machine.execDelayMarkerResponse p n turn subtick s
  | .blockLock p member => Sys2Proof.Machine.execBlockLock p member s
  | .portFailure p remote => Sys2Proof.Machine.execPortFailure p remote s
  | .wrap p => Sys2Proof.Machine.execWrap p s
  | .wrapMarker p wp station => Sys2Proof.Machine.execWrapMarker p wp station s
  | .replayMarker p station => Sys2Proof.Machine.execReplayMarker p station s
  | .unwrapNotice p wp station => Sys2Proof.Machine.execUnwrapNotice p wp station s
  | .portReady => Sys2Proof.Machine.execPortReady s
  | .unwrapProposal v => Sys2Proof.Machine.execUnwrapProposal v s
  | .accept v => Sys2Proof.Machine.execAccept v s
  | .confirm v => Sys2Proof.Machine.execConfirm v s
  | .markerReplay => Sys2Proof.Machine.execMarkerReplay s
  | .requestReplay => Sys2Proof.Machine.execRequestReplay s
  | .replayRequest p f => Sys2Proof.Machine.execReplayRequest p f s
  | .replayStart p f => Sys2Proof.Machine.execReplayStart p f s
  | .replayEnd p f => Sys2Proof.Machine.execReplayEnd p f s
  | .fenceNotice p f => Sys2Proof.Machine.execFenceNotice p f s
  | .holdTimeout ring station => Sys2Proof.Machine.execHoldTimeout ring station s
  | .recoverTimeout ring station => Sys2Proof.Machine.execRecoverTimeout ring station s
  | .marshalMissedLap => Sys2Proof.Machine.execMarshalMissedLap s
  | .desynchronise => Sys2Proof.Machine.execDesynchronise s
  | .desyncIdleEnd => Sys2Proof.Machine.execDesyncIdleEnd s
  | .mrshCtlCommit id => Sys2Proof.Machine.execMrshCtlCommit id s
  | .mrshCtlRejoin id => Sys2Proof.Machine.execMrshCtlRejoin id s
  | .mrshWlogRead => Sys2Proof.Machine.execMrshWlogRead s
  | .forerunnerReferenceFrame f subtick => Sys2Proof.Machine.execForerunnerReferenceFrame f subtick s
  | .timeSnapctlCap => Sys2Proof.Machine.execTimeSnapctlCap s
  | .timeSnapctlCntclr => Sys2Proof.Machine.execTimeSnapctlCntclr s
  | .timeTrigCommit n => Sys2Proof.Machine.execTimeTrigCommit n s
  | .triggerFire n => Sys2Proof.Machine.execTriggerFire n s
  | .captureEdge n rising => Sys2Proof.Machine.execCaptureEdge n rising s
  | .timeCaptAuxRead n => Sys2Proof.Machine.execTimeCaptAuxRead n s
  | .timeTsqAuxRead q => Sys2Proof.Machine.execTimeTsqAuxRead q s
  | .ptpMessage m src offset => Sys2Proof.Machine.execPtpMessage m src offset s
  | .fabricGrant => Sys2Proof.Machine.execFabricGrant s
  | .tagTimeout t => Sys2Proof.Machine.execTagTimeout t s
  | .prefetchAge w => Sys2Proof.Machine.execPrefetchAge w s
  | .fabCtlWincommit id w => Sys2Proof.Machine.execFabCtlWincommit id w s
  | .fabCtlCntclr id => Sys2Proof.Machine.execFabCtlCntclr id s
  | .messageEntersGate src => Sys2Proof.Machine.execMessageEntersGate src s
  | .rateEntrySend k => Sys2Proof.Machine.execRateEntrySend k s
  | .gateWaitLimit n => Sys2Proof.Machine.execGateWaitLimit n s
  | .gateAnswerLimit n => Sys2Proof.Machine.execGateAnswerLimit n s
  | .gateCtlLogclr id => Sys2Proof.Machine.execGateCtlLogclr id s
  | .gateCtlCntclr id => Sys2Proof.Machine.execGateCtlCntclr id s
  | .writeOutputs p => Sys2Proof.Machine.execWriteOutputs p s
  | .retainedJournalApply p => Sys2Proof.Machine.execRetainedJournalApply p s
  | .cycleWatchdog p => Sys2Proof.Machine.execCycleWatchdog p s
  | .stgCtlCommit id p => Sys2Proof.Machine.execStgCtlCommit id p s
  | .stgCtlCntclr id => Sys2Proof.Machine.execStgCtlCntclr id s
  | .dbgCtlHalt0 id => Sys2Proof.Machine.execDbgCtlHalt0 id s
  | .dbgCtlHalt1 id => Sys2Proof.Machine.execDbgCtlHalt1 id s
  | .add p r => Sys2Proof.Machine.execAdd p r s
  | .sub p r => Sys2Proof.Machine.execSub p r s
  | .and p r => Sys2Proof.Machine.execAnd p r s
  | .or p r => Sys2Proof.Machine.execOr p r s
  | .xor p r => Sys2Proof.Machine.execXor p r s
  | .nor p r => Sys2Proof.Machine.execNor p r s
  | .andn p r => Sys2Proof.Machine.execAndn p r s
  | .cplt p r => Sys2Proof.Machine.execCplt p r s
  | .cpltu p r => Sys2Proof.Machine.execCpltu p r s
  | .cpeq p r => Sys2Proof.Machine.execCpeq p r s
  | .shl p r => Sys2Proof.Machine.execShl p r s
  | .shr p r => Sys2Proof.Machine.execShr p r s
  | .shra p r => Sys2Proof.Machine.execShra p r s
  | .shlK p r => Sys2Proof.Machine.execShlK p r s
  | .shrK p r => Sys2Proof.Machine.execShrK p r s
  | .shraK p r => Sys2Proof.Machine.execShraK p r s
  | .clz p r => Sys2Proof.Machine.execClz p r s
  | .min p r => Sys2Proof.Machine.execMin p r s
  | .max p r => Sys2Proof.Machine.execMax p r s
  | .minu p r => Sys2Proof.Machine.execMinu p r s
  | .maxu p r => Sys2Proof.Machine.execMaxu p r s
  | .mul p r => Sys2Proof.Machine.execMul p r s
  | .mulh p r => Sys2Proof.Machine.execMulh p r s
  | .mulhu p r => Sys2Proof.Machine.execMulhu p r s
  | .div p r => Sys2Proof.Machine.execDiv p r s
  | .divu p r => Sys2Proof.Machine.execDivu p r s
  | .rem p r => Sys2Proof.Machine.execRem p r s
  | .remu p r => Sys2Proof.Machine.execRemu p r s
  | .fadd p r => Sys2Proof.Machine.execFadd p r s
  | .fsub p r => Sys2Proof.Machine.execFsub p r s
  | .fmul p r => Sys2Proof.Machine.execFmul p r s
  | .fdiv p r => Sys2Proof.Machine.execFdiv p r s
  | .fsqrt p r => Sys2Proof.Machine.execFsqrt p r s
  | .fmin p r => Sys2Proof.Machine.execFmin p r s
  | .fmax p r => Sys2Proof.Machine.execFmax p r s
  | .feq p r => Sys2Proof.Machine.execFeq p r s
  | .flt p r => Sys2Proof.Machine.execFlt p r s
  | .fle p r => Sys2Proof.Machine.execFle p r s
  | .itof p r => Sys2Proof.Machine.execItof p r s
  | .ftoi p r => Sys2Proof.Machine.execFtoi p r s
  | .ftoiz p r => Sys2Proof.Machine.execFtoiz p r s
  | .addK p r => Sys2Proof.Machine.execAddK p r s
  | .andK p r => Sys2Proof.Machine.execAndK p r s
  | .orK p r => Sys2Proof.Machine.execOrK p r s
  | .xorK p r => Sys2Proof.Machine.execXorK p r s
  | .cpltK p r => Sys2Proof.Machine.execCpltK p r s
  | .cpltuK p r => Sys2Proof.Machine.execCpltuK p r s
  | .ldhi p r => Sys2Proof.Machine.execLdhi p r s
  | .bperm p r => Sys2Proof.Machine.execBperm p r s
  | .bfx p r => Sys2Proof.Machine.execBfx p r s
  | .bfi p r => Sys2Proof.Machine.execBfi p r s
  | .ldB p r => Sys2Proof.Machine.execLdB p r s
  | .ldBu p r => Sys2Proof.Machine.execLdBu p r s
  | .ldH p r => Sys2Proof.Machine.execLdH p r s
  | .ldHu p r => Sys2Proof.Machine.execLdHu p r s
  | .ldW p r => Sys2Proof.Machine.execLdW p r s
  | .stB p r => Sys2Proof.Machine.execStB p r s
  | .stH p r => Sys2Proof.Machine.execStH p r s
  | .stW p r => Sys2Proof.Machine.execStW p r s
  | .amadd p r => Sys2Proof.Machine.execAmadd p r s
  | .amswap p r => Sys2Proof.Machine.execAmswap p r s
  | .rep p r => Sys2Proof.Machine.execRep p r s
  | .movs p r => Sys2Proof.Machine.execMovs p r s
  | .fills p r => Sys2Proof.Machine.execFills p r s
  | .cmps p r => Sys2Proof.Machine.execCmps p r s
  | .brEq p r => Sys2Proof.Machine.execBrEq p r s
  | .brNe p r => Sys2Proof.Machine.execBrNe p r s
  | .brLt p r => Sys2Proof.Machine.execBrLt p r s
  | .brGe p r => Sys2Proof.Machine.execBrGe p r s
  | .brLtu p r => Sys2Proof.Machine.execBrLtu p r s
  | .brGeu p r => Sys2Proof.Machine.execBrGeu p r s
  | .brAny p r => Sys2Proof.Machine.execBrAny p r s
  | .brNone p r => Sys2Proof.Machine.execBrNone p r s
  | .jmp p off => Sys2Proof.Machine.execJmp p off s
  | .call p off => Sys2Proof.Machine.execCall p off s
  | .jmpr p r => Sys2Proof.Machine.execJmpr p r s
  | .callr p r => Sys2Proof.Machine.execCallr p r s
  | .trap p r => Sys2Proof.Machine.execTrap p r s
  | .brk p r => Sys2Proof.Machine.execBrk p r s
  | .tret p r => Sys2Proof.Machine.execTret p r s
  | .rds p r => Sys2Proof.Machine.execRds p r s
  | .wrs p r => Sys2Proof.Machine.execWrs p r s
  | .drain p r => Sys2Proof.Machine.execDrain p r s
  | .tget p r => Sys2Proof.Machine.execTget p r s
  | .push p r => Sys2Proof.Machine.execPush p r s
  | .pop p r => Sys2Proof.Machine.execPop p r s
  | .hctl p r => Sys2Proof.Machine.execHctl p r s
  | .hsync p r => Sys2Proof.Machine.execHsync p r s
  | .wev p r => Sys2Proof.Machine.execWev p r s
  | .wevEoc p r => Sys2Proof.Machine.execWevEoc p r s
  | .adLib p r => Sys2Proof.Machine.execAdLib p r s
  | .interruptEntry n => Sys2Proof.Machine.execInterruptEntry n s
  | .engineTimer n => Sys2Proof.Machine.execEngineTimer n s
  | .engineWatchdog n => Sys2Proof.Machine.execEngineWatchdog n s
  | .engSync id n mask => Sys2Proof.Machine.execEngSync id n mask s
  | .engWdkick id n => Sys2Proof.Machine.execEngWdkick id n s
  | .engGtx id n v => Sys2Proof.Machine.execEngGtx id n v s
  | .engEvtClear id n v => Sys2Proof.Machine.execEngEvtClear id n v s
  | .engCntclr id n => Sys2Proof.Machine.execEngCntclr id n s
  | .jump h cond addr z sel => Sys2Proof.Machine.execJump h cond addr z sel s
  | .waitfor h lvl src k z sel => Sys2Proof.Machine.execWaitfor h lvl src k z sel s
  | .shift h n1 dst src ien oen sel => Sys2Proof.Machine.execShift h n1 dst src ien oen sel s
  | .take h nb ife z sel => Sys2Proof.Machine.execTake h nb ife z sel s
  | .give h nb iff z sel => Sys2Proof.Machine.execGive h nb iff z sel s
  | .drive h pat z sel => Sys2Proof.Machine.execDrive h pat z sel s
  | .ldk h dst imm sel => Sys2Proof.Machine.execLdk h dst imm sel s
  | .move h dst src op z sel => Sys2Proof.Machine.execMove h dst src op z sel s
  | .signal h act k z sel => Sys2Proof.Machine.execSignal h act k z sel s
  | .handCtlEnClear id h => Sys2Proof.Machine.execHandCtlEnClear id h s
  | .handCtlEnSet id h => Sys2Proof.Machine.execHandCtlEnSet id h s
  | .handCtlRestart id h => Sys2Proof.Machine.execHandCtlRestart id h s
  | .handCtlFifoclr id h => Sys2Proof.Machine.execHandCtlFifoclr id h s
  | .handCtlCommit id h => Sys2Proof.Machine.execHandCtlCommit id h s
  | .handCtlArm id h k => Sys2Proof.Machine.execHandCtlArm id h k s
  | .handCtlCntclr id h => Sys2Proof.Machine.execHandCtlCntclr id h s
  | .handTxfWrite id h v => Sys2Proof.Machine.execHandTxfWrite id h v s
  | .handRxfRead id h => Sys2Proof.Machine.execHandRxfRead id h s
  | .handImemWrite id h k v => Sys2Proof.Machine.execHandImemWrite id h k v s
  | .handABTsrWrite id h r v => Sys2Proof.Machine.execHandABTsrWrite id h r v s
  | .lineCtlCommit id n => Sys2Proof.Machine.execLineCtlCommit id n s
  | .lineCtlCalreq id n => Sys2Proof.Machine.execLineCtlCalreq id n s
  | .lineCtlCntclr id n => Sys2Proof.Machine.execLineCtlCntclr id n s
  | .passRequestPeriod u => Sys2Proof.Machine.execPassRequestPeriod u s
  | .passRequestTdelta u => Sys2Proof.Machine.execPassRequestTdelta u s
  | .calibrationStep u => Sys2Proof.Machine.execCalibrationStep u s
  | .stepDone u trim out agree => Sys2Proof.Machine.execStepDone u trim out agree s
  | .foregroundEvent u b => Sys2Proof.Machine.execForegroundEvent u b s
  | .passApply u => Sys2Proof.Machine.execPassApply u s
  | .starvedInterval u => Sys2Proof.Machine.execStarvedInterval u s
  | .maintenanceWindowEnd u => Sys2Proof.Machine.execMaintenanceWindowEnd u s
  | .driverCurrentLimit n => Sys2Proof.Machine.execDriverCurrentLimit n s
  | .quadOvertemperature q => Sys2Proof.Machine.execQuadOvertemperature q s
  | .commonModeFault n out lvl => Sys2Proof.Machine.execCommonModeFault n out lvl s
  | .dominantTimeout n => Sys2Proof.Machine.execDominantTimeout n s
  | .dioCtlCommit id k => Sys2Proof.Machine.execDioCtlCommit id k s
  | .dioCtlCntclr id => Sys2Proof.Machine.execDioCtlCntclr id s
  | .filteredEdge n b => Sys2Proof.Machine.execFilteredEdge n b s
  | .dioStampRead id n => Sys2Proof.Machine.execDioStampRead id n s
  | .outputShort n => Sys2Proof.Machine.execOutputShort n s
  | .octetOvercurrent k => Sys2Proof.Machine.execOctetOvercurrent k s
  | .totalOvercurrent => Sys2Proof.Machine.execTotalOvercurrent s
  | .openLoad n => Sys2Proof.Machine.execOpenLoad n s
  | .openLoadClear n => Sys2Proof.Machine.execOpenLoadClear n s
  | .vfldLow => Sys2Proof.Machine.execVfldLow s
  | .vfldRecovery => Sys2Proof.Machine.execVfldRecovery s
  | .canCtlCommit id n => Sys2Proof.Machine.execCanCtlCommit id n s
  | .commitAtBusIdle n => Sys2Proof.Machine.execCommitAtBusIdle n s
  | .canCtlFltcommit id n => Sys2Proof.Machine.execCanCtlFltcommit id n s
  | .canCtlRecover id n => Sys2Proof.Machine.execCanCtlRecover id n s
  | .canCtlCntclr id n => Sys2Proof.Machine.execCanCtlCntclr id n s
  | .canTxw id n v => Sys2Proof.Machine.execCanTxw id n v s
  | .canCancel id n tag => Sys2Proof.Machine.execCanCancel id n tag s
  | .canTxevRead id n => Sys2Proof.Machine.execCanTxevRead id n s
  | .busIntegration n => Sys2Proof.Machine.execBusIntegration n s
  | .canFrameReceived n w0 w1 data ago => Sys2Proof.Machine.execCanFrameReceived n w0 w1 data ago s
  | .transmitEvent n won => Sys2Proof.Machine.execTransmitEvent n won s
  | .errorStateChange n st tec rec_ => Sys2Proof.Machine.execErrorStateChange n st tec rec_ s
  | .busOff n => Sys2Proof.Machine.execBusOff n s
  | .busOffRecoveryEnd n => Sys2Proof.Machine.execBusOffRecoveryEnd n s
  | .ethernetFrameReceived m fcs bs => Sys2Proof.Machine.execEthernetFrameReceived m fcs bs s
  | .tierLinkFrame m fcs bs => Sys2Proof.Machine.execTierLinkFrame m fcs bs s
  | .pauseFrame m fcs quanta => Sys2Proof.Machine.execPauseFrame m fcs quanta s
  | .pauseEnd m => Sys2Proof.Machine.execPauseEnd m s
  | .egressFrameStart m subtick => Sys2Proof.Machine.execEgressFrameStart m subtick s
  | .gateControlListInterval m => Sys2Proof.Machine.execGateControlListInterval m s
  | .linkDown m => Sys2Proof.Machine.execLinkDown m s
  | .linkUp m neg => Sys2Proof.Machine.execLinkUp m neg s
  | .learnedEntryAging k => Sys2Proof.Machine.execLearnedEntryAging k s
  | .plcaDuplicateNode m => Sys2Proof.Machine.execPlcaDuplicateNode m s
  | .macCtlCommit id m => Sys2Proof.Machine.execMacCtlCommit id m s
  | .macCtlGcommit id m => Sys2Proof.Machine.execMacCtlGcommit id m s
  | .macCtlCntclr id m => Sys2Proof.Machine.execMacCtlCntclr id m s
  | .swCtlCommit id => Sys2Proof.Machine.execSwCtlCommit id s
  | .swCtlCntclr id => Sys2Proof.Machine.execSwCtlCntclr id s
  | .swHtxIndexWrite id v env => Sys2Proof.Machine.execSwHtxIndexWrite id v env s
  | .swHrxIndexWrite id v env => Sys2Proof.Machine.execSwHrxIndexWrite id v env s
  | .stepTimerExpiry n => Sys2Proof.Machine.execStepTimerExpiry n s
  | .limitSwitch n up => Sys2Proof.Machine.execLimitSwitch n up s
  | .homeSwitch n => Sys2Proof.Machine.execHomeSwitch n s
  | .indexEdge n => Sys2Proof.Machine.execIndexEdge n s
  | .homingSet n => Sys2Proof.Machine.execHomingSet n s
  | .searchLimit n => Sys2Proof.Machine.execSearchLimit n s
  | .motCtlCommit id n => Sys2Proof.Machine.execMotCtlCommit id n s
  | .motCtlStop id n => Sys2Proof.Machine.execMotCtlStop id n s
  | .motCtlCntclr id n => Sys2Proof.Machine.execMotCtlCntclr id n s
  | .motTgtWrite id n v => Sys2Proof.Machine.execMotTgtWrite id n v s
  | .motLattWrite id n v => Sys2Proof.Machine.execMotLattWrite id n v s
  | .motLatrawHiRead id n => Sys2Proof.Machine.execMotLatrawHiRead id n s
  | .drvCtlEn id b on => Sys2Proof.Machine.execDrvCtlEn id b on s
  | .drvCtlCommit id b => Sys2Proof.Machine.execDrvCtlCommit id b s
  | .drvCtlClear id b => Sys2Proof.Machine.execDrvCtlClear id b s
  | .drvCtlCntclr id b => Sys2Proof.Machine.execDrvCtlCntclr id b s
  | .coilMeasurementDone b r l => Sys2Proof.Machine.execCoilMeasurementDone b r l s
  | .driveFault b k => Sys2Proof.Machine.execDriveFault b k s
  | .holdDelayExpiry k => Sys2Proof.Machine.execHoldDelayExpiry k s
  | .pullInTimeEnd b rise dip => Sys2Proof.Machine.execPullInTimeEnd b rise dip s
  | .bankWake k => Sys2Proof.Machine.execBankWake k s
  | .bankInitDone k => Sys2Proof.Machine.execBankInitDone k s
  | .correctableWriteBack => Sys2Proof.Machine.execCorrectableWriteBack s
  | .remap => Sys2Proof.Machine.execRemap s
  | .remapTableRecord env => Sys2Proof.Machine.execRemapTableRecord env s
  | .scrubStep r => Sys2Proof.Machine.execScrubStep r s
  | .memDmaStart id c => Sys2Proof.Machine.execMemDmaStart id c s
  | .memDmaAbort id c => Sys2Proof.Machine.execMemDmaAbort id c s
  | .dmaDescriptorEnd c => Sys2Proof.Machine.execDmaDescriptorEnd c s
  | .memCtlCntclr id => Sys2Proof.Machine.execMemCtlCntclr id s
  | .memCtlLogclr id => Sys2Proof.Machine.execMemCtlLogclr id s
  | .pcieMemoryRead fn x n => Sys2Proof.Machine.execPcieMemoryRead fn x n s
  | .pcieMemoryWrite fn x bs => Sys2Proof.Machine.execPcieMemoryWrite fn x bs s
  | .pcieAtomicop fn x kind wide v => Sys2Proof.Machine.execPcieAtomicop fn x kind wide v s
  | .pcieUnsupportedRequest fn => Sys2Proof.Machine.execPcieUnsupportedRequest fn s
  | .busMasterEnable fn on_ => Sys2Proof.Machine.execBusMasterEnable fn on_ s
  | .hostReadTimeout ring seq => Sys2Proof.Machine.execHostReadTimeout ring seq s
  | .functionLoss down perst fn => Sys2Proof.Machine.execFunctionLoss down perst fn s
  | .hostFenceClear id fn => Sys2Proof.Machine.execHostFenceClear id fn s
  | .hostCtlCommit id => Sys2Proof.Machine.execHostCtlCommit id s
  | .hostCtlCntclr id => Sys2Proof.Machine.execHostCtlCntclr id s
  | .qspiRead w n => Sys2Proof.Machine.execQspiRead w n s
  | .qspiQuadRead w n => Sys2Proof.Machine.execQspiQuadRead w n s
  | .qspiWrite w n ds => Sys2Proof.Machine.execQspiWrite w n ds s
  | .qspiQuadWrite w n ds => Sys2Proof.Machine.execQspiQuadWrite w n ds s
  | .qspiStatus => Sys2Proof.Machine.execQspiStatus s
  | .qspiUnknownInstruction code => Sys2Proof.Machine.execQspiUnknownInstruction code s
  | .parPointerWrite hi v => Sys2Proof.Machine.execParPointerWrite hi v s
  | .parControlWrite v => Sys2Proof.Machine.execParControlWrite v s
  | .parStatusRead => Sys2Proof.Machine.execParStatusRead s
  | .parDataLowRead => Sys2Proof.Machine.execParDataLowRead s
  | .parDataHighRead => Sys2Proof.Machine.execParDataHighRead s
  | .parDataLowWrite v => Sys2Proof.Machine.execParDataLowWrite v s
  | .parDataHighWrite v => Sys2Proof.Machine.execParDataHighWrite v s
  | .hotSwapGood => Sys2Proof.Machine.execHotSwapGood s
  | .hotSwapFault => Sys2Proof.Machine.execHotSwapFault s
  | .powerOnReset cmos => Sys2Proof.Machine.execPowerOnReset cmos s
  | .undervoltageLockout => Sys2Proof.Machine.execUndervoltageLockout s
  | .powerFailWarning => Sys2Proof.Machine.execPowerFailWarning s
  | .vinRecovery => Sys2Proof.Machine.execVinRecovery s
  | .consumptionResume => Sys2Proof.Machine.execConsumptionResume s
  | .coldReset pin => Sys2Proof.Machine.execColdReset pin s
  | .warmReset => Sys2Proof.Machine.execWarmReset s
  | .pllLock => Sys2Proof.Machine.execPllLock s
  | .startUp bist bad => Sys2Proof.Machine.execStartUp bist bad s
  | .readyTimeout => Sys2Proof.Machine.execReadyTimeout s
  | .domainWake code => Sys2Proof.Machine.execDomainWake code s
  | .clockMonitorWindow k dev => Sys2Proof.Machine.execClockMonitorWindow k dev s
  | .referenceLoss lost => Sys2Proof.Machine.execReferenceLoss lost s
  | .railOutOfWindow r mv => Sys2Proof.Machine.execRailOutOfWindow r mv s
  | .temperatureMonitor k t => Sys2Proof.Machine.execTemperatureMonitor k t s
  | .safeTrip id => Sys2Proof.Machine.execSafeTrip id s
  | .safeCtlCommit id => Sys2Proof.Machine.execSafeCtlCommit id s
  | .safeLockTable id => Sys2Proof.Machine.execSafeLockTable id s
  | .safeLockInj id => Sys2Proof.Machine.execSafeLockInj id s
  | .safeLockDbg id => Sys2Proof.Machine.execSafeLockDbg id s
  | .delayRequestInterval sub0 sub1 => Sys2Proof.Machine.execDelayRequestInterval sub0 sub1 s
  | .lockstepMismatch who => Sys2Proof.Machine.execLockstepMismatch who s
  | .quadTemperatureRecovery q => Sys2Proof.Machine.execQuadTemperatureRecovery q s
  | .driveTemperatureWarning b hot => Sys2Proof.Machine.execDriveTemperatureWarning b hot s
  | .railBackInWindow r => Sys2Proof.Machine.execRailBackInWindow r s
  | .canTransmitStart n delay => Sys2Proof.Machine.execCanTransmitStart n delay s
  | .canBusError n tec rec_ => Sys2Proof.Machine.execCanBusError n tec rec_ s
  | .canDetectDwell n => Sys2Proof.Machine.execCanDetectDwell n s
  | .lineCalTimeLimit seq => Sys2Proof.Machine.execLineCalTimeLimit seq s
  | .lineScopeTimeout seq => Sys2Proof.Machine.execLineScopeTimeout seq s
  | .pcieLinkUp gen two => Sys2Proof.Machine.execPcieLinkUp gen two s
  | .hostReadCompletion what seq env => Sys2Proof.Machine.execHostReadCompletion what seq env s
  | .msixMaskChange fn en fmask mask => Sys2Proof.Machine.execMsixMaskChange fn en fmask mask s
  | .debuggerAttach on => Sys2Proof.Machine.execDebuggerAttach on s
  | .triggerPulseEnd n => Sys2Proof.Machine.execTriggerPulseEnd n s

end Sys2Proof.Machine
end

