-- ==== Sys2Proof/Machine/Tick.lean ====
section
/-! DEFINITION. What a tick of CLK_FAB does on its own: the raw counter counts (R92), and the program time of a pair held with freeze stands still
(R218). -/
namespace Sys2Proof.Machine
open Sys2Proof

/-- Add one tick to STG_PpPTOFS while the pair is in HOLD with freeze 1 (R218). -/
def State.holdTick (s : State) (p : Nat) : State :=
  if s.rd (F.STG_STATE_state p) = 4 ∧ s.on (F.STG_CFG_freeze p) = true then
    let v := (s.rd (F.STG_PTOFS_LO p) + s.rd (F.STG_PTOFS_HI p) * 2 ^ 32 + 1) % 2 ^ 64
    (s.wr (F.STG_PTOFS_LO p) (v % 2 ^ 32)).wr (F.STG_PTOFS_HI p) (v / 2 ^ 32)
  else s

/-- One tick, once the core PLL has locked (R473, notes/assumptions/1.md). -/
def State.idle (s : State) : State := if s.alive then ((s.tick).holdTick 0).holdTick 1 else s

end Sys2Proof.Machine
end

