-- ==== Sys2Proof/Machine/Step.lean ====
section
/-! DEFINITION. One step: the command at the front of the queue is carried out with the queue's rest; on an empty queue one tick passes
(notes/assumptions/1.md). -/
namespace Sys2Proof.Machine
open Sys2Proof

/-- The state with `q` as its queue of waiting commands. -/
def State.withQueue (s : State) (q : List Instr) : State := { s with pending := q }

def step (s : State) : Host.Outcome State Fault Refusal :=
  match s.pending with
  | [] => .next s.idle
  | c :: rest => exec c (s.withQueue rest)

/-- The command that a word spells put at the front of the queue; the table gives no row bits, so that no word spells one. -/
def State.withFetchWord (s : State) (nbits w : Nat) : State :=
  match decodeTableWord nbits w with
  | none => s
  | some c => s.withQueue (c :: s.pending)

end Sys2Proof.Machine
end

