-- ==== Sys2Proof/Safety.lean ====
section
/-! DEFINITION. What counts as a safe state and a safe run, in the terms the statements use: the canonical form of memory and registers, and a
step that neither faults nor is refused; and when a command of each kind has its effect. -/
namespace Sys2Proof.Machine
open Sys2Proof

/-- Memory in its canonical form: addresses strictly rising, and no byte listed that equals what an unlisted address reads as. -/
def Memory.wf (m : List Host.Cell) : Bool := swf (fun _ => (0 : Byte)) m

/-- The registers in their canonical form: addresses strictly rising, and no register listed that has its Cold value (R7). -/
def Registers.wf (m : List (Nat × Word)) : Bool := swf coldWord m

/-- Equal contents are equal data, and the raw counter is a number of 64 bits (R92). -/
def State.Canon (s : State) : Prop := Registers.wf s.regs = true ∧ Memory.wf s.mem = true ∧ s.raw < 2 ^ 64

/-- A step that answers a next state. -/
def State.Goes (s : State) : Prop := ∃ t, step s = .next t

/-- A run of `k` steps that neither faults nor is refused. -/
def State.SafeRun (s : State) (k : Nat) : Prop := ∃ t, Sys2Proof.core.run k s = .next t

/-- The command `seq` is `c`: started, of opcode `op`, its own step still to be taken, in a station whose command core runs (R39, R59). -/
def State.Due (s : State) (op seq : Nat) (c : CmdRec) : Prop :=
  s.findCmd seq = some c ∧ c.opcode = op ∧ c.started = true ∧ c.ran = false ∧ c.fin = none ∧ s.alive = true ∧ s.cmd.halted = false

/-- The state in which the step of command `seq` begins: the step counts as taken. -/
def State.begun (s : State) (seq : Nat) : State := s.modCmd seq (fun x => { x with ran := true })

/-- Processor `p` executes the instruction word `w`: it stands at the PC and is read there; `t` is the state after the fetch (R233, R234, R239). -/
def State.Issues (s : State) (p : Nat) (w : Word) (t : State) : Prop :=
  s.alive = true ∧ s.procRuns p = true ∧ s.fetch p (s.pcOf p) = (.word w, t)

/-- Register `wd` of processor `p` takes `v`, and the PC goes on to the next word (R233). -/
def State.putNext (t : State) (p wd : Nat) (v : Word) : State := (t.setW p wd v).setPc p (t.pcOf p + 4)

/-- Stagehand `h` executes the instruction word `w` at this tick: it is enabled, no hold goes on, and `w` stands at its PC (R290, R291). -/
def State.HandRuns (s : State) (h w : Nat) : Prop :=
  s.alive = true ∧ s.on (F.HAND_CTL_en h) = true ∧ (s.hand h).hold = 0 ∧ s.rd (F.HAND_IMEM h (s.handPc h)) = w

/-- A write of `id` reaches the registers of stagehand `h`: it is no engine, or the engine that owns it (R22, R270). -/
def State.Reaches (s : State) (id : Ident) (h : Nat) : Prop :=
  s.alive = true ∧ ¬ (0x10 ≤ id.val ∧ id.val < 0x20 ∧ id.val - 0x10 ≠ s.handOwner h)

/-- An identity that may write backstage registers, while the station is out of reset (R442, R468). -/
def State.Backs (s : State) (id : Ident) : Prop := s.alive = true ∧ s.backstage id = true

end Sys2Proof.Machine
end

