-- ==== Sys2Proof/Certificates/Slice0/Obligations.lean ====
section
/-! DEFINITION. The statements for the provers. Each says which rules of spec/ it rests on; where a clause rests on a choice of the model, it names the
log entry. A clause 'exec c s = .next t' says that the command completes, and t says all of its effect: what t does not name stays as it was. -/
open Sys2Proof Sys2Proof.Machine

/-- The command at the front of the queue is carried out on the state with the queue's rest, and on an empty queue the station idles: it counts
one tick once its core PLL has locked (notes/assumptions/1.md, a choice of the model). -/
def Obligations.StepRunsFront : Prop :=
  (∀ (c : Instr) (rest : List Instr) (s : State), step { s with pending := c :: rest } = exec c { s with pending := rest }) ∧
  (∀ s : State, s.pending = [] → step s = .next s.idle)

/-- Every command, in every state, ends in a next state that leaves the queue of waiting commands alone: no command is refused and none faults, whatever its
operands are. -/
def Obligations.EveryCommandCompletes : Prop :=
  ∀ (c : Instr) (s : State), ∃ t, exec c s = .next t ∧ t.pending = s.pending

/-- Every step keeps the canonical form of registers and memory and a raw counter below 2^64. -/
def Obligations.StepKeepsCanonical : Prop :=
  ∀ s t : State, s.Canon → step s = .next t → t.Canon

/-- The raw counter (R92): a tick adds one modulo 2^64; power-on and cold reset set it to 0; a warm reset and every other command, instruction and register
write leave it as it is. -/
def Obligations.RawCounter : Prop :=
  (∀ s : State, s.pending = [] → s.alive = true → ∃ t, step s = .next t ∧ t.raw = (s.raw + 1) % 2 ^ 64) ∧
  (∀ (cmos : Bool) (s : State), s.power.on = false → ∃ t, exec (.powerOnReset cmos) s = .next t ∧ t.raw = 0) ∧
  (∀ (pin : Bool) (s : State), s.power.on = true → pin = true ∨ s.cmd.resetReq = some 3 → ∃ t, exec (.coldReset pin) s = .next t ∧ t.raw = 0) ∧
  (∀ (c : Instr) (s : State), (∀ b, c ≠ .powerOnReset b) → (∀ b, c ≠ .coldReset b) → ∃ t, exec c s = .next t ∧ t.raw = s.raw)

/-- After power-on reset (R7, R92, R419, R475, R490, R495): every register has its Cold value, no field is pending, the raw counter and every byte of memory
are 0, and no command waits; the part code reads 0x7748, and the gate is TESTING with cause bist. That memory, the queue and the model's own fields are empty
is the model's choice where no rule gives it (notes/assumptions/1.md, 8.md).
Reset leaves registers and memory in their canonical form, and a raw counter of 64 bits. -/
def Obligations.ResetState : Prop :=
  ((∀ a, State.reset.reg a = coldWord a) ∧ (∀ f, State.reset.rdS f = State.reset.rd f) ∧ (∀ a, State.reset.byte a = 0) ∧
   State.reset.raw = 0 ∧ State.reset.pending = [] ∧ State.reset.rd F.SYS_ID_part = 0x7748 ∧ State.reset.rd F.SAFE_STATE_state = 0 ∧
   State.reset.rd F.SAFE_CAUSE = 2 ^ 9) ∧
  (State.reset.Canon)

/-- Staged fields (R9): a shadow value changes no committed register, and is what a read sees; the commit of a register gives its RWC fields the shadow
value, leaves its other fields, drops the shadow, and touches no other register.
Registers (R6): a field that is written reads the value's low bits; every other register, every field beside it and everything that is no register
stay. -/
def Obligations.RegisterFields : Prop :=
  ((∀ (s : State) (a b : Nat) (v : Word), (s.setShadow a v).reg b = s.reg b) ∧
   (∀ (s : State) (a : Nat) (v : Word) (r : RegRow), findRow a = some r →
     (s.setShadow a v).shown a = (s.reg a &&& ~~~ tyMask .rwc r) ||| (v &&& tyMask .rwc r)) ∧
   (∀ (s : State) (a : Nat) (v : Word) (r : RegRow), findRow a = some r → slook s.shadow a = some v →
     (s.commitReg a).reg a = (s.reg a &&& ~~~ tyMask .rwc r) ||| (v &&& tyMask .rwc r) ∧ slook (s.commitReg a).shadow a = none) ∧
   (∀ (s : State) (a b : Nat), b ≠ a → (s.commitReg a).reg b = s.reg b ∧ slook (s.commitReg a).shadow b = slook s.shadow b) ∧
   (∀ (s : State) (a : Nat), { s.commitReg a with regs := s.regs, shadow := s.shadow } = s)) ∧
  ((∀ (s : State) (f : Fld) (v : Nat), f.lo + f.w ≤ 32 → (s.wr f v).rd f = v % 2 ^ f.w) ∧
   (∀ (s : State) (f : Fld) (v a : Nat), a ≠ f.addr → (s.wr f v).reg a = s.reg a) ∧
   (∀ (s : State) (f g : Fld) (v : Nat), f.lo + f.w ≤ g.lo ∨ g.lo + g.w ≤ f.lo → (s.wr f v).rd g = s.rd g) ∧
   (∀ (s : State) (f : Fld) (v a : Nat), (s.wr f v).byte a = s.byte a) ∧
   (∀ (s : State) (f : Fld) (v : Nat), { s.wr f v with regs := s.regs } = s))

/-- Stored words (R4): a word written reads back, its bytes lie little-endian at its address, and every byte outside the word, every register and the raw
counter stay. -/
def Obligations.StoredWords : Prop :=
  (∀ (s : State) (a : Nat) (v : Word), (s.setWord a v).wordAt a = v) ∧
  (∀ (s : State) (a i : Nat) (v : Word), i < 4 → (s.setWord a v).byte (a + i) = v.extractLsb' (8 * i) 8) ∧
  (∀ (s : State) (a b : Nat) (v : Word), b < a ∨ a + 4 ≤ b → (s.setWord a v).byte b = s.byte b) ∧
  (∀ (s : State) (a : Nat) (v : Word), { s.setWord a v with mem := s.mem } = s)

/-- Power-on reset (R92, R419, R475) with the supply back: MRAM keeps every byte, every other memory reads zero, every register but those loaded from the factory
region and the reset cause and the reference select has its Cold value, the raw counter is 0, and the reset cause is 1. -/
def Obligations.PowerOnKeepsMram : Prop :=
  ∀ (cmos : Bool) (s : State), s.power.on = false → ∃ t, exec (.powerOnReset cmos) s = .next t ∧
    (∀ a, inMram a = true → t.byte a = s.byte a) ∧ (∀ a, inMram a = false → t.byte a = 0) ∧
    (∀ a, a ∉ [F.SYS_ID_code.addr, F.RING_SID_LO.addr, F.RING_SID_HI.addr, F.SYS_RSTCAUSE_cause.addr, F.CLK_STAT_refcmos.addr] → t.reg a = coldWord a) ∧
    t.rd F.SYS_RSTCAUSE_cause = 1 ∧ t.rd F.CLK_STAT_refcmos = (if cmos then 1 else 0) ∧ t.raw = 0 ∧ t.shadow = []

/-- The places of the fields in the instruction formats (R238, R248, R250, R260, R265), each field at every value. -/
def Obligations.InstructionWords : Prop :=
  (∀ (m f : Nat) (r : RFmt), m < 64 → f < 64 → getF (r.word m f) 26 6 = m ∧ getF (r.word m f) 20 6 = f ∧ getF (r.word m f) 15 5 = r.x ∧
    getF (r.word m f) 10 5 = r.wt ∧ getF (r.word m f) 5 5 = r.wd ∧ getF (r.word m f) 0 5 = r.ws) ∧
  (∀ (m : Nat) (r : IFmt), m < 64 → getF (r.word m) 26 6 = m ∧ getF (r.word m) 10 16 = r.imm.toNat ∧ getF (r.word m) 5 5 = r.wd ∧ getF (r.word m) 0 5 = r.ws) ∧
  (∀ (m : Nat) (r : BFmt), m < 64 → getF (r.word m) 26 6 = m ∧ getF (r.word m) 10 16 = r.off.toNat ∧ getF (r.word m) 5 5 = r.wt ∧ getF (r.word m) 0 5 = r.ws) ∧
  (∀ (m : Nat) (o : BitVec 26), m < 64 → getF (jWord m o) 26 6 = m ∧ getF (jWord m o) 0 26 = o.toNat) ∧
  (∀ (m : Nat) (r : FieldFmt), m < 64 → getF (r.word m) 26 6 = m ∧ getF (r.word m) 21 5 = r.pos ∧ getF (r.word m) 16 5 = r.wm1 ∧
    getF (r.word m) 15 1 = (if r.sg then 1 else 0) ∧ getF (r.word m) 10 5 = r.z ∧ getF (r.word m) 5 5 = r.wd ∧ getF (r.word m) 0 5 = r.ws) ∧
  (∀ (o : Nat) (r : StrFmt), o < 4 → getF (r.word o) 26 6 = 0x1A ∧ getF (r.word o) 24 2 = o ∧ getF (r.word o) 22 2 = r.size ∧ getF (r.word o) 18 4 = r.ss ∧
    getF (r.word o) 14 4 = r.ds ∧ getF (r.word o) 0 14 = r.z) ∧
  (∀ (f : Nat) (r : IoFmt), f < 16 → getF (r.word f) 26 6 = 0x38 ∧ getF (r.word f) 21 5 = r.wr ∧ getF (r.word f) 16 5 = r.wm ∧ getF (r.word f) 10 6 = r.unit ∧
    getF (r.word f) 9 1 = (if r.nb then 1 else 0) ∧ getF (r.word f) 4 5 = r.z ∧ getF (r.word f) 0 4 = f) ∧
  (∀ r : AdlibFmt, getF r.word 26 6 = 0x3C ∧ getF r.word 22 4 = r.sel ∧ getF r.word 17 5 = r.wd ∧ getF r.word 12 5 = r.ws ∧ getF r.word 7 5 = r.wt ∧
    getF r.word 0 7 = r.imm7)

/-- General registers (R233): w0 reads zero whatever is written to it; w1 to w31 of a processor read what was written; no other register, no other
processor and nothing outside the processor's registers changes. The lists have one entry for each processor and register. -/
def Obligations.GeneralRegisters : Prop :=
  (∀ (s : State) (p : Nat), s.getW p 0 = 0) ∧ (∀ (s : State) (p : Nat) (v : Word), s.setW p 0 v = s) ∧
  (∀ (s : State) (p i : Nat) (v : Word), p < s.procs.length → i < (s.proc p).w.length → i ≠ 0 → (s.setW p i v).getW p i = v) ∧
  (∀ (s : State) (p q i j : Nat) (v : Word), q ≠ p ∨ j ≠ i → (s.setW p i v).getW q j = s.getW q j) ∧
  (∀ (s : State) (p q i j : Nat) (v : Word), (s.setW p i v).pcOf q = s.pcOf q ∧ (s.setW p i v).sr q j = s.sr q j ∧ (s.setW p i v).byte j = s.byte j ∧
    (s.setW p i v).reg j = s.reg j) ∧
  (∀ (s : State) (p i : Nat) (v : Word), { s.setW p i v with procs := s.procs } = s)

/-- The register operations of major 0x00 (R240): each writes wd from ws and wt, or from ws and the shift amount, and the PC goes on to the next word. -/
def Obligations.RegisterOperations : Prop :=
  ∀ (p : Fin 18) (r : RFmt) (s t : State),
    let a := t.getW p r.ws
    let b := t.getW p r.wt
    let n := b.toNat % 32
    let out := fun v : Word => (Host.Outcome.next (t.putNext p r.wd v) : Out)
    let flag := fun c : Prop => fun [Decidable c] => out (if c then 1 else 0)
    (r.x = 0 →
      (s.Issues p (r.word 0 0x01) t → exec (.add p r) s = out (a + b)) ∧ (s.Issues p (r.word 0 0x02) t → exec (.sub p r) s = out (a - b)) ∧
      (s.Issues p (r.word 0 0x03) t → exec (.and p r) s = out (a &&& b)) ∧ (s.Issues p (r.word 0 0x04) t → exec (.or p r) s = out (a ||| b)) ∧
      (s.Issues p (r.word 0 0x05) t → exec (.xor p r) s = out (a ^^^ b)) ∧ (s.Issues p (r.word 0 0x06) t → exec (.nor p r) s = out (~~~ (a ||| b))) ∧
      (s.Issues p (r.word 0 0x07) t → exec (.andn p r) s = out (a &&& ~~~ b)) ∧
      (s.Issues p (r.word 0 0x08) t → exec (.cplt p r) s = flag (a.toInt < b.toInt)) ∧
      (s.Issues p (r.word 0 0x09) t → exec (.cpltu p r) s = flag (a.toNat < b.toNat)) ∧
      (s.Issues p (r.word 0 0x0A) t → exec (.cpeq p r) s = flag (a = b)) ∧
      (s.Issues p (r.word 0 0x10) t → exec (.shl p r) s = out (a <<< n)) ∧ (s.Issues p (r.word 0 0x11) t → exec (.shr p r) s = out (a >>> n)) ∧
      (s.Issues p (r.word 0 0x12) t → exec (.shra p r) s = out (a.sshiftRight n)) ∧
      (s.Issues p (r.word 0 0x1C) t → exec (.min p r) s = out (if a.toInt < b.toInt then a else b)) ∧
      (s.Issues p (r.word 0 0x1D) t → exec (.max p r) s = out (if a.toInt < b.toInt then b else a)) ∧
      (s.Issues p (r.word 0 0x1E) t → exec (.minu p r) s = out (if a.toNat < b.toNat then a else b)) ∧
      (s.Issues p (r.word 0 0x1F) t → exec (.maxu p r) s = out (if a.toNat < b.toNat then b else a))) ∧
    (r.wt = 0 →
      (s.Issues p (r.word 0 0x14) t → exec (.shlK p r) s = out (a <<< r.x.val)) ∧ (s.Issues p (r.word 0 0x15) t → exec (.shrK p r) s = out (a >>> r.x.val)) ∧
      (s.Issues p (r.word 0 0x16) t → exec (.shraK p r) s = out (a.sshiftRight r.x.val))) ∧
    (r.x = 0 → r.wt = 0 → s.Issues p (r.word 0 0x18) t →
      ∀ k : Nat, k ≤ 32 → a.toNat < 2 ^ (32 - k) → (k < 32 → 2 ^ (31 - k) ≤ a.toNat) → exec (.clz p r) s = out (BitVec.ofNat 32 k))

/-- Multiplication and division (R241), with the results of a division by zero and of the signed overflow; a word with x not zero raises ILLEGAL, and no
division traps. -/
def Obligations.MultiplyDivide : Prop :=
  ∀ (p : Fin 18) (r : RFmt) (s t : State),
    let a := t.getW p r.ws
    let b := t.getW p r.wt
    let out := fun (f : Nat) (v : Word) => if r.x = 0 then (Host.Outcome.next (t.putNext p r.wd v) : Out) else .next (t.takeTrap p 1 (r.word 1 f))
    (s.Issues p (r.word 1 0x00) t → exec (.mul p r) s = out 0 (a * b)) ∧
    (s.Issues p (r.word 1 0x01) t → exec (.mulh p r) s = out 1 ((a.signExtend 64 * b.signExtend 64).extractLsb' 32 32)) ∧
    (s.Issues p (r.word 1 0x02) t → exec (.mulhu p r) s = out 2 ((a.setWidth 64 * b.setWidth 64).extractLsb' 32 32)) ∧
    (s.Issues p (r.word 1 0x03) t → exec (.div p r) s = out 3 (if b = 0 then 0xFFFFFFFF#32 else a.sdiv b)) ∧
    (s.Issues p (r.word 1 0x04) t → exec (.divu p r) s = out 4 (if b = 0 then 0xFFFFFFFF#32 else a / b)) ∧
    (s.Issues p (r.word 1 0x05) t → exec (.rem p r) s = out 5 (if b = 0 then a else a - b * a.sdiv b)) ∧
    (s.Issues p (r.word 1 0x06) t → exec (.remu p r) s = out 6 (if b = 0 then a else a % b)) ∧
    ((0x80000000#32).sdiv 0xFFFFFFFF#32 = 0x80000000#32)

/-- The I-format operations (R242): which sign-extend and which zero-extend the constant; `ldhi` needs ws zero. -/
def Obligations.ImmediateOperations : Prop :=
  ∀ (p : Fin 18) (r : IFmt) (s t : State),
    let a := t.getW p r.ws
    let sx := r.imm.signExtend 32
    let zx := r.imm.setWidth 32
    let out := fun v : Word => (Host.Outcome.next (t.putNext p r.wd v) : Out)
    (s.Issues p (r.word 0x04) t → exec (.addK p r) s = out (a + sx)) ∧ (s.Issues p (r.word 0x05) t → exec (.andK p r) s = out (a &&& zx)) ∧
    (s.Issues p (r.word 0x06) t → exec (.orK p r) s = out (a ||| zx)) ∧ (s.Issues p (r.word 0x07) t → exec (.xorK p r) s = out (a ^^^ zx)) ∧
    (s.Issues p (r.word 0x08) t → exec (.cpltK p r) s = out (if a.toInt < sx.toInt then 1 else 0)) ∧
    (s.Issues p (r.word 0x09) t → exec (.cpltuK p r) s = out (if a.toNat < sx.toNat then 1 else 0)) ∧
    (s.Issues p (r.word 0x0A) t → exec (.ldhi p r) s =
      if r.ws = 0 then out (r.imm ++ (0#16)) else .next (t.takeTrap p 1 (r.word 0x0A)))

/-- Bit fields and byte permutation (R248, R249): `bfx` reads, `bfi` replaces bits [pos + w − 1 : pos] and leaves the others, a sum of pos and w above 32 or
a reserved field raises ILLEGAL; each byte of `bperm` is the byte of ws or of the old wd its nibble names, or zero. -/
def Obligations.FieldOperations : Prop :=
  (∀ (p : Fin 18) (r : FieldFmt) (s t : State), s.Issues p (r.word 0x0C) t →
    let a := t.getW p r.ws
    let w := r.wm1.val + 1
    (r.pos.val + w ≤ 32 ∧ r.z = 0 → ∃ v, exec (.bfx p r) s = .next (t.putNext p r.wd v) ∧
      ∀ i, i < 32 → v.getLsbD i = if i < w then a.getLsbD (r.pos + i) else r.sg && a.getLsbD (r.pos + w - 1)) ∧
    (¬ (r.pos.val + w ≤ 32 ∧ r.z = 0) → exec (.bfx p r) s = .next (t.takeTrap p 1 (r.word 0x0C)))) ∧
  (∀ (p : Fin 18) (r : FieldFmt) (s t : State), s.Issues p (r.word 0x0D) t →
    let a := t.getW p r.ws
    let w := r.wm1.val + 1
    (r.pos.val + w ≤ 32 ∧ r.z = 0 ∧ r.sg = false → ∃ v, exec (.bfi p r) s = .next (t.putNext p r.wd v) ∧
      ∀ i, i < 32 → v.getLsbD i = if r.pos ≤ i ∧ i < r.pos + w then a.getLsbD (i - r.pos) else (t.getW p r.wd).getLsbD i) ∧
    (¬ (r.pos.val + w ≤ 32 ∧ r.z = 0 ∧ r.sg = false) → exec (.bfi p r) s = .next (t.takeTrap p 1 (r.word 0x0D)))) ∧
  (∀ (p : Fin 18) (r : IFmt) (s t : State), s.Issues p (r.word 0x0B) t →
    ∃ v, exec (.bperm p r) s = .next (t.putNext p r.wd v) ∧
      ∀ k, k < 4 → v.extractLsb' (8 * k) 8 =
        let n := r.imm.toNat / 16 ^ k % 16
        if n < 4 then (t.getW p r.ws).extractLsb' (8 * n) 8 else if n < 8 then (t.getW p r.wd).extractLsb' (8 * (n - 4)) 8 else 0)

/-- FLOAT32 operations (R243) write wd from ws and wt by the named function of binary32; those of one operand need wt zero. Which zero `fmin` and `fmax` give
for zeros of both signs is an open value (notes/assumptions/23.md): the result is that of one of the two choices.
What binary32 arithmetic does with a NaN (R243): every operation with a NaN operand gives 0x7FC0_0000, but `fmin` and `fmax`, which give the other
operand; no comparison holds; a conversion to an integer gives 0. -/
def Obligations.FloatOperations : Prop :=
  (∀ (p : Fin 18) (r : RFmt) (s t : State), r.x = 0 →
     let a := t.getW p r.ws
     let b := t.getW p r.wt
     let out := fun v : Word => (Host.Outcome.next (t.putNext p r.wd v) : Out)
     (s.Issues p (r.word 3 0x00) t → exec (.fadd p r) s = out (f32Add a b)) ∧ (s.Issues p (r.word 3 0x01) t → exec (.fsub p r) s = out (f32Sub a b)) ∧
     (s.Issues p (r.word 3 0x02) t → exec (.fmul p r) s = out (f32Mul a b)) ∧ (s.Issues p (r.word 3 0x03) t → exec (.fdiv p r) s = out (f32Div a b)) ∧
     (s.Issues p (r.word 3 0x05) t → ∃ k, exec (.fmin p r) s = .next (t.useFree.putNext p r.wd (f32Min k a b))) ∧
     (s.Issues p (r.word 3 0x06) t → ∃ k, exec (.fmax p r) s = .next (t.useFree.putNext p r.wd (f32Max k a b))) ∧
     (s.Issues p (r.word 3 0x07) t → exec (.feq p r) s = out (if f32Eq a b then 1 else 0)) ∧
     (s.Issues p (r.word 3 0x08) t → exec (.flt p r) s = out (if f32Lt a b then 1 else 0)) ∧
     (s.Issues p (r.word 3 0x09) t → exec (.fle p r) s = out (if f32Le a b then 1 else 0)) ∧
     (r.wt = 0 →
       (s.Issues p (r.word 3 0x04) t → exec (.fsqrt p r) s = out (f32Sqrt a)) ∧ (s.Issues p (r.word 3 0x0A) t → exec (.itof p r) s = out (f32OfInt a.toInt)) ∧
       (s.Issues p (r.word 3 0x0B) t → exec (.ftoi p r) s = out (BitVec.ofInt 32 (f32ToInt 32 a))) ∧
       (s.Issues p (r.word 3 0x0C) t → exec (.ftoiz p r) s = out (BitVec.ofInt 32 (f32ToIntZ 32 a))))) ∧
  (∀ a b : Word, f32IsNaN a = true →
     f32Add a b = 0x7FC00000#32 ∧ f32Add b a = 0x7FC00000#32 ∧ f32Sub a b = 0x7FC00000#32 ∧ f32Sub b a = 0x7FC00000#32 ∧ f32Mul a b = 0x7FC00000#32 ∧
     f32Mul b a = 0x7FC00000#32 ∧ f32Div a b = 0x7FC00000#32 ∧ f32Div b a = 0x7FC00000#32 ∧ f32Sqrt a = 0x7FC00000#32 ∧
     (∀ k, f32IsNaN b = false → f32Min k a b = b ∧ f32Min k b a = b ∧ f32Max k a b = b ∧ f32Max k b a = b) ∧
     f32Eq a b = false ∧ f32Lt a b = false ∧ f32Le a b = false ∧ f32Eq b a = false ∧ f32Lt b a = false ∧ f32Le b a = false ∧
     f32ToInt 32 a = 0 ∧ f32ToIntZ 32 a = 0)

/-- Branches, jumps and calls (R247): the condition compares ws with wt, the target counts words from the instruction itself modulo 2^32, a call leaves the
address of the next word in w31, and nothing else changes. -/
def Obligations.Branches : Prop :=
  (∀ (p : Fin 18) (r : BFmt) (s t : State),
    let a := t.getW p r.ws
    let b := t.getW p r.wt
    let go := fun c : Prop => fun [Decidable c] =>
      (Host.Outcome.next (t.setPc p (if c then (((t.pcOf p : Int) + 4 * r.off.toInt) % 2 ^ 32).toNat else t.pcOf p + 4)) : Out)
    (s.Issues p (r.word 0x1C) t → exec (.brEq p r) s = go (a = b)) ∧ (s.Issues p (r.word 0x1D) t → exec (.brNe p r) s = go (a ≠ b)) ∧
    (s.Issues p (r.word 0x1E) t → exec (.brLt p r) s = go (a.toInt < b.toInt)) ∧ (s.Issues p (r.word 0x1F) t → exec (.brGe p r) s = go (b.toInt ≤ a.toInt)) ∧
    (s.Issues p (r.word 0x20) t → exec (.brLtu p r) s = go (a.toNat < b.toNat)) ∧
    (s.Issues p (r.word 0x21) t → exec (.brGeu p r) s = go (b.toNat ≤ a.toNat)) ∧
    (s.Issues p (r.word 0x26) t → exec (.brAny p r) s = go (a &&& b ≠ 0)) ∧ (s.Issues p (r.word 0x27) t → exec (.brNone p r) s = go (a &&& b = 0))) ∧
  (∀ (p : Fin 18) (o : BitVec 26) (s t : State),
    let target := (((t.pcOf p : Int) + 4 * o.toInt) % 2 ^ 32).toNat
    (s.Issues p (jWord 0x22 o) t → exec (.jmp p o) s = .next (t.setPc p target)) ∧
    (s.Issues p (jWord 0x23 o) t → exec (.call p o) s = .next ((t.setW p 31 (BitVec.ofNat 32 (t.pcOf p + 4))).setPc p target))) ∧
  (∀ (p : Fin 18) (r : RFmt) (s t : State), r.x = 0 → r.wt = 0 → r.wd = 0 →
    (s.Issues p (r.word 0x24 0) t → exec (.jmpr p r) s = .next (t.setPc p (t.getW p r.ws).toNat)) ∧
    (s.Issues p (r.word 0x24 1) t → exec (.callr p r) s = .next ((t.setW p 31 (BitVec.ofNat 32 (t.pcOf p + 4))).setPc p (t.getW p r.ws).toNat)))

/-- Loads (R244) from a place of the local map that is no aperture and no retained variable in a buffer, at an aligned address: the bytes read, zero- or
sign-extended, go to wd. A load at a misaligned address changes no register and raises MISALIGNED. `u` is the state after the read.
Reads of house memory (R404, R405, R413): with the bank ON and no inverted bit in the word, a word read gives the stored word and a narrow read the bytes
of it, and nothing changes. -/
def Obligations.Loads : Prop :=
  (∀ (p : Fin 18) (r : IFmt) (s t u : State) (v : Word),
     let a := (t.getW p r.ws + r.imm.signExtend 32).toNat
     let plain := (t.proc p).got = [] ∧ area a ≠ .aperture ∧ t.retWord p a = none
     let sb := fun (n : Nat) (x : Word) => if x.getLsbD (8 * n - 1) then x ||| ~~~ fmask 0 (8 * n) else x &&& fmask 0 (8 * n)
     (plain → t.locNarrowRead (procId p) a 1 = (.ok v, u) →
       (s.Issues p (r.word 0x10) t → exec (.ldB p r) s = .next (u.putNext p r.wd (sb 1 v))) ∧
       (s.Issues p (r.word 0x11) t → exec (.ldBu p r) s = .next (u.putNext p r.wd v))) ∧
     (plain → a % 2 = 0 → t.locNarrowRead (procId p) a 2 = (.ok v, u) →
       (s.Issues p (r.word 0x12) t → exec (.ldH p r) s = .next (u.putNext p r.wd (sb 2 v))) ∧
       (s.Issues p (r.word 0x13) t → exec (.ldHu p r) s = .next (u.putNext p r.wd v))) ∧
     (plain → a % 4 = 0 → t.locRead (procId p) a = (.ok v, u) → s.Issues p (r.word 0x14) t → exec (.ldW p r) s = .next (u.putNext p r.wd v)) ∧
     (a % 4 ≠ 0 → s.Issues p (r.word 0x14) t → exec (.ldW p r) s = .next (t.takeTrap p 3 (BitVec.ofNat 32 a))) ∧
     (a % 2 ≠ 0 → s.Issues p (r.word 0x12) t → exec (.ldH p r) s = .next (t.takeTrap p 3 (BitVec.ofNat 32 a))) ∧
     (a % 2 ≠ 0 → s.Issues p (r.word 0x13) t → exec (.ldHu p r) s = .next (t.takeTrap p 3 (BitVec.ofNat 32 a)))) ∧
  (∀ (s : State) (id a : Nat), a < 0x00400000 → s.bankState (a / 0x10000) = 0 → s.flipsAt (a / 4 * 4) = [] →
     (a % 4 = 0 → s.locRead id a = (.ok (s.wordAt a), s)) ∧
     (a % 2 = 0 → s.locNarrowRead id a 2 = (.ok ((s.wordAt (a / 4 * 4) >>> (8 * (a % 4))) &&& 0xFFFF#32), s)) ∧
     (s.locNarrowRead id a 1 = (.ok ((s.wordAt (a / 4 * 4) >>> (8 * (a % 4))) &&& 0xFF#32), s)))

/-- Stores (R244, R414): a word goes to an aligned address of house memory whose bank is ON, every other byte of memory stays, and the PC goes on; a narrow
store to house memory writes nothing and raises NARROW; one to an engine's own local memory, or to another place, has the effect of the local map's write;
a misaligned store raises MISALIGNED.
Atomics (R245, R408) on an aligned word of house memory whose bank is ON and that has no inverted bit: wd takes the old word, memory the sum or the new
word; a misaligned address raises MISALIGNED, and an address that is neither house memory nor the aperture raises ATOMIC. -/
def Obligations.StoresAtomics : Prop :=
  ((∀ (p : Fin 18) (r : IFmt) (s t : State),
     let a := (t.getW p r.ws + r.imm.signExtend 32).toNat
     let v := t.getW p r.wd
     (a % 4 = 0 → a < 0x00400000 → t.bankState (a / 0x10000) = 0 → s.Issues p (r.word 0x18) t →
       exec (.stW p r) s = .next ((t.putWord a v).setPc p ((t.putWord a v).pcOf p + 4))) ∧
     (a % 4 ≠ 0 → s.Issues p (r.word 0x18) t → exec (.stW p r) s = .next (t.takeTrap p 3 (BitVec.ofNat 32 a))) ∧
     (a % 2 ≠ 0 → s.Issues p (r.word 0x17) t → exec (.stH p r) s = .next (t.takeTrap p 3 (BitVec.ofNat 32 a))) ∧
     (∀ u, area a ≠ .aperture → area a ≠ .reg → t.locNarrowWrite (procId p) a 1 v.toNat = (.narrow, u) → s.Issues p (r.word 0x16) t →
       exec (.stB p r) s = .next (u.takeTrap p 4 (BitVec.ofNat 32 a))) ∧
     (∀ u, area a ≠ .aperture → t.locNarrowWrite (procId p) a 1 v.toNat = (.ok, u) → s.Issues p (r.word 0x16) t →
       exec (.stB p r) s = .next (u.setPc p (u.pcOf p + 4))) ∧
     (∀ u, area a ≠ .aperture → a % 2 = 0 → t.locNarrowWrite (procId p) a 2 v.toNat = (.ok, u) → s.Issues p (r.word 0x17) t →
       exec (.stH p r) s = .next (u.setPc p (u.pcOf p + 4)))) ∧
   (∀ (s : State) (a b : Nat) (v : Word), (s.putWord a v).wordAt a = v ∧ (b < a ∨ a + 4 ≤ b → (s.putWord a v).byte b = s.byte b))) ∧
  (∀ (p : Fin 18) (r : RFmt) (s t : State), r.x = 0 →
     let a := (t.getW p r.ws).toNat
     let b := t.getW p r.wt
     let old := t.wordAt a
     (a % 4 = 0 → a < 0x00400000 → t.bankState (a / 0x10000) = 0 → t.flipsAt a = [] →
       (s.Issues p (r.word 0x19 0) t → exec (.amadd p r) s = .next ((t.putWord a (old + b)).putNext p r.wd old)) ∧
       (s.Issues p (r.word 0x19 1) t → exec (.amswap p r) s = .next ((t.putWord a b).putNext p r.wd old))) ∧
     (a % 4 ≠ 0 →
       (s.Issues p (r.word 0x19 0) t → exec (.amadd p r) s = .next (t.takeTrap p 3 (BitVec.ofNat 32 a))) ∧
       (s.Issues p (r.word 0x19 1) t → exec (.amswap p r) s = .next (t.takeTrap p 3 (BitVec.ofNat 32 a)))) ∧
     (a % 4 = 0 → area a ≠ .house → area a ≠ .aperture →
       (s.Issues p (r.word 0x19 0) t → exec (.amadd p r) s = .next (t.takeTrap p 5 (BitVec.ofNat 32 a))) ∧
       (s.Issues p (r.word 0x19 1) t → exec (.amswap p r) s = .next (t.takeTrap p 5 (BitVec.ofNat 32 a)))))

/-- String instructions (R250–R252): with w5 not zero one element is moved, filled or compared between places of the local map that are no aperture, w6 and
w7 advance by the signed strides in elements and w5 goes down by one; with w5 zero an instruction does nothing but go on; `rep` carries out one element step
of the string instruction that follows it and stays until w5 is zero or the elements compared differ. -/
def Obligations.StringSteps : Prop :=
  (∀ (p : Fin 18) (r : StrFmt) (s t : State), r.size ≠ 3 → r.z = 0 → t.getW p 5 = 0 →
    (s.Issues p (r.word 0) t → exec (.movs p r) s = .next (t.setPc p (t.pcOf p + 4))) ∧
    (r.ss = 0 → s.Issues p (r.word 1) t → exec (.fills p r) s = .next (t.setPc p (t.pcOf p + 4))) ∧
    (s.Issues p (r.word 2) t → exec (.cmps p r) s = .next (t.setPc p (t.pcOf p + 4)))) ∧
  (∀ (p : Fin 18) (r : StrFmt) (s t u x : State) (v c : Word) (k k' : Trail), r.size ≠ 3 → r.z = 0 → t.getW p 5 ≠ 0 →
    let n : Nat := 2 ^ r.size.val
    let six := fun y : State => y.setW p 6 (y.getW p 6 + BitVec.ofInt 32 (sgn 4 r.ss * (n : Int)))
    let seven := fun y : State => y.setW p 7 (y.getW p 7 + BitVec.ofInt 32 (sgn 4 r.ds * (n : Int)))
    let less := fun y : State => y.setW p 5 (y.getW p 5 - 1)
    let go := fun y : State => (Host.Outcome.next (y.setPc p (y.pcOf p + 4)) : Out)
    (t.accRead p (t.getW p 6).toNat n (t.trail p) = (.val v, k, u) → u.accWrite p (u.getW p 7).toNat n v k = (.val c, x) → s.Issues p (r.word 0) t →
      exec (.movs p r) s = go (less (seven (six x)))) ∧
    (t.accWrite p (t.getW p 7).toNat n (t.getW p 6) (t.trail p) = (.val c, u) → r.ss = 0 → s.Issues p (r.word 1) t →
      exec (.fills p r) s = go (less (seven u))) ∧
    (t.accRead p (t.getW p 6).toNat n (t.trail p) = (.val v, k, u) → u.accRead p (u.getW p 7).toNat n k = (.val c, k', x) → s.Issues p (r.word 2) t →
      exec (.cmps p r) s = if v = c then go (less (seven (six x))) else go x)) ∧
  (∀ (p : Fin 18) (r : StrFmt) (s t u x : State) (w : Word), r.size = 0 → r.ss = 0 → r.ds = 0 → r.z = 0 → s.Issues p (r.word 3) t →
    t.fetch p (t.pcOf p + 4) = (.word w, u) → isString w = true →
    (u.element p (getF w 24 2) (getF w 22 2) (getF w 18 4) (getF w 14 4) = (.did, x) →
      exec (.rep p r) s = .next (x.setPc p (if x.getW p 5 = 0 then t.pcOf p + 8 else t.pcOf p))) ∧
    (u.element p (getF w 24 2) (getF w 22 2) (getF w 18 4) (getF w 14 4) = (.ended, x) → exec (.rep p r) s = .next (x.setPc p (t.pcOf p + 8))))

/-- System and time instructions (R235, R254, R255, R257): `trap` takes trap 7 with its code; `brk` without a debugger takes trap 8, and with one halts an engine
at the next word; `tret` restores ie from pie, clears intrap and goes on at EPC; `rds` and `wrs` read and write a special register; `drain` goes on when no
request of the processor waits; `tget` reads raw or program time into a pair of registers, or the raw counter's low word. -/
def Obligations.SystemInstructions : Prop :=
  ∀ (p : Fin 18) (r : RFmt) (s t : State),
    (r.wd = 0 → r.ws = 0 → s.Issues p (r.word 0x25 0) t → exec (.trap p r) s = .next (t.takeTrap p 7 (BitVec.ofNat 32 (r.x * 32 + r.wt)))) ∧
    (r = ⟨0, 0, 0, 0⟩ →
      (s.Issues p (r.word 0x25 1) t → t.rd F.DBG_CTL_attached = 0 → exec (.brk p r) s = .next (t.takeTrap p 8 (r.word 0x25 1))) ∧
      (s.Issues p (r.word 0x25 1) t → t.rd F.DBG_CTL_attached ≠ 0 → 2 ≤ p.val →
        exec (.brk p r) s = .next (((t.setPc p (t.pcOf p + 4)).setProc p (fun x => { x with stall := .debug })).emit (.halt p))) ∧
      (s.Issues p (r.word 0x25 1) t → t.rd F.DBG_CTL_attached ≠ 0 → p.val < 2 → exec (.brk p r) s = .next ((t.setPc p (t.pcOf p + 4)).debugHalt p)) ∧
      (s.Issues p (r.word 0x25 2) t →
        exec (.tret p r) s = .next ((t.setSr p 0 (setF (setF (t.sr p 0) 1 1 (getF (t.sr p 0) 2 1)) 0 1 0)).setPc p (t.sr p 1).toNat)) ∧
      (s.Issues p (r.word 0x25 5) t → (∀ a ∈ t.fab.reqs, a.ident ≠ procId p) → exec (.drain p r) s = .next (t.setPc p (t.pcOf p + 4)))) ∧
    (r.x = 0 → r.ws = 0 → r.wt.val < 6 → s.Issues p (r.word 0x25 3) t → exec (.rds p r) s = .next (t.putNext p r.wd (t.sr p r.wt))) ∧
    (r.x = 0 → r.ws = 0 → r.wt.val = 6 → s.Issues p (r.word 0x25 3) t →
      exec (.rds p r) s = .next (t.putNext p r.wd (BitVec.ofNat 32 (if p.val < 2 then 8 + p else 0x10 + (p - 2))))) ∧
    (r.x = 0 → r.wd = 0 → s.Issues p (r.word 0x25 4) t →
      let v := t.getW p r.ws
      let out := fun y : State => (Host.Outcome.next (y.setPc p (y.pcOf p + 4)) : Out)
      (r.wt.val = 0 → 2 ≤ p.val → exec (.wrs p r) s = out (t.setSr p 0 (setF (t.sr p 0) 1 1 (getF v 1 1)))) ∧
      (r.wt.val = 0 → p.val < 2 → exec (.wrs p r) s = out t) ∧ (r.wt.val = 1 → exec (.wrs p r) s = out (t.setSr p 1 v)) ∧
      (r.wt.val = 4 → exec (.wrs p r) s = out (t.setSr p 4 (v &&& 0xFFFFFF01#32))) ∧ (r.wt.val = 5 → exec (.wrs p r) s = out (t.setSr p 5 v)) ∧
      (r.wt.val = 2 ∨ r.wt.val = 3 ∨ r.wt.val = 6 ∨ r.wt.val = 7 → exec (.wrs p r) s = out t)) ∧
    (r.wt = 0 → r.ws = 0 → s.Issues p (r.word 0x25 6) t →
      let two := fun v : Nat => (Host.Outcome.next ((t.setW p r.wd (BitVec.ofNat 32 v)).putNext p (r.wd + 1) (BitVec.ofNat 32 (v / 2 ^ 32))) : Out)
      (r.x = 2 → exec (.tget p r) s = .next (t.putNext p r.wd (BitVec.ofNat 32 (t.raw % 2 ^ 32)))) ∧
      (r.x = 0 → r.wd.val % 2 = 0 → 2 ≤ r.wd.val → exec (.tget p r) s = two t.raw) ∧
      (r.x = 1 → r.wd.val % 2 = 0 → 2 ≤ r.wd.val → exec (.tget p r) s = two (t.progTime p)))

/-- Traps (R256–R258): EPC, CAUSE and TVAL record the trap; with valid vectors and no handler running the processor goes on at the vector base with pie = ie,
ie = 0 and intrap = 1; otherwise an engine stops with cause 2. A word at the PC that no instruction has raises ILLEGAL, whatever instruction is asked, and so
does each instruction with a field that it does not use not zero, a reserved value, or on a processor that does not have it (R239, R250, R254, R255, R260). -/
def Obligations.TrapEntry : Prop :=
  (∀ (s : State) (p c : Nat) (v : Word), p < 2 → getF (s.sr p 4) 0 1 = 1 → getF (s.sr p 0) 0 1 = 0 →
    let u := ((s.setSr p 1 (BitVec.ofNat 32 (s.pcOf p))).setSr p 2 (BitVec.ofNat 32 c)).setSr p 3 v
    u.vecOn p = true → stIntrap (u.sr p 0) = false →
    s.takeTrap p c v = (u.setSr p 0 (setF (setF (setF (u.sr p 0) 2 1 (getF (u.sr p 0) 1 1)) 1 1 0) 0 1 1)).setPc p (getF (u.sr p 4) 8 24 * 256)) ∧
  (∀ (s : State) (p c : Nat) (v : Word), 2 ≤ p →
    let u := (((s.setSr p 1 (BitVec.ofNat 32 (s.pcOf p))).setSr p 2 (BitVec.ofNat 32 c)).setSr p 3 v).inc (F.ENG_CNT_TRAP (p - 2))
    u.vecOn p = false ∨ stIntrap (u.sr p 0) = true → s.takeTrap p c v = u.engStop (p - 2) 2 3) ∧
  (∀ (p : Fin 18) (s t : State) (x w : Word) (ok : Bool) (body : State → Res × State), s.Issues p x t → isInstr x = false → x ≠ w →
    s.issue p w ok body = t.takeTrap p 1 x) ∧
  (∀ (p : Fin 18) (r : RFmt) (s t : State),
    let ill := fun (m f : Nat) (o : Out) => s.Issues p (r.word m f) t → o = .next (t.takeTrap p 1 (r.word m f))
    (r.x ≠ 0 →
      ill 0 0x01 (exec (.add p r) s) ∧ ill 0 0x02 (exec (.sub p r) s) ∧ ill 0 0x03 (exec (.and p r) s) ∧ ill 0 0x04 (exec (.or p r) s) ∧
      ill 0 0x05 (exec (.xor p r) s) ∧ ill 0 0x06 (exec (.nor p r) s) ∧ ill 0 0x07 (exec (.andn p r) s) ∧ ill 0 0x08 (exec (.cplt p r) s) ∧
      ill 0 0x09 (exec (.cpltu p r) s) ∧ ill 0 0x0A (exec (.cpeq p r) s) ∧ ill 0 0x10 (exec (.shl p r) s) ∧ ill 0 0x11 (exec (.shr p r) s) ∧
      ill 0 0x12 (exec (.shra p r) s) ∧ ill 0 0x1C (exec (.min p r) s) ∧ ill 0 0x1D (exec (.max p r) s) ∧ ill 0 0x1E (exec (.minu p r) s) ∧
      ill 0 0x1F (exec (.maxu p r) s) ∧ ill 3 0x00 (exec (.fadd p r) s) ∧ ill 3 0x01 (exec (.fsub p r) s) ∧ ill 3 0x02 (exec (.fmul p r) s) ∧
      ill 3 0x03 (exec (.fdiv p r) s) ∧ ill 3 0x05 (exec (.fmin p r) s) ∧ ill 3 0x06 (exec (.fmax p r) s) ∧ ill 3 0x07 (exec (.feq p r) s) ∧
      ill 3 0x08 (exec (.flt p r) s) ∧ ill 3 0x09 (exec (.fle p r) s) ∧ ill 0x19 0 (exec (.amadd p r) s) ∧ ill 0x19 1 (exec (.amswap p r) s)) ∧
    (r.wt ≠ 0 → ill 0 0x14 (exec (.shlK p r) s) ∧ ill 0 0x15 (exec (.shrK p r) s) ∧ ill 0 0x16 (exec (.shraK p r) s)) ∧
    (r.x ≠ 0 ∨ r.wt ≠ 0 → ill 0 0x18 (exec (.clz p r) s) ∧ ill 3 0x04 (exec (.fsqrt p r) s) ∧ ill 3 0x0A (exec (.itof p r) s) ∧
      ill 3 0x0B (exec (.ftoi p r) s) ∧ ill 3 0x0C (exec (.ftoiz p r) s)) ∧
    (r.x ≠ 0 ∨ r.wt ≠ 0 ∨ r.wd ≠ 0 → ill 0x24 0 (exec (.jmpr p r) s) ∧ ill 0x24 1 (exec (.callr p r) s)) ∧
    (r.wd ≠ 0 ∨ r.ws ≠ 0 → ill 0x25 0 (exec (.trap p r) s)) ∧
    (r ≠ ⟨0, 0, 0, 0⟩ → ill 0x25 1 (exec (.brk p r) s) ∧ ill 0x25 2 (exec (.tret p r) s) ∧ ill 0x25 5 (exec (.drain p r) s)) ∧
    (r.x ≠ 0 ∨ r.ws ≠ 0 ∨ 8 ≤ r.wt.val → ill 0x25 3 (exec (.rds p r) s)) ∧ (r.x ≠ 0 ∨ r.wd ≠ 0 ∨ 8 ≤ r.wt.val → ill 0x25 4 (exec (.wrs p r) s)) ∧
    (r.wt ≠ 0 ∨ r.ws ≠ 0 ∨ 2 < r.x.val ∨ (r.x.val < 2 ∧ (r.wd.val % 2 = 1 ∨ r.wd = 0)) → ill 0x25 6 (exec (.tget p r) s))) ∧
  (∀ (p : Fin 18) (r : StrFmt) (s t : State),
    let ill := fun (f : Nat) (o : Out) => s.Issues p (r.word f) t → o = .next (t.takeTrap p 1 (r.word f))
    (r.size = 3 ∨ r.z ≠ 0 → ill 0 (exec (.movs p r) s) ∧ ill 2 (exec (.cmps p r) s)) ∧ (r.size = 3 ∨ r.ss ≠ 0 ∨ r.z ≠ 0 → ill 1 (exec (.fills p r) s)) ∧
    (r ≠ ⟨0, 0, 0, 0⟩ → ill 3 (exec (.rep p r) s))) ∧
  (∀ (p : Fin 18) (r : IoFmt) (s t : State),
    let ill := fun (f : Nat) (o : Out) => s.Issues p (r.word f) t → o = .next (t.takeTrap p 1 (r.word f))
    (p.val < 2 ∨ r.wm ≠ 0 ∨ r.z ≠ 0 ∨ 40 ≤ r.unit.val → ill 0 (exec (.push p r) s) ∧ ill 1 (exec (.pop p r) s)) ∧
    (p.val < 2 ∨ r.wr ≠ 0 ∨ r.nb = true ∨ r.z ≠ 0 ∨ 3 ≤ r.wm.val ∨ 40 ≤ r.unit.val → ill 2 (exec (.hctl p r) s)) ∧
    (p.val < 2 ∨ r.wm ≠ 0 ∨ r.nb = true ∨ r.z ≠ 0 ∨ r.unit ≠ 0 → ill 3 (exec (.hsync p r) s)) ∧ (r.z ≠ 0 ∨ r.unit ≠ 0 → ill 4 (exec (.wev p r) s)) ∧
    (2 ≤ p.val ∨ r ≠ ⟨0, 0, 0, false, 0⟩ → ill 5 (exec (.wevEoc p r) s)))

/-- Instructions of the engine I/O extension (R261–R264) on an engine that owns the stagehand they name: `push` puts the word of wr into its transmit FIFO,
`pop` takes the oldest word of its receive FIFO, `hctl` disables, enables or restarts it, `hsync` syncs the stagehands of a mask; `wev` takes the pending
events of its mask; `wev.eoc` ends a pair's logic phase. -/
def Obligations.IoInstructions : Prop :=
  (∀ (p : Fin 18) (r : IoFmt) (s t : State), 2 ≤ p.val → r.z = 0 → r.unit.val < 32 → t.rd (F.HAND_STAT_owner r.unit) = p - 2 →
    let h := r.unit.val
    let go := fun y : State => (Host.Outcome.next (y.setPc p (y.pcOf p + 4)) : Out)
    (r.wm = 0 → r.nb = false → (t.hand h).txf.length < 8 → s.Issues p (r.word 0) t →
      exec (.push p r) s = go ((t.setHand h (fun x => { x with txf := x.txf ++ [t.getW p r.wr] })).showHand h)) ∧
    (∀ (v : Word) (l : List Word), r.wm = 0 → r.nb = false → (t.hand h).rxf = v :: l → s.Issues p (r.word 1) t →
      exec (.pop p r) s = go (((t.setHand h (fun x => { x with rxf := l, lastRx := v })).showHand h).setW p r.wr v)) ∧
    (r.wr = 0 → r.nb = false → s.Issues p (r.word 2) t →
      (r.wm = 0 → exec (.hctl p r) s = go (t.handOff h)) ∧ (r.wm = 1 → exec (.hctl p r) s = go (t.handOn h)) ∧
      (r.wm = 2 → exec (.hctl p r) s = go (t.handRestart h)))) ∧
  (∀ (p : Fin 18) (r : IoFmt) (s t : State), 2 ≤ p.val → r.z = 0 → r.unit = 0 → r.wm = 0 → r.nb = false → s.Issues p (r.word 3) t →
    (∀ h, h < 32 → (t.getW p r.wr).getLsbD h = true → t.rd (F.HAND_STAT_owner h) = p - 2) →
    exec (.hsync p r) s = .next ((t.handSync (t.getW p r.wr).toNat).setPc p ((t.handSync (t.getW p r.wr).toNat).pcOf p + 4))) ∧
  (∀ (p : Fin 18) (r : IoFmt) (s t : State), r.z = 0 → r.unit = 0 → s.Issues p (r.word 4) t →
    let m := t.getW p r.wm
    let e := t.evPending p &&& m
    e ≠ 0 ∨ m = 0 ∨ r.nb = true → exec (.wev p r) s = .next ((t.evTake p e).putNext p r.wr e)) ∧
  (∀ (p : Fin 18) (s t : State), p.val < 2 → s.Issues p ((⟨0, 0, 0, false, 0⟩ : IoFmt).word 5) t →
    exec (.wevEoc p ⟨0, 0, 0, false, 0⟩) s = .next ((t.setPc p (t.pcOf p + 4)).endLogic p)) ∧
  (∀ (p : Fin 18) (r : AdlibFmt) (s t u : State) (v : Word), s.Issues p r.word t → t.adlibEnt r.sel ≠ [] →
    t.uops p ⟨t.getW p r.wd, t.getW p r.ws, t.getW p r.wt, BitVec.ofInt 32 (sgn 7 r.imm7), List.replicate 8 0⟩ none (t.trail p) (t.adlibEnt r.sel)
      = ((.next, some v), u) → exec (.adLib p r) s = .next (u.putNext p r.wd v)) ∧
  (∀ (n : Fin 16) (s : State), s.alive = true → s.procRuns (2 + n) = true → (s.proc (2 + n)).got = [] → getF (s.sr (2 + n) 0) 0 2 = 2 → s.vecOn (2 + n) = true →
    s.evtWord n &&& s.reg (F.ENG_IEN n).addr ≠ 0 →
    exec (.interruptEntry n) s =
      .next ((((s.setSr (2 + n) 1 (BitVec.ofNat 32 (s.pcOf (2 + n)))).setSr (2 + n) 2 0x80000000#32).setSr (2 + n) 3 0).enterHandler (2 + n) 0x80))

/-- The stagehand's instructions (R291–R293, R295) with legal fields, at a tick of an enabled stagehand that holds no longer: what each does, that it waits
where its condition does not hold, and which PC and hold follow one that is done. `u` is the state as the tick begins. -/
def Obligations.StagehandInstructions : Prop :=
  ∀ (h : Fin 32) (sel : Fin 4) (s : State),
    let u := s.handBegin h
    let a := u.rd (F.HAND_A h)
    let b := u.rd (F.HAND_B h)
    let done := fun (x : State) => (Host.Outcome.next (x.handNext h sel none) : Out)
    let wait := fun (x : State) => (Host.Outcome.next ((x.setHand h (fun y => { y with waitOn := true })).wr (F.HAND_STAT_waiting h) 1) : Out)
    (∀ (cond : Fin 16) (addr : Fin 32), cond.val ≤ 9 → s.HandRuns h (cond * 512 + addr * 16 + sel) →
      let slot := u.slotIn h (u.rd (F.HAND_TPIN_slot h))
      let taken := [true, decide (a ≠ 0), decide (b ≠ 0), slot, !slot, decide (u.rd (F.HAND_CNT_tcnt h) ≠ 0),
        decide (u.rd (F.HAND_CNT_rcnt h) < u.rd (F.HAND_SHCFG_rlen h) + 1), decide ((u.hand h).txf ≠ []), decide ((u.hand h).rxf.length < 8),
        decide (a = b)].getD cond false
      let v := if cond = 1 ∧ a ≠ 0 then u.wr (F.HAND_A h) (a - 1) else if cond = 2 ∧ b ≠ 0 then u.wr (F.HAND_B h) (b - 1) else u
      exec (.jump h cond addr 0 sel) s = .next (v.handNext h sel (if taken then some addr.val else none))) ∧
    (∀ (lvl : Bool) (src : Fin 4) (k : Fin 8), src.val < 3 → (src = 1 → lvl = true) →
      s.HandRuns h (0x2000 + (if lvl then 0x1000 else 0) + src * 1024 + k * 128 + sel) →
      let met := if src = 0 then decide (u.slotIn h k = lvl) else if src = 1 then (u.hand h).waitOn && (u.hand h).trigSeen.testBit k else decide (u.flag h k = lvl)
      exec (.waitfor h lvl src k 0 sel) s = if met then done u else wait u) ∧
    (∀ (n1 : Fin 32) (dst src : Fin 4) (ien oen : Bool), (oen = false → dst = 0) → (ien = false → src = 0) → (oen = false → ien = false → n1 = 0) →
      (oen = true → dst = 0 → u.rd (F.HAND_SHCFG_obase h) + n1 + 1 ≤ 8) → (ien = true → src = 0 → u.rd (F.HAND_SHCFG_ibase h) + n1 + 1 ≤ 8) →
      s.HandRuns h (0x4000 + n1 * 256 + dst * 64 + src * 16 + (if ien then 8 else 0) + (if oen then 4 else 0) + sel) →
      let n : Nat := n1 + 1
      let seen := u.shiftSrc h src
      let r := shiftOut (u.on (F.HAND_SHCFG_tdir h)) (u.rd (F.HAND_TSR h)) n
      let v := if oen then ((u.wr (F.HAND_TSR h) r.2).wr (F.HAND_CNT_tcnt h) (u.rd (F.HAND_CNT_tcnt h) - n)).shiftDst h n dst r.1 else u
      let x := if ien then (v.wr (F.HAND_RSR h) (shiftIn (v.on (F.HAND_SHCFG_rdir h)) (v.rd (F.HAND_RSR h)) n seen)).wr (F.HAND_CNT_rcnt h)
        (min (v.rd (F.HAND_CNT_rcnt h) + n) 32) else v
      exec (.shift h n1 dst src ien oen sel) s = done x) ∧
    (∀ (nb ife : Bool), s.HandRuns h (0x6000 + (if nb then 0x800 else 0) + (if ife then 0x400 else 0) + sel) →
      exec (.take h nb ife 0 sel) s =
        if ife = true ∧ u.rd (F.HAND_CNT_tcnt h) ≠ 0 then done u
        else match (u.hand h).txf with
          | v :: l => done (((u.setHand h (fun x => { x with txf := l, last := v })).showHand h).loadTsr h v.toNat)
          | [] => if nb then done ((u.loadTsr h (u.hand h).last.toNat).wr (F.HAND_STAT_txstale h) 1) else wait u) ∧
    (∀ (nb iff : Bool), s.HandRuns h (0x7000 + (if nb then 0x800 else 0) + (if iff then 0x400 else 0) + sel) →
      let r := u.rd (F.HAND_CNT_rcnt h)
      let v := if u.on (F.HAND_SHCFG_rdir h) then u.rd (F.HAND_RSR h) else u.rd (F.HAND_RSR h) / 2 ^ (32 - r)
      let clear := fun (x : State) => (x.wr (F.HAND_RSR h) 0).wr (F.HAND_CNT_rcnt h) 0
      exec (.give h nb iff 0 sel) s =
        if iff = true ∧ r < u.rd (F.HAND_SHCFG_rlen h) + 1 then done u
        else if (u.hand h).rxf.length < 8 then done (clear ((u.setHand h (fun x => { x with rxf := x.rxf ++ [BitVec.ofNat 32 v] })).showHand h))
        else if nb then done (clear (u.inc (F.HAND_DROP_rx h))) else wait u) ∧
    (∀ pat : Fin 256, s.HandRuns h (0x8000 + pat * 32 + sel) → exec (.drive h pat 0 sel) s = done (u.slotsOut h (u.rd (F.HAND_DMASK_mask h)) pat)) ∧
    (∀ (dst : Fin 4) (imm : Fin 512), dst ≠ 3 → s.HandRuns h (0xA000 + dst * 2048 + imm * 4 + sel) →
      exec (.ldk h dst imm sel) s = done (if dst = 0 then u.wr (F.HAND_A h) imm else if dst = 1 then u.wr (F.HAND_B h) imm
        else (u.wr (F.HAND_TSR h) imm).wr (F.HAND_CNT_tcnt h) (u.rd (F.HAND_SHCFG_tlen h) + 1))) ∧
    (∀ (dst src : Fin 8) (op : Fin 4), dst.val ≤ 3 ∨ dst = 5 → s.HandRuns h (0xC000 + dst * 1024 + src * 128 + op * 32 + sel) →
      let x := [u.slotsIn h, a, b, u.rd (F.HAND_TSR h), u.rd (F.HAND_RSR h), 0, 0xFFFFFFFF, u.raw % 2 ^ 32].getD src 0
      let v := [x, 0xFFFFFFFF ^^^ x, rev32 x, parity32 x].getD op 0
      exec (.move h dst src op 0 sel) s = .next
        (if dst = 0 then (u.slotsOut h (u.rd (F.HAND_DMASK_mask h)) v).handNext h sel none else if dst = 1 then (u.wr (F.HAND_A h) v).handNext h sel none
         else if dst = 2 then (u.wr (F.HAND_B h) v).handNext h sel none else if dst = 3 then (u.loadTsr h v).handNext h sel none
         else u.handNext h sel (some (v % 32)))) ∧
    (∀ (act : Fin 4) (k : Fin 8), s.HandRuns h (0xE000 + act * 2048 + k * 256 + sel) →
      exec (.signal h act k 0 sel) s =
        if act = 0 then done (u.setFlag h k true) else if act = 1 then done (u.setFlag h k false)
        else if act = 2 then (if (u.hand h).waitOn then (if u.flag h k then wait u else done u) else wait (u.setFlag h k true))
        else done (u.setFlag h k (!u.flag h k)))

/-- Reserved instructions (R294): a reserved field value in the word at the PC disables the stagehand, leaves its PC and everything else of it frozen, sets
HANDnn_STAT.illegal and the handerr event of its engine. -/
def Obligations.StagehandReserved : Prop :=
  ∀ (h : Fin 32) (sel : Fin 4) (s : State),
    let u := s.handBegin h
    let stopped := fun (o : Out) => o = .next (((u.wr (F.HAND_CTL_en h) 0).wr (F.HAND_STAT_illegal h) 1).engEvent (u.handOwner h) 20)
    (∀ (cond : Fin 16) (addr : Fin 32) (z : Fin 4), 9 < cond.val ∨ z ≠ 0 → s.HandRuns h (cond * 512 + addr * 16 + z * 4 + sel) →
      stopped (exec (.jump h cond addr z sel) s)) ∧
    (∀ (lvl : Bool) (src : Fin 4) (k : Fin 8) (z : Fin 32), src = 3 ∨ z ≠ 0 ∨ (src = 1 ∧ lvl = false) →
      s.HandRuns h (0x2000 + (if lvl then 0x1000 else 0) + src * 1024 + k * 128 + z * 4 + sel) → stopped (exec (.waitfor h lvl src k z sel) s)) ∧
    (∀ (n1 : Fin 32) (dst src : Fin 4) (ien oen : Bool),
      (oen = false ∧ dst ≠ 0) ∨ (ien = false ∧ src ≠ 0) ∨ (oen = false ∧ ien = false ∧ n1 ≠ 0) ∨
        (oen = true ∧ dst = 0 ∧ 8 < u.rd (F.HAND_SHCFG_obase h) + n1 + 1) ∨ (ien = true ∧ src = 0 ∧ 8 < u.rd (F.HAND_SHCFG_ibase h) + n1 + 1) →
      s.HandRuns h (0x4000 + n1 * 256 + dst * 64 + src * 16 + (if ien then 8 else 0) + (if oen then 4 else 0) + sel) →
      stopped (exec (.shift h n1 dst src ien oen sel) s)) ∧
    (∀ (x y : Bool) (z : Fin 256), z ≠ 0 → s.HandRuns h (0x6000 + (if x then 0x800 else 0) + (if y then 0x400 else 0) + z * 4 + sel) →
      stopped (exec (.take h x y z sel) s)) ∧
    (∀ (x y : Bool) (z : Fin 256), z ≠ 0 → s.HandRuns h (0x7000 + (if x then 0x800 else 0) + (if y then 0x400 else 0) + z * 4 + sel) →
      stopped (exec (.give h x y z sel) s)) ∧
    (∀ (pat : Fin 256) (z : Fin 8), z ≠ 0 → s.HandRuns h (0x8000 + pat * 32 + z * 4 + sel) → stopped (exec (.drive h pat z sel) s)) ∧
    (∀ imm : Fin 512, s.HandRuns h (0xA000 + 3 * 2048 + imm * 4 + sel) → stopped (exec (.ldk h 3 imm sel) s)) ∧
    (∀ (dst src : Fin 8) (op : Fin 4) (z : Fin 8), z ≠ 0 ∨ dst = 4 ∨ dst = 6 ∨ dst = 7 →
      s.HandRuns h (0xC000 + dst * 1024 + src * 128 + op * 32 + z * 4 + sel) → stopped (exec (.move h dst src op z sel) s)) ∧
    (∀ (act : Fin 4) (k : Fin 8) (z : Fin 64), z ≠ 0 → s.HandRuns h (0xE000 + act * 2048 + k * 256 + z * 4 + sel) → stopped (exec (.signal h act k z sel) s))

/-- Writes of a stagehand's instruction memory, A, B and TSR (R299): while en is 1 they write nothing and set imemerr; while it is 0 the register takes the
value. -/
def Obligations.StagehandMemory : Prop :=
  ∀ (id : Ident) (h : Fin 32) (s : State), s.Reaches id h →
    (s.rd (F.HAND_CTL_en h) = 1 →
      (∀ (i : Fin 32) (v : BitVec 16), exec (.handImemWrite id h i v) s = .next (s.wr (F.HAND_STAT_imemerr h) 1)) ∧
      (∀ (r : Fin 3) (v : Word), exec (.handABTsrWrite id h r v) s = .next (s.wr (F.HAND_STAT_imemerr h) 1))) ∧
    (s.rd (F.HAND_CTL_en h) = 0 →
      (∀ (i : Fin 32) (v : BitVec 16), ∃ t, exec (.handImemWrite id h i v) s = .next t ∧ t.rd (F.HAND_IMEM h i) = v.toNat ∧
        (∀ a, a ≠ (F.HAND_IMEM h i).addr → t.reg a = s.reg a) ∧ { t with regs := s.regs } = s) ∧
      (∀ (r : Fin 3) (v : Word), let f := [F.HAND_A h, F.HAND_B h, F.HAND_TSR h].getD r (F.HAND_A h)
        ∃ t, exec (.handABTsrWrite id h r v) s = .next t ∧ t.rd f = v.toNat ∧ (∀ a, a ≠ f.addr → t.reg a = s.reg a) ∧ { t with regs := s.regs } = s))

/-- The stagehand's control register and FIFOs (R262, R295, R297, R298, R300–R302): what a write by an identity that reaches the stagehand does; a write by
another engine writes nothing and is recorded as in R22. -/
def Obligations.StagehandControl : Prop :=
  (∀ (id : Ident) (h : Fin 32) (s : State), s.Reaches id h →
    (∃ t, exec (.handCtlEnClear id h) s = .next t ∧ t = s.handOff h ∧ t.rd (F.HAND_CTL_en h) = 0 ∧ t.handPc h = s.handPc h) ∧
    (exec (.handCtlEnSet id h) s = .next ((s.wr (F.HAND_CTL_en h) 1).setHand h (fun x => { x with acc := 0 }))) ∧
    (∃ t, exec (.handCtlRestart id h) s = .next t ∧ t = s.handRestart h ∧ t.rd (F.HAND_TSR h) = 0 ∧ t.rd (F.HAND_RSR h) = 0 ∧
      t.rd (F.HAND_CNT_tcnt h) = 0 ∧ t.rd (F.HAND_CNT_rcnt h) = 0 ∧ t.handPc h = s.rd (F.HAND_WRAP_bottom h)) ∧
    (exec (.handCtlFifoclr id h) s = .next ((s.setHand h (fun x => { x with txf := [], rxf := [] })).showHand h)) ∧
    (s.rd (F.HAND_CTL_en h) = 0 → exec (.handCtlCommit id h) s = .next (s.handApply h)) ∧
    (s.rd (F.HAND_CTL_en h) = 1 → exec (.handCtlCommit id h) s = .next (s.setHand h (fun x => { x with commitReq := true }))) ∧
    (∀ k, exec (.handCtlArm id h k) s = .next ((s.wr (F.HAND_CTL_trigsel h) k).wr (F.HAND_CTL_arm h) 1)) ∧
    (exec (.handCtlCntclr id h) s = .next ((s.wr (F.HAND_DROP_tx h) 0).wr (F.HAND_DROP_rx h) 0)) ∧
    (∀ v, exec (.handTxfWrite id h v) s = .next (if (s.hand h).txf.length < 8
      then (s.setHand h (fun x => { x with txf := x.txf ++ [v] })).showHand h else s.inc (F.HAND_DROP_tx h)))) ∧
  (∀ (id : Ident) (h : Fin 32) (s : State), s.alive = true →
    (∀ v l, (s.hand h).rxf = v :: l → exec (.handRxfRead id h) s = .next ((s.setHand h (fun x => { x with rxf := l, lastRx := v })).showHand h)) ∧
    ((s.hand h).rxf = [] → exec (.handRxfRead id h) s = .next (s.wr (F.HAND_STAT_rxstale h) 1))) ∧
  (∀ (id : Ident) (h : Fin 32) (s : State), s.alive = true → 0x10 ≤ id.val → id.val < 0x20 → id.val - 0x10 ≠ s.handOwner h →
    exec (.handCtlEnSet id h) s = .next (s.decErr id (F.HAND_CTL_en h).addr true) ∧
    exec (.handCtlEnClear id h) s = .next (s.decErr id (F.HAND_CTL_en h).addr true) ∧
    ∀ v, exec (.handTxfWrite id h v) s = .next (s.decErr id (F.HAND_TXF h).addr true))

/-- A script engine's own events and registers (R274, R275, R278, R281, R296): the timer fires where the raw counter has reached its compare value, the
watchdog stops an engine in RUN, a kick restarts it, a sync starts the named stagehands together, and a second gate transmission while one is under way
is refused. -/
def Obligations.EngineEvents : Prop :=
  (∀ (n : Fin 16) (s : State), s.alive = true →
    (s.rd (F.ENG_TCTL_en n) = 1 → s.domState n = 0 → (((s.raw % 2 ^ 32 + 2 ^ 32 - s.rd (F.ENG_TCMP n)) % 2 ^ 32) < 2 ^ 31) →
      exec (.engineTimer n) s = .next ((s.engEvent n 19).wr (F.ENG_TCTL_en n) 0)) ∧
    (s.engState n = 2 → s.domState n = 0 → (s.eng n).wdPeriod ≠ 0 → (s.eng n).wdRaw + (s.eng n).wdPeriod * 4000 ≤ s.raw →
      exec (.engineWatchdog n) s = .next (s.engStop n 3 3))) ∧
  (∀ (id : Ident) (n : Fin 16) (s : State), s.alive = true →
    (s.domState n ≠ 1 → exec (.engWdkick id n) s = .next (s.setEng n (fun x => { x with wdRaw := s.raw }))) ∧
    (∀ v, exec (.engGtx id n v) s = .next (if s.rd (F.ENG_GTXSTAT_busy n) = 0
      then (s.wr (F.ENG_GTXSTAT_busy n) 1).setEng n (fun x => { x with gtx := some (getF v 2 15 * 4) }) else s.wr (F.ENG_GTXSTAT_ovr n) 1)) ∧
    (∀ v, ∃ t, exec (.engEvtClear id n v) s = .next t ∧ (∀ k, k < 32 → t.bitOf (F.ENG_EVT n) k = (s.bitOf (F.ENG_EVT n) k && !v.getLsbD k)) ∧
      ∀ a, a ≠ (F.ENG_EVT n).addr → t.reg a = s.reg a) ∧
    (exec (.engCntclr id n) s = .next (s.clearRegs (F.ENG_CNT_PARITY n).addr 4)) ∧
    (∀ m : Word, ¬ (0x10 ≤ id.val ∧ id.val < 0x20) → exec (.engSync id n m) s = .next (s.handSync m.toNat)) ∧
    (∀ m : Word, 0x10 ≤ id.val → id.val < 0x20 → exec (.engSync id n m) s = .next (s.handSync (Nat.land m.toNat (s.handsOf (id.val - 0x10))))))

/-- The command core's pipeline (R37–R40, R50, R51, R519, R488): consumption of the slot whose turn it is, a stall where the prompt book's next place is
still in use, the start and the end of a command, the completion interrupt that is due, and the missing heartbeat. -/
def Obligations.CommandPipeline : Prop :=
  (∀ (env : Env) (s : State), s.coreUp = true → s.cmd.accStop = false →
    (s.bookBlocked = true → exec (.slotConsumption env) s = .next (s.wr F.CMD_STATUS_bookstall 1)) ∧
    (∀ q left, s.bookBlocked = false → (s.wr F.CMD_STATUS_bookstall 0).pickQueue = some (q, left) →
      let u := s.wr F.CMD_STATUS_bookstall 0
      let v := { u with cmd := { u.cmd with turn := q, turns := left } }
      (v.hostQueue q = false → exec (.slotConsumption env) s =
        .next ((v.slotAt (v.sqBase q + 256 * v.rd (F.CMD_QPTR_head q))).2.2.acceptSlot q (v.slotAt (v.sqBase q + 256 * v.rd (F.CMD_QPTR_head q))).1
          (v.slotAt (v.sqBase q + 256 * v.rd (F.CMD_QPTR_head q))).2.1 env.hostFail)) ∧
      (v.hostQueue q = true → env.hostFail = false → env.host ≠ [] →
        exec (.slotConsumption env) s = .next (v.acceptSlot q (bytesToWords env.host) false false)))) ∧
  (∀ (seq : Nat) (env : Env) (s : State) (c : CmdRec), s.findCmd seq = some c → s.alive = true → s.cmd.halted = false →
    (s.mayStart c = true → exec (.commandStart seq env) s = .next (s.startCmd c env.hostFail)) ∧
    (s.mayStart c = false → exec (.commandStart seq env) s = .next s) ∧
    (∀ st rs, c.fin = some (st, rs) → exec (.commandEnd seq env) s = .next (s.endCmd c st rs env.hostFail)) ∧
    (c.fin = none → exec (.commandEnd seq env) s = .next s)) ∧
  (∀ (q : Fin 8) (s : State), s.alive = true →
    (s.irqDue q = true → exec (.completionInterrupt q) s = .next ((s.setQueue q (fun x => { x with unsig := 0 })).signalQueue q false)) ∧
    (s.irqDue q = false → exec (.completionInterrupt q) s = .next s)) ∧
  (∀ s : State, s.alive = true → exec .coreHeartbeat s = .next { s with cmd := { s.cmd with resetReq := some 5 } })

/-- Acceptance of a packet (R38, R47, R48): a good one leaves the book, the queue's head and the list of accepted commands advanced by one, its entry holds its
sequence number, its opcode and its tag; one that fails a check becomes no command. A start in STARTED order and an end that leaves no command of its number
(R39, R40) follow it. -/
def Obligations.AcceptedCommands : Prop :=
  (∀ (s : State) (q : Nat) (ws : List Word) (bad fail : Bool), q < 8 → s.checkPacket q ws bad = none →
    let n := s.cmd.book + 1
    let head := (s.rd (F.CMD_QPTR_head q) + 1) % s.qSlots q
    let c := recOfPacket ws n q (s.owner q) (s.backstage (s.owner q)) s.raw head none
    let t := s.acceptSlot q ws bad fail
    t.cmd.book = n ∧ t.cmd.cmds = s.cmd.cmds ++ [c] ∧ t.rd (F.CMD_QPTR_head q) = head % 2 ^ (F.CMD_QPTR_head q).w ∧
    t.wordAt (bookAddr n) = BitVec.ofNat 32 n ∧ t.wordAt (bookAddr n + 12) = c.tag ∧ t.raw = s.raw) ∧
  (∀ (s : State) (q : Nat) (ws : List Word) (bad fail : Bool) (st : Nat) (rs : List Word), q < 8 → s.checkPacket q ws bad = some (st, rs) →
    (s.acceptSlot q ws bad fail).cmd.book = s.cmd.book + 1 ∧ (s.acceptSlot q ws bad fail).cmd.cmds = s.cmd.cmds) ∧
  (∀ (s : State) (c : CmdRec) (fail : Bool), s.findCmd c.seq = some c →
    (s.startCmd c fail).findCmd c.seq = some { c with started := true, startRaw := s.raw, units := (s.bookSet c.seq 2 0x0002 (3 * 2 ^ 30)).unitsOf c }) ∧
  (∀ (s : State) (c : CmdRec) (st : Nat) (rs : List Word) (fail : Bool), s.cmd.inject = [] → (s.endCmd c st rs fail).findCmd c.seq = none)

/-- The command watchdog (R43, R488): a command of kind S or Q that has run longer than its limit fails with status 0x0F01, and no other change is made; one
within its limit goes on. -/
def Obligations.CommandWatchdog : Prop :=
  ∀ (seq : Nat) (s : State) (c : CmdRec) (r : OpRow), s.findCmd seq = some c → s.alive = true → c.started = true → c.fin = none →
    opRow c.opcode = some r → isLong c = false →
    let limit := (if r.kind = .q then s.cmd.limQ else s.cmd.limS) * 400000
    (c.startRaw + limit < s.raw → exec (.commandWatchdog seq) s = .next (s.fin seq 0x0F01 [])) ∧
    (s.raw ≤ c.startRaw + limit → exec (.commandWatchdog seq) s = .next s)

/-- Queue control (R28, R31, R57): reset, commit, enable and disable by an identity of the backstage view; an epoch that the store has not recorded is
tried again; a write by another identity is a view fault.
Doorbells of the queues at the command core (R30, R436): a tail or head value that is legal moves the pointer and is acknowledged with code 0, an illegal
one halts the queue with dberr and code 1, and one for a queue that is not enabled or halted has code 2. -/
def Obligations.QueueControl : Prop :=
  ((∀ (id : Ident) (q : Fin 8) (env : Env) (s : State), s.Backs id →
     exec (.cmdQctlReset id q env) s = .next (s.queueReset q (readBackBad env)) ∧
     (s.rd (F.CMD_QCTL_enable q) = 1 ∨ s.placementOk q = false ∨ (s.rd F.CALL_LOCK_lock = 1 ∧ s.bindsChange q (s.rdS (F.CMD_QCFG_owner q)) = true) →
       exec (.cmdQctlCommit id q) s = .next (s.wr (F.CMD_QSTAT_cfgerr q) 1)) ∧
     (s.rd (F.CMD_QCTL_enable q) = 0 → s.placementOk q = true → (s.rd F.CALL_LOCK_lock = 0 ∨ s.bindsChange q (s.rdS (F.CMD_QCFG_owner q)) = false) →
       let o := s.rdS (F.CMD_QCFG_owner q)
       exec (.cmdQctlCommit id q) s = .next (((s.commitRegs (queueRegs q)).bindDoorbell q o).bindDoorbell (8 + q) o).showQPending) ∧
     (s.rd (F.CMD_QCTL_enable q) = 1 → exec (.cmdQctlEnable id q env) s = .next s) ∧
     (s.rd (F.CMD_QCTL_enable q) = 0 → exec (.cmdQctlEnable id q env) s =
       .next ((((s.wr (F.CMD_QCTL_enable q) 1).unpost q).zeroPtrs q).newEpoch q ((s.rd (F.CMD_QEPOCH q) + 1) % 2 ^ 32) (readBackBad env))) ∧
     (∃ t, exec (.cmdQctlDisable id q) s = .next t ∧ t.rd (F.CMD_QCTL_enable q) = 0 ∧ t.rd (F.CMD_QSTAT_enabled q) = 0 ∧
       (s.rd (F.CMD_QSTAT_halted q) = 0 → t.cmd.cmds = s.cmd.cmds) ∧
       (s.rd (F.CMD_QSTAT_halted q) = 1 → t.cmd.cmds = s.cmd.cmds.filter (fun c => !(c.queue = q.val && !c.started))))) ∧
   (∀ (env : Env) (s : State), s.alive = true → s.cmd.halted = false → exec (.epochRecordRetry env) s =
     .next (s.each (List.range 8) (fun q x => match (x.queue q).epochWait with | none => x | some e => x.newEpoch q e (readBackBad env)))) ∧
   (∀ (id : Ident) (q : Fin 8) (env : Env) (s : State), s.alive = true → s.backstage id = false →
     let fault := (Host.Outcome.next (s.viewFault id (F.CMD_QCTL_reset q).addr true false) : Out)
     exec (.cmdQctlReset id q env) s = fault ∧ exec (.cmdQctlCommit id q) s = fault ∧ exec (.cmdQctlEnable id q env) s = fault ∧
       exec (.cmdQctlDisable id q) s = fault)) ∧
  (∀ (c : Fin 16) (s : State), s.coreUp = true → s.rd (F.CALL_STAT_busy c) = 1 →
     let q := c.val % 8
     let v := s.rd (F.CALL_DB c)
     let n := s.qSlots q
     let h := s.rd (F.CMD_QPTR_head q)
     let ch := s.rd (F.CMD_QCQPTR_head q)
     let ct := s.rd (F.CMD_QCQPTR_tail q)
     let run := s.rd (F.CMD_QSTAT_enabled q) = 1 ∧ s.rd (F.CMD_QSTAT_halted q) = 0
     let bad := ((s.wr (F.CMD_QSTAT_dberr q) 1).wr (F.CMD_QSTAT_halted q) 1).ackChannel c 1
     let tailOk := v < n ∧ (s.rd (F.CMD_QPTR_tail q) + n - h) % n ≤ (v + n - h) % n
     let headOk := v < n ∧ (v + n - ch) % n ≤ (ct + n - ch) % n
     (¬ run → exec (.doorbellProcessing c) s = .next (s.ackChannel c 2)) ∧
     (run → c.val < 8 → tailOk → exec (.doorbellProcessing c) s = .next ((s.wr (F.CMD_QPTR_tail q) v).ackChannel c 0)) ∧
     (run → c.val < 8 → ¬ tailOk → exec (.doorbellProcessing c) s = .next bad) ∧
     (run → 8 ≤ c.val → headOk → exec (.doorbellProcessing c) s =
       .next (((s.wr (F.CMD_QCQPTR_head q) v).setQueue q (fun x => if v = ct then { x with sig := false } else x)).ackChannel c 0)) ∧
     (run → 8 ≤ c.val → ¬ headOk → exec (.doorbellProcessing c) s = .next bad))

/-- The callboard's registers (R432–R437): a sender's doorbell and message, a receiver's acknowledgement and clear of the event count, bindings and their lock,
and the clears; an access by another identity is refused. `at_` is the address that is recorded of a refused access (notes/assumptions/13.md). -/
def Obligations.CallboardRegisters : Prop :=
  (∀ (id : Ident) (c : Fin 64) (v : Word) (s : State), s.alive = true →
    let at_ := fun a => if s.rd (F.VIEW_IDT_bs id) = 1 then a else a + 0x00800000
    let busy := s.rd (F.CALL_STAT_busy c)
    let sender := s.rd (F.CALL_BIND_valid c) = 1 ∧ s.rd (F.CALL_BIND_send c) = id
    let receiver := s.rd (F.CALL_BIND_valid c) = 1 ∧ s.rd (F.CALL_BIND_recv c) = id
    let rung := (((if busy = 1 then s.inc (F.CALL_STAT_coal c) else s).wr (F.CALL_DB c) v.toNat).wr (F.CALL_STAT_busy c) 1).wr (F.CALL_ACK_done c) 0
    (sender → (16 ≤ c.val ∨ rung.rd F.CMD_STATUS_ready ≠ 0) → exec (.callDoorbellWrite id c v) s = .next (rung.deliver c)) ∧
    (sender → c.val < 16 → rung.rd F.CMD_STATUS_ready = 0 → exec (.callDoorbellWrite id c v) s = .next (rung.ackChannel c 3)) ∧
    (¬ sender → exec (.callDoorbellWrite id c v) s = .next (s.callRefuse id (at_ (F.CALL_DB c).addr) true)) ∧
    (∀ w, sender → busy = 0 → exec (.callMessageWrite id c w v) s = .next (s.wr (F.CALL_MSG c w) v.toNat)) ∧
    (∀ w, ¬ (sender ∧ busy = 0) → exec (.callMessageWrite id c w v) s = .next (s.callRefuse id (at_ (F.CALL_MSG c w).addr) true)) ∧
    (receiver → v.getLsbD 17 = false → exec (.callAckWrite id c v) s = .next (if v.getLsbD 16 then
      (((s.wr (F.CALL_ACK_code c) (v.toNat % 2 ^ 16)).wr (F.CALL_ACK_done c) 1).wr (F.CALL_STAT_busy c) 0).callPend c else s)) ∧
    (receiver → exec (.callEvclr id c) s = .next ((s.wr (F.CALL_STAT_evcnt c) 0).callPend c)) ∧
    (¬ receiver → exec (.callAckWrite id c v) s = .next (s.callRefuse id (at_ (F.CALL_ACK_code c).addr) true) ∧
      exec (.callEvclr id c) s = .next (s.callRefuse id (at_ (F.CALL_ACK_code c).addr) true))) ∧
  (∀ (id : Ident) (c : Fin 64) (v : Word) (s : State), s.Backs id →
    (c.val < 16 → exec (.callBindWrite id c v) s = .next (s.event F.CALL_EVT_binderr)) ∧
    (16 ≤ c.val → s.rd F.CALL_LOCK_lock = 0 →
      v.getLsbD 31 = false ∨ ((partyOk (getF v 8 6) = true ∨ getF v 8 6 = 0x3F) ∧ partyOk (getF v 16 6) = true ∧ getF v 8 6 ≠ getF v 16 6) →
      exec (.callBindWrite id c v) s = .next (s.setReg (F.CALL_BIND_valid c).addr (v &&& 0xC03F3F00#32))) ∧
    exec (.callLock id) s = .next (s.wr F.CALL_LOCK_lock 1)) ∧
  (∀ (id : Ident) (s : State), s.alive = true →
    exec (.callErrInfoClear id) s = .next ((s.wr F.CALL_ERR_INFO_valid 0).wr F.CALL_ERR_INFO_ovf 0) ∧
    exec (.callCntEvdropClear id) s = .next (s.wr F.CALL_CNT_EVDROP 0))

/-- A started command takes its opcode's own step once (R39, R40; notes/assumptions/7.md): where the step is not due, because the command is unknown, of another opcode, not
started, has taken it, has ended, or the command core does not run, nothing changes. -/
def Obligations.StepTakenOnce : Prop :=
  ∀ (seq : Nat) (env : Env) (s : State),
    ((∀ c, ¬ s.Due 0x0000 seq c) → exec (.sysNop seq env) s = .next s) ∧ ((∀ c, ¬ s.Due 0x0005 seq c) → exec (.sysFwselect seq env) s = .next s) ∧
    ((∀ c, ¬ s.Due 0x0101 seq c) → exec (.storeWrite seq env) s = .next s) ∧ ((∀ c, ¬ s.Due 0x0D01 seq c) → exec (.safeRelease seq env) s = .next s) ∧
    (∀ c, s.Due 0x0000 seq c → ∃ t, exec (.sysNop seq env) s = .next t ∧ ∃ d, t.findCmd seq = some d ∧ d.ran = true ∧ d.fin = some (0, []) ∧
      exec (.sysNop seq env) t = .next t)

/-- The SYS and BOOK commands (R54, R55, R480, R483): their effects, result words and refusals.
The order of the checks of one command is the model's choice (notes/assumptions/117.md). -/
def Obligations.SystemCommands : Prop :=
  ∀ (seq : Nat) (env : Env) (s : State) (c : CmdRec),
    let b := s.begun seq
    let ends := fun (u : State) (st : Nat) (rs : List Word) => (Host.Outcome.next (u.fin seq st rs) : Out)
    (s.Due 0x0000 seq c → exec (.sysNop seq env) s = ends b 0 []) ∧
    (s.Due 0x0001 seq c → exec (.sysIdent seq env) s =
      ends b 0 [s.reg F.SYS_ID_part.addr, s.reg F.RING_SID_LO.addr, s.reg F.RING_SID_HI.addr, s.reg F.SYS_FWVER.addr]) ∧
    (s.Due 0x0002 seq c → exec (.sysReset seq env) s = ends b 0 []) ∧
    (s.Due 0x0003 seq c → exec (.sysStatus seq env) s =
      ends b 0 [s.reg F.SYS_RSTCAUSE_cause.addr, s.reg F.SYS_BOOT_slot.addr, s.reg F.PWR_STAT_pfw.addr, s.reg F.CLK_STAT_lock.addr]) ∧
    (s.Due 0x0004 seq c →
      (786432 < c.f 2 23 0 → exec (.sysFwload seq env) s = ends b 0x0302 []) ∧
      (∀ d bs t, c.f 2 23 0 ≤ 786432 → bulkOf c 0 0 = .ok d → b.readBuf c env d = (.data bs, t) →
        let k := 1 - t.rd F.SYS_BOOT_slot
        let ws := bytesToWords bs
        let u := t.putWords (fwBase k) ws
        let bad := fwHeaderOk ws = false ∨ nAt ws 2 ≠ bs.length ∨ u.anyBad (fwBase k) bs.length = true
        (bad → exec (.sysFwload seq env) s = ends (u.putWord (fwBase k) 0) 0x0604 []) ∧
        (¬ bad → u.sigOk 0 bs = true → exec (.sysFwload seq env) s = ends u 0 [BitVec.ofNat 32 k, wAt ws 3]) ∧
        (¬ bad → u.sigOk 0 bs = false → exec (.sysFwload seq env) s = ends u 0x0602 []))) ∧
    (s.Due 0x0005 seq c →
      let n := c.f 0 1 0
      (n = 1 → exec (.sysFwselect seq env) s = ends b 0x0104 []) ∧
      (2 ≤ n → s.fwValid (n - 2) = false → exec (.sysFwselect seq env) s = ends b 0x0200 []) ∧
      (n = 0 ∨ (2 ≤ n ∧ s.fwValid (n - 2) = true) →
        exec (.sysFwselect seq env) s = ends (b.wr F.SYS_BOOT_next n) 0 [(s.wr F.SYS_BOOT_next n).reg F.SYS_BOOT_next.addr])) ∧
    (s.Due 0x0E00 seq c → exec (.bookHead seq env) s = ends b 0 [seqLo s.cmd.book, seqHi s.cmd.book, seqLo s.bookOld, seqHi s.bookOld]) ∧
    (s.Due 0x0E01 seq c → ∀ d : Bulk, bulkOf c 2 1 = .ok d → d.host = false ∨ s.bme (fnOf c.ident) = true →
      let count := c.f 1 31 16 + 1
      let first := max (c.p 0 + c.f 1 15 0 * 2 ^ 32) s.bookOld
      let n := min count (s.cmd.book + 1 - first)
      (d.len < 32 * count → exec (.bookRead seq env) s = ends b 0x0105 []) ∧
      (32 * count ≤ d.len → exec (.bookRead seq env) s =
        ends (b.writeBuf c d ((List.range n).flatMap (fun i => s.bookSlot c (first + i)))) 0 [BitVec.ofNat 32 n, seqLo first, seqHi first])) ∧
    (s.Due 0x0E02 seq c →
      let o := c.f 1 5 0
      let found := s.bookFind (fun n => decide (getF (s.bookW n 1) 26 6 = o) && decide (s.bookW n 3 = c.pw 0)) (seq - 1) 16383
      (c.bs = false → o ≠ c.ident → exec (.bookFind seq env) s = ends b 0x0501 []) ∧
      (c.bs = true ∨ o = c.ident → found = none → exec (.bookFind seq env) s = ends b 0 [0, 0, 0, 0]) ∧
      (∀ n, c.bs = true ∨ o = c.ident → found = some n → exec (.bookFind seq env) s =
        ends b 0 [1, seqLo n, seqHi n + BitVec.ofNat 32 (s.bookState n * 2 ^ 16), s.bookW n 2 &&& 0xFFFF#32])) ∧
    (s.Due 0x0E03 seq c → exec (.bookMark seq env) s = ends b 0 [])

/-- The HOST and PWR commands (R463, R465, R470, R471, R483). What PWR.STATUS measures of the supply is an open value (notes/assumptions/5.md).
The order of the checks of one command is the model's choice (notes/assumptions/117.md). -/
def Obligations.HostPowerCommands : Prop :=
  ∀ (seq : Nat) (env : Env) (s : State) (c : CmdRec),
    let b := s.begun seq
    let ends := fun (u : State) (st : Nat) (rs : List Word) => (Host.Outcome.next (u.fin seq st rs) : Out)
    (s.Due 0x0F00 seq c →
      let first := c.f 1 4 0
      let n := c.f 1 12 8
      let badEnc := 1 < c.f 0 13 12 ∨ c.f 0 11 8 < 1 ∨ 4 < c.f 0 11 8
      let set := ((((((b.wr F.HOST_CFG_splitfn (c.f 0 4 4)).wr F.HOST_CFG_paren (c.f 0 2 2)).wr F.HOST_CFG_qspien (c.f 0 1 1)).wr
        F.HOST_CFG_pcien (c.f 0 0 0)).wrS F.HOST_CFG_maxwidth (c.f 0 13 12)).wrS F.HOST_CFG_maxgen (c.f 0 11 8)).hostCommit
      (badEnc → exec (.hostConfig seq env) s = ends b 0x0104 []) ∧
      (¬ badEnc → 18 < n ∨ 32 < first + n → exec (.hostConfig seq env) s = ends b 0x0103 [1]) ∧
      (¬ badEnc → n ≤ 18 → first + n ≤ 32 → c.len < 6 + n → exec (.hostConfig seq env) s = ends b 0x0101 []) ∧
      (¬ badEnc → n ≤ 18 → first + n ≤ 32 → 6 + n ≤ c.len → exec (.hostConfig seq env) s =
        ends (set.each (List.range n) (fun i x => if first + i < 17 then
          (x.wr (F.HOST_IRQMAP_dest (first + i)) (c.f (2 + i) 7 6)).wr (F.HOST_IRQMAP_vector (first + i)) (c.f (2 + i) 5 0) else x)) 0 [])) ∧
    (s.Due 0x0F01 seq c →
      let m := c.f 0 1 0
      let own := ∃ fn, fn < 2 ∧ m.testBit fn = true ∧ c.ident = fn + 1
      let u := if m.testBit 0 then b.wr F.HOST_FENCE_f0 0 else b
      let v := if m.testBit 1 then u.wr F.HOST_FENCE_f1 0 else u
      (own → exec (.hostUnfence seq env) s = ends b 0x0501 []) ∧
      (¬ own → m ≠ 0 → s.rd F.HOST_STAT_link = 0 → exec (.hostUnfence seq env) s = ends b 0x0200 []) ∧
      (¬ own → m = 0 ∨ s.rd F.HOST_STAT_link = 1 → exec (.hostUnfence seq env) s = ends v 0 [v.reg F.HOST_FENCE_f0.addr])) ∧
    (s.Due 0x0F02 seq c → exec (.hostStatus seq env) s =
      ends b 0 [s.reg F.HOST_STAT_link.addr, s.reg F.HOST_FENCE_f0.addr, s.reg F.HOST_HSSTAT_good.addr, s.reg F.HOST_CNT_FENCEREJ.addr]) ∧
    (s.Due 0x0F03 seq c →
      let st := c.f 0 1 0
      let l := domNamed c
      let noDrv := s.isC = true ∧ c.f 3 15 8 ≠ 0
      (st = 3 → exec (.pwrDomain seq env) s = ends b 0x0104 []) ∧
      (st ≠ 3 → noDrv → exec (.pwrDomain seq env) s = ends b 0x0204 []) ∧
      (st ≠ 3 → ¬ noDrv → l.any (s.domRefused st) = true → exec (.pwrDomain seq env) s = ends b 0x0200 []) ∧
      (st ≠ 3 → ¬ noDrv → l.any (s.domRefused st) = false → exec (.pwrDomain seq env) s =
        ends (b.each l (fun d x => x.domTo st d)) 0 [BitVec.ofNat 32 (l.filter (fun d => s.domState d ≠ st)).length])) ∧
    (s.Due 0x0F04 seq c → exec (.pwrHoldup seq env) s = ends (b.putCfg F.PWR_HOLDUP_gate.addr (c.pw 0)) 0 []) ∧
    (s.Due 0x0F05 seq c → ∃ vin vf : Word, exec (.pwrStatus seq env) s =
      ends b.useFree.useFree 0 [s.reg F.PWR_STAT_pfw.addr, vin, vf, BitVec.ofNat 32 (wrapI 16 s.topTemp)])

/-- The SAFE and DIAG commands (R488, R490–R494, R497): the table, the release of a tripped gate whose causes are gone, self-tests and injected faults. Outcomes of a test
are observed (notes/assumptions/12.md).
The order of the checks of one command is the model's choice (notes/assumptions/117.md). -/
def Obligations.SafetyCommands : Prop :=
  ∀ (seq : Nat) (env : Env) (s : State) (c : CmdRec),
    let b := s.begun seq
    let ends := fun (u : State) (st : Nat) (rs : List Word) => (Host.Outcome.next (u.fin seq st rs) : Out)
    (s.Due 0x0D00 seq c →
      let bad := (∃ i, i < 8 ∧ actionsOk (c.pw i) 3 = false) ∨ actionsOk (c.pw 8) 2 = false
      (bad → exec (.safeTable seq env) s = ends b 0x0104 []) ∧
      (¬ bad → s.rd F.SAFE_LOCK_table = 1 → exec (.safeTable seq env) s = ends b 0x0203 []) ∧
      (¬ bad → s.rd F.SAFE_LOCK_table = 0 → s.rd F.SAFE_STATE_state ≠ 1 → exec (.safeTable seq env) s = ends b 0x0200 []) ∧
      (¬ bad → s.rd F.SAFE_LOCK_table = 0 → s.rd F.SAFE_STATE_state = 1 → exec (.safeTable seq env) s =
        ends (((((((b.each (List.range 8) (fun i x => x.wrS (F.SAFE_DIO i) (c.f i 15 0))).wrS F.SAFE_DRV (c.f 8 15 0)).wrS F.SAFE_MISC_quadrel (c.f 9 11 0)).wrS
          F.SAFE_MISC_lapsafe (c.f 9 17 16)).wrS F.SAFE_MISC_motstop (c.f 9 31 24)).commitRegs safeRegs).wr F.SAFE_STATE_pending 0) 0 [])) ∧
    (s.Due 0x0D01 seq c →
      let before := s.reg F.SAFE_CAUSE.addr
      (s.rd F.SAFE_STATE_state = 1 → exec (.safeRelease seq env) s = ends b 0 [before]) ∧
      (s.rd F.SAFE_STATE_state = 2 → s.blocking = 0 → exec (.safeRelease seq env) s =
        ends (((((b.wr F.SAFE_CAUSE 0).wr F.SAFE_CAUSENOW 0).wr F.SAFE_STATE_state 1).wr F.PWR_STAT_gated 0).each (List.range 8)
          (fun n x => x.wr (F.DRV_STAT_forced n) 0)) 0 [before]) ∧
      (s.rd F.SAFE_STATE_state ≠ 1 → s.rd F.SAFE_STATE_state ≠ 2 ∨ s.blocking ≠ 0 → exec (.safeRelease seq env) s = ends b 0x0200 [before])) ∧
    (s.Due 0x0D02 seq c → exec (.safeStatus seq env) s =
      ends b 0 [s.reg F.SAFE_STATE_state.addr, s.reg F.SAFE_CAUSE.addr, s.reg F.SAFE_CAUSENOW.addr, s.reg F.SAFE_FIRST_INFO.addr]) ∧
    (s.Due 0x0D03 seq c → c.f 0 1 0 = 0 → 1 < c.f 0 7 4 → exec (.diagBist seq env) s = ends b 0x0107 []) ∧
    (s.Due 0x0D03 seq c → c.f 0 1 0 ≠ 3 → (c.f 0 1 0 = 0 → c.f 0 7 4 ≤ 1) →
      let r := wAt env.obs 0 &&& 0xFF01#32
      (b.bistReady c = false → exec (.diagBist seq env) s = ends b 0x0200 []) ∧
      (b.bistReady c = true → env.obs = [] → exec (.diagBist seq env) s = .next (b.again c)) ∧
      (b.bistReady c = true → env.obs ≠ [] → exec (.diagBist seq env) s =
        ends (if c.f 0 1 0 = 2 ∧ getF r 0 1 = 1 then b.uncause 9 else b) 0 [r, wAt env.obs 1])) ∧
    (s.Due 0x0D04 seq c → unitOk (c.f 0 6 0) = false → exec (.diagLoop seq env) s = ends b 0x0107 []) ∧
    (s.Due 0x0D04 seq c → unitOk (c.f 0 6 0) = true → (c.f 0 6 0 < 64 ↔ c.f 0 8 8 = 0) → (c.f 0 8 8 = 1 → 200 ≤ c.p 1 ∧ c.p 1 ≤ 1000) →
      let u := c.f 0 6 0
      let refused := (c.f 0 8 8 = 0 ∧ s.windowOpen u = false) ∨ (s.unitOwner u).isSome = true
      let r := wAt env.obs 0 &&& 7#32
      (refused → exec (.diagLoop seq env) s = ends b 0x0200 []) ∧
      (¬ refused → env.obs = [] → exec (.diagLoop seq env) s = .next (b.again c)) ∧
      (¬ refused → env.obs ≠ [] → exec (.diagLoop seq env) s = ends (if getF r 0 1 = 0 then b.event F.SAFE_EVT_loopfail else b) 0 [r, wAt env.obs 1])) ∧
    (s.Due 0x0D05 seq c →
      let k := c.f 0 3 0
      let a := c.p 1
      let x := c.f 2 5 0
      let y := c.f 2 13 8
      (s.rd F.SAFE_LOCK_inj = 1 → exec (.diagInject seq env) s = ends b 0x0203 []) ∧
      (s.rd F.SAFE_LOCK_inj = 0 → 10 ≤ k → exec (.diagInject seq env) s = ends b 0x0104 []) ∧
      (s.rd F.SAFE_LOCK_inj = 0 → 2 ≤ k → k < 10 → exec (.diagInject seq env) s = ends (b.injectKind k (c.f 0 8 8) (c.f 0 15 12) seq) 0 []) ∧
      (s.rd F.SAFE_LOCK_inj = 0 → k < 2 → codedWord a = false → exec (.diagInject seq env) s = ends b 0x0103 [1]) ∧
      (s.rd F.SAFE_LOCK_inj = 0 → k = 0 → codedWord a = true → x ≤ 38 → exec (.diagInject seq env) s = ends (b.flipBit a x) 0 []) ∧
      (s.rd F.SAFE_LOCK_inj = 0 → k = 1 → codedWord a = true → x ≤ 38 → y ≤ 38 → x ≠ y →
        exec (.diagInject seq env) s = ends ((b.flipBit a x).flipBit a y) 0 [])) ∧
    (s.Due 0x0D06 seq c →
      (c.f 0 15 0 = 0 ∨ c.f 0 31 16 = 0 → exec (.diagWdog seq env) s = ends b 0x0103 [0]) ∧
      (c.f 0 15 0 ≠ 0 → c.f 0 31 16 ≠ 0 → exec (.diagWdog seq env) s =
        ends (({ b with cmd := { b.cmd with limS := c.f 0 15 0, limQ := c.f 0 31 16 } }).each (ones 16 (c.f 1 15 0))
          (fun n x => x.setEng n (fun e => { e with wdPeriod := c.f 2 15 0 }))) 0 []))

/-- The STORE and MEM commands (R405, R406, R416, R417, R423–R428). Whether the read-back of a store write finds an error is observed
(notes/assumptions/12.md).
The order of the checks of one command is the model's choice (notes/assumptions/117.md). -/
def Obligations.StoreMemoryCommands : Prop :=
  ∀ (seq : Nat) (env : Env) (s : State) (c : CmdRec),
    let b := s.begun seq
    let ends := fun (u : State) (st : Nat) (rs : List Word) => (Host.Outcome.next (u.fin seq st rs) : Out)
    let reach := fun (d : Bulk) => d.host = false ∨ s.bme (fnOf c.ident) = true
    (s.Due 0x0100 seq c → ∀ d, bulkOf c 2 1 = .ok d → reach d →
      let es := takeEnts (s.storeEnts.filter (fun e => !entBefore e ⟨c.f 0 31 30, c.f 0 23 0, []⟩)) d.len (c.f 1 15 0)
      let t := b.writeBuf c d (es.flatMap entWords)
      exec (.storeRead seq env) s = ends t 0 [BitVec.ofNat 32 es.length, t.storeSeqShown]) ∧
    (s.Due 0x0101 seq c → ∀ d bs t new, bulkOf c 1 0 = .ok d → b.readBuf c env d = (.data bs, t) →
      entsOf (bytesToWords bs) 0 (bytesToWords bs).length = .ok new → keyTwice [] 0 new = none →
      let base := if c.f 0 0 0 = 1 then t.storeEnts.filter (fun e => e.kind = 3) else t.storeEnts
      let es := new.foldl (fun l e => entPut e l) base
      4 * (recordWords 0 es).length ≤ 1048576 →
      (∀ u, t.storeWrite es (readBackBad env) = (true, u) → exec (.storeWrite seq env) s = ends u 0 [u.storeSeqShown, u.reg F.STORE_USED.addr]) ∧
      (∀ u, t.storeWrite es (readBackBad env) = (false, u) → exec (.storeWrite seq env) s = ends u 0x0F00 [])) ∧
    (s.Due 0x0102 seq c → ∀ d, bulkOf c 0 1 = .ok d → reach d →
      let es := s.storeEnts.take (d.len / 8)
      exec (.storeList seq env) s = ends (b.writeBuf c d (es.flatMap (fun e => (entWords e).take 2))) 0 [BitVec.ofNat 32 es.length]) ∧
    (s.Due 0x0103 seq c →
      let n := c.f 0 5 0
      let ks := (c.params.drop 1).take n
      let old := s.storeEnts
      let es := old.filter (fun e => !ks.any (fun k => decide (getF k 30 2 = e.kind ∧ getF k 0 24 = e.key)))
      (n < 1 ∨ 59 < n → exec (.storeErase seq env) s = ends b 0x0103 [0]) ∧
      (1 ≤ n → n ≤ 59 → c.len < 5 + n → exec (.storeErase seq env) s = ends b 0x0101 []) ∧
      (1 ≤ n → n ≤ 59 → 5 + n ≤ c.len → (∃ k ∈ ks, getF k 30 2 = 3) → exec (.storeErase seq env) s = ends b 0x0104 []) ∧
      (1 ≤ n → n ≤ 59 → 5 + n ≤ c.len → (∀ k ∈ ks, getF k 30 2 ≠ 3) → 4 * (recordWords 0 es).length ≤ 1048576 →
        ∀ u, b.storeWrite es (readBackBad env) = (true, u) →
          exec (.storeErase seq env) s = ends u 0 [u.storeSeqShown, BitVec.ofNat 32 (old.length - es.length)])) ∧
    (s.Due 0x0104 seq c → exec (.storeStatus seq env) s =
      ends b 0 [s.reg F.STORE_STAT_busy.addr, s.reg F.STORE_SEQA.addr, s.reg F.STORE_SEQB.addr, s.reg F.STORE_USED.addr]) ∧
    (s.Due 0x0105 seq c →
      let es := s.storeEnts.filter (fun e => e.kind = 3)
      4 * (recordWords 0 es).length ≤ 1048576 → ∀ u, b.storeWrite es (readBackBad env) = (true, u) →
        exec (.storeFactory seq env) s = ends u 0 [u.storeSeqShown]) ∧
    (s.Due 0x0C00 seq c →
      let ks := ones 32 (c.p 0) ++ (ones 32 (c.p 1)).map (· + 32)
      let st := c.f 2 1 0
      let t := b.each ks (fun k x => x.bankTo k st)
      (st = 3 → exec (.memPower seq env) s = ends b 0x0104 []) ∧
      (st ≠ 3 → st ≠ 0 → ks.any s.bankBusy = true → exec (.memPower seq env) s = ends b 0x0200 []) ∧
      (st ≠ 3 → st = 0 ∨ ks.any s.bankBusy = false →
        exec (.memPower seq env) s = ends t 0 [BitVec.ofNat 32 (ks.filter (fun k => s.bankState k ≠ t.bankState k)).length])) ∧
    (s.Due 0x0C01 seq c →
      let r := c.f 0 1 0
      (c.f 1 15 0 < 16 → exec (.memScrub seq env) s = ends b 0x0104 []) ∧
      (16 ≤ c.f 1 15 0 → exec (.memScrub seq env) s =
        ends ((b.wr (F.MEM_SCRUB_en r) (c.f 1 31 31)).wr (F.MEM_SCRUB_interval r) (c.f 1 15 0)) 0 [BitVec.ofNat 32 (s.memu.passDur.getD r 0 / 400)])) ∧
    (s.Due 0x0C02 seq c →
      let a := c.p 1
      let spares := s.rd (sparesFld (bankOf a))
      (c.f 0 0 0 = 1 → exec (.memRemap seq env) s = ends b 0 (remapWords (s.memu.remapped.filter (fun x => bankOf x = c.f 1 5 0)))) ∧
      (c.f 0 0 0 = 0 → 0x00400000 ≤ a ∨ a % 4 ≠ 0 → exec (.memRemap seq env) s = ends b 0x0103 [1]) ∧
      (c.f 0 0 0 = 0 → a < 0x00400000 → a % 4 = 0 → 8 ≤ spares → exec (.memRemap seq env) s = ends (b.event F.MEM_EVT_remapfull) 0x0300 []) ∧
      (c.f 0 0 0 = 0 → a < 0x00400000 → a % 4 = 0 → spares < 8 → (s.flipsAt a).length < 2 →
        exec (.memRemap seq env) s = ends (b.remapWord a) 0 [BitVec.ofNat 32 spares])) ∧
    (s.Due 0x0C03 seq c → ∀ o d bs t, bulkOf c 4 1 = .ok o → reach o → c.f 2 23 0 = o.len → bulkOf c 0 0 = .ok d → b.readBuf c env d = (.data bs, t) →
      exec (.memCopy seq env) s = ends ((t.writeBuf c o (bytesToWords bs)).wr (F.MEM_DMA3_moved 7) o.len) 0 [BitVec.ofNat 32 o.len]) ∧
    (s.Due 0x0C04 seq c → exec (.memStatus seq env) s =
      ends b 0 [s.reg F.MEM_EVT_corr.addr, s.reg F.MEM_CNT_CORRH.addr, s.reg F.MEM_CNT_UNCORR.addr,
        BitVec.ofNat 32 (((List.range 64).map (fun k => s.rd (sparesFld k))).foldl (· + ·) 0)])

/-- The RING commands (R82, R87–R90, R144, R168, R359): configuration while OFFLINE, schedule image and its commit, joining and leaving, split points, credits, healing
and status.
The order of the checks of one command is the model's choice (notes/assumptions/117.md). -/
def Obligations.RingCommands : Prop :=
  ∀ (seq : Nat) (env : Env) (s : State) (c : CmdRec),
    let b := s.begun seq
    let ends := fun (u : State) (st : Nat) (rs : List Word) => (Host.Outcome.next (u.fin seq st rs) : Out)
    (s.Due 0x0200 seq c →
      let legal := legalWord 0x040A0010 (c.pw 0) = true ∧ c.f 0 1 0 ≠ 3
      (¬ legal → exec (.ringConfig seq) s = ends b 0x0104 []) ∧
      (legal → s.rd F.RING_STATE_join ≠ 0 → exec (.ringConfig seq) s = ends b 0x0200 []) ∧
      (legal → s.rd F.RING_STATE_join = 0 → s.tierOk (c.pw 0) = false → exec (.ringConfig seq) s = ends (b.event F.RING_EVT_cfgerr) 0x0200 []) ∧
      (legal → s.rd F.RING_STATE_join = 0 → s.tierOk (c.pw 0) = true →
        exec (.ringConfig seq) s = ends (((b.putCfg 0x040A0010 (c.pw 0)).ringCfgNew).showRingPending) 0 [])) ∧
    (s.Due 0x0201 seq c →
      (s.ring.commit ≠ [] → exec (.ringSchedule seq env) s = ends b 0x0200 []) ∧
      (s.ring.commit = [] → c.f 2 23 0 ≠ 332 → exec (.ringSchedule seq env) s = ends b 0x0105 []) ∧
      (∀ d bs t, s.ring.commit = [] → c.f 2 23 0 = 332 → bulkOf c 0 0 = .ok d → b.readBuf c env d = (.data bs, t) →
        (∀ i, imageBad (bytesToWords bs) = some i → exec (.ringSchedule seq env) s = ends t 0x0103 [BitVec.ofNat 32 i]) ∧
        (imageBad (bytesToWords bs) = none → exec (.ringSchedule seq env) s =
          ends (t.loadImage (bytesToWords bs)) 0 [BitVec.ofNat 32 (nAt (bytesToWords bs) 0)]))) ∧
    (s.Due 0x0202 seq c →
      let gen := c.f 0 15 0
      let l0 := c.p 1 + c.f 2 15 0 * 2 ^ 32
      let lead := s.rd F.RING_JOINCFG_lead
      let l := if l0 = 0 then s.lap + lead else l0
      (c.f 0 16 16 = 0 → gen ≠ s.rd F.RING_GEN_shadow → exec (.ringCommit seq) s = ends b 0x0200 []) ∧
      (c.f 0 16 16 = 0 → gen = s.rd F.RING_GEN_shadow → l < s.lap + 2 → exec (.ringCommit seq) s = ends b 0x0103 [1]) ∧
      (c.f 0 16 16 = 0 → gen = s.rd F.RING_GEN_shadow → s.lap + 2 ≤ l →
        exec (.ringCommit seq) s = .next (b.setRing (fun r => { r with commit := r.commit ++ [⟨gen, l, false, some seq⟩] }))) ∧
      (c.f 0 16 16 = 1 → s.isStarter = false → exec (.ringCommit seq) s = ends b 0x0200 []) ∧
      (c.f 0 16 16 = 1 → s.isStarter = true → s.lap + 2 ≤ l → s.lap + lead ≤ l → exec (.ringCommit seq) s =
        .next ((b.setRing (fun r => { r with commit := r.commit ++ [⟨gen, l, true, some seq⟩] })).sendJoin s.ringId 4095
          (joinWords 5 0 gen 0 0 0 s.ringId l)))) ∧
    (s.Due 0x0203 seq c →
      (c.f 0 1 0 = 0 → s.rd F.RING_STATE_join ≠ 0 ∨ (s.rd F.RING_CFG_een = 0 ∧ s.rd F.RING_CFG_wen = 0) → exec (.ringJoin seq env) s = ends b 0x0200 []) ∧
      (c.f 0 1 0 = 0 → s.rd F.RING_STATE_join = 0 → s.rd F.RING_CFG_een = 1 ∨ s.rd F.RING_CFG_wen = 1 →
        exec (.ringJoin seq env) s = .next (b.startJoin (some seq))) ∧
      (c.f 0 1 0 = 2 → exec (.ringJoin seq env) s =
        ends (b.setRing (fun r => { r with grants := r.grants.filter (fun e => !(e.sidLo = c.pw 1 ∧ e.sidHi = c.pw 2)) })) 0 []) ∧
      (c.f 0 1 0 = 3 → exec (.ringJoin seq env) s = ends b 0x0104 []) ∧
      (∀ d bs t, c.f 0 1 0 = 1 → c.f 3 27 16 ≠ 0 → c.f 3 27 16 ≠ 4095 → s.ring.grants.length < 64 → c.f 6 23 0 = 332 → bulkOf c 4 0 = .ok d →
        b.readBuf c env d = (.data bs, t) → imageBad (bytesToWords bs) = none →
        exec (.ringJoin seq env) s = ends (t.putGrant ⟨c.pw 1, c.pw 2, c.f 3 27 16, c.f 3 15 0, bytesToWords bs⟩) 0 [])) ∧
    (s.Due 0x0204 seq c →
      (s.rd F.RING_STATE_join ≠ 5 → exec (.ringLeave seq) s = ends b 0x0200 []) ∧
      (s.rd F.RING_STATE_join = 5 →
        let u := (b.setJoin 6).setRing (fun r => { r with leaveSeq := some seq })
        (u.isStarter = true → exec (.ringLeave seq) s =
          .next (u.leaveRequest u.station (c.f 0 15 0) (u.reg F.RING_SID_LO.addr) (u.reg F.RING_SID_HI.addr))) ∧
        (u.isStarter = false → exec (.ringLeave seq) s = .next (u.sendJoin u.ring.starterRing u.ring.starterStation
          (joinWords 6 0 (c.f 0 15 0) (u.reg F.RING_SID_LO.addr) (u.reg F.RING_SID_HI.addr) u.station u.ringId 0))))) ∧
    (s.Due 0x0205 seq c →
      let a := 0x040A0600 + c.f 0 3 0 * 16
      (2 ^ c.f 3 15 13 ≤ c.f 3 30 24 → exec (.ringSplit seq) s = ends b 0x0103 [3]) ∧
      (c.f 3 30 24 < 2 ^ c.f 3 15 13 → exec (.ringSplit seq) s =
        ends ((((b.shadowCfg a (c.pw 1)).shadowCfg (a + 4) (c.pw 2)).shadowCfg (a + 8) (c.pw 3)).showRingPending) 0 [])) ∧
    (s.Due 0x0206 seq c → exec (.ringCredits seq) s = ends ((b.putCfg 0x040A0044 (c.pw 0)).putCfg 0x040A0048 (c.pw 1)) 0 []) ∧
    (s.Due 0x0207 seq c →
      let st := fun (u : State) => ends u 0 [u.reg 0x040A0704]
      (c.f 0 1 0 = 0 → legalWord 0x040A0700 (c.pw 1) = true → exec (.ringHeal seq) s =
        st ((((b.wr F.RING_HEALCFG_window (c.f 1 31 16)).wr F.RING_HEALCFG_stable (c.f 1 15 8)).wrS F.RING_HEALCFG_odir (c.f 1 0 0)).wr F.RING_HEALSTAT_pending 1)) ∧
      (c.f 0 1 0 = 0 → legalWord 0x040A0700 (c.pw 1) = false → exec (.ringHeal seq) s = ends b 0x0104 []) ∧
      (c.f 0 1 0 = 1 → exec (.ringHeal seq) s =
        st (b.each (healPorts c) (fun p x => if x.port p = 0 then (x.forcePort p true).portFail p else x.forcePort p true))) ∧
      (c.f 0 1 0 = 2 → exec (.ringHeal seq) s = st (b.each (healPorts c) (fun p x => x.forcePort p false))) ∧
      (c.f 0 1 0 = 3 → c.f 1 1 1 = 0 → c.f 1 0 0 = 1 → exec (.ringHeal seq) s =
        st ((b.setHeal (fun h => { h with wrapTab := [], wrapGone := [] })).showWraps))) ∧
    (s.Due 0x0208 seq c → exec (.ringStatus seq) s = ends b 0 [s.reg 0x040A0018, s.reg 0x040A0000, s.reg 0x040A0030, s.reg 0x040A0028])

/-- The TIME commands (R96, R107, R108, R113, R116, R118–R120, R122–R124).
The order of the checks of one command is the model's choice (notes/assumptions/117.md). -/
def Obligations.TimeCommands : Prop :=
  ∀ (seq : Nat) (s : State) (c : CmdRec),
    let b := s.begun seq
    let ends := fun (u : State) (st : Nat) (rs : List Word) => (Host.Outcome.next (u.fin seq st rs) : Out)
    (s.Due 0x0300 seq c →
      let set := (b.wr F.TIME_STARTER_cand (c.f 1 0 0)).wr F.TIME_STARTER_prio (c.f 1 15 8)
      (c.f 0 1 0 = 0 → c.f 1 15 8 = 255 → exec (.timeStarter seq) s = ends b 0x0104 []) ∧
      (c.f 0 1 0 = 0 → c.f 1 15 8 ≠ 255 → c.f 1 0 0 = 1 ∨ (set.role ≠ rLISTEN ∧ set.role ≠ rCLAIM) → exec (.timeStarter seq) s = ends set 0 []) ∧
      (c.f 0 1 0 = 0 → c.f 1 15 8 ≠ 255 → c.f 1 0 0 = 0 → set.role = rLISTEN ∨ set.role = rCLAIM →
        exec (.timeStarter seq) s = ends (set.setRole rIDLE) 0 []) ∧
      (c.f 0 1 0 = 1 → s.isStarter = true → exec (.timeStarter seq) s = ends (b.setReserves (c.f 1 11 0) (c.f 1 27 16) (c.f 2 11 0)) 0 []) ∧
      (c.f 0 1 0 = 1 → s.isStarter = false → exec (.timeStarter seq) s = ends b 0x0200 []) ∧
      (2 ≤ c.f 0 1 0 → exec (.timeStarter seq) s = ends b 0x0104 [])) ∧
    (s.Due 0x0301 seq c →
      (c.f 0 1 1 = 1 → 999999999 < c.p 3 → exec (.timeSet seq) s = ends b 0x0103 [3]) ∧
      (c.p 3 ≤ 999999999 → s.lapsRun = true → c.f 0 1 1 = 1 → s.isStarter = false → exec (.timeSet seq) s = ends b 0x0200 []) ∧
      (c.f 0 1 1 = 0 ∨ (c.p 3 ≤ 999999999 ∧ s.isStarter = true) → s.lapsRun = true →
        let u := if c.f 0 0 0 = 1 then b.setTime (fun t => { t with rateReq := some (c.pI 1) }) else b
        let v := u.setTime (fun t => { t with servoReq := some (c.f 0 2 2) })
        let amount := (c.pI 2 * 1000000000 + c.p 3) * 65536
        exec (.timeSet seq) s = if c.f 0 1 1 = 1 ∧ amount ≠ 0 then ends (v.setTime (fun t => { t with step := some (s.lap + 17, amount) })) 0 [BitVec.ofNat 32 (s.lap + 17)]
          else ends v 0 [0]) ∧
      (s.lapsRun = false → c.f 0 1 1 = 0 → c.f 0 0 0 = 0 → exec (.timeSet seq) s = ends (b.wr F.TIME_SERVO_en (c.f 0 2 2)) 0 [0])) ∧
    (s.Due 0x0302 seq c →
      (c.f 0 0 0 = 0 → s.lapsRun = true → exec (.timeAsym seq) s = ends (b.setTime (fun t => { t with asymReq := t.asymReq ++ [(c.f 0 4 4, c.pw 1)] })) 0 []) ∧
      (c.f 0 0 0 = 0 → s.lapsRun = false → exec (.timeAsym seq) s = ends (b.putAsym (c.f 0 4 4) (c.pw 1)) 0 []) ∧
      (c.f 0 0 0 = 1 → s.isStarter = true → exec (.timeAsym seq) s = .next (b.setTime (fun t => { t with asymRun := some ⟨seq, 256, [none, none], 0, 0⟩ }))) ∧
      (c.f 0 0 0 = 1 → s.isStarter = false → exec (.timeAsym seq) s = ends b 0x0200 [])) ∧
    (s.Due 0x0303 seq c →
      let n := c.f 0 2 0
      let pOk := trigPeriodOk (c.pw 1) (c.pw 6)
      let wOk := trigWidthOk (c.pw 1) (c.pw 6) (c.pw 7)
      let taken := s.motDrives n = true ∧ c.f 1 2 2 = 1
      (pOk = false → exec (.timeTrig seq) s = ends b 0x0104 []) ∧ (pOk = true → wOk = false → exec (.timeTrig seq) s = ends b 0x0103 [7]) ∧
      (pOk = true → wOk = true → taken → exec (.timeTrig seq) s = ends b 0x0200 []) ∧
      (pOk = true → wOk = true → ¬ taken → exec (.timeTrig seq) s =
        ends ((b.putCfgs ((List.range 8).map (fun i => (0x04090100 + n * 32 + i * 4, c.pw (i + 1))))).startTrig n) 0 [])) ∧
    (s.Due 0x0304 seq c →
      let n := c.f 0 2 0
      let u := (b.wr (F.TIME_CAPT0_en n) (c.f 1 0 0)).wr (F.TIME_CAPT0_edge n) (c.f 1 2 1)
      (c.f 1 2 1 = 0 → exec (.timeCapt seq) s = ends b 0x0104 []) ∧
      (c.f 1 2 1 ≠ 0 → exec (.timeCapt seq) s = ends (if c.f 1 8 8 = 1 then u.wr (F.TIME_CAPT0_ovf n) 0 else u) 0 [])) ∧
    (s.Due 0x0305 seq c →
      (s.lapsRun = true → s.isStarter = false → exec (.timeUtc seq) s = ends b 0x0200 []) ∧
      (s.lapsRun = false ∨ s.isStarter = true → exec (.timeUtc seq) s = ends (b.wr F.TIME_UTC (c.f 0 15 0)) 0 [])) ∧
    (s.Due 0x0306 seq c →
      (c.f 0 5 4 = 3 → exec (.timePtp seq) s = ends b 0x0104 []) ∧
      (c.f 0 5 4 ≠ 3 → c.f 0 3 2 = 2 → s.isStarter = false → exec (.timePtp seq) s = ends b 0x0200 []) ∧
      (c.f 0 5 4 ≠ 3 → c.f 0 3 2 ≠ 2 ∨ s.isStarter = true → exec (.timePtp seq) s =
        ends ((b.setPtp (c.f 0 1 0) (fun x => { x with role := c.f 0 3 2, profile := c.f 0 5 4, domain := c.f 0 15 8, intervals := c.pw 1 })).showSource) 0 [])) ∧
    (s.Due 0x0307 seq c → exec (.timeStatus seq) s =
      ends b 0 [s.reg 0x04090000, s.reg F.TIME_OFFSET.addr, (s.ptp (c.f 0 1 0)).offset, s.reg 0x04090040])

/-- The MRSH, FAB and GATE commands (R127, R133, R140, R162, R173, R204, R205).
The order of the checks of one command is the model's choice (notes/assumptions/117.md). -/
def Obligations.MarshalFabricCommands : Prop :=
  ∀ (seq : Nat) (env : Env) (s : State) (c : CmdRec),
    let b := s.begun seq
    let ends := fun (u : State) (st : Nat) (rs : List Word) => (Host.Outcome.next (u.fin seq st rs) : Out)
    let reach := fun (d : Bulk) => d.host = false ∨ s.bme (fnOf c.ident) = true
    (s.Due 0x0400 seq c →
      (∀ i, mrshBadWord c = some i → exec (.mrshConfig seq) s = ends b 0x0103 [BitVec.ofNat 32 i]) ∧
      (mrshBadWord c = none → exec (.mrshConfig seq) s =
        ends (((b.shadowCfg 0x040B0004 (c.pw 0)).each (List.range 16) (fun n x =>
          (x.shadowCfg (0x040B0100 + n * 16) (c.pw (1 + 2 * n))).shadowCfg (0x040B0104 + n * 16) (c.pw (2 + 2 * n)))).mrshCommit.wr F.MRSH_STATE_pending 1) 0 [])) ∧
    (s.Due 0x0401 seq c →
      (2 ≤ c.f 0 1 0 → exec (.mrshMode seq) s = ends b 0x0104 []) ∧
      (c.f 0 1 0 < 2 → exec (.mrshMode seq) s = ends ((b.putCfg 0x040B0030 (c.pw 1)).setMrsh (fun m => { m with modeReq := some (c.f 0 1 0) })) 0 [])) ∧
    (s.Due 0x0402 seq c → exec (.mrshStatus seq) s =
      ends b 0 [s.reg 0x040B0000, s.reg (F.MRSH_SELF 0).addr, s.reg (F.MRSH_SELF 1).addr, s.reg F.MRSH_CNT_CUT.addr]) ∧
    (s.Due 0x0403 seq c →
      let u := if c.f 0 0 0 = 1 then b.clearRegs 0x040B0080 5 else b
      let v := if c.f 0 1 1 = 1 then (u.clearRegs 0x040B0028 2).each (List.range 16) (fun n x => x.wr (F.MRSH_WATCH3_max n) 0) else u
      let w := if c.f 0 2 2 = 1 then (v.setMrsh (fun m => { m with wlog := [] })).showWlog else v
      exec (.mrshClear seq) s = ends (if c.f 0 3 3 = 1 then w.leaveOut else w) 0 []) ∧
    (s.Due 0x0500 seq c →
      let w := c.f 0 3 0
      let l := winRegs w
      let ok := legalWord (l.getD 0 0) (c.pw 1)
      (ok = false → exec (.fabWindow seq env) s = ends b 0x0104 []) ∧
      (ok = true → 4096 < c.f 3 28 16 → exec (.fabWindow seq env) s = ends b 0x0103 [3]) ∧
      (ok = true → c.f 3 28 16 ≤ 4096 → exec (.fabWindow seq env) s =
        ends (((((b.shadowCfg (l.getD 0 0) (c.pw 1)).shadowCfg (l.getD 1 0) (c.pw 2)).shadowCfg (l.getD 2 0) (c.pw 3)).showWins).winCommit w) 0 [])) ∧
    (s.Due 0x0501 seq c → ∀ d, bulkOf c 1 1 = .ok d → reach d →
      let ne := if c.f 0 0 0 = 1 then s.rd F.FAB_ELOGSTAT_held else 0
      let nd := if c.f 0 1 1 = 1 then s.rd F.FAB_DLOGSTAT_held else 0
      (d.len < 768 → exec (.fabLogread seq env) s = ends b 0x0105 []) ∧
      (768 ≤ d.len → exec (.fabLogread seq env) s =
        ends (b.writeBuf c d ((List.range (4 * ne)).map (fun i => s.reg ((F.FAB_ELOG 0 0).addr + 4 * i)) ++
          (List.range (4 * nd)).map (fun i => s.reg ((F.FAB_DLOG 0 0).addr + 4 * i)))) 0
          [BitVec.ofNat 32 ne, BitVec.ofNat 32 nd, BitVec.ofNat 32 (s.rd F.FAB_ELOGSTAT_ovf + 2 * s.rd F.FAB_DLOGSTAT_ovf)])) ∧
    (s.Due 0x0502 seq c →
      let u := if c.f 0 0 0 = 1 then b.fabElogClr else b
      let v := if c.f 0 1 1 = 1 then u.fabDlogClr else u
      exec (.fabLogclr seq env) s = ends (if c.f 0 2 2 = 1 then v.fabCntClr else v) 0 []) ∧
    (s.Due 0x0503 seq c →
      let xs := s.heal.streams.filter (fun x => x.st = .fenced ∧ (c.f 0 31 31 = 1 ∨ (x.ring = c.f 0 7 0 ∧ x.station = c.f 0 27 16)))
      exec (.fabFenceclr seq) s = ends (b.each xs (fun x y => y.clearFence x)) 0 [BitVec.ofNat 32 xs.length]) ∧
    (s.Due 0x0504 seq c →
      let i := c.f 0 27 16
      let k := c.f 1 12 0
      (c.f 0 1 0 = 2 → exec (.gateRoute seq env) s = ends ((b.setGate (fun g => { g with routes := [] })).showRoutes) 0 [0]) ∧
      (c.f 0 1 0 = 3 → exec (.gateRoute seq env) s = ends b 0x0104 []) ∧
      (c.f 0 1 0 < 2 → k = 0 ∨ 4096 < k → exec (.gateRoute seq env) s = ends b 0x0103 [1]) ∧
      (∀ d bs t, c.f 0 1 0 = 0 → 1 ≤ k → i + k ≤ 4096 → bulkOf c 2 0 = .ok d → b.readBuf c env d = (.data bs, t) → bs.length = 16 * k →
        (quads k (bytesToWords bs)).any routeBad = false → exec (.gateRoute seq env) s =
          ends ((t.setGate (fun g => { g with routes := putEnts g.routes i (quads k (bytesToWords bs)) })).showRoutes) 0 [BitVec.ofNat 32 k]) ∧
      (∀ d, c.f 0 1 0 = 1 → 1 ≤ k → i + k ≤ 4096 → bulkOf c 2 1 = .ok d → reach d → 16 * k ≤ d.len → exec (.gateRoute seq env) s =
          ends (b.writeBuf c d ((List.range k).flatMap (fun j => (slook s.gate.routes (i + j)).getD [0, 0, 0, 0]))) 0 [BitVec.ofNat 32 k])) ∧
    (s.Due 0x0505 seq c →
      let i := c.f 0 9 0
      let k := c.f 0 19 16
      let es := quads k (c.params.drop 1)
      let len := fun (w : Option (List Word)) => getF (wAt (w.getD []) 0) 16 6
      let keep := s.gate.cache.filter (fun e => !(i ≤ e.1 && e.1 < i + k) || len (slook s.gate.rates e.1) = len (some (es.getD (e.1 - i) [])))
      (k = 0 ∨ 14 < k ∨ 1024 < i + k → exec (.gateRate seq) s = ends b 0x0103 [0]) ∧
      (1 ≤ k → k ≤ 14 → i + k ≤ 1024 → c.params.length < 1 + 4 * k → exec (.gateRate seq) s = ends b 0x0101 []) ∧
      (1 ≤ k → k ≤ 14 → i + k ≤ 1024 → 1 + 4 * k ≤ c.params.length → es.any rateBad = true → exec (.gateRate seq) s = ends b 0x0104 []) ∧
      (1 ≤ k → k ≤ 14 → i + k ≤ 1024 → 1 + 4 * k ≤ c.params.length → es.any rateBad = false → exec (.gateRate seq) s =
        ends ((b.setGate (fun g => { g with rates := putEnts g.rates i es, cache := keep })).showRoutes) 0 [])) ∧
    (s.Due 0x0506 seq c →
      let i := c.f 0 9 0
      let k := c.f 0 26 16
      (k = 0 ∨ 1024 < i + k → exec (.gateCache seq) s = ends b 0x0103 [0]) ∧
      (∀ d, 1 ≤ k → i + k ≤ 1024 → bulkOf c 1 1 = .ok d → reach d → d.len < 48 * k → exec (.gateCache seq) s = ends b 0x0105 []) ∧
      (∀ d, 1 ≤ k → i + k ≤ 1024 → bulkOf c 1 1 = .ok d → reach d → 48 * k ≤ d.len →
        ∃ ws : List Word, ws.length = 12 * k ∧ exec (.gateCache seq) s = ends (b.writeBuf c d ws) 0 [BitVec.ofNat 32 k] ∧
          ∀ j e, j < k → slook s.gate.cache (i + j) = some e →
            (ws.drop (12 * j)).take 12 = bytesToWords ((e.val ++ List.replicate 32 0).take 32) ++
              [BitVec.ofNat 32 e.arrived, BitVec.ofNat 32 (e.arrived / 2 ^ 32), if (s.freshVal (i + j)).isSome then 1 else 0, 0])) ∧
    (s.Due 0x0507 seq c → exec (.gateStatus seq) s =
      ends b 0 [s.reg F.GATE_STAT_routes.addr, s.reg F.GATE_CNT_MISS.addr, s.reg F.GATE_CNT_QDROP.addr, s.reg F.GATE_LOGSTAT_held.addr])

/-- The STAGE commands (R217, R220, R222, R225, R226, R230, R231): load, verify, arm, cue and disarm an image, and the modes, the restart and the cycle of a pair.
The order of the checks of one command is the model's choice (notes/assumptions/117.md). -/
def Obligations.StageCommands : Prop :=
  ∀ (seq : Nat) (env : Env) (s : State) (c : CmdRec),
    let b := s.begun seq
    let ends := fun (u : State) (st : Nat) (rs : List Word) => (Host.Outcome.next (u.fin seq st rs) : Out)
    (s.Due 0x0600 seq c →
      let k := c.f 0 0 0
      let used := s.rd (F.STG_STATE_slot 0) = k ∨ s.rd (F.STG_STATE_slot 1) = k
      (used → exec (.stageLoad seq env) s = ends b 0x0200 []) ∧
      (¬ used → 0x00400000 < c.f 3 23 0 → exec (.stageLoad seq env) s = ends b 0x0302 []) ∧
      (∀ d bs t, ¬ used → c.f 3 23 0 ≤ 0x00400000 → bulkOf c 1 0 = .ok d → b.readBuf c env d = (.data bs, t) →
        let forget := t.each (List.range 2) (fun p x => x.setPair p (fun y =>
          { y with verified := if y.verified = some k then none else y.verified, armed := if y.armed = some k then none else y.armed }))
        let shown := forget.each (List.range 2) (fun p x => x.wr (F.STG_STATE_armed p) (if (x.pair p).armed.isSome then 1 else 0))
        exec (.stageLoad seq env) s = ends (shown.putWords (slotBase k) (bytesToWords bs)) 0 [wAt (bytesToWords bs) 3])) ∧
    (s.Due 0x0601 seq c →
      let k := c.f 0 0 0
      (∀ st, b.verifyReason k c.pairs = .error st → exec (.stageVerify seq env) s = ends b st []) ∧
      (∀ r, b.verifyReason k c.pairs = .ok (some r) → exec (.stageVerify seq env) s = ends b 0x0604 [BitVec.ofNat 32 r]) ∧
      (b.verifyReason k c.pairs = .ok none → ∃ rs, rs.length = 4 ∧
        exec (.stageVerify seq env) s = ends (b.each c.pairs (fun p x => x.setPair p (fun y => { y with verified := some k }))) 0 rs)) ∧
    (s.Due 0x0602 seq c →
      let k := c.f 0 0 0
      let sects := c.pairs.filterMap (fun p => (b.sectionOf k p).map (fun x => (p, x)))
      let ready := (∀ p ∈ c.pairs, (s.pair p).verified = some k) ∧ sects.length = c.pairs.length
      let slow := ∃ e ∈ sects, s.rd (F.STG_WDOG_limit e.1) * 5 ≤ b.cueGap e.1 e.2 * 2
      (¬ ready → exec (.stageArm seq env) s = ends b 0x0200 []) ∧
      (ready → (∃ e ∈ sects, b.sectBad e.2 = true) → exec (.stageArm seq env) s = ends b 0x0604 [10]) ∧
      (ready → (∀ e ∈ sects, b.sectBad e.2 = false) → slow → exec (.stageArm seq env) s = ends b 0x0103 [0]) ∧
      (ready → (∀ e ∈ sects, b.sectBad e.2 = false) → ¬ slow → exec (.stageArm seq env) s = ends (b.each sects (fun e x => x.armPair e.1 k e.2)) 0 [])) ∧
    (s.Due 0x0603 seq c →
      let l := c.p 1 + c.f 2 15 0 * 2 ^ 32
      let refused := ∃ p ∈ c.pairs, (s.pair p).armed = none ∨ s.pst p = pFAULT ∨ s.rd (F.STG_STATE_midhold p) = 1
      let late := l ≠ 0 ∧ (l ≤ s.lap ∨ ∃ p ∈ c.pairs, s.isCyc p l = false)
      let set := b.each c.pairs (fun p x => (x.setPair p (fun y => { y with cue := some (seq, if l = 0 then x.nextCyc p else l) })).wr (F.STG_STATE_cuepend p) 1)
      (refused → exec (.stageCue seq env) s = ends b 0x0200 []) ∧ (¬ refused → late → exec (.stageCue seq env) s = ends b 0x0103 [1]) ∧
      (¬ refused → ¬ late → c.pairs ≠ [] → exec (.stageCue seq env) s =
        .next (set.each c.pairs (fun p x => if x.pst p = pSTOP then (x.cuePair p seq).2 else x)))) ∧
    (s.Due 0x0604 seq c → exec (.stageDisarm seq env) s = ends (b.each c.pairs (fun p x =>
      (((x.finO ((x.pair p).cue.map (fun r => r.1)) 0x0200 []).setPair p (fun y => { y with armed := none, cue := none })).wr (F.STG_STATE_armed p) 0).wr
        (F.STG_STATE_cuepend p) 0)) 0 []) ∧
    (s.Due 0x0605 seq c →
      let p := c.pair
      let m := c.f 0 1 0
      (m = 0 → s.pst p = pRUN → exec (.stageMode seq env) s = .next (b.askMode p 2 seq)) ∧
      (m = 0 → s.pst p = pHOLD → exec (.stageMode seq env) s = ends (b.enterStop p) 0 []) ∧
      (m = 1 → s.pst p = pHOLD → s.rd (F.STG_STATE_midhold p) = 1 → exec (.stageMode seq env) s =
        ends (((b.setPair p (fun x => { x with free := true })).wr (F.STG_STATE_midhold p) 0).setPst p pRUN) 0 []) ∧
      (m = 1 → s.pst p = pSTOP ∨ (s.pst p = pHOLD ∧ s.rd (F.STG_STATE_midhold p) = 0) → exec (.stageMode seq env) s = .next (b.askMode p 3 seq)) ∧
      (m = 2 → s.pst p = pRUN → exec (.stageMode seq env) s = .next (b.askMode p 4 seq)) ∧
      (m = 3 → s.pst p = pHOLD → s.rd (F.STG_STATE_midhold p) = 0 → exec (.stageMode seq env) s = .next (b.askMode p 5 seq)) ∧
      (s.pst p = pFAULT → exec (.stageMode seq env) s = ends b 0x0200 [])) ∧
    (s.Due 0x0606 seq c →
      let p := c.pair
      (c.f 0 5 4 = 3 → exec (.stageRestart seq env) s = ends b 0x0104 []) ∧
      (c.f 0 5 4 ≠ 3 → s.pst p = pLOADING → exec (.stageRestart seq env) s = ends b 0x0200 []) ∧
      (c.f 0 5 4 ≠ 3 → s.pst p = pRUN → b.idlePair p = false →
        exec (.stageRestart seq env) s = .next ((b.setPair p (fun x => { x with restart := some seq })).again c)) ∧
      (c.f 0 5 4 ≠ 3 → s.pst p ≠ pLOADING → s.pst p ≠ pRUN ∨ b.idlePair p = true →
        exec (.stageRestart seq env) s = .next (b.restartPair p (decide (c.f 0 0 0 = 1)) (some seq) (c.f 0 5 4) (wAt env.obs 0)))) ∧
    (s.Due 0x0607 seq c →
      let p := c.pair
      let len := max 1 (s.rd (F.STG_CYC_len p))
      let m := s.lap + 1
      (s.cycOk (c.f 0 7 0) (c.f 0 23 16) (c.p 1) (c.p 2) = true → exec (.stageCycle seq env) s =
        ends ((((((b.wrS (F.STG_CYC_len p) (c.f 0 7 0)).wrS (F.STG_CYC_phase p) (c.f 0 23 16)).wrS (F.STG_OUTOFS_ofs p) (c.p 1)).wrS (F.STG_WDOG_limit p) (c.p 2)).showStg p).stgCommit p) 0
          [BitVec.ofNat 32 (m + (s.rd (F.STG_CYC_phase p) + len - m % len) % len)]) ∧
      (c.f 0 7 0 = 0 ∨ c.p 2 = 0 → exec (.stageCycle seq env) s = ends b 0x0104 []) ∧
      (c.f 0 7 0 ≠ 0 → c.p 2 ≠ 0 → s.cycOk (c.f 0 7 0) (c.f 0 23 16) (c.p 1) (c.p 2) = false → ∃ i, i < 3 ∧ exec (.stageCycle seq env) s = ends b 0x0103 [BitVec.ofNat 32 i])) ∧
    (s.Due 0x0608 seq c →
      let p := c.pair
      exec (.stageStatus seq env) s = ends b 0 [s.reg (F.STG_STATE_state p).addr, s.reg (F.STG_CYCNUM_LO p).addr, s.reg (F.STG_LOGIC p).addr, s.reg (F.STG_LOGICMAX p).addr])

/-- The ENG commands (R235, R265–R268, R270, R276–R279, R282–R285, R288, R304): the script library, starting and stopping scripts, the matrix of units and stagehands,
and the ad-lib table.
The order of the checks of one command is the model's choice (notes/assumptions/117.md). -/
def Obligations.EngineCommands : Prop :=
  ∀ (seq : Nat) (env : Env) (s : State) (c : CmdRec),
    let b := s.begun seq
    let ends := fun (u : State) (st : Nat) (rs : List Word) => (Host.Outcome.next (u.fin seq st rs) : Out)
    (s.Due 0x0700 seq c → ∀ d bs t, bulkOf c 0 0 = .ok d → b.readBuf c env d = (.data bs, t) → bs.length ≤ 196608 →
      let ws := bytesToWords bs
      let id := getF (wAt ws 4) 0 16
      (hdrOk ws bs.length = false → exec (.engLoad seq env) s = ends t 0x0604 []) ∧
      (hdrOk ws bs.length = true → t.sigOk (getF (wAt ws 15) 0 8) bs = false → exec (.engLoad seq env) s = ends t 0x0602 []) ∧
      (∀ a, hdrOk ws bs.length = true → t.sigOk (getF (wAt ws 15) 0 8) bs = true →
        (∀ n, n < 16 → ¬ ((t.engState n = 1 ∨ t.engState n = 2) ∧ t.rd (F.ENG_STATE_script n) = id)) → t.lib.length < 64 →
        libPlace t.lib bs.length libBase 65 = some a →
        let l : List LibEnt := t.lib.filter (fun e => e.id ≠ id) ++ [⟨id, getF (wAt ws 4) 16 16, a, bs.length⟩]
        let u : State := { t.putWords a ws with lib := l }
        exec (.engLoad seq env) s = ends u 0 [wAt ws 4, BitVec.ofNat 32 u.libFree])) ∧
    (s.Due 0x0701 seq c →
      let n := c.f 0 3 0
      let id := c.f 1 15 0
      ((s.eng n).loadSeq ≠ some seq → s.engIdle n = false → exec (.engStart seq env) s = ends b 0x0200 []) ∧
      ((s.eng n).loadSeq ≠ some seq → s.engIdle n = true → s.lib.find? (fun e => e.id = id && decide (c.f 1 31 16 ≤ e.version)) = none →
        exec (.engStart seq env) s = ends b 0x0202 []) ∧
      (∀ e d bs t, (s.eng n).loadSeq ≠ some seq → s.engIdle n = true → s.lib.find? (fun e => e.id = id && decide (c.f 1 31 16 ≤ e.version)) = some e →
        bulkOf c 2 0 = .ok d → b.readBuf c env d = (.data bs, t) →
        let w := fun (i : Nat) => (t.wordAt (e.addr + 4 * i)).toNat
        bs.length ≤ w 12 → t.ownsAll n (unitKind (w 13)) (bytesToWords bs) = true → w 13 / 2 ^ 17 % 64 ≤ (ones 32 (t.handsOf n)).length →
        exec (.engStart seq env) s = .next (((t.wr (F.ENG_STATE_state n) 1).setEng n (fun x => { x with loadSeq := some seq })).again c)) ∧
      (∀ e d bs t, (s.eng n).loadSeq = some seq → s.lib.find? (fun e => e.id = id) = some e → bulkOf c 2 0 = .ok d → b.readBuf c env d = (.data bs, t) →
        t.anyBad e.addr e.len = false → t.sigOk (getF (t.wordAt (e.addr + 60)) 0 8) (t.bytesAt e.addr e.len) = true →
        let u := t.engRun n e (bytesToWords bs)
        exec (.engStart seq env) s = ends (if u.anyPending (0x10 + n) then u.engEvent n 18 else u) 0 [wAt env.obs 0])) ∧
    (s.Due 0x0702 seq c →
      let l := (ones 16 (c.f 0 15 0)).filter (fun n => s.engState n = 2)
      exec (.engStop seq) s = ends (b.each l (fun n x => x.engStop n 1 3)) 0 [BitVec.ofNat 32 (l.foldl (fun m n => m + 2 ^ n) 0)]) ∧
    (s.Due 0x0703 seq c →
      let n := c.f 0 3 0
      let us := lineMask c 1
      let cs := ones 16 (c.f 5 15 0)
      let free := s.engIdle n = true ∧ (∀ u ∈ us, ∀ o, s.unitOwner u = some o → o = n) ∧ (∀ k ∈ cs, ∀ o, (s.can k).owner = some o → o = n)
      (c.f 0 9 8 < 2 → ¬ free → exec (.engMatrix seq) s = ends b 0x0200 []) ∧
      (c.f 0 9 8 = 0 → free → exec (.engMatrix seq) s =
        ends ((b.each (us.filter (fun u => s.unitOwner u = none)) (fun u x => x.giveUnit u (some n))).each
          (cs.filter (fun k => (s.can k).owner = none)) (fun k x => x.setCanOwner k (some n))) 0 []) ∧
      (c.f 0 9 8 = 1 → free → exec (.engMatrix seq) s =
        ends ((b.each (us.filter (fun u => s.unitOwner u = some n)) (fun u x => x.giveUnit u none)).each
          (cs.filter (fun k => (s.can k).owner = some n)) (fun k x => x.setCanOwner k none)) 0 []) ∧
      (c.f 0 9 8 = 2 → s.engIdle n = true → c.f 1 5 4 = 0 → exec (.engMatrix seq) s =
        ends (((b.chanClear n (c.f 1 2 0)).wr (F.ENG_CHCFG_endpoint n (c.f 1 2 0)) 0).wr (F.ENG_CHCFG_unit n (c.f 1 2 0)) (c.f 1 11 8)) 0 []) ∧
      (c.f 0 9 8 = 3 → exec (.engMatrix seq) s = ends b 0x0104 [])) ∧
    (s.Due 0x0704 seq c →
      let e := c.f 1 3 0
      let l := ones 32 (c.p 0)
      let free := s.engIdle e = true ∧ ∀ h ∈ l, s.rd (F.HAND_CTL_en h) = 0 ∧ s.engIdle (s.handOwner h) = true
      (¬ free → exec (.engHands seq) s = ends b 0x0200 []) ∧
      (free → exec (.engHands seq) s = ends (b.each l (fun h x =>
        (((x.each (List.range 8) (fun k y => (y.wr (F.HAND_PIN_out h k) 0).wr (F.HAND_PIN_in h k) 0)).wr (F.HAND_STAT_owner h) e).handFifoClr h).handRestart h)) 0 [])) ∧
    (s.Due 0x0705 seq c →
      let sel := c.f 0 3 0
      let k := c.f 0 21 16
      let ws := (List.range k).map (fun i => c.pw (1 + i))
      (c.f 0 8 8 = 0 → s.adlib.locked = true → exec (.engAdlib seq) s = ends b 0x0203 []) ∧
      (c.f 0 8 8 = 0 → s.adlib.locked = false → 32 < k → exec (.engAdlib seq) s = ends b 0x0103 [0]) ∧
      (c.f 0 8 8 = 0 → s.adlib.locked = false → k ≤ 32 → 1 + k ≤ c.params.length → ∀ i, adlibBad ws = some i →
        exec (.engAdlib seq) s = ends b 0x0103 [BitVec.ofNat 32 (1 + i)]) ∧
      (c.f 0 8 8 = 0 → s.adlib.locked = false → k ≤ 32 → 1 + k ≤ c.params.length → adlibBad ws = none →
        let u : State := { b with adlib := { b.adlib with entries := sins (sdel b.adlib.entries sel) sel ws } }
        exec (.engAdlib seq) s = ends u 0 [u.adlibWord]) ∧
      (∀ d, c.f 0 8 8 = 1 → bulkOf c 1 1 = .ok d → d.host = false ∨ s.bme (fnOf c.ident) = true → 128 ≤ d.len →
        let es := s.adlibEnt sel
        exec (.engAdlib seq) s = ends (b.writeBuf c d (es ++ List.replicate (32 - es.length) 0)) 0
          [s.adlibWord, BitVec.ofNat 32 es.length])) ∧
    (s.Due 0x0706 seq c →
      let u : State := { b with adlib := { b.adlib with locked := true } }
      (s.adlib.locked = true → exec (.engAdliblock seq) s = ends b 0x0203 []) ∧ (s.adlib.locked = false → exec (.engAdliblock seq) s = ends u 0 [u.adlibWord])) ∧
    (s.Due 0x0707 seq c →
      let n := c.f 0 3 0
      exec (.engStatus seq) s = ends b 0 [s.reg (F.ENG_STATE_state n).addr, s.reg (F.ENG_STOPEPC n).addr, s.reg (F.ENG_STOPTVAL n).addr, BitVec.ofNat 32 (s.handsOf n)])

/-- The LINE and DIO commands (R313, R314, R318, R324, R326–R330): modes, calibration, scope, echo, maintenance windows, telemetry, and the discrete channels. What a
capture, an echo or a total current measures is observed or an open value (notes/assumptions/5.md, 12.md).
The order of the checks of one command is the model's choice (notes/assumptions/117.md). -/
def Obligations.LineCommands : Prop :=
  ∀ (seq : Nat) (env : Env) (s : State) (c : CmdRec),
    let b := s.begun seq
    let ends := fun (u : State) (st : Nat) (rs : List Word) => (Host.Outcome.next (u.fin seq st rs) : Out)
    let reach := fun (d : Bulk) => d.host = false ∨ s.bme (fnOf c.ident) = true
    (s.Due 0x0800 seq c →
      let n := c.f 0 5 0
      let a := (F.LINE_MODE_mode n).addr
      let legal := modeWordOk (c.pw 1) = true ∧ legalWord a (c.pw 1) = true
      let taken := c.f 1 2 0 = 3 ∧ s.canTaken n (c.f 1 19 16) = true
      (48 ≤ n → exec (.lineMode seq env) s = ends b 0x0107 []) ∧
      (n < 48 → s.groupOn n = false ∨ s.windowOpen n = true → exec (.lineMode seq env) s = ends b 0x0200 []) ∧
      (n < 48 → s.groupOn n = true → s.windowOpen n = false → ¬ legal → exec (.lineMode seq env) s = ends b 0x0104 []) ∧
      (n < 48 → s.groupOn n = true → s.windowOpen n = false → legal → taken → exec (.lineMode seq env) s = ends b 0x0103 [1]) ∧
      (n < 48 → s.groupOn n = true → s.windowOpen n = false → legal → ¬ taken → exec (.lineMode seq env) s = ends ((b.shadowCfg a (c.pw 1)).lineCommit n) 0 [])) ∧
    (s.Due 0x0801 seq c → (∀ w ∈ s.field.waits, w.seq ≠ seq) →
      let us := lineMask c 0
      (c.p 4 = 0 ∨ 600000 < c.p 4 → exec (.lineCal seq env) s = ends b 0x0103 [4]) ∧
      (1 ≤ c.p 4 → c.p 4 ≤ 600000 → s.anyOff us = true → exec (.lineCal seq env) s = ends b 0x0200 []) ∧
      (1 ≤ c.p 4 → c.p 4 ≤ 600000 → s.anyOff us = false → us = [] → exec (.lineCal seq env) s = ends b 0 [0, 0, 0]) ∧
      (1 ≤ c.p 4 → c.p 4 ≤ 600000 → s.anyOff us = false → us ≠ [] → exec (.lineCal seq env) s =
        .next (((b.each us (fun u x => x.passRequest u)).setField (fun x => { x with waits := x.waits ++ [⟨seq, us, [], []⟩] })).again c))) ∧
    (s.Due 0x0802 seq c → unitOk (c.f 0 6 0) = false → exec (.lineScope seq env) s = ends b 0x0107 []) ∧
    (s.Due 0x0802 seq c → unitOk (c.f 0 6 0) = true → c.f 0 18 16 < 4 → s.groupOn (c.f 0 6 0) = true → ∀ d, bulkOf c 2 1 = .ok d → reach d →
      let n := c.f 1 11 0 + 1
      (d.len < 2 * n → exec (.lineScope seq env) s = ends b 0x0105 []) ∧
      (2 * n ≤ d.len → wAt env.obs 0 = 0 → exec (.lineScope seq env) s = .next (b.again c)) ∧
      (2 * n ≤ d.len → wAt env.obs 0 ≠ 0 → exec (.lineScope seq env) s =
        ends (b.writeBuf c d ((List.range ((n + 1) / 2)).map (fun i => wAt env.obs (3 + i)))) 0
          [if c.f 0 12 12 = 1 then 500 else 8000, wAt env.obs 1, wAt env.obs 2])) ∧
    (s.Due 0x0803 seq c → 48 ≤ c.f 0 5 0 → exec (.lineEcho seq env) s = ends b 0x0107 []) ∧
    (s.Due 0x0803 seq c → c.f 0 5 0 < 48 →
      let n := c.f 0 5 0
      (s.groupOn n = false ∨ s.windowOpen n = false → exec (.lineEcho seq env) s = ends b 0x0200 []) ∧
      (∀ d, s.groupOn n = true → s.windowOpen n = true → c.f 0 9 9 = 0 ∨ s.rd (F.LINE_MODE_mode n) = 2 → bulkOf c 2 1 = .ok d → reach d → 8256 ≤ d.len →
        exec (.lineEcho seq env) s =
          ends (b.writeBuf c d ((List.range 2064).map (fun i => wAt env.obs (3 + i)))) 0 [wAt env.obs 0, wAt env.obs 1, wAt env.obs 2])) ∧
    (s.Due 0x0804 seq c →
      let us := lineMask c 1
      (c.f 0 0 0 = 1 → c.p 5 = 0 ∨ 60000 < c.p 5 → exec (.lineMaint seq env) s = ends b 0x0103 [5]) ∧
      (c.f 0 0 0 = 1 → 1 ≤ c.p 5 → c.p 5 ≤ 60000 → s.anyOff us = false → exec (.lineMaint seq env) s =
        ends (b.each us (fun u x => x.windowStart u (x.raw + c.p 5 * 400000))) 0 [BitVec.ofNat 32 s.rawLo]) ∧
      (c.f 0 0 0 = 0 → s.anyOff us = true → exec (.lineMaint seq env) s = ends b 0x0200 []) ∧
      (c.f 0 0 0 = 0 → s.anyOff us = false → exec (.lineMaint seq env) s =
        ends (b.each us (fun u x => if x.windowOpen u then x.windowEnd u else x)) 0 [BitVec.ofNat 32 s.rawLo])) ∧
    (s.Due 0x0805 seq c → unitOk (c.f 0 6 0) = false → exec (.lineTelem seq env) s = ends b 0x0107 []) ∧
    (s.Due 0x0805 seq c → unitOk (c.f 0 6 0) = true →
      let n := c.f 1 6 0
      let us := ((List.range n).map (fun i => c.f 0 6 0 + i)).filter unitOk
      (n = 0 ∨ 64 < n → exec (.lineTelem seq env) s = ends b 0x0103 [1]) ∧
      (∀ d, 1 ≤ n → n ≤ 64 → s.anyOff us = false → bulkOf c 2 1 = .ok d → reach d →
        let k := min us.length (d.len / 64)
        exec (.lineTelem seq env) s =
          ends (b.writeBuf c d (((us.take k).zipIdx).flatMap (fun e => b.telem e.1 ((env.obs.drop (4 * e.2)).take 4)))) 0 [BitVec.ofNat 32 k])) ∧
    (s.Due 0x0806 seq c →
      let n := c.f 0 5 0
      let m := c.f 1 2 0
      (4 < m ∨ (m = 4 ∧ 16 ≤ n) → exec (.dioMode seq env) s = ends b 0x0104 []) ∧
      (m < 4 ∨ (m = 4 ∧ n < 16) → s.groupOn (64 + n) = false → exec (.dioMode seq env) s = ends b 0x0200 []) ∧
      (m < 4 ∨ (m = 4 ∧ n < 16) → s.groupOn (64 + n) = true →
        exec (.dioMode seq env) s = ends (((b.wrS (F.DIO_CFG_mode n) m).wrS (F.DIO_CFG_openld n) (c.f 1 18 18)).dioCommit1 n) 0 [])) ∧
    (s.Due 0x0807 seq c →
      let ns := ones 32 (c.p 0) ++ (ones 32 (c.p 1)).map (· + 32)
      (s.anyOff (ns.map (64 + ·)) = true → exec (.dioFilter seq env) s = ends b 0x0200 []) ∧
      (s.anyOff (ns.map (64 + ·)) = false → exec (.dioFilter seq env) s = ends (b.each ns (fun n x =>
        (((x.wrS (F.DIO_CFG_unit n) (c.f 2 0 0)).wrS (F.DIO_CFG_filter n) (c.f 2 15 4)).wrS (F.DIO_CFG_sbev n) (c.f 2 17 16)).dioCommit1 n)) 0 [])) ∧
    (s.Due 0x0808 seq c →
      let k := c.f 0 2 0
      let m := c.f 1 7 0
      let owned := ((s.octPair k).isSome = true ∧ m ≠ 0) ∨ ∃ i ∈ ones 8 m, (s.dio (8 * k + i)).owner.isSome = true
      (s.groupOn (64 + 8 * k) = false → exec (.dioSet seq env) s = ends b 0x0200 []) ∧
      (s.groupOn (64 + 8 * k) = true → owned → exec (.dioSet seq env) s = ends b 0x0501 []) ∧
      (s.groupOn (64 + 8 * k) = true → ¬ owned →
        let u := b.each (ones 8 m) (fun i x => if x.bitOf (F.DIO_OUT_out k) i = (c.f 1 15 8).testBit i then x
          else (x.wr (bitFld (F.DIO_OUT_out k) i) (if (c.f 1 15 8).testBit i then 1 else 0)).signalChange (64 + 8 * k + i) false)
        exec (.dioSet seq env) s =
          ends (if c.f 1 16 16 = 1 then ((u.wr (F.DIO_FAULT_short k) 0).wr (F.DIO_FAULT_octet k) 0).wr F.DIO_GSTAT_total 0 else u) 0 [])) ∧
    (s.Due 0x0809 seq c →
      let k := c.f 0 2 0
      (s.groupOn (64 + 8 * k) = false → exec (.dioStatus seq env) s = ends b 0x0200 []) ∧
      (s.groupOn (64 + 8 * k) = true → ∃ current : Nat, exec (.dioStatus seq env) s =
        ends b.useFree 0 [s.reg (F.DIO_IN_filt k).addr, s.reg (F.DIO_FAULT_short k).addr, setF (s.reg F.DIO_GSTAT_total.addr) 16 16 current,
          s.reg (F.DIO_OUT_out k).addr]))

/-- The CAN commands (R333–R335, R342, R346, R352, R353).
The order of the checks of one command is the model's choice (notes/assumptions/117.md). -/
def Obligations.CanCommands : Prop :=
  ∀ (seq : Nat) (env : Env) (s : State) (c : CmdRec),
    let b := s.begun seq
    let n := c.f 0 3 0
    let ends := fun (u : State) (st : Nat) (rs : List Word) => (Host.Outcome.next (u.fin seq st rs) : Out)
    (s.Due 0x0900 seq c →
      (4 < c.f 0 10 8 → exec (.canMode seq env) s = ends b 0x0104 []) ∧
      (c.f 0 10 8 ≤ 4 → s.canEngRun n = true → exec (.canMode seq env) s = ends b 0x0200 []) ∧
      (c.f 0 10 8 ≤ 4 → s.canEngRun n = false →
        let r := if c.f 0 16 16 = 1 then b.canCancel n (c.f 2 23 16) else (0, b)
        let a := (F.CAN_CFG_mode n).addr
        let v := setF (c.pw 1) 0 3 (c.f 0 10 8)
        exec (.canMode seq env) s = .next (((r.2.setReg a ((r.2.reg a &&& ~~~ 0x00002E00#32) ||| (v &&& 0x00002E00#32))).shadowCfg a v).canCommit n
          (some (seq, [BitVec.ofNat 32 r.1]))))) ∧
    (s.Due 0x0901 seq c →
      (s.canEngRun n = true → exec (.canTiming seq env) s = ends b 0x0200 []) ∧
      (s.canEngRun n = false → timingOk (c.pw 1) (c.pw 2) = false → ∃ i, (i = 1 ∨ i = 2) ∧ exec (.canTiming seq env) s = ends b 0x0103 [BitVec.ofNat 32 i]) ∧
      (s.canEngRun n = false → timingOk (c.pw 1) (c.pw 2) = true → exec (.canTiming seq env) s =
        .next ((((b.shadowCfg (F.CAN_NBT_brp n).addr (c.pw 1)).shadowCfg (F.CAN_DBT_brp n).addr (c.pw 2)).shadowCfg (F.CAN_TDC_en n).addr (c.pw 3)).canCommit n
          (some (seq, []))))) ∧
    (s.Due 0x0902 seq c →
      let k := c.f 0 11 8 + 1
      let cands := (List.range k).map (fun i => (c.pw (2 + 2 * i), c.pw (3 + 2 * i)))
      let refused := s.canEngRun n = true ∨ (s.canMode n ≠ 0 ∧ s.canMode n ≠ 2)
      ((s.can n).detect = none → refused → exec (.canDetect seq env) s = ends b 0x0200 []) ∧
      ((s.can n).detect = none → ¬ refused → c.p 1 = 0 ∨ 60000 < c.p 1 → exec (.canDetect seq env) s = ends b 0x0103 [1]) ∧
      ((s.can n).detect = none → ¬ refused → 1 ≤ c.p 1 → c.p 1 ≤ 60000 → (∀ e ∈ cands, timingOk e.1 e.2 = true) →
        let d : CanDetect := { seq := seq, cands := cands, cur := 0, pass := 0, passes := c.f 0 13 12 + 1, good := 0, brs := 0,
                               errs := List.replicate 16 0, dwell := c.p 1, t0 := s.raw, final := if c.f 0 16 16 = 1 then 1 else 2,
                               prior := (s.canMode n, s.reg (F.CAN_NBT_brp n).addr, s.reg (F.CAN_DBT_brp n).addr) }
        exec (.canDetect seq env) s = .next (((((b.setCan n (fun x => { x with detect := some d })).canTry n
          (cands.getD 0 (0, 0)).1 (cands.getD 0 (0, 0)).2).wr (F.CAN_CFG_mode n) 5).wr (F.CAN_STAT_mode n) 5).again c))) ∧
    (s.Due 0x0903 seq c →
      let i := c.f 0 22 16
      let k := c.f 1 7 0
      (s.canEngRun n = true → exec (.canFilter seq env) s = ends b 0x0200 []) ∧
      (s.canEngRun n = false → 1 ≤ k → k ≤ 29 → 128 < i + k → exec (.canFilter seq env) s = ends b 0x0103 [0]) ∧
      (s.canEngRun n = false → k = 0 ∨ 29 < k → exec (.canFilter seq env) s = ends b 0x0103 [1]) ∧
      (s.canEngRun n = false → 1 ≤ k → k ≤ 29 → i + k ≤ 128 → exec (.canFilter seq env) s =
        ends ((b.each (List.range k) (fun j x =>
          (x.putCfg (F.CAN_FLT0_en n (i + j)).addr (c.pw (2 + 2 * j))).putCfg (F.CAN_FLT1_mask n (i + j)).addr (c.pw (3 + 2 * j)))).canFltCommit n) 0 [])) ∧
    (s.Due 0x0904 seq c →
      let e := 2 * c.f 0 2 0
      let free := s.canEngRun e = false ∧ s.canEngRun (e + 1) = false ∧ s.canMode e = 0 ∧ s.canMode (e + 1) = 0
      (¬ free → exec (.canPair seq env) s = ends b 0x0200 []) ∧
      (free → exec (.canPair seq env) s = ends ((b.wr (F.CAN_CFG_paired e) (c.f 0 8 8)).wr (F.CAN_CFG_paired (e + 1)) (c.f 0 8 8)) 0 [])) ∧
    (s.Due 0x0905 seq c →
      (s.canErr n = 2 → exec (.canRecover seq env) s = ends (b.canRecover n) 0 []) ∧ (s.canErr n ≠ 2 → exec (.canRecover seq env) s = ends b 0x0200 [])) ∧
    (s.Due 0x0906 seq c → exec (.canStatus seq env) s =
      ends b 0 [s.reg (F.CAN_STAT_mode n).addr, s.reg (F.CAN_TXSTAT_queued n).addr, s.reg (F.CAN_CNT_RXOK n).addr, s.reg (F.CAN_CNT_TXOK n).addr])

/-- The NET commands (R362, R366, R370, R375, R376): ports, queues, gates, VLANs, forwarding database, limits, mirror and status.
The order of the checks of one command is the model's choice (notes/assumptions/117.md). -/
def Obligations.NetCommands : Prop :=
  ∀ (seq : Nat) (s : State) (c : CmdRec),
    let b := s.begun seq
    let m := c.f 0 1 0
    let ends := fun (u : State) (st : Nat) (rs : List Word) => (Host.Outcome.next (u.fin seq st rs) : Out)
    (s.Due 0x0A00 seq c →
      let u := (((b.putCfg (F.MAC_CFG_phy m).addr (c.pw 1)).putCfg (F.MAC_PLCA_node m).addr (c.pw 2)).setNet
        (fun x => { x with filters := sins (sdel x.filters (c.f 3 6 0)) (c.f 3 6 0) (c.f 3 31 16) })).macCommit m
      (macBad m (c.pw 1) = true → exec (.netPort seq) s = ends b 0x0104 []) ∧ (macBad m (c.pw 1) = false → exec (.netPort seq) s = ends u 0 [u.macStat m])) ∧
    (s.Due 0x0A01 seq c → exec (.netQueue seq) s = ends ((b.putCfg (F.MAC_PCPMAP m).addr (c.pw 1)).showMac m) 0 []) ∧
    (s.Due 0x0A02 seq c →
      let k := c.params.length - 6
      let ok := legalWord (F.MAC_GCFG_en m).addr (c.pw 1)
      let set := (((((b.shadowCfg (F.MAC_GCFG_en m).addr (c.pw 1)).shadowCfg (F.MAC_GBASE_SLO m).addr (c.pw 2)).shadowCfg (F.MAC_GBASE_SHI m).addr (c.pw 3)).shadowCfg
        (F.MAC_GBASE_NS m).addr (c.pw 4)).shadowCfg (F.MAC_GCYCLE m).addr (c.pw 5)).each (List.range k) (fun i x => x.shadowCfg (F.MAC_GCL m i).addr (c.pw (6 + i)))
      (ok = false → exec (.netGates seq) s = ends b 0x0104 []) ∧ (ok = true → 54 < k → exec (.netGates seq) s = ends b 0x0101 []) ∧
      (ok = true → k ≤ 54 → ∃ at_ : Int, exec (.netGates seq) s = ends ((set.showMac m).gateCommit m) 0 [BitVec.ofInt 32 at_] ∧
        (set.gateRuns m = true → set.rd (F.MAC_GCFG_align m) = 1 → at_ = ((s.lap / 2 ^ set.rd (F.MAC_GCFG_per m) + 1) * 2 ^ set.rd (F.MAC_GCFG_per m) : Nat)))) ∧
    (s.Due 0x0A03 seq c →
      let ok := legalWord (F.MAC_VLAN_tag m).addr (c.pw 1)
      (ok = false → exec (.netVlan seq) s = ends b 0x0104 []) ∧ (ok = true → exec (.netVlan seq) s = ends ((b.putCfg (F.MAC_VLAN_tag m).addr (c.pw 1)).showMac m) 0 [])) ∧
    (s.Due 0x0A04 seq c →
      let mac := c.p 1 + c.f 2 15 0 * 2 ^ 32
      let vid := c.f 2 27 16
      let hit := fun (e : FdbEnt) => e.vid = vid && e.mac = mac
      let e : FdbEnt := ⟨vid, mac, c.f 3 15 8, true, c.f 3 6 0, s.raw⟩
      let legal := c.f 2 31 28 = 0 ∧ c.f 3 31 16 = 0
      (m = 0 → ¬ legal → exec (.netFdb seq) s = ends b 0x0104 []) ∧
      (m = 0 → legal → s.net.fdb.any hit = true → exec (.netFdb seq) s =
        ends (b.setNet (fun x => { x with fdb := x.fdb.map (fun y => if hit y then e else y) })) 0 [1]) ∧
      (m = 0 → legal → s.net.fdb.any hit = false → 8192 ≤ s.net.fdb.length → exec (.netFdb seq) s = ends b 0x0300 []) ∧
      (m = 0 → legal → s.net.fdb.any hit = false → s.net.fdb.length < 8192 → exec (.netFdb seq) s =
        ends (b.setNet (fun x => { x with fdb := x.fdb ++ [e] })) 0 [1]) ∧
      (m = 1 → exec (.netFdb seq) s = ends (b.setNet (fun x => { x with fdb := x.fdb.filter (fun y => !hit y) })) 0 [BitVec.ofNat 32 (s.net.fdb.filter hit).length]) ∧
      (m = 2 → exec (.netFdb seq) s = ends (b.setNet (fun x => { x with fdb := x.fdb.filter (fun y => y.static) })) 0
        [BitVec.ofNat 32 (s.net.fdb.filter (fun y => !y.static)).length]) ∧
      (∀ d, m = 3 → bulkOf c 4 1 = .ok d → d.host = false ∨ s.bme (fnOf c.ident) = true →
        let l := s.net.fdb.take (d.len / 12)
        exec (.netFdb seq) s = ends (b.writeBuf c d (l.flatMap fdbWords)) 0 [BitVec.ofNat 32 l.length])) ∧
    (s.Due 0x0A05 seq c →
      let p := c.f 0 2 0
      let u := (((b.putCfg (F.SW_PLIM_cells p).addr (c.pw 1)).putCfg (F.SW_CLIM p 0).addr (c.pw 2)).putCfg (F.SW_CLIM p 1).addr (c.pw 3)).showSw
      (6144 < c.f 1 12 0 → exec (.netLimits seq) s = ends b 0x0103 [1]) ∧ (c.f 1 12 0 ≤ 6144 → exec (.netLimits seq) s = ends u 0 [BitVec.ofNat 32 (u.rd F.SW_STAT_free)])) ∧
    (s.Due 0x0A06 seq c →
      let i := c.f 1 5 0
      let k := c.f 1 13 8
      let reserved := c.f 0 31 31 = 1 ∧ (c.f 0 2 0 < 2 ∨ 6 < c.f 0 2 0)
      (13 < k ∨ 64 < i + k → exec (.netMirror seq) s = ends b 0x0103 [1]) ∧
      (k ≤ 13 → i + k ≤ 64 → reserved → exec (.netMirror seq) s = ends b 0x0104 []) ∧
      (k ≤ 13 → i + k ≤ 64 → ¬ reserved → c.params.length < 2 + 4 * k → exec (.netMirror seq) s = ends b 0x0101 []) ∧
      (k ≤ 13 → i + k ≤ 64 → ¬ reserved → 2 + 4 * k ≤ c.params.length → exec (.netMirror seq) s =
        ends ((b.putCfg F.SW_MIRCFG_en.addr (c.pw 0)).each (List.range k) (fun j x => x.setNet (fun y =>
          { y with classifier := sins (sdel y.classifier (i + j)) (i + j) ((List.range 4).map (fun w => c.pw (2 + 4 * j + w))) }))) 0 [])) ∧
    (s.Due 0x0A07 seq c → exec (.netStatus seq) s = ends b 0 [b.macStat m, s.reg F.SW_STAT_free.addr, s.reg (F.MAC_CNT_RXOK m).addr, s.reg (F.MAC_CNT_TXOK m).addr])

/-- The MOT and DRV commands (R381, R382, R391–R394, R396, R398, R401): configuration, moves, homing and latches of a profile generator, and the bridges, which the
part C does not have. The planned time of a move and a bridge's measured current are open values (notes/assumptions/5.md, 24.md).
The order of the checks of one command is the model's choice (notes/assumptions/117.md). -/
def Obligations.MotionCommands : Prop :=
  ∀ (seq : Nat) (s : State) (c : CmdRec),
    let b := s.begun seq
    let n := c.f 0 2 0
    let ends := fun (u : State) (st : Nat) (rs : List Word) => (Host.Outcome.next (u.fin seq st rs) : Out)
    (s.Due 0x0B00 seq c →
      let legal := ∀ i, i < 10 → legalWord ((F.MOT_CFG_route n).addr + 4 * i) (c.pw (1 + i)) = true
      let noDrv := s.isC = true ∧ c.f 1 1 0 = 0
      let set := b.each (List.range 10) (fun i x => x.shadowCfg ((F.MOT_CFG_route n).addr + 4 * i) (c.pw (1 + i)))
      (s.motState n = 5 → exec (.motConfig seq) s = ends b 0x0200 []) ∧ (s.motState n ≠ 5 → ¬ legal → exec (.motConfig seq) s = ends b 0x0104 []) ∧
      (s.motState n ≠ 5 → legal → noDrv → exec (.motConfig seq) s = ends b 0x0204 []) ∧
      (s.motState n ≠ 5 → legal → ¬ noDrv → c.f 1 22 20 < c.f 1 18 16 → exec (.motConfig seq) s = ends b 0x0103 [1]) ∧
      (∀ u, s.motState n ≠ 5 → legal → ¬ noDrv → c.f 1 18 16 ≤ c.f 1 22 20 → set.motCommit n = (true, u) → exec (.motConfig seq) s = ends u 0 []) ∧
      (∀ u, s.motState n ≠ 5 → legal → ¬ noDrv → c.f 1 18 16 ≤ c.f 1 22 20 → set.motCommit n = (false, u) →
        exec (.motConfig seq) s = ends ({ u with shadow := s.shadow }.showMot n) 0x0200 [])) ∧
    (s.Due 0x0B01 seq c →
      let t := c.pI 1 + (if c.f 0 12 12 = 1 then s.motPos n else 0)
      (c.f 0 5 4 = 3 → exec (.motMove seq) s = ends b 0x0104 []) ∧ (c.f 0 5 4 ≠ 3 → s.motBusy n = true → exec (.motMove seq) s = ends b 0x0200 []) ∧
      (c.f 0 5 4 ≠ 3 → s.motBusy n = false → s.motTargetOk n t = false → exec (.motMove seq) s = ends b 0x0103 [1]) ∧
      (c.f 0 5 4 = 0 → s.motBusy n = false → s.motTargetOk n t = true → c.p 2 < 2 ^ 28 → s.motBlocked n (t - s.motPos n) = false →
        ∃ d, exec (.motMove seq) s = ends (b.motStart n (.pos t) (c.p 2)) 0 [d]) ∧
      (c.f 0 5 4 = 1 ∨ c.f 0 5 4 = 2 → s.motBusy n = false → s.motTargetOk n t = true → c.p 2 < 2 ^ 28 → s.motBlocked n (t - s.motPos n) = false →
        let u := b.setMot n (fun x => { x with queued := some ⟨c.f 0 5 4, c.f 0 10 8, .pos t, c.p 2⟩ })
        ∃ d, exec (.motMove seq) s = ends (if s.motState n = 0 then u.wr (F.MOT_STATE_state n) 1 else u) 0 [d])) ∧
    (s.Due 0x0B02 seq c → c.f 0 5 4 ≠ 3 →
      let v := c.pI 1
      (s.motBusy n = true → exec (.motVelocity seq) s = ends b 0x0200 []) ∧
      (s.motBusy n = false → s.rd (F.MOT_VMAX n) < v.natAbs → exec (.motVelocity seq) s = ends b 0x0103 [1]) ∧
      (s.motBusy n = false → v.natAbs ≤ s.rd (F.MOT_VMAX n) → s.motBlocked n v = true → exec (.motVelocity seq) s = ends b 0x0200 []) ∧
      (s.motBusy n = false → v.natAbs ≤ s.rd (F.MOT_VMAX n) → s.motBlocked n v = false → c.f 0 5 4 = 0 →
        ∃ d, exec (.motVelocity seq) s = ends (b.motStart n (.vel v) 0) 0 [d])) ∧
    (s.Due 0x0B03 seq c →
      (s.motState n = 5 → exec (.motStop seq) s = ends b 0x0200 []) ∧
      (s.motState n ≠ 5 → (s.mot n).plan = .none → exec (.motStop seq) s =
        ends (b.motHalt n false) 0 [BitVec.ofInt 32 (s.motPos n)]) ∧
      (s.motState n ≠ 5 → (s.mot n).plan ≠ .none → exec (.motStop seq) s =
        .next ((b.setMot n (fun x => { x with stopSeqs := x.stopSeqs ++ [seq] })).motHalt n (decide (c.f 0 8 8 = 1))))) ∧
    (s.Due 0x0B04 seq c →
      let up := decide (c.f 0 5 5 = 1)
      let vm := s.rd (F.MOT_VMAX n)
      (s.motBusy n = true → exec (.motHome seq) s = ends b 0x0200 []) ∧
      (s.motBusy n = false → c.p 1 = 0 ∨ vm < c.p 1 → exec (.motHome seq) s = ends b 0x0103 [1]) ∧
      (s.motBusy n = false → 1 ≤ c.p 1 → c.p 1 ≤ vm → c.p 2 = 0 ∨ vm < c.p 2 → exec (.motHome seq) s = ends b 0x0103 [2]) ∧
      (s.motBusy n = false → 1 ≤ c.p 1 → c.p 1 ≤ vm → 1 ≤ c.p 2 → c.p 2 ≤ vm →
        let h : Homing := { seq := seq, index := decide (c.f 0 4 4 = 1), up := up, fast := c.p 1, slow := c.p 2, back := c.p 3, limit := c.p 4,
                            offset := c.pI 5, start := s.motPos n, release := none, latched := none }
        let u := (b.setMot n (fun x => { x with home := some h, queued := none })).wr (F.MOT_STATE_state n) 3
        exec (.motHome seq) s = .next (if u.homeOn n then (u.wr (F.MOT_STATE_hstate n) 2).motPlan n (.vel (dirOf (!up) (c.p 1))) 0
          else (u.wr (F.MOT_STATE_hstate n) 1).motPlan n (.vel (dirOf up (c.p 1))) 0))) ∧
    (s.Due 0x0B05 seq c →
      let k := c.f 0 21 16
      (s.motState n = 5 → exec (.motLatch seq) s = ends b 0x0200 []) ∧
      (s.motState n ≠ 5 → c.f 0 9 8 = 0 ∨ (c.f 0 9 8 = 1 ∧ k ≤ 7) → exec (.motLatch seq) s =
        .next (b.setMot n (fun x => { x with latArm := some (c.f 0 9 8, k, decide (c.f 0 24 24 = 0), seq) }))) ∧
      (s.motState n ≠ 5 → c.f 0 9 8 = 1 → 7 < k → exec (.motLatch seq) s = ends b 0x0103 [0]) ∧
      (s.motState n ≠ 5 → c.f 0 9 8 = 2 → c.p 3 ≤ 999999999 → exec (.motLatch seq) s = .next (b.latchTime n (c.p 1 + c.p 2 * 2 ^ 32) (c.p 3) (some seq))) ∧
      (s.motState n ≠ 5 → c.f 0 9 8 = 3 → exec (.motLatch seq) s = ends b 0x0104 [])) ∧
    (s.Due 0x0B06 seq c → exec (.motStatus seq) s =
      ends b 0 [s.reg (F.MOT_STATE_state n).addr, s.reg (F.MOT_POS n).addr, s.reg (F.MOT_VEL n).addr, s.reg (F.MOT_TARGET n).addr]) ∧
    (s.isC = true → (s.Due 0x0B07 seq c → exec (.drvConfig seq) s = ends b 0x0204 []) ∧ (s.Due 0x0B08 seq c → exec (.drvEnable seq) s = ends b 0x0204 []) ∧
      (s.Due 0x0B09 seq c → exec (.drvCoil seq) s = ends b 0x0204 []) ∧ (s.Due 0x0B0A seq c → exec (.drvClear seq) s = ends b 0x0204 []) ∧
      (s.Due 0x0B0B seq c → exec (.drvStatus seq) s = ends b 0x0204 [])) ∧
    (s.isC = false →
      (s.Due 0x0B07 seq c → (∀ i, i < 5 → legalWord ((F.DRV_CFG_mode n).addr + 4 * i) (c.pw (1 + i)) = true) →
        exec (.drvConfig seq) s = ends ((b.putCfgs ((List.range 5).map (fun i => ((F.DRV_CFG_mode n).addr + 4 * i, c.pw (1 + i))))).drvCommit n) 0 []) ∧
      (s.Due 0x0B08 seq c →
        let u := b.each (ones 8 (c.f 0 7 0)) (fun k x => x.drvEnable k (bit (c.f 0 15 8) k))
        exec (.drvEnable seq) s = ends u 0 [BitVec.ofNat 32 (((ones 8 (c.f 0 7 0)).filter (fun k => u.on (F.DRV_STAT_enabled k))).foldl (fun m k => m + 2 ^ k) 0)]) ∧
      (s.Due 0x0B09 seq c →
        (2500 < c.f 1 11 0 ∨ 2500 < c.f 1 27 16 → exec (.drvCoil seq) s = ends b 0x0103 [1]) ∧
        (c.f 1 11 0 ≤ 2500 → c.f 1 27 16 ≤ 2500 → exec (.drvCoil seq) s =
          ends (((((b.wr (F.DRV_CUR_run n) (c.f 1 11 0)).wr (F.DRV_CUR_hold n) (c.f 1 27 16)).wr (F.DRV_HOLD_pullin n) (c.f 2 15 0)).dropShadow
            [(F.DRV_CUR_run n).addr, (F.DRV_HOLD_pullin n).addr]).showDrv n) 0 [])) ∧
      (s.Due 0x0B0A seq c → exec (.drvClear seq) s = ends (b.each (ones 8 (c.f 0 7 0)) (fun k x => x.wr (subFld (F.DRV_FAULT_ocp k) 0 4) 0)) 0 []) ∧
      (s.Due 0x0B0B seq c → ∃ current : Nat, exec (.drvStatus seq) s =
        ends b.useFree 0 [setF (s.reg (F.DRV_STAT_enabled n).addr) 16 16 current, s.reg (F.DRV_FAULT_ocp n).addr, s.reg (F.DRV_MEAS_r n).addr,
          s.reg (F.DRV_COILT_rise n).addr]))

/-- Register writes from outside and the write-one actions of the bus, view, host, fabric and DMA registers (R8, R9, R22, R172, R173, R205, R421, R422, R442–R445,
R447, R463, R466): the owner's write goes to the register, a narrow or misaligned one is a decode error, a write that the view forbids is a view fault alone. -/
def Obligations.RegisterActions : Prop :=
  (∀ (id : Ident) (a : Fin 0x10000000) (whole : Bool) (v : Word) (s : State), s.alive = true →
    (area a ≠ .reg → exec (.registerWrite id a whole v) s = .next s) ∧
    (area a = .reg → whole = false ∨ a.val % 4 ≠ 0 → exec (.registerWrite id a whole v) s = .next (s.decErr id a true)) ∧
    (area a = .reg → whole = true → a.val % 4 = 0 → exec (.registerWrite id a whole v) s = .next (s.regPut id a v).2)) ∧
  (∀ (id : Ident) (s : State), s.alive = true →
    exec (.sysDecerrInfoClear id) s = .next ((s.wr F.SYS_DECERR_INFO_valid 0).wr F.SYS_DECERR_INFO_ovf 0) ∧
    exec (.sysLinkerrClear id) s = .next (s.setReg 0x04000030 0)) ∧
  (∀ (id : Ident) (s : State), s.Backs id →
    (∀ (i : Fin 64) (v : Word), s.rd F.VIEW_LOCK_lock = 1 → exec (.viewIdtWrite id i v) s = .next (s.viewFault id (F.VIEW_IDT_bs i).addr true false)) ∧
    (∀ (i : Fin 64) (v : Word), s.rd F.VIEW_LOCK_lock = 0 → exec (.viewIdtWrite id i v) s =
      .next (s.setReg (F.VIEW_IDT_bs i).addr ((s.reg (F.VIEW_IDT_bs i).addr &&& ~~~ idtFree i) ||| (v &&& idtFree i)))) ∧
    exec (.viewLock id) s = .next (s.wr F.VIEW_LOCK_lock 1) ∧
    exec (.viewFaultInfoClear id) s = .next (((s.wr F.VIEW_FAULT_INFO_valid 0).wr F.VIEW_FAULT_INFO_ovf 0).wr F.VIEW_CNT_FAULT 0) ∧
    exec (.hostCtlCommit id) s = .next ((s.commitReg 0x04180000).wr F.HOST_STAT_pending 0) ∧
    exec (.hostCtlCntclr id) s = .next (s.clearRegs F.HOST_CNT_UR.addr 7) ∧
    (∀ fn : Fin 2, exec (.hostFenceClear id fn) s = .next (s.wr (bitFld F.HOST_FENCE_f0 fn) 0)) ∧
    exec (.fabCtlCntclr id) s = .next (s.clearRegs F.FAB_CNT_NPREQ.addr 8) ∧
    (∀ w : Fin 16, s.winOut w = 0 → exec (.fabCtlWincommit id w) s = .next (s.winApply w)) ∧
    (∀ w : Fin 16, s.winOut w ≠ 0 → s.fab.commitWait.contains w.val = false →
      exec (.fabCtlWincommit id w) s = .next { s with fab := { s.fab with commitWait := s.fab.commitWait ++ [w.val] } })) ∧
  (∀ (id : Ident) (c : Fin 8) (s : State), s.alive = true →
    (c.val = 7 → id.val ≠ 0 → exec (.memDmaStart id c) s = .next (s.decErr id (F.MEM_DMA0_chan c).addr true) ∧
      exec (.memDmaAbort id c) s = .next (s.decErr id (F.MEM_DMA0_chan c).addr true)) ∧
    (c.val ≠ 7 ∨ id.val = 0 →
      (s.rd (F.MEM_DMA2_busy c) = 1 → exec (.memDmaStart id c) s = .next s ∧ exec (.memDmaAbort id c) s =
        .next (((((s.wr (F.MEM_DMA2_busy c) 0).wr (F.MEM_DMA2_err c) 1).wr (F.MEM_DMA2_cause c) 5).setDma c (fun x => { x with waiting := false })).callEvent
          ((((s.wr (F.MEM_DMA2_busy c) 0).wr (F.MEM_DMA2_err c) 1).wr (F.MEM_DMA2_cause c) 5).rd (F.MEM_DMA0_chan c)))) ∧
      (s.rd (F.MEM_DMA2_busy c) = 0 → exec (.memDmaAbort id c) s = .next s ∧ exec (.memDmaStart id c) s =
        .next (((s.wr (F.MEM_DMA2_busy c) 1).wr (F.MEM_DMA3_moved c) 0).setDma c (fun _ =>
          { desc := s.rd (F.MEM_DMA1_desc c) * 16, words := [], done := 0, waiting := false }))))) ∧
  (∀ (id : Ident) (s : State), s.alive = true → s.backstage id = false →
    exec (.viewLock id) s = .next (s.viewFault id F.VIEW_LOCK_lock.addr true false) ∧
    exec (.hostCtlCommit id) s = .next (s.viewFault id F.HOST_CTL_commit.addr true false) ∧
    exec (.fabCtlCntclr id) s = .next (s.viewFault id 0x040C0000 true false))

/-- The ring's control registers, its lap boundary, windows, open insertion, transit buffer, split points, and the lap and process frames that arrive (R20, R63, R69–R72,
R75, R78, R79, R81, R82, R91, R102, R106): where an action is due it happens, and where its condition fails nothing changes. -/
def Obligations.RingActions : Prop :=
  (∀ (id : Ident) (s : State), s.Backs id →
    (s.rd F.RING_STATE_join ≠ 0 ∨ s.tierOk (s.shown 0x040A0010) = false → exec (.ringCtlCommit id) s = .next (s.event F.RING_EVT_cfgerr)) ∧
    (s.rd F.RING_STATE_join = 0 → s.tierOk (s.shown 0x040A0010) = true → exec (.ringCtlCommit id) s =
      .next ((s.commitReg 0x040A0010).ringCfgNew.showRingPending)) ∧
    exec (.ringCtlSplitcommit id) s = .next { s with ring := { s.ring with splitReq := true } } ∧
    exec (.ringCtlCntclr id) s = .next (s.clearRegs 0x040A0080 27)) ∧
  (∀ (v : Word) (s : State), s.alive = true → exec (.ringPubcommit v) s = .next (s.each (ones 16 v.toNat) (fun i x =>
    if x.lapPos < (x.rd (F.RING_WIN0_start (i / 8) (i % 8)) : Int) * 1000 - x.quantum then
      x.setRing (fun r => { r with published := r.published ||| 2 ^ i }) else x))) ∧
  (∀ (d0 d1 : Fin 1024) (t0 t1 bad : Bool) (s : State), s.alive = true →
    (s.lapsRun = true → s.time.nextLap ≠ 0 → s.time.nextStart ≤ s.nowU →
      exec (.lapBoundary d0 d1 t0 t1 bad) s = .next ((s.memberBoundary d0 d1 t0 t1).ringRecord bad)) ∧
    (s.lapsRun = true → s.time.nextLap = 0 ∨ s.nowU < s.time.nextStart → exec (.lapBoundary d0 d1 t0 t1 bad) s = .next s) ∧
    (s.lapsRun = false → s.joining = true → exec (.lapBoundary d0 d1 t0 t1 bad) s = .next (s.joiningBoundary.ringRecord bad)) ∧
    (s.lapsRun = false → s.joining = false → exec (.lapBoundary d0 d1 t0 t1 bad) s = .next s)) ∧
  (∀ (d : Fin 2) (n : Fin 8) (sub : Fin 32) (s : State), s.alive = true → s.inserts = true → s.lapsRun = true →
    let f := s.windowFrame d n
    let pub := s.rd (F.RING_WIN3_auto d n) ≠ 0 ∨ s.ring.published.testBit (d * 8 + n) = true
    (s.winActive d n = false → exec (.scheduledWindow d n sub) s = .next s) ∧
    (s.winActive d n = true → s.winLegal d n = false ∨ ¬ pub → exec (.scheduledWindow d n sub) s = .next s.missPub) ∧
    (s.winActive d n = true → s.winLegal d n = true → pub → s.schedVerdict d n f.blocks sub = .pass →
      exec (.scheduledWindow d n sub) s = .next (s.sendWindow d n sub f)) ∧
    (s.winActive d n = true → s.winLegal d n = true → pub → s.schedVerdict d n f.blocks sub = .blocked → exec (.scheduledWindow d n sub) s = .next s) ∧
    (s.winActive d n = true → s.winLegal d n = true → pub → s.schedVerdict d n f.blocks sub = .cut → s.cutNow.monitorOnly = false →
      exec (.scheduledWindow d n sub) s = .next s.cutNow)) ∧
  (∀ (d : Fin 2) (sub : Fin 32) (s : State), s.alive = true →
    (s.egress d = none ∨ s.pickIns d [] (s.ring.insq.getD d []) 0 = none → exec (.openWindowInsertion d sub) s = .next s) ∧
    (∀ p i f, s.egress d = some p → s.pickIns d [] (s.ring.insq.getD d []) 0 = some (i, f) → s.transitOf p = [] → s.fits p f.frame.blocks 0 = true →
      s.starWindow f.frame.blocks = true → s.inserts = true →
      s.openVerdict p f.frame.blocks sub (decide (f.frame.typ = 8) && decide (s.rd F.RING_STATE_join < 5)) = .pass →
      exec (.openWindowInsertion d sub) s = .next (s.insert d i p sub f)) ∧
    (s.transitOf d = [] → exec (.transitBufferRelease d) s = .next { s with ring := { s.ring with transit := updAt s.ring.transit d (fun _ => []) } }) ∧
    (∀ k rest, s.transitOf d = .mark k :: rest → exec (.transitBufferRelease d) s = .next ((s.releaseItem d (.mark k)).releaseTransit d rest)) ∧
    (∀ f rest, s.transitOf d = .frame f :: rest → s.fits d f.blocks s.openGap = true →
      exec (.transitBufferRelease d) s = .next ((s.releaseItem d (.frame f)).releaseTransit d rest)) ∧
    (∀ f rest, s.transitOf d = .frame f :: rest → s.fits d f.blocks s.openGap = false →
      exec (.transitBufferRelease d) s = .next { s with ring := { s.ring with transit := updAt s.ring.transit d (fun _ => .frame f :: rest) } })) ∧
  (∀ (n : Fin 16) (s : State), s.alive = true →
    (s.splitDue n = false → exec (.splitPointFire n) s = .next s) ∧
    (s.splitDue n = true →
      let t := s.rd (F.RING_SPLIT2_target n)
      let a := { s with ring := { s.ring with splitFired := s.ring.splitFired ||| 2 ^ n.val } }
      let b := a.handSync (a.rd (F.RING_SPLIT1_hands n))
      let c := b.motFire 1 n (b.rd (F.RING_SPLIT2_motion n))
      let d := if c.rd (F.RING_SPLIT2_irq n) ≠ 0 then c.msix (c.rd F.HOST_CFG_splitfn) t else c
      let e := if d.rd (F.RING_SPLIT2_callev n) ≠ 0 then d.callEvent t else d
      exec (.splitPointFire n) s = .next (e.sideBand 6 n 0))) ∧
  (∀ (p : Fin 2) (f : RFrame) (sub : Fin 32) (res : Nat) (s : State), s.rxUp p = true → s.rd F.RING_CFG_rate < 2 →
    (headerGood f = false → exec (.lapFrame p f sub res) s = .next (s.badHeader p)) ∧
    (headerGood f = true → f.typ = 0 → getF (f.pw 0) 24 8 = 1 → ∀ u, s.arrive p f (addCorr (s.residence p sub res)) = (true, u) →
      exec (.lapFrame p f sub res) s = .next (u.lapTaken p sub f)) ∧
    (headerGood f = true → f.typ = 0 → getF (f.pw 0) 24 8 = 1 → ∀ u, s.arrive p f (addCorr (s.residence p sub res)) = (false, u) → trailerGood f = true →
      exec (.lapFrame p f sub res) s = .next (if s.fromMe f then u.lapReturned p sub f else u)) ∧
    (headerGood f = true → f.typ ≠ 0 → exec (.lapFrame p f sub res) s = .next s)) ∧
  (∀ (p : Fin 2) (f : RFrame) (sub : Fin 32) (s : State), s.rxUp p = true →
    (headerGood f = false → exec (.processFrame p f sub) s = .next (s.badHeader p)) ∧
    (headerGood f = true → f.typ ≠ 1 → exec (.processFrame p f sub) s = .next s) ∧
    (∀ u, headerGood f = true → f.typ = 1 → s.arrive p f id = (false, u) → exec (.processFrame p f sub) s = .next u) ∧
    (∀ u, headerGood f = true → f.typ = 1 → s.arrive p f id = (true, u) →
      let v := u.watch (1 - p) f.sstation sub
      let tag := getF f.w0 24 8
      let o := getF f.w0 0 18
      (tag = v.lap % 256 → v.rangeBad o f.length = true → exec (.processFrame p f sub) s = .next (v.inc F.RING_CNT_RANGE)) ∧
      (tag = v.lap % 256 → v.rangeBad o f.length = false →
        let w := v.putWords (v.backBase + o) f.words
        exec (.processFrame p f sub) s = .next (if f.sstation = 0 ∨ f.sstation = 4095 ∨ w.ring.backMap.contains f.sstation = true then w
          else w.setRing (fun r => { r with backMap := r.backMap ++ [f.sstation] }))) ∧
      (tag ≠ v.lap % 256 → tag = (v.lap + 255) % 256 → exec (.processFrame p f sub) s = .next (v.inc F.RING_CNT_LATE)) ∧
      (tag ≠ v.lap % 256 → tag ≠ (v.lap + 255) % 256 → exec (.processFrame p f sub) s = .next (v.inc F.RING_CNT_WRONGLAP))))

/-- Joining and leaving (R84–R88, R128, R135, R148): what each join frame that a station takes in does at a station it concerns, and the joiner's patience. -/
def Obligations.JoinFrames : Prop :=
  (∀ (p : Fin 2) (f : RFrame) (s u : State), s.rxUp p = true → s.rd (edgeFld p) = 0 → headerGood f = true → f.typ = 8 → s.arrive p f id = (true, u) →
    let kept := getF (f.pw 3) 16 12
    let lap := noticeLap f
    (joinSub f = 1 → u.isStarter = false → exec (.joinRequest p f) s = .next u) ∧
    (joinSub f = 1 → u.isStarter = true → u.busyJoin = true → exec (.joinRequest p f) s = .next (u.answerJoin f 4 0 0 0 0 [])) ∧
    (joinSub f = 1 → u.isStarter = true → u.busyJoin = false → kept ≠ 0 →
      exec (.joinRequest p f) s = .next (u.grant f kept (u.rd F.RING_GEN_active) [])) ∧
    (joinSub f = 1 → u.isStarter = true → u.busyJoin = false → kept = 0 → (∃ e ∈ u.ring.members, e.1 = f.pw 1 ∧ e.2.1 = f.pw 2) →
      exec (.joinRequest p f) s = .next (u.answerJoin f 3 2 0 0 0 [])) ∧
    (joinSub f = 1 → u.isStarter = true → u.busyJoin = false → kept = 0 → (∀ e ∈ u.ring.members, ¬ (e.1 = f.pw 1 ∧ e.2.1 = f.pw 2)) →
      (u.ring.grants.find? (fun e => decide (e.sidLo = f.pw 1 ∧ e.sidHi = f.pw 2)) = none → exec (.joinRequest p f) s = .next (u.answerJoin f 3 1 0 0 0 [])) ∧
      (∀ g, u.ring.grants.find? (fun e => decide (e.sidLo = f.pw 1 ∧ e.sidHi = f.pw 2)) = some g →
        exec (.joinRequest p f) s = .next (u.grant f g.addr g.gen g.image))) ∧
    (joinSub f = 0 ∨ 7 < joinSub f → exec (.joinRequest p f) s = .next u) ∧
    (joinSub f = 2 → u.rd F.RING_STATE_join = 2 → u.mySid f = true →
      let v := (u.wr F.RING_ID_station kept).wr F.RING_ID_ring (getF (f.pw 3) 0 8)
      exec (.joinGrant p f) s = .next ((if 356 ≤ f.length then v.loadImage (f.words.drop 6) else v).setJoin 3)) ∧
    (joinSub f = 3 → u.rd F.RING_STATE_join = 2 → u.mySid f = true → exec (.joinRefuse p f) s = .next (u.joinFail 0x0501)) ∧
    (joinSub f = 4 → u.rd F.RING_STATE_join = 2 → u.mySid f = true → 64 ≤ u.ring.busyAns + 1 → exec (.joinBusy p f) s = .next (u.joinFail 0x0400)) ∧
    (joinSub f = 4 → u.rd F.RING_STATE_join = 2 → u.mySid f = true → u.ring.busyAns + 1 < 64 →
      exec (.joinBusy p f) s = .next ({ u with ring := { u.ring with busyAns := u.ring.busyAns + 1 } }.sendRequestJoin)) ∧
    (2 ≤ joinSub f → joinSub f ≤ 4 → u.rd F.RING_STATE_join ≠ 2 ∨ u.mySid f = false → ∀ i : Instr,
      (joinSub f = 2 ∧ i = .joinGrant p f) ∨ (joinSub f = 3 ∧ i = .joinRefuse p f) ∨ (joinSub f = 4 ∧ i = .joinBusy p f) → exec i s = .next u) ∧
    (joinSub f = 5 → exec (.closeNotice p f) s = .next (
      let v := (if kept = 0 then u else u.freeStream f.sring kept).addCommit (getF (f.pw 0) 0 16) lap true none
      if v.rd F.RING_STATE_join = 3 ∧ v.mySid f = true then (v.setJoin 4).setRing (fun r => { r with closeLap := some lap })
      else if v.rd F.RING_STATE_join = 5 ∧ (v.rd F.RING_STATE_edgee ≠ 0 ∨ v.rd F.RING_STATE_edgew ≠ 0) ∧ kept ≠ 0 then
        v.setRing (fun r => { r with closeLap := some lap }) else v)) ∧
    (joinSub f = 6 → u.busyJoin = true → u.isStarter = true → exec (.leaveRequest p f) s =
      .next (u.sendJoin f.sring f.sstation (joinWords 4 0 0 (f.pw 1) (f.pw 2) 0 u.ringId 0))) ∧
    (joinSub f = 6 → u.isStarter = false → exec (.leaveRequest p f) s = .next u) ∧
    (joinSub f = 6 → u.busyJoin = false → u.isStarter = true →
      let l := u.lap + u.rd F.RING_JOINCFG_lead
      let v := (u.sendJoin u.ringId 4095 (joinWords 7 0 (getF (f.pw 0) 0 16) (f.pw 1) (f.pw 2) kept u.ringId l)).addCommit (getF (f.pw 0) 0 16) l true none
      let w := v.setRing (fun r => { r with handling := some l, members := r.members.filter (fun e => e.2.2 ≠ kept) })
      exec (.leaveRequest p f) s = .next (if kept = w.station then w.setRing (fun r => { r with leaveLap := some l }) else w.dropReserve kept)) ∧
    (joinSub f = 7 →
      let v := (u.freeStream f.sring kept).dropReserve kept
      (kept = v.station → exec (.leaveNotice p f) s = .next { v with ring := { v.ring with leaveLap := some lap } }) ∧
      (kept ≠ v.station → exec (.leaveNotice p f) s = .next (v.addCommit (getF (f.pw 0) 0 16) lap true none)))) ∧
  (∀ (p : Fin 2) (f : RFrame) (s : State), s.rxUp p = true → s.rd (edgeFld p) ≠ 0 → headerGood f = true → f.typ = 8 → joinSub f = 1 →
    (f.sstation = 0 → trailerGood f = true → exec (.joinRequest p f) s = .next (s.pushIns (1 - p) { frame := RFrameHop f, stamp := false, replay := false })) ∧
    (f.sstation ≠ 0 ∨ trailerGood f = false → exec (.joinRequest p f) s = .next s)) ∧
  (∀ s : State, s.alive = true → s.rd F.RING_STATE_join = 2 → 16 ≤ s.ring.silentLaps →
    (3 ≤ s.ring.silent + 1 → exec .joinNoAnswer s = .next (s.joinFail 0x0400)) ∧
    (s.ring.silent + 1 < 3 → exec .joinNoAnswer s = .next ({ s with ring := { s.ring with silent := s.ring.silent + 1 } }.sendRequestJoin)))

/-- Station time (R97–R101, R105, R108, R111, R114, R118–R123, R138): claims, the listen and settle times, missed laps and takeover, the servo, delay markers, the snapshot,
triggers, captures, stamps, PTP messages and the reference frame of a star coupler. -/
def Obligations.TimeEvents : Prop :=
  (∀ (p : Fin 2) (f : RFrame) (s u : State), s.rxUp p = true → s.rd F.RING_CFG_rate < 2 → headerGood f = true → f.typ = 0 → getF (f.pw 0) 24 8 = 2 →
    s.arrive p f id = (true, u) →
    let c : Claim := ⟨getF (f.pw 0) 16 8, (f.pw 1).toNat + (f.pw 2).toNat * 2 ^ 32, f.sstation, getF (f.pw 0) 0 16⟩
    (u.role = rLISTEN → exec (.startClaim p f) s = .next (u.addClaim c).sendClaim) ∧
    (u.role = rCLAIM → exec (.startClaim p f) s = .next (u.addClaim c)) ∧
    (u.role ≠ rLISTEN → u.role ≠ rCLAIM → exec (.startClaim p f) s = .next u)) ∧
  (∀ (t : Nat) (s : State), s.alive = true →
    (s.time.listenRaw = some t → s.role = rLISTEN →
      t + (s.rd F.TIME_CLAIMCFG_base * 400000 + s.rd F.RING_SID_LO % 1024 * 10 * 400) ≤ s.raw → exec .listenTime s = .next s.sendClaim) ∧
    (s.time.listenRaw = none → exec .listenTime s = .next s) ∧
    (s.time.settleRaw = some t → s.role = rCLAIM → t + s.rd F.TIME_CLAIMCFG_settle * 100 * 400 ≤ s.raw → exec .settleTime s = .next s.settle) ∧
    (s.time.settleRaw = none → exec .settleTime s = .next s)) ∧
  (∀ s : State, s.alive = true →
    (s.role = rFOLLOW ∨ s.role = rRESERVE → 8 ≤ s.time.missed →
      let u := { s with time := { s.time with missed := 0, nextLap := 0 } }.setJoin 0
      exec .eightMissedLaps s =
        .next (((((u.wr F.TIME_STATE_holdover 0).wr F.TIME_STATE_synced 0).wr F.TIME_STATE_rank 0).setRole rSTART).enterStart)) ∧
    (s.time.missed < 8 → exec .eightMissedLaps s = .next s) ∧
    (∀ d0 d1 : Nat, s.role = rRESERVE → s.rd F.TIME_STATE_rank ≠ 0 → s.rd F.TIME_STATE_rank + 1 ≤ s.time.missed →
      exec (.takeover d0 d1) s = .next (s.takeover d0 d1)) ∧
    (∀ d0 d1 : Nat, s.role ≠ rRESERVE → exec (.takeover d0 d1) s = .next s) ∧
    (s.servoDue = true → exec .servoUpdate s = .next s.servo) ∧ (s.servoDue = false → exec .servoUpdate s = .next s)) ∧
  (∀ (p : Fin 2) (n : Fin 64) (turn : Nat) (s : State), s.rxUp p = true →
    (1280 ≤ turn → turn < 65536 → exec (.delayMarkerReceivedRequest p n turn) s =
      .next { s with out := .ringMark p 0xA (2 ^ 22 + n * 2 ^ 16 + turn) :: s.out }) ∧
    (turn < 1280 ∨ 65536 ≤ turn → exec (.delayMarkerReceivedRequest p n turn) s = .next s)) ∧
  (∀ (p : Fin 2) (n : Fin 64) (turn : Fin 65536) (sub : Fin 32) (s : State) (k : Nat) (t1 : Int), s.rxUp p = true →
    (s.time.links.getD p LinkSt.init).asked = some (k, t1) →
    (k = n.val → exec (.delayMarkerResponse p n turn sub) s =
      .next ((s.setLink p (fun l => { l with asked := none })).linkSample p (((s.raw : Int) * 32 + sub.val - t1 - turn.val) * 2560))) ∧
    (k ≠ n.val → exec (.delayMarkerResponse p n turn sub) s = .next s)) ∧
  (∀ (sub0 sub1 : Fin 32) (s : State), s.alive = true →
    (s.lapsRun = false → s.time.reqRaw + 4000 ≤ s.raw →
      exec (.delayRequestInterval sub0 sub1) s = .next (({ s with time := { s.time with reqRaw := s.raw } }.delayRequest 0 sub0).delayRequest 1 sub1)) ∧
    (s.lapsRun = true ∨ s.raw < s.time.reqRaw + 4000 → exec (.delayRequestInterval sub0 sub1) s = .next s)) ∧
  (∀ s : State, s.alive = true →
    (let t := s.nowU
     exec .timeSnapctlCap s = .next ((((((s.wr F.TIME_SNAP_RAW_LO s.rawLo).wr F.TIME_SNAP_RAW_HI s.rawHi).wr F.TIME_SNAP_SEC_LO (secOf t % 2 ^ 32)).wr
       F.TIME_SNAP_SEC_HI (secOf t / 2 ^ 32)).wr F.TIME_SNAP_NS (nsOf t)).wr F.TIME_SNAP_FRAC (fracOf t))) ∧
    exec .timeSnapctlCntclr s = .next (s.clearRegs 0x04090080 5)) ∧
  (∀ (n : Fin 8) (s : State), s.alive = true →
    let a := 0x04090100 + n.val * 32
    let ok := trigPeriodOk (s.shown a) (s.shown (a + 0x14)) = true ∧ trigWidthOk (s.shown a) (s.shown (a + 0x14)) (s.shown (a + 0x18)) = true
    let u := s.commitRegs (trigRegs n)
    (¬ ok → exec (.timeTrigCommit n) s = .next s) ∧
    (ok → u.motDrives n = false → exec (.timeTrigCommit n) s = .next (u.startTrig n)) ∧
    (ok → u.motDrives n = true → exec (.timeTrigCommit n) s = .next ((u.wr (F.TIME_TRIG0_pin n) 0).startTrig n)) ∧
    (∀ t : Int, (s.time.trigs.getD n TrigSt.init).next = some t → t ≤ s.nowU → exec (.triggerFire n) s = .next ((s.trigNext n t).trigEvent n)) ∧
    (∀ t : Int, (s.time.trigs.getD n TrigSt.init).next = some t → s.nowU < t → exec (.triggerFire n) s = .next s) ∧
    ((s.time.trigs.getD n TrigSt.init).next = none → exec (.triggerFire n) s = .next s) ∧
    ((s.time.trigs.getD n TrigSt.init).active = true → exec (.triggerPulseEnd n) s = .next (s.trigDrive n false)) ∧
    ((s.time.trigs.getD n TrigSt.init).active = false → exec (.triggerPulseEnd n) s = .next s)) ∧
  (∀ (n : Fin 8) (rising : Bool) (s : State), s.alive = true →
    (let u := s.setField (fun x => { x with capPins := updAt x.capPins n (fun _ => rising) })
     exec (.captureEdge n rising) s = .next ((u.captureEdge n rising).motEdge 1 n rising u.raw)) ∧
    exec (.timeCaptAuxRead n) s = .next ((s.setTime (fun t => { t with capts := updAt t.capts n (fun l => l.drop 1) })).showCapture n)) ∧
  (∀ (q : Fin 6) (s : State), s.alive = true →
    exec (.timeTsqAuxRead q) s = .next ((s.setTime (fun t => { t with tsqs := updAt t.tsqs q (fun l => l.drop 1) })).showStamp q)) ∧
  (∀ (m : Fin 4) (src : Nat) (offset : Option Word) (s : State), s.alive = true → s.macLink m = true →
    let x := s.ptp m
    let u := if s.isTier = true ∧ s.rd F.RING_CFG_tiermac = m.val ∧ x.profile = 2 then s.setNet (fun n => { n with partner := src }) else s
    (x.role = 0 → exec (.ptpMessage m src offset) s = .next s) ∧
    (x.role ≠ 0 → exec (.ptpMessage m src none) s = .next u) ∧
    (∀ o, x.role = 3 → exec (.ptpMessage m src (some o)) s = .next (u.setPtp m (fun y => { y with offset := o }))) ∧
    (∀ o, x.role = 2 → (u.setPtp m (fun y => { y with offset := o })).isStarter = true → exec (.ptpMessage m src (some o)) s =
      .next ((u.setPtp m (fun y => { y with offset := o })).setTime (fun t => { t with acc := t.acc + o.toInt, accN := t.accN + 1, laps := t.laps + 1 })))) ∧
  (∀ (f : RFrame) (sub : Fin 32) (s : State), s.rxUp 0 = true → s.rd F.RING_CFG_rate = 2 →
    (headerGood f = false → exec (.forerunnerReferenceFrame f sub) s = .next (s.inc (F.RING_CNT_HDRERR 0))) ∧
    (headerGood f = true → f.typ = 0 → trailerGood f = false → exec (.forerunnerReferenceFrame f sub) s =
      .next ((s.inc (F.RING_CNT_CRCERR 0)).setRing (fun r => { r with good := updAt r.good 0 (fun _ => 0) }))) ∧
    (headerGood f = true → f.typ = 0 → trailerGood f = true → f.length = 16 → exec (.forerunnerReferenceFrame f sub) s = .next (s.forerunner f sub)) ∧
    (headerGood f = true → f.typ ≠ 0 → exec (.forerunnerReferenceFrame f sub) s = .next s))

/-- Healing and the marshal (R61, R84, R100, R127, R133, R135, R140, R149, R150, R153, R154, R158–R162, R164): ports and heal markers, the unwrap handshake, replays and the
receiver's streams, and the marshal's commits, missed laps, desynchronisation and logs. -/
def Obligations.HealMarshalEvents : Prop :=
  (∀ (p : Fin 2) (member remote : Bool) (s : State), s.alive = true →
    (s.portEnabled p = true → s.rd (lockFld p) = 0 → exec (.blockLock p member) s = .next (s.blockLock p member)) ∧
    (s.portEnabled p = false ∨ s.rd (lockFld p) ≠ 0 → exec (.blockLock p member) s = .next s) ∧
    (s.portEnabled p = true → s.port p ≠ 1 →
      let u := ((s.wr (portFld p) 1).wr (lockFld p) 0).event (if p = 0 then F.RING_EVT_locklosse else F.RING_EVT_locklossw)
      let v := ((u.dropLink p).wr (edgeFld p) 0).setHeal
        (fun h => { h with ready := updAt h.ready p (fun _ => 0), lapU := updAt h.lapU p (fun _ => none) })
      exec (.portFailure p remote) s =
        .next ((v.emit (.ringMark p 0 1)).setHeal (fun h => { h with remote := updAt h.remote p (fun _ => remote) }))) ∧
    (s.port p = 1 → exec (.portFailure p remote) s = .next s) ∧
    (s.port p = 1 →
      let u := (((s.wr (portFld p) 2).wr (wrapFld p) 1).inc F.RING_CNT_WRAP).emit (.ringMark (1 - p) 0xB (markerOf 0 p s.station))
      exec (.wrap p) s = .next ((u.wrapEnter u.station p).queueMarkerReplay.event F.RING_HEALEVT_wrap)) ∧
    (s.port p ≠ 1 → exec (.wrap p) s = .next s)) ∧
  (∀ (p wp : Fin 2) (n : Fin 4096) (s : State), s.rxUp p = true →
    let seen := fun (v : Nat) => (s.setHeal (fun h => { h with recent := (v, s.raw) :: h.recent.filter (fun e => decide (s.raw < e.2 + 2 * s.healW)) }))
    let on := fun (v : Nat) => (if (seen v).forwards then (seen v).outMarker (1 - p) v else seen v)
    let replays := fun (u : State) (k q : Nat) =>
      (((u.inc F.RING_CNT_MARKER).event F.RING_HEALEVT_marker).healLast false k q n).holdAll.queueMarkerReplay
    (s.staleMarker (markerOf 0 wp n) = true → exec (.wrapMarker p wp n) s = .next s) ∧
    (s.staleMarker (markerOf 0 wp n) = false → exec (.wrapMarker p wp n) s = .next (replays ((on (markerOf 0 wp n)).wrapEnter n wp) 0 wp)) ∧
    (s.staleMarker (markerOf 2 0 n) = true → exec (.replayMarker p n) s = .next s) ∧
    (s.staleMarker (markerOf 2 0 n) = false → exec (.replayMarker p n) s = .next (replays (on (markerOf 2 0 n)) 2 0)) ∧
    (s.staleMarker (markerOf 1 wp n) = true → exec (.unwrapNotice p wp n) s = .next s) ∧
    (s.staleMarker (markerOf 1 wp n) = false → exec (.unwrapNotice p wp n) s =
      .next (((on (markerOf 1 wp n)).healLast false 1 wp n).setHeal (fun h => { h with wrapGone := h.wrapGone ++ [(n.val, wp.val)] })))) ∧
  (∀ (v : Fin 65536) (s : State), s.alive = true →
    (s.port 0 = 2 → s.readyLong 0 = true →
      let u := s.lap + s.rd F.RING_JOINCFG_lead
      exec .portReady s = .next (((s.wr (portFld 0) 3).setLapU 0 (some u)).emit (.ringMark 0 0xB (markerOf 3 0 (u % 65536))))) ∧
    (s.port 0 ≠ 2 ∨ s.readyLong 0 = false → exec .portReady s = .next s) ∧
    (s.rd (lockFld 1) = 1 → s.port 1 = 2 → s.readyLong 1 = true → exec (.unwrapProposal v) s =
      .next (((s.wr (portFld 1) 4).setLapU 1 (some (s.lapOf16 v))).emit (.ringMark 1 0xB (markerOf 4 0 v)))) ∧
    (s.port 1 ≠ 2 ∨ s.readyLong 1 = false → exec (.unwrapProposal v) s = .next s) ∧
    (∀ u, s.heal.lapU.getD 0 none = some u → s.port 0 = 3 → u % 65536 = v.val → s.lap + 1 < u →
      exec (.accept v) s = .next ((s.wr (portFld 0) 5).emit (.ringMark 0 0xB (markerOf 5 0 v)))) ∧
    (∀ u, s.heal.lapU.getD 0 none = some u → s.port 0 ≠ 3 ∨ u % 65536 ≠ v.val ∨ u ≤ s.lap + 1 → exec (.accept v) s = .next s) ∧
    (∀ u, s.heal.lapU.getD 1 none = some u → s.port 1 = 4 → u % 65536 = v.val → s.lap < u → exec (.confirm v) s = .next (s.wr (portFld 1) 5)) ∧
    (∀ u, s.heal.lapU.getD 1 none = some u → s.port 1 ≠ 4 ∨ u % 65536 ≠ v.val ∨ u ≤ s.lap → exec (.confirm v) s = .next s)) ∧
  (∀ (s : State) (r st m : Nat) (e : List Nat) (rest : List ReplayReq), s.alive = true → s.rd F.RING_HEALSTAT_replaying = 0 →
    (∀ k, s.heal.queue = ⟨some k, r, st, m, e⟩ :: rest → exec .markerReplay s = .next (s.popReplay.markerReplay k) ∧ exec .requestReplay s = .next s) ∧
    (s.heal.queue = ⟨none, r, st, m, e⟩ :: rest → exec .requestReplay s = .next (s.popReplay.requestReplay r st m e) ∧ exec .markerReplay s = .next s)) ∧
  (∀ (p : Fin 2) (f : RFrame) (s u : State), s.rxUp p = true → headerGood f = true → f.typ = 9 → s.arrive p f id = (true, u) →
    let k := getF (f.pw 0) 24 8
    let bc := f.dstation = 4095
    (k = 1 → u.heal.queue.length < 16 → exec (.replayRequest p f) s =
      .next (u.setHeal (fun h => { h with queue := h.queue ++ [⟨none, f.sring, f.sstation, ctlMask f, ctlNums f⟩] })).showReplays) ∧
    (k = 1 → 16 ≤ u.heal.queue.length → exec (.replayRequest p f) s = .next ((u.inc F.RING_CNT_RPLQOVF).event F.RING_HEALEVT_rplqovf)) ∧
    (k = 0 ∨ 4 < k → exec (.replayRequest p f) s = .next u) ∧
    (k = 2 → u.findStream f.sring f.sstation = none → exec (.replayStart p f) s = .next u) ∧
    (∀ x, k = 2 → u.findStream f.sring f.sstation = some x →
      (x.st = .hold → bc → exec (.replayStart p f) s = .next (u.setStream f.sring f.sstation (fun y => { y with st := .holdReplay, gap := false }))) ∧
      (x.st = .recover → ¬ bc → getF (f.pw 0) 8 3 = 0 →
        exec (.replayStart p f) s = .next (u.setStream f.sring f.sstation (fun y => { y with st := .recoverReplay, gap := false }))) ∧
      (x.st = .recover → ¬ bc → getF (f.pw 0) 8 3 ≠ 0 → exec (.replayStart p f) s =
        .next (u.fence f.sring f.sstation 1 (getF (f.pw 0) 8 3) ((x.exp.getD ((ones 3 (getF (f.pw 0) 8 3)).headD 0) none).getD 0))) ∧
      ((x.st ≠ .hold ∨ ¬ bc) → (x.st ≠ .recover ∨ bc) → exec (.replayStart p f) s = .next u)) ∧
    (k = 3 → u.findStream f.sring f.sstation = none → exec (.replayEnd p f) s = .next u) ∧
    (∀ x, k = 3 → u.findStream f.sring f.sstation = some x →
      let ok := numsEqual x (ctlMask f) (ctlNums f)
      let normal := u.setStream f.sring f.sstation (fun y => { y with st := .normal, disc := false, gap := false, tries := 0 })
      (x.st = .holdReplay → bc → ok = true → x.gap = false → exec (.replayEnd p f) s = .next normal) ∧
      (x.st = .holdReplay → bc → ok = false ∨ x.gap = true → exec (.replayEnd p f) s = .next (u.enterRecover f.sring f.sstation)) ∧
      (x.st = .recoverReplay → ¬ bc → ok = true → exec (.replayEnd p f) s = .next normal) ∧
      (x.st = .recoverReplay → ¬ bc → ok = false → exec (.replayEnd p f) s = .next (u.enterRecover f.sring f.sstation)) ∧
      ((x.st ≠ .holdReplay ∨ ¬ bc) → (x.st ≠ .recoverReplay ∨ bc) → exec (.replayEnd p f) s = .next u)) ∧
    (k = 4 → exec (.fenceNotice p f) s = .next ((u.event F.RING_HEALEVT_fremote).healLast true 0 0 f.sstation))) ∧
  (∀ (ring : Fin 256) (station : Fin 4096) (s : State) (x : Stream), s.alive = true → s.findStream ring station = some x →
    let late := x.since + 2 * s.healW ≤ s.raw
    (x.st = .hold ∨ x.st = .holdReplay → late → x.disc = true ∨ x.gap = true → exec (.holdTimeout ring station) s = .next (s.enterRecover ring station)) ∧
    (x.st = .hold ∨ x.st = .holdReplay → late → x.disc = false → x.gap = false →
      exec (.holdTimeout ring station) s = .next (s.setStream ring station (fun y => { y with st := .normal }))) ∧
    (¬ (x.st = .hold ∨ x.st = .holdReplay) ∨ ¬ late → exec (.holdTimeout ring station) s = .next s) ∧
    (x.st = .recover → late → 3 ≤ x.tries →
      exec (.recoverTimeout ring station) s = .next (s.fence ring station 2 7 ((x.exp.filterMap id).headD 0))) ∧
    (x.st = .recover → late → x.tries < 3 → exec (.recoverTimeout ring station) s =
      .next ((s.setStream ring station (fun y => { y with tries := y.tries + 1, since := s.raw })).sendRequest x)) ∧
    (x.st ≠ .recover ∨ ¬ late → exec (.recoverTimeout ring station) s = .next s)) ∧
  (∀ s : State, s.alive = true →
    (s.mrshState ≠ 0 → s.mrsh.took = false → s.isStarter = false → exec .marshalMissedLap s = .next s.mrshMiss) ∧
    (s.mrshState = 0 ∨ s.mrsh.took = true ∨ s.isStarter = true → exec .marshalMissedLap s = .next s) ∧
    (s.monitorOnly = false → s.mrshLocked = true → s.cutLimit = true → exec .desynchronise s = .next s.desync) ∧
    (s.monitorOnly = true ∨ s.mrshLocked = false ∨ s.cutLimit = false → exec .desynchronise s = .next s) ∧
    (∀ t, s.mrsh.idleEnd = some t → s.mrshState = 4 → t ≤ s.raw →
      let u := ((s.emit (.ringMark 0 2 1)).emit (.ringMark 1 2 1)).setMrsh (fun m => { m with idleEnd := none })
      exec .desyncIdleEnd s = .next ((u.setJoin 1).setRing (fun r =>
        { r with good := [0, 0], silentLaps := 0, busyAns := 0, silent := 0, mute := false }))) ∧
    (s.mrsh.idleEnd = none → exec .desyncIdleEnd s = .next s) ∧
    exec .mrshWlogRead s = .next (s.setMrsh (fun m => { m with wlog := m.wlog.drop 1 })).showWlog) ∧
  (∀ (id : Ident) (s : State), s.Backs id →
    exec (.mrshCtlCommit id) s = .next { s with mrsh := { s.mrsh with commitReq := true } } ∧
    (s.mrshState = 5 → exec (.mrshCtlRejoin id) s = .next (s.wr F.MRSH_STATE_state 4).listenAgain) ∧
    (s.mrshState ≠ 5 → exec (.mrshCtlRejoin id) s = .next s))

/-- The fabric and the gate (R165, R171–R178, R183, R187, R188, R195, R197, R200, R206, R462): request, completion, message and side-band frames taken in, the inbound
buffer, the grant, the limits of tags, prefetch buffers and transactions, and the gate's timers and clears. -/
def Obligations.FabricGateEvents : Prop :=
  (∀ (p : Fin 2) (f : RFrame) (s u : State), s.rxUp p = true → headerGood f = true → s.arrive p f id = (true, u) →
    let requests := fun (i : Instr) =>
      (∀ t, u.accept f = (.yes, t) → 65536 < inBytes u.fab.inbound + 20 + f.payload.length →
        exec i s = .next (((u.inc F.FAB_CNT_INBUSY).event F.FAB_EVT_inbusy).enterRecover f.sring f.sstation)) ∧
      (∀ t, u.accept f = (.yes, t) → inBytes u.fab.inbound + 20 + f.payload.length ≤ 65536 → exec i s = .next (t.inPush f)) ∧
      (∀ t, u.accept f = (.no, t) → exec i s = .next t) ∧ (∀ t, u.accept f = (.fenced, t) → exec i s = .next (t.inFenced f))
    let messages := fun (i : Instr) =>
      (∀ t, u.accept f = (.yes, t) → (∀ r ∈ t.fab.inbound, ¬ (r.ring = f.sring ∧ r.station = f.sstation)) →
        exec i s = .next (t.gateArrive f.sring f.sstation f.words)) ∧
      (∀ t, u.accept f = (.yes, t) → (∃ r ∈ t.fab.inbound, r.ring = f.sring ∧ r.station = f.sstation) → exec i s =
        .next (t.setFab (fun x => { x with inbound := x.inbound ++ [⟨f.sring, f.sstation, f.daddr, f.typ, f.pw 0, f.words⟩] }))) ∧
      (∀ t, u.accept f = (.no, t) ∨ u.accept f = (.fenced, t) → exec i s = .next t)
    (f.typ = 2 → requests (.write p f)) ∧ (f.typ = 3 → requests (.readRequest p f)) ∧ (f.typ = 7 → requests (.atomic p f)) ∧
    (f.typ = 5 → messages (.message p f)) ∧ (f.typ = 6 → messages (.sideBand p f)) ∧
    (f.typ = 4 → ∀ t, u.accept f = (.no, t) ∨ u.accept f = (.fenced, t) → exec (.completion p f) s = .next t) ∧
    (f.typ = 4 → ∀ t, u.accept f = (.yes, t) →
      let k := getF (f.pw 0) 24 6
      let code := getF (f.pw 0) 8 8
      let late := t.fab.tags.getD k none = none ∨ getF (f.pw 0) 22 2 ≠ t.fab.tgens.getD k 0
      (late → exec (.completion p f) s = .next ((t.inc F.FAB_CNT_LATECPL).event F.FAB_EVT_latecpl)) ∧
      (∀ e, ¬ late → t.fab.tags.getD k none = some e → code ≠ 0 → exec (.completion p f) s =
        .next (((t.fabLog false k code e.acc.ident e.ring e.station e.daddr).freeTag k).fabDone e.acc [] false)) ∧
      (∀ e, ¬ late → t.fab.tags.getD k none = some e → code = 0 → e.spec = false →
        exec (.completion p f) s = .next ((t.freeTag k).fabDone e.acc (f.words.drop 1) true)) ∧
      (∀ e, ¬ late → t.fab.tags.getD k none = some e → code = 0 → e.spec = true → exec (.completion p f) s =
        .next (((t.freeTag k).pfDrop e.window).setFab (fun x => { x with pf := updAt x.pf e.window (fun _ => some ⟨e.acc.addr, f.words.drop 1,
          decide (getF (f.pw 0) 21 1 = 1), List.range (f.words.drop 1).length, ((t.freeTag k).pfDrop e.window).raw, e.acc.ident, k, e.ring, e.station, e.daddr⟩) }))))) ∧
  (∀ (p : Fin 2) (f : RFrame) (s : State), s.rxUp p = true → headerGood f = true → f.typ ≠ 2 → exec (.write p f) s = .next s) ∧
  (∀ s : State, s.alive = true →
    (s.fab.inbound = [] → exec .inboundBufferDrain s = .next s) ∧
    (∀ r rest, s.fab.inbound = r :: rest → r.typ = 5 ∨ r.typ = 6 → exec .inboundBufferDrain s =
      .next ({ s with fab := { s.fab with inbound := rest } }.gateArrive r.ring r.station r.words)) ∧
    (∀ r rest c d se t, s.fab.inbound = r :: rest → r.typ ≠ 5 → r.typ ≠ 6 → s.target r = (.done c d se, t) → exec .inboundBufferDrain s =
      .next ((t.setFab (fun f => { f with inbound := rest })).inAnswer r c d se)) ∧
    (∀ r rest t, s.fab.inbound = r :: rest → r.typ ≠ 5 → r.typ ≠ 6 → s.target r = (.wait, t) → exec .inboundBufferDrain s = .next t) ∧
    (s.nextGrant = none → exec .fabricGrant s = .next s) ∧
    (∀ a, s.nextGrant = some a →
      let u := s.setFab (fun f => { f with last := a.ident, reqs := dropFirst a.ident f.reqs })
      let host := a.ident = 1 ∨ a.ident = 2
      (host → u.fenced (fnOf a.ident) = true → exec .fabricGrant s = .next ((u.inc F.HOST_CNT_FENCEREJ).fabDone a [] false)) ∧
      (∀ c, ¬ host ∨ u.fenced (fnOf a.ident) = false → u.fabRefusal a = some c → exec .fabricGrant s = .next (u.fabFail a 0 c)) ∧
      (¬ host ∨ u.fenced (fnOf a.ident) = false → u.fabRefusal a = none → ¬ (u.fabRing a.addr = u.ringId ∧ u.fabStation a.addr = u.station) →
        exec .fabricGrant s = .next (u.fabGo a)) ∧
      (∀ t, ¬ host ∨ u.fenced (fnOf a.ident) = false → u.fabRefusal a = none → u.fabRing a.addr = u.ringId → u.fabStation a.addr = u.station →
        (if u.fabPosted a then u.inc F.FAB_CNT_POSTED else u.inc F.FAB_CNT_NPREQ).fabOwn a = some t → exec .fabricGrant s = .next t))) ∧
  (∀ (k : Fin 64) (s : State) (e : TagEnt), s.alive = true → s.fab.tags.getD k none = some e →
    let due := e.start + s.rd (F.FAB_WIN0_timeout e.window) * 400 ≤ s.raw
    (due → exec (.tagTimeout k) s =
      .next ((((s.inc F.FAB_CNT_TIMEOUT).fabLog false k 0x10 e.acc.ident e.ring e.station e.daddr).freeTag k).fabDone e.acc [] false)) ∧
    (¬ due → exec (.tagTimeout k) s = .next s)) ∧
  (∀ (w : Fin 16) (s : State) (b : PfBuf), s.alive = true → s.fab.pf.getD w none = some b →
    (b.raw + s.rd F.FAB_PFCFG_age * 400 ≤ s.raw → exec (.prefetchAge w) s = .next (s.pfDrop w)) ∧
    (s.raw < b.raw + s.rd F.FAB_PFCFG_age * 400 → exec (.prefetchAge w) s = .next s)) ∧
  (∀ (src : Fin 17) (s : State), s.alive = true →
    (src.val < 16 → (s.eng src).gtx.isSome = true → exec (.messageEntersGate src) s = .next (s.gateTake src).gateHead) ∧
    (src.val < 16 → (s.eng src).gtx = none → exec (.messageEntersGate src) s = .next s) ∧
    (src.val = 16 → exec (.messageEntersGate src) s = .next s.gateHead)) ∧
  (∀ (i : Fin 1024) (s : State) (w : List Word) (e : CacheEnt), s.alive = true → slook s.gate.rates i = some w → slook s.gate.cache i = some e →
    let w0 := wAt w 0
    let due := ∀ t, e.sent = some t → t + getF w0 0 16 * 4000 ≤ s.raw
    let go := getF w0 31 1 = 1 ∧ getF w0 30 1 = 0 ∧ e.fresh = true ∧ due ∧ s.rd F.GATE_CTL_en ≠ 0 ∧ s.gateRoom (wAt w 3) e.val.length = true
    let u := (s.setGate (fun g => { g with cache := sins (sdel g.cache i.val) i.val { e with fresh := false, sent := some s.raw } })).inc F.GATE_CNT_RATESENT
    (¬ go → exec (.rateEntrySend i) s = .next s) ∧
    (go → sideTooLong (wAt w 3) e.val.length = true → exec (.rateEntrySend i) s = .next (u.inc F.GATE_CNT_QDROP)) ∧
    (go → sideTooLong (wAt w 3) e.val.length = false → exec (.rateEntrySend i) s =
      .next (u.gateSend (wAt w 3) { srcPort := e.src, dstPort := 0, srcId := 0, dstId := wAt w 2, req := false, ans := false, tx := 0, raw := e.raw,
                                    data := e.val, busy := false }))) ∧
  (∀ (n : Fin 64) (s : State), s.alive = true →
    (s.gate.txs.find? (fun t => decide (t.num = n.val)) = none → exec (.gateWaitLimit n) s = .next s ∧ exec (.gateAnswerLimit n) s = .next s) ∧
    (∀ t, s.gate.txs.find? (fun t => decide (t.num = n.val)) = some t →
      let busy := fun (cause : Nat) => (s.gateLog cause t.srcPort t.dstPort t.num t.srcId t.dstId).txBusy t
      (t.waiting.isSome = true → t.start + s.rd F.GATE_CFG_wait * 400 ≤ s.raw → exec (.gateWaitLimit n) s = .next (busy 3)) ∧
      (t.waiting = none ∨ s.raw < t.start + s.rd F.GATE_CFG_wait * 400 → exec (.gateWaitLimit n) s = .next s) ∧
      (t.waiting = none → t.start + s.rd F.GATE_CFG_txlim * 400000 ≤ s.raw → exec (.gateAnswerLimit n) s = .next (busy 4)) ∧
      (t.waiting.isSome = true ∨ s.raw < t.start + s.rd F.GATE_CFG_txlim * 400000 → exec (.gateAnswerLimit n) s = .next s))) ∧
  (∀ (id : Ident) (s : State), s.Backs id →
    exec (.gateCtlLogclr id) s = .next ((s.clearRegs (F.GATE_LOG 0 0).addr 128).wr F.GATE_LOGSTAT_held 0) ∧
    exec (.gateCtlCntclr id) s = .next (s.clearRegs F.GATE_CNT_MISS.addr 6))

/-- The stage pairs, calibration, lines and discrete channels outside their opcodes (R212, R215–R217, R219, R229, R230, R312–R318, R320–R327, R330): what the pair's
timers, the units' calibration, the protections and the register actions do, and when they do nothing. -/
def Obligations.StageFieldEvents : Prop :=
  (∀ (p : Fin 2) (s : State), s.alive = true →
    let held := s.rd (F.STG_OHOLD_laps p) ≠ 0 ∧ s.rd (F.STG_OHOLD_laps p) ≤ s.rd (F.STG_OHOLD_count p) ∧ s.rd (F.STG_STATE_ohold p) = 0
    (held → exec (.outputHold p) s = .next ((((s.safeRegs p).wr (F.STG_STATE_ohold p) 1).event (F.STG_EVT_ohold p)).inc (F.STG_CNT_OHOLD p))) ∧
    (¬ held → exec (.outputHold p) s = .next s) ∧
    (let x := s.pair p
     let due := x.wrDue = true ∧ x.refreshed = false ∧ s.pst p = pRUN ∧ (x.free = true ∨ x.cycRaw + s.rd (F.STG_OUTOFS_ofs p) ≤ s.raw)
     (due →
       let a := s.setPhase p 3
       let l := splitLast (a.outEnts p)
       let b := a.each l.1 (fun e y => y.writeOutput p e)
       let c := (if b.pst p = pFAULT then b else b.publish p).each l.2 (fun e y => y.writeOutput p e)
       (c.pst p = pFAULT → exec (.writeOutputs p) s = .next c) ∧
       (c.pst p ≠ pFAULT → exec (.writeOutputs p) s = .next (((c.journalWrite p).setPhase p 0).cycleEnd p))) ∧
     (¬ due → exec (.writeOutputs p) s = .next s)) ∧
    ((s.pair p).jpend = [] → exec (.retainedJournalApply p) s = .next s) ∧
    ((s.pair p).jpend ≠ [] → exec (.retainedJournalApply p) s =
      .next (((s.each (s.pair p).jpend (fun e y => y.putWord e.1 e.2)).putWord (retBase p + 4) (BitVec.ofNat 32 (s.pair p).jcyc)).setPair p
        (fun y => { y with jpend := [] }))) ∧
    (let watched := s.pst p = pRUN ∧ s.rd (F.STG_STATE_phase p) = 2 ∧ (s.pair p).free = false ∧ (s.pair p).cycRaw + s.rd (F.STG_WDOG_limit p) ≤ s.raw
     (watched → exec (.cycleWatchdog p) s = .next ((((s.haltCores p).inc (F.STG_CNT_WDOG p)).event (F.STG_EVT_wdog p)).pairFault p)) ∧
     (¬ watched → exec (.cycleWatchdog p) s = .next s))) ∧
  (∀ (id : Ident) (p : Fin 2) (s : State), s.Backs id →
    let ok := s.cycOk (s.rdS (F.STG_CYC_len p)) (s.rdS (F.STG_CYC_phase p)) (s.rdS (F.STG_OUTOFS_ofs p)) (s.rdS (F.STG_WDOG_limit p)) = true
    (¬ ok → exec (.stgCtlCommit id p) s = .next s) ∧
    (ok → s.lapsRun = true → s.pst p ≠ pOFF → exec (.stgCtlCommit id p) s = .next (s.setPair p (fun x => { x with cycReq := true }))) ∧
    (ok → s.lapsRun = false ∨ s.pst p = pOFF → exec (.stgCtlCommit id p) s = .next ((s.commitRegs (cycRegs p)).showStg p)) ∧
    exec (.stgCtlCntclr id) s = .next ((s.clearRegs (F.STG_CNT_STALE 0).addr 6).clearRegs (F.STG_CNT_STALE 1).addr 6) ∧
    (s.pst 0 ≠ pRUN → exec (.dbgCtlHalt0 id) s = .next s) ∧ (s.pst 1 ≠ pRUN → exec (.dbgCtlHalt1 id) s = .next s) ∧
    (s.pst 0 = pRUN →
      let mid := s.rd (F.STG_STATE_phase 0) = 2
      let u := ((s.setPair 0 (fun x => { x with wrDue := false, step1 := false })).wr (F.STG_STATE_midhold 0) (if mid then 1 else 0)).setPhase 0 (if mid then 2 else 0)
      exec (.dbgCtlHalt0 id) s = .next ((u.enterHold 0).emit (.halt 0))) ∧
    (s.pst 1 = pRUN →
      let mid := s.rd (F.STG_STATE_phase 1) = 2
      let u := ((s.setPair 1 (fun x => { x with wrDue := false, step1 := false })).wr (F.STG_STATE_midhold 1) (if mid then 1 else 0)).setPhase 1 (if mid then 2 else 0)
      exec (.dbgCtlHalt1 id) s = .next ((u.enterHold 1).emit (.halt 1)))) ∧
  (∀ (id : Ident) (n : Fin 48) (s : State), s.Backs id →
    (let a := (F.LINE_MODE_mode n).addr
     let v := s.shown a
     let bad := modeWordOk v = false ∨ (getF v 0 3 = 3 ∧ s.canTaken n (getF v 16 4) = true)
     (bad → exec (.lineCtlCommit id n) s = .next s) ∧
     (¬ bad → exec (.lineCtlCommit id n) s =
       .next (((s.commitReg a).modeChanged n (decide (getF (s.reg a) 0 3 ≠ getF v 0 3 ∨ getF (s.reg a) 8 2 ≠ getF v 8 2))).showLine n))) ∧
    exec (.lineCtlCalreq id n) s = .next (s.passRequest n) ∧
    exec (.lineCtlCntclr id n) s = .next (s.clearRegs (F.LINE_CNT_ABORT n).addr 4)) ∧
  (∀ (u : Fin 128) (s : State), s.alive = true → unitOk u = true →
    let c := s.cal u
    let asked := if s.unitMode u = 0 ∨ s.groupOn u = false ∨ c.st = 1 then s else
      (s.setCal u (fun c => { c with st := 1, steps := s.passSteps u, running := false, first := none, bad := false, applyDue := false, cand := c.oper })).showUnit u
    (s.rd F.LINE_CALCFG_period ≠ 0 → c.applied + s.rd F.LINE_CALCFG_period * 1000 * 400000 ≤ s.raw → exec (.passRequestPeriod u) s = .next asked) ∧
    (s.rd F.LINE_CALCFG_period = 0 ∨ s.raw < c.applied + s.rd F.LINE_CALCFG_period * 1000 * 400000 → exec (.passRequestPeriod u) s = .next s) ∧
    (s.rd F.LINE_CALCFG2_tdelta ≠ 0 → exec (.passRequestTdelta u) s = .next asked) ∧ (s.rd F.LINE_CALCFG2_tdelta = 0 → exec (.passRequestTdelta u) s = .next s) ∧
    (let runs := c.st = 1 ∧ c.running = false ∧ c.applyDue = false ∧ s.groupOn u = true ∧ (s.windowOpen u = true ∨ s.unitIdle u = true)
     (runs → exec (.calibrationStep u) s = .next (s.passGo u true)) ∧ (¬ runs → exec (.calibrationStep u) s = .next s)) ∧
    (let waits := c.st = 1 ∧ c.steps ≠ [] ∧ c.running = false
     (waits → exec (.starvedInterval u) s = .next ((s.inc (cntStarve u)).event F.LINE_EVT_starved)) ∧ (¬ waits → exec (.starvedInterval u) s = .next s))) ∧
  (∀ (u : Fin 128) (trim : Word) (out agree b : Bool) (s : State), s.alive = true →
    let c := s.cal u
    let k := c.steps.headD 0
    let after := fun (f : CalSt → CalSt) => ((s.setCal u f).setCal u (fun c => { c with steps := c.steps.tail, first := none }))
    (c.running = false → exec (.stepDone u trim out agree) s = .next s) ∧
    (c.running = true → out = false → exec (.stepDone u trim out agree) s = .next ((after (fun c => { c with cand := sset 0 c.cand k trim })).passGo u true)) ∧
    (c.running = true → out = true → c.first = none → exec (.stepDone u trim out agree) s = .next (s.setCal u (fun c => { c with first := some trim }))) ∧
    (∀ v, c.running = true → out = true → c.first = some v → agree = false →
      exec (.stepDone u trim out agree) s = .next ((s.inc (cntAbort u)).setCal u (fun c => { c with running := false, first := none }))) ∧
    (∀ v, c.running = true → out = true → c.first = some v → agree = true → exec (.stepDone u trim out agree) s =
      .next (((((s.setCal u (fun c => { c with bad := true, cand := sset 0 c.cand k (sget 0 c.oper k) })).event F.LINE_EVT_outrange).setCal u
        (fun c => { c with steps := c.steps.tail, first := none })).passGo u true))) ∧
    (unitOk u = true → u.val < 64 → exec (.foregroundEvent u b) s = .next (((s.setLine u (fun l => { l with rx := b })).showLine u).foreground u)) ∧
    (unitOk u = true → 64 ≤ u.val →
      let t := s.setDio (u - 64) (fun d => { d with pad := b })
      exec (.foregroundEvent u b) s = .next ((if t.rd (F.DIO_CFG_mode (u - 64)) = 0 ∨ t.windowOpen u = true then t else t.wr (dioRaw (u - 64)) (if b then 1 else 0)).foreground u)) ∧
    (unitOk u = false → exec (.foregroundEvent u b) s = .next s) ∧
    (c.applyDue = false → exec (.passApply u) s = .next s) ∧
    (c.applyDue = true →
      let a := s.setCal u (fun x => { x with st := if c.bad then 2 else 0, oper := x.cand, applyDue := false, applied := s.raw, edges := 0 })
      let d := if c.bad then a else ((a.wr (caltLo u) a.rawLo).wr (caltHi u) a.rawHi).inc (cntPass u)
      exec (.passApply u) s = .next ((d.showUnit u).calTell u c.bad)) ∧
    (∀ t, s.lineWindow u = some t → t ≤ s.raw → exec (.maintenanceWindowEnd u) s = .next (s.windowEnd u)) ∧
    (∀ t, s.lineWindow u = some t → s.raw < t → exec (.maintenanceWindowEnd u) s = .next s) ∧
    (s.lineWindow u = none → exec (.maintenanceWindowEnd u) s = .next s)) ∧
  (∀ (n : Fin 48) (lvl : Bool) (s : State), s.alive = true →
    (s.rd (F.LINE_MODE_mode n) ≠ 0 → exec (.driverCurrentLimit n) s = .next ((s.wr (F.LINE_STAT_drvlim n) 1).event F.LINE_EVT_fault)) ∧
    (s.rd (F.LINE_MODE_mode n) = 0 → exec (.driverCurrentLimit n) s = .next s) ∧
    (s.rd (F.LINE_MODE_mode n) = 3 → exec (.dominantTimeout n) s = .next ((s.wr (F.LINE_STAT_domto n) 1).event F.LINE_EVT_fault)) ∧
    (s.rd (F.LINE_MODE_mode n) ≠ 3 → exec (.dominantTimeout n) s = .next s) ∧
    exec (.commonModeFault n false lvl) s = .next ((s.setLine n (fun l => { l with rx := lvl })).showLine n) ∧
    (∃ free : Bool, exec (.commonModeFault n true lvl) s =
      .next (((((s.wr (F.LINE_STAT_cmr n) 1).event F.LINE_EVT_fault).setLine n (fun l => { l with rx := free })).useFree).showLine n))) ∧
  (∀ (q : Fin 12) (s : State), s.alive = true →
    exec (.quadOvertemperature q) s = .next ((s.setField (fun x => { x with hotQuads := q.val :: x.hotQuads.filter (· ≠ q.val) })).each (List.range 4)
      (fun i y => (y.lineFault (F.LINE_STAT_thermal (4 * q + i))).showLine (4 * q + i))) ∧
    exec (.quadTemperatureRecovery q) s = .next ((s.setField (fun x => { x with hotQuads := x.hotQuads.filter (· ≠ q.val) })).each (List.range 4)
      (fun i y => y.showLine (4 * q + i)))) ∧
  (∀ (seq : Nat) (s : State) (c : CmdRec), s.alive = true → s.findCmd seq = some c →
    (∀ w, s.field.waits.find? (fun w => decide (w.seq = seq)) = some w →
      (c.startRaw + c.p 4 * 400000 ≤ s.raw → exec (.lineCalTimeLimit seq) s = .next (s.calEnd w)) ∧
      (s.raw < c.startRaw + c.p 4 * 400000 → exec (.lineCalTimeLimit seq) s = .next s)) ∧
    (s.field.waits.find? (fun w => decide (w.seq = seq)) = none → exec (.lineCalTimeLimit seq) s = .next s) ∧
    (c.opcode = 0x0802 → c.started = true → c.f 0 12 12 = 1 → c.startRaw + 100 * 400000 ≤ s.raw →
      exec (.lineScopeTimeout seq) s = .next (s.fin c.seq 0x0200 [])) ∧
    (c.opcode ≠ 0x0802 ∨ c.started = false ∨ s.raw < c.startRaw + 100 * 400000 → exec (.lineScopeTimeout seq) s = .next s)) ∧
  (∀ (id : Ident) (k : Fin 8) (s : State), s.Backs id →
    exec (.dioCtlCommit id k) s = .next (s.each (List.range 8) (fun i y => y.dioCommit1 (8 * k + i))) ∧
    exec (.dioCtlCntclr id) s = .next (s.each (List.range 64) (fun n y => y.clearRegs (F.DIO_CNT_ABORT n).addr 4))) ∧
  (∀ (id : Ident) (n : Fin 64) (k : Fin 8) (b : Bool) (s : State), s.alive = true →
    (let t := s.filteredEdge n b
     (t.on (dioFilt n) = s.on (dioFilt n) → exec (.filteredEdge n b) s = .next t) ∧
     (t.on (dioFilt n) ≠ s.on (dioFilt n) → exec (.filteredEdge n b) s = .next (t.motEdge 0 n b (t.dioEdgeRaw n)))) ∧
    exec (.dioStampRead id n) s = .next ((s.wr (F.DIO_STAMP2_valid n) 0).wr (F.DIO_STAMP2_ovr n) 0) ∧
    (s.dioOn n = true → exec (.outputShort n) s = .next ((s.wr (bitFld (F.DIO_FAULT_short (n / 8)) (n % 8)) 1).event F.DIO_EVT_short)) ∧
    (s.dioOn n = false → exec (.outputShort n) s = .next s) ∧
    exec (.octetOvercurrent k) s = .next ((s.wr (F.DIO_FAULT_octet k) 1).event F.DIO_EVT_octet) ∧
    exec .totalOvercurrent s = .next ((s.wr F.DIO_GSTAT_total 1).event F.DIO_EVT_total) ∧
    (s.rd (F.DIO_CFG_openld n) ≠ 0 → s.dioOn n = true →
      exec (.openLoad n) s = .next ((s.wr (bitFld (F.DIO_FAULT_openload (n / 8)) (n % 8)) 1).event F.DIO_EVT_openload)) ∧
    (s.rd (F.DIO_CFG_openld n) = 0 ∨ s.dioOn n = false → exec (.openLoad n) s = .next s) ∧
    exec (.openLoadClear n) s = .next (s.wr (bitFld (F.DIO_FAULT_openload (n / 8)) (n % 8)) 0) ∧
    exec .vfldLow s = .next ((((s.wr F.DIO_GSTAT_vfldlow 1).event F.DIO_EVT_vfldlow).wr F.PWR_STAT_vfldlow 1).event F.PWR_EVT_vfldlow) ∧
    exec .vfldRecovery s = .next ((s.wr F.DIO_GSTAT_vfldlow 0).wr F.PWR_STAT_vfldlow 0))

/-- CAN outside the opcodes (R333–R337, R340–R350, R352): commits, the record registers, frames sent and received, error states, bus-off, and rate detection. -/
def Obligations.CanEvents : Prop :=
  (∀ (id : Ident) (n : Fin 16) (s : State), s.Backs id →
    let ok := (s.canPaired n = true ∧ n.val % 2 = 1) ∨ timingOk (s.shown (F.CAN_NBT_brp n).addr) (s.shown (F.CAN_DBT_brp n).addr) = true
    let u := s.setCan n (fun x => { x with commitReq := true, commitSeqs := x.commitSeqs ++ [] })
    (¬ ok → exec (.canCtlCommit id n) s = .next (s.event (F.CAN_EVT_cfgerr n))) ∧
    (ok → u.canMode n = 0 → u.canIdle n = true → exec (.canCtlCommit id n) s = .next (u.canApply n)) ∧
    (ok → u.canMode n ≠ 0 ∨ u.canIdle n = false → exec (.canCtlCommit id n) s = .next (u.showCanPend n)) ∧
    exec (.canCtlFltcommit id n) s = .next ((s.commitRegs (canFlt n)).showCanPend n) ∧
    (s.canErr n = 2 → exec (.canCtlRecover id n) s = .next (s.wr (F.CAN_STAT_recovering n) 1)) ∧
    (s.canErr n ≠ 2 → exec (.canCtlRecover id n) s = .next (s.event (F.CAN_EVT_cfgerr n))) ∧
    exec (.canCtlCntclr id n) s = .next (s.clearRegs (F.CAN_CNT_RXOK n).addr 7)) ∧
  (∀ (id : Ident) (n : Fin 16) (v : Word) (tag : Fin 256) (s : State), s.alive = true →
    ((s.can n).commitReq = true → s.canIdle n = true → exec (.commitAtBusIdle n) s = .next (s.canApply n)) ∧
    ((s.can n).commitReq = false ∨ s.canIdle n = false → exec (.commitAtBusIdle n) s = .next s) ∧
    (let l := (s.can n).txw ++ [v]
     let u := s.setCan n (fun x => { x with txw := [] })
     ((s.can n).owner.isSome = true → exec (.canTxw id n v) s = .next s) ∧
     ((s.can n).owner = none → l.length < txLen (wAt l 0) → exec (.canTxw id n v) s = .next (s.setCan n (fun x => { x with txw := l }))) ∧
     ((s.can n).owner = none → txLen (wAt l 0) ≤ l.length → 64 ≤ (u.can n).txq.length → exec (.canTxw id n v) s = .next (u.wr (F.CAN_TXSTAT_ovr n) 1)) ∧
     ((s.can n).owner = none → txLen (wAt l 0) ≤ l.length → (u.can n).txq.length < 64 → exec (.canTxw id n v) s = .next (u.canEnqueue n l))) ∧
    (let has := fun (r : List Word) => decide (getF (wAt r 0) 16 8 = tag.val)
     let q := (s.can n).txq
     (q.find? has = none → exec (.canCancel id n tag) s = .next (s.wr (F.CAN_TXSTAT_cres n) 3)) ∧
     (∀ r, q.find? has = some r → has (q.headD []) = true → (s.can n).onBus.isSome = true →
       exec (.canCancel id n tag) s = .next ((s.setCan n (fun x => { x with late := true })).wr (F.CAN_TXSTAT_cres n) 2)) ∧
     (∀ r, q.find? has = some r → has (q.headD []) = false →
       let u := s.setCan n (fun x => { x with txq := q.takeWhile (fun y => !has y) ++ (q.dropWhile (fun y => !has y)).tail })
       exec (.canCancel id n tag) s = .next ((((u.canEvent n r 1 0).canTake n).showCan n).wr (F.CAN_TXSTAT_cres n) 1)) ∧
     (∀ r, q.find? has = some r → has (q.headD []) = true → (s.can n).onBus = none →
       let u := s.setCan n (fun x => { x with txq := q.takeWhile (fun y => !has y) ++ (q.dropWhile (fun y => !has y)).tail, sof := 0 })
       exec (.canCancel id n tag) s = .next ((((u.canEvent n r 1 (s.can n).sof).canTake n).showCan n).wr (F.CAN_TXSTAT_cres n) 1))) ∧
    exec (.canTxevRead id n) s = .next ((s.setCan n (fun x => { x with evq := x.evq.tail })).showCan n) ∧
    (s.canMode n ≠ 0 → exec (.busIntegration n) s = .next (s.wr (F.CAN_STAT_integ n) 1)) ∧
    (s.canMode n = 0 → exec (.busIntegration n) s = .next s)) ∧
  (∀ (n : Fin 16) (w0 w1 : Word) (data : List Word) (ago : Nat) (s : State), s.alive = true →
    let m := s.canMode n
    let hears := s.rd (F.CAN_STAT_integ n) ≠ 0 ∧ (m = 1 ∨ m = 2 ∨ m = 3 ∨ m = 5)
    (hears → exec (.canFrameReceived n w0 w1 data ago) s =
      .next ((s.canReceive n w0 w1 data (s.raw - ago)).canGood n (decide (getF w0 29 1 = 1)))) ∧
    (¬ hears → exec (.canFrameReceived n w0 w1 data ago) s = .next s)) ∧
  (∀ (n : Fin 16) (s : State), s.alive = true →
    ((s.can n).onBus = none → ∀ won, exec (.transmitEvent n won) s = .next s) ∧
    (∀ t, (s.can n).onBus = some t → exec (.transmitEvent n true) s = .next (s.canSent n t) ∧ exec (.transmitEvent n false) s = .next (s.canLost n)) ∧
    (∀ (st : Fin 2) (tec rec_ : Fin 256), s.canMode n = 0 ∨ s.canMode n = 3 ∨ s.canErr n = 2 → exec (.errorStateChange n st tec rec_) s = .next s) ∧
    (∀ (st : Fin 2) (tec rec_ : Fin 256), s.canMode n ≠ 0 → s.canMode n ≠ 3 → s.canErr n ≠ 2 →
      let u := s.canCounts n tec rec_
      (u.canErr n = st.val → exec (.errorStateChange n st tec rec_) s = .next u) ∧
      (u.canErr n ≠ st.val → exec (.errorStateChange n st tec rec_) s =
        .next (((u.wr (F.CAN_STAT_errst n) st).event (F.CAN_EVT_errst n)).sideBand 2 n st))) ∧
    (s.canMode n = 0 ∨ s.canErr n = 2 → exec (.busOff n) s = .next s) ∧
    (s.canMode n ≠ 0 → s.canErr n ≠ 2 →
      let a := if (s.can n).onBus.isSome then s.canLost n else s
      let b := ((a.canErrState n 2).event (F.CAN_EVT_busoff n)).wr (F.CAN_STAT_tec n) 255
      let c := if b.rd (F.CAN_CFG_boflush n) ≠ 0 then b.canFlush n else b
      exec (.busOff n) s = .next (if c.rd (F.CAN_CFG_autorec n) ≠ 0 then c.wr (F.CAN_STAT_recovering n) 1 else c)) ∧
    (s.rd (F.CAN_STAT_recovering n) = 0 → exec (.busOffRecoveryEnd n) s = .next s) ∧
    (s.rd (F.CAN_STAT_recovering n) ≠ 0 → exec (.busOffRecoveryEnd n) s =
      .next ((((s.wr (F.CAN_STAT_recovering n) 0).wr (F.CAN_STAT_tec n) 0).wr (F.CAN_STAT_rec n) 0).canErrState n 0))) ∧
  (∀ (n : Fin 16) (delay : Nat) (tec rec_ : Fin 256) (s : State), s.alive = true →
    ((s.can n).onBus.isSome = true ∨ s.canMaySend n = false → exec (.canTransmitStart n delay) s = .next s) ∧
    ((s.can n).onBus = none → s.canMaySend n = true →
      let far := s.rd (F.CAN_TDC_en n) ≠ 0 ∧ 127 < delay ∧ getF (wAt ((s.can n).txq.headD []) 0) 30 1 = 1
      let u := if far then s.inc (F.CAN_CNT_TDCSAT n) else s
      exec (.canTransmitStart n delay) s = .next ((u.setCan n (fun x => { x with onBus := some u.raw, sof := u.raw })).showCan n)) ∧
    (s.canMode n = 0 → exec (.canBusError n tec rec_) s = .next s) ∧
    (s.canMode n ≠ 0 →
      let u := (s.inc (F.CAN_CNT_ERRFRM n)).canCounts n tec rec_
      let v := if (u.can n).onBus.isSome then u.canLost n else u
      ((v.can n).detect = none → exec (.canBusError n tec rec_) s = .next v) ∧
      (∀ d, (v.can n).detect = some d → exec (.canBusError n tec rec_) s = .next (v.canNext n { d with errs := updAt d.errs d.cur (· + 1) }))) ∧
    ((s.can n).detect = none → exec (.canDetectDwell n) s = .next s) ∧
    (∀ d, (s.can n).detect = some d → d.t0 + d.dwell * 400000 ≤ s.raw → exec (.canDetectDwell n) s = .next (s.canNext n d)) ∧
    (∀ d, (s.can n).detect = some d → s.raw < d.t0 + d.dwell * 400000 → exec (.canDetectDwell n) s = .next s))

/-- Ethernet and the switch outside the opcodes (R356, R357, R359, R361–R364, R367, R369–R372): frames in and out, PAUSE, links, gate lists, aging, commits, and the
host's ring indices. -/
def Obligations.NetEvents : Prop :=
  (∀ (m : Fin 4) (fcs : Bool) (bs : List Byte) (s : State), s.alive = true →
    let tier := s.isTierFrame m bs
    let plain := s.macLink m = true ∧ isPause bs = false ∧ tier = false
    let t := s.inc (F.MAC_CNT_RXOK m)
    (¬ plain → exec (.ethernetFrameReceived m fcs bs) s = .next s) ∧
    (plain → s.macAccepts m fcs bs = false → exec (.ethernetFrameReceived m fcs bs) s = .next (s.inc (F.MAC_CNT_RXBAD m))) ∧
    (plain → s.macAccepts m fcs bs = true → t.macResv m = false →
      exec (.ethernetFrameReceived m fcs bs) s = .next ((t.switchIn (m + 2) (t.untag m bs)).learn (m + 2) (t.untag m bs))) ∧
    (plain → s.macAccepts m fcs bs = true → t.macResv m = true →
      let f := { t.untag m bs with id := t.net.nextId }
      exec (.ethernetFrameReceived m fcs bs) s = .next ((t.takeId.spread (m + 2) f ((t.endpoints (fun _ k => k = m)).map (8 + ·))).learn (m + 2) f)) ∧
    (s.macLink m = false ∨ tier = false → exec (.tierLinkFrame m fcs bs) s = .next s) ∧
    (s.macLink m = true → tier = true → s.macAccepts m fcs bs = false → exec (.tierLinkFrame m fcs bs) s = .next (s.inc (F.MAC_CNT_RXBAD m))) ∧
    (s.macLink m = true → tier = true → s.macAccepts m fcs bs = true →
      let t := if t.mirIn (m + 2) then t.takeId.mirrorCopy (m + 2) ⟨bs, 0, 0, 0, none, t.net.nextId⟩ false else t
      let f := tierInner (bs.drop 14)
      let d := t.odir
      let g := RFrame.seal { f with w2 := setF f.w2 0 12 0, w3 := setF f.w3 9 1 d }
      let good := headerGood f = true ∧ trailerGood f = true ∧ f.cls ≠ 0
      (¬ good → exec (.tierLinkFrame m fcs bs) s = .next t) ∧
      (good → t.ringAdmits d f.cls f.bytes = true → exec (.tierLinkFrame m fcs bs) s = .next (t.pushIns d ⟨g, false, false⟩).showPool) ∧
      (good → t.ringAdmits d f.cls f.bytes = false → exec (.tierLinkFrame m fcs bs) s = .next (t.inc (F.SW_CNT_DROP d))))) ∧
  (∀ (m : Fin 4) (fcs : Bool) (quanta : Fin 65536) (s : State), s.alive = true →
    let t := s.inc (F.MAC_CNT_RXOK m)
    (s.macLink m = false → exec (.pauseFrame m fcs quanta) s = .next s) ∧
    (s.macLink m = true → fcs = false → exec (.pauseFrame m fcs quanta) s = .next (s.inc (F.MAC_CNT_RXBAD m))) ∧
    (s.macLink m = true → fcs = true → t.rd (F.MAC_CFG_pause m) = 0 → exec (.pauseFrame m fcs quanta) s = .next (t.inc (F.MAC_CNT_PAUSEIGN m))) ∧
    (s.macLink m = true → fcs = true → t.rd (F.MAC_CFG_pause m) ≠ 0 →
      let u := t.wr (F.MAC_STAT_paused m) (if quanta.val = 0 then 0 else 1)
      exec (.pauseFrame m fcs quanta) s = .next (u.setMac m (fun x => { x with pauseEnd := t.raw + t.bitTicks m (quanta.val * 512) }))) ∧
    ((s.mac m).pauseEnd ≤ s.raw → exec (.pauseEnd m) s = .next (s.wr (F.MAC_STAT_paused m) 0)) ∧
    (s.raw < (s.mac m).pauseEnd → exec (.pauseEnd m) s = .next s)) ∧
  (∀ (m : Fin 4) (sub : Fin 32) (s : State), s.alive = true →
    let pick := [7, 6, 5, 4, 3, 2, 1, 0].find? (fun c => s.macMayStart m c)
    (s.macLink m = false ∨ s.rd (F.MAC_STAT_paused m) ≠ 0 ∨ pick = none → exec (.egressFrameStart m sub) s = .next s) ∧
    (∀ c f rest, s.macLink m = true → s.rd (F.MAC_STAT_paused m) = 0 → pick = some c → (s.mac m).queues.getD c [] = f :: rest →
      let u := (s.setMac m (fun x => { x with queues := updAt x.queues c (fun _ => rest) })).showPool
      let bs := u.outBytes m f
      (u.rd (F.MAC_CFG_maxlen m) < bs.length + 4 → exec (.egressFrameStart m sub) s = .next (u.inc (F.MAC_CNT_TXLONG m))) ∧
      (bs.length + 4 ≤ u.rd (F.MAC_CFG_maxlen m) → f.stamp = none →
        exec (.egressFrameStart m sub) s = .next ((u.inc (F.MAC_CNT_TXOK m)).emit (.ethFrame m bs))) ∧
      (∀ i, bs.length + 4 ≤ u.rd (F.MAC_CFG_maxlen m) → f.stamp = some i →
        let v := (u.inc (F.MAC_CNT_TXOK m)).emit (.ethFrame m bs)
        exec (.egressFrameStart m sub) s = .next (v.pushStamp (m + 2) v.raw i sub)))) ∧
  (∀ (m : Fin 4) (s : State), s.alive = true →
    (∀ t, (s.mac m).gdue = some t → t ≤ s.nowU →
      exec (.gateControlListInterval m) s = .next ((if (s.mac m).greq then s.gateApply m else s).gateStart m t)) ∧
    (∀ t, (s.mac m).gdue = some t → s.nowU < t → exec (.gateControlListInterval m) s = .next s) ∧
    ((s.mac m).gdue = none → (s.mac m).gpos = none ∨ s.gateRuns m = false → exec (.gateControlListInterval m) s = .next s) ∧
    (∀ i, (s.mac m).gdue = none → (s.mac m).gpos = some i → s.gateRuns m = true →
      let atEnd := s.rd (F.MAC_GCFG_align m) = 0 ∧ s.gateEnd m ≤ s.nowU
      (atEnd → exec (.gateControlListInterval m) s = .next (if (s.mac m).greq then s.gateApply m else s.gateStart m (s.gateEnd m))) ∧
      (¬ atEnd → i + 1 < (s.gcl m).length → s.entryStart m (i + 1) ≤ s.nowU →
        exec (.gateControlListInterval m) s = .next (s.setMac m (fun x => { x with gpos := some (i + 1) }))) ∧
      (¬ atEnd → (s.gcl m).length ≤ i + 1 ∨ s.nowU < s.entryStart m (i + 1) → exec (.gateControlListInterval m) s = .next s)) ∧
    (s.macLink m = false → exec (.linkDown m) s = .next s) ∧
    (s.macLink m = true → exec (.linkDown m) s =
      .next (((((s.addc (F.MAC_CNT_TXFLUSH m) (s.mac m).queues.flatten.length).setMac m (fun x => { x with queues := List.replicate 8 [] })).wr
        (F.MAC_STAT_link m) 0).wr (F.MAC_STAT_paused m) 0).showPool)) ∧
    (∀ neg : Fin 3, (s.rd (F.MAC_CFG_phy m) = 0 → exec (.linkUp m neg) s = .next s) ∧
      (s.rd (F.MAC_CFG_phy m) = 1 → exec (.linkUp m neg) s = .next ((s.wr (F.MAC_STAT_link m) 1).wr (F.MAC_STAT_speed m) 0)) ∧
      (s.rd (F.MAC_CFG_phy m) = 2 → exec (.linkUp m neg) s = .next ((s.wr (F.MAC_STAT_link m) 1).wr (F.MAC_STAT_speed m) 1)) ∧
      (s.rd (F.MAC_CFG_phy m) = 4 → exec (.linkUp m neg) s = .next ((s.wr (F.MAC_STAT_link m) 1).wr (F.MAC_STAT_speed m) neg)) ∧
      (s.rd (F.MAC_CFG_phy m) = 3 → exec (.linkUp m neg) s = .next ((s.wr (F.MAC_STAT_link m) 1).wr (F.MAC_STAT_speed m) 2)) ∧
      (s.rd (F.MAC_CFG_phy m) = 5 → exec (.linkUp m neg) s = .next ((s.wr (F.MAC_STAT_link m) 1).wr (F.MAC_STAT_speed m) 0))) ∧
    (s.rd (F.MAC_CFG_phy m) = 5 → exec (.plcaDuplicateNode m) s =
      .next ((s.wr (F.MAC_STAT_plcaerr m) 1).setMac m (fun x => { x with plcaFall := true }))) ∧
    (s.rd (F.MAC_CFG_phy m) ≠ 5 → exec (.plcaDuplicateNode m) s = .next s)) ∧
  (∀ (i : Fin 8192) (s : State), s.alive = true →
    (s.net.fdb[i.val]? = none → exec (.learnedEntryAging i) s = .next s) ∧
    (∀ e, s.net.fdb[i.val]? = some e → e.static = false → e.raw + s.rd F.SW_AGE_age * 1000 * 400000 ≤ s.raw →
      exec (.learnedEntryAging i) s = .next (s.setNet (fun n => { n with fdb := n.fdb.eraseIdx i }))) ∧
    (∀ e, s.net.fdb[i.val]? = some e → e.static = true ∨ s.raw < e.raw + s.rd F.SW_AGE_age * 1000 * 400000 → exec (.learnedEntryAging i) s = .next s)) ∧
  (∀ (id : Ident) (m : Fin 4) (s : State), s.Backs id →
    (let u := ((s.commitRegs (macRegs m)).setMac m (fun x => { x with plcaFall := false })).showMac m
     exec (.macCtlCommit id m) s = .next (if u.rd (F.MAC_CFG_phy m) = 0 ∧ u.macLink m = true then u.linkDown m else u)) ∧
    (s.gateRuns m = true → exec (.macCtlGcommit id m) s = .next (s.setMac m (fun x => { x with greq := true }))) ∧
    (s.gateRuns m = false → s.rdS (F.MAC_GCFG_en m) = 0 → exec (.macCtlGcommit id m) s = .next (s.gateApply m)) ∧
    (s.gateRuns m = false → s.rdS (F.MAC_GCFG_en m) = 1 → s.rdS (F.MAC_GCFG_align m) = 0 →
      exec (.macCtlGcommit id m) s = .next (s.setMac m (fun x => { x with greq := true, gdue := s.nextCycle m }))) ∧
    exec (.macCtlCntclr id m) s = .next (s.clearRegs (F.MAC_CNT_RXOK m).addr 6) ∧
    exec (.swCtlCommit id) s = .next (s.commitRegs swLimits).showSw ∧
    exec (.swCtlCntclr id) s = .next ((s.clearRegs F.SW_CNT_FLOOD.addr 4).clearRegs (F.SW_CNT_DROP 0).addr 8)) ∧
  (∀ (id : Ident) (v : Fin 4096) (env : Env) (s : State), s.alive = true →
    exec (.swHtxIndexWrite id v env) s = .next ((s.wr (F.SW_HR3_sw 0) v).txRing env.host env.hostFail 4096) ∧
    exec (.swHrxIndexWrite id v env) s = .next ((s.wr (F.SW_HR3_sw 1) v).fetchRx env.host 4096))

/-- Motion generators and bridges outside the opcodes (R380–R383, R390–R392, R394–R396, R398, R399): the step timer, the switches and homing, the registers of a generator
and of a bridge, measurements, faults and the hold and pull-in times. -/
def Obligations.MotionDriveEvents : Prop :=
  (∀ (n : Fin 8) (s : State), s.alive = true →
    let x := s.mot n
    let due := x.armed = true ∧ x.armRaw * 5 + x.interval * 8 ≤ s.raw * 5 ∧ s.motState n ≠ 5
    (¬ due → exec (.stepTimerExpiry n) s = .next s) ∧
    (due → x.dry = true ∨ s.motMeasuring n = true → exec (.stepTimerExpiry n) s = .next (s.motCompute n)) ∧
    (due → x.dry = false → s.motMeasuring n = false → exec (.stepTimerExpiry n) s = .next ((s.motStep n).motCompute n)) ∧
    (∀ up : Bool, s.limitOn n up = true → s.motHeading n = (if up then 1 else -1) → s.motState n ≠ 5 → exec (.limitSwitch n up) s =
      .next (((((s.inc (F.MOT_CNT_LIMIT n)).homeFail n 5).setMot n (fun x => { x with limitAfter := true })).wr (F.MOT_STATE_state n) 4).motPlan n .estop 0)) ∧
    (∀ up : Bool, s.limitOn n up = false ∨ s.motHeading n ≠ (if up then 1 else -1) ∨ s.motState n = 5 → exec (.limitSwitch n up) s = .next s) ∧
    (s.rd (F.MOT_STATE_hstate n) = 4 → s.rd (F.MOT_SW_idxen n) ≠ 0 →
      let t := if s.rd (F.MOT_SW_idxkind n) ≠ 0 then s.raw else s.dioEdgeRaw (s.rd (F.MOT_SW_idxnum n))
      exec (.indexEdge n) s = .next (((s.latch n ⟨t, none, true⟩).wr (F.MOT_STATE_hstate n) 5).motPlan n .stop 0)) ∧
    (s.rd (F.MOT_STATE_hstate n) ≠ 4 ∨ s.rd (F.MOT_SW_idxen n) = 0 → exec (.indexEdge n) s = .next s) ∧
    ((s.mot n).home = none → exec (.homeSwitch n) s = .next s ∧ exec (.homingSet n) s = .next s ∧ exec (.searchLimit n) s = .next s) ∧
    (∀ h, (s.mot n).home = some h →
      let st := s.rd (F.MOT_STATE_hstate n)
      (st = 1 → s.homeOn n = true → exec (.homeSwitch n) s =
        .next ((s.wr (F.MOT_STATE_hstate n) 2).motPlan n (.vel (dirOf (!h.up) h.fast)) 0)) ∧
      (st = 2 → s.homeOn n = true → exec (.homeSwitch n) s = .next (s.setMot n (fun x => { x with home := some { h with release := none } }))) ∧
      (st = 2 → s.homeOn n = false → h.release = none →
        exec (.homeSwitch n) s = .next ((s.setMot n (fun x => { x with home := some { h with release := some (s.motPos n) } })).motBackoff n)) ∧
      (st = 3 → s.homeOn n = true →
        let u := s.latch n ⟨s.dioEdgeRaw (s.rd (F.MOT_SW_homeline n)), none, true⟩
        exec (.homeSwitch n) s = .next (if h.index then u.wr (F.MOT_STATE_hstate n) 4 else (u.wr (F.MOT_STATE_hstate n) 5).motPlan n .stop 0)) ∧
      (∀ l, h.latched = some l → st = 5 → (s.mot n).plan = .none → l % 256 = 0 →
        let d := h.offset - l / 256
        let u := (s.wrI (F.MOT_POS n) (s.motPos n + d)).setMot n (fun x => { x with home := none, hist := x.hist.map (fun e => (e.1, e.2 + d)) })
        exec (.homingSet n) s =
          .next (((((u.wr (F.MOT_STATE_hstate n) 0).wr (F.MOT_STATE_state n) 0).event (F.MOT_EVT_done n)).fin h.seq 0x0000 [BitVec.ofInt 32 l]))) ∧
      (h.latched = none ∨ st ≠ 5 → exec (.homingSet n) s = .next s) ∧
      (1 ≤ st → st ≤ 4 → h.limit < (s.motPos n - h.start).natAbs →
        exec (.searchLimit n) s = .next (((s.homeFail n st).wr (F.MOT_STATE_state n) 4).motPlan n .stop 0)) ∧
      (st = 0 ∨ 4 < st ∨ (s.motPos n - h.start).natAbs ≤ h.limit → exec (.searchLimit n) s = .next s))) ∧
  (∀ (id : Ident) (n : Fin 8) (s : State), s.Backs id →
    (s.motRefuse n = true → exec (.motCtlCommit id n) s = .next (s.event (F.MOT_EVT_cfgerr n))) ∧
    (s.motRefuse n = false →
      let u := (s.commitRegs (motRegs n)).showMot n
      let x := u.mot n
      exec (.motCtlCommit id n) s = .next (if x.plan ≠ .none ∧ x.next = none then u.setMot n (fun y => { y with next := some (y.plan, y.vmax) }) else u)) ∧
    (let u := (s.homeFail n 6).setMot n (fun x => { x with queued := none })
     (u.motState n = 1 → exec (.motCtlStop id n) s = .next (u.wr (F.MOT_STATE_state n) 0)) ∧
     (u.motState n ≠ 1 → u.motState n = 0 ∨ u.motState n = 5 ∨ (u.mot n).plan = .none → exec (.motCtlStop id n) s = .next u) ∧
     (u.motState n ≠ 1 → u.motState n ≠ 0 → u.motState n ≠ 5 → (u.mot n).plan ≠ .none →
       exec (.motCtlStop id n) s = .next ((u.wr (F.MOT_STATE_state n) 4).motPlan n .estop 0))) ∧
    exec (.motCtlCntclr id n) s = .next (s.clearRegs (F.MOT_CNT_STEPS n).addr 3)) ∧
  (∀ (id : Ident) (n : Fin 8) (v : Word) (s : State), s.alive = true →
    (let u := s.setReg (F.MOT_TGT n).addr v
     let st := u.motState n
     let stays := st = 5 ∨ st = 3 ∨ st = 6 ∨ u.rd (F.MOT_CFG_src n) ≠ 0 ∨ u.rdI (F.MOT_TARGET n) = v.toInt ∨ u.motTargetOk n v.toInt = false ∨
       u.motBlocked n (v.toInt - u.motPos n) = true
     (stays → exec (.motTgtWrite id n v) s = .next u) ∧ (¬ stays → exec (.motTgtWrite id n v) s = .next (u.motStart n (.pos v.toInt) 0))) ∧
    (let u := s.setReg (F.MOT_LATT n 2).addr v
     exec (.motLattWrite id n v) s = .next (u.latchTime n (u.rd (F.MOT_LATT n 0) + u.rd (F.MOT_LATT n 1) * 2 ^ 32) v.toNat none)) ∧
    exec (.motLatrawHiRead id n) s = .next (s.wr (F.MOT_LATCTL_valid n) 0)) ∧
  (∀ (id : Ident) (b : Fin 8) (s : State),
    (s.hasDrv b = true →
      (s.rd (F.DRV_STAT_enabled b) ≠ 0 → exec (.drvCtlEn id b true) s = .next s) ∧
      (s.rd (F.DRV_STAT_enabled b) = 0 → exec (.drvCtlEn id b true) s = .next (s.drvOn b)) ∧
      exec (.drvCtlEn id b false) s = .next (s.drvOff b) ∧
      (let u := (s.commitRegs (drvRegs b)).showDrv b
       exec (.drvCtlCommit id b) s = .next (if u.rd (F.DRV_CFG_mode b) = 0 ∧ u.rd (F.DRV_STAT_enabled b) ≠ 0 then u.drvOff b else u)) ∧
      exec (.drvCtlClear id b) s = .next (s.wr (subFld (F.DRV_FAULT_ocp b) 0 4) 0) ∧
      exec (.drvCtlCntclr id b) s = .next (s.clearRegs (F.DRV_CNT_FAULT b).addr 2)) ∧
    (s.hasDrv b = false → exec (.drvCtlEn id b true) s = .next s ∧ exec (.drvCtlEn id b false) s = .next s ∧ exec (.drvCtlCommit id b) s = .next s ∧
      exec (.drvCtlClear id b) s = .next s ∧ exec (.drvCtlCntclr id b) s = .next s)) ∧
  (∀ (b : Fin 8) (k : Fin 4) (r l : Nat) (hot : Bool) (rise dip : Fin 65536) (s : State), s.hasDrv b = true →
    ((s.drv b).measuring = false → exec (.coilMeasurementDone b r l) s = .next s) ∧
    ((s.drv b).measuring = true →
      let t := (s.wr (F.DRV_MEAS_r b) (min r 65535)).wr (F.DRV_MEAS_l b) (min l 65535)
      let u := t.setDrv b (fun d => { d with measuring := false, coilRaw := s.raw })
      let bad := r < 200 ∨ 60000 < r ∨ l < 50 ∨ 100000 < l
      (bad → exec (.coilMeasurementDone b r l) s = .next (u.drvFault b 1)) ∧
      (¬ bad → exec (.coilMeasurementDone b r l) s = .next ((if u.rd (F.DRV_CFG_mode b) = 2 then u.wr (F.DRV_STAT_coil b) 1 else u).drvKick b))) ∧
    (let t := ((s.wr (bitFld (F.DRV_FAULT_ocp b) k) 1).inc (F.DRV_CNT_FAULT b)).drvOff b
     let u := if t.rd (F.DRV_CFG_mode b) = 1 then t.drvOff (drvMate b) else t
     let v := u.each (List.range 8) (fun n y =>
       if y.rd (F.MOT_CFG_route n) = 0 ∧ y.rd (F.MOT_CFG_pair n) = b / 2 ∧ y.motState n ≠ 5 then y.motFault n else y)
     exec (.driveFault b k) s = .next (v.sideBand 3 b (v.rd (subFld (F.DRV_FAULT_ocp b) 0 5)))) ∧
    exec (.driveTemperatureWarning b hot) s = .next (s.wr (F.DRV_FAULT_twarn b) (if hot then 1 else 0)) ∧
    (let due := s.rd (F.DRV_STAT_coil b) = 1 ∧ s.rd (F.DRV_CFG_mode b) = 2 ∧ (s.drv b).coilRaw + s.rd (F.DRV_HOLD_pullin b) * 400000 ≤ s.raw
     (due → exec (.pullInTimeEnd b rise dip) s =
       .next (((s.wr (F.DRV_STAT_coil b) 2).wr (F.DRV_COILT_rise b) rise).wr (F.DRV_COILT_dip b) dip)) ∧
     (¬ due → exec (.pullInTimeEnd b rise dip) s = .next s))) ∧
  (∀ (k : Fin 4) (s : State), s.hasDrv (2 * k) = true →
    let on := (List.range 8).find? (fun n => s.rd (F.MOT_CFG_route n) = 0 && s.rd (F.MOT_CFG_pair n) = k)
    (on = none → exec (.holdDelayExpiry k) s = .next s) ∧
    (∀ n, on = some n →
      let due := (s.mot n).plan = .none ∧ (s.mot n).stillRaw + s.rd (F.DRV_HOLD_delay (2 * k)) * 400000 ≤ s.raw
      (due → exec (.holdDelayExpiry k) s =
        .next ((s.setDrv (2 * k) (fun d => { d with holding := true })).setDrv (2 * k + 1) (fun d => { d with holding := true }))) ∧
      (¬ due → exec (.holdDelayExpiry k) s = .next s)))

/-- Memory outside the opcodes (R405, R415–R418, R420–R422, R430): banks, write-backs, remaps and their record, the scrubber, DMA and the clears. -/
def Obligations.MemoryEvents : Prop :=
  (∀ (k : Fin 64) (s : State), s.alive = true →
    (s.bankState k = 1 → exec (.bankWake k) s = .next ((s.setBank k 0).event F.MEM_EVT_wake)) ∧ (s.bankState k ≠ 1 → exec (.bankWake k) s = .next s) ∧
    (s.bankState k = 3 → exec (.bankInitDone k) s = .next (s.setBank k 0).hostResume) ∧ (s.bankState k ≠ 3 → exec (.bankInitDone k) s = .next s)) ∧
  (∀ s : State, s.alive = true →
    (s.memu.wbq = [] → exec .correctableWriteBack s = .next s) ∧
    (∀ a late rest, s.memu.wbq = (a, late) :: rest →
      let u := { s with memu := { s.memu with wbq := rest } }
      (late = true → exec .correctableWriteBack s = .next (u.inc F.MEM_CNT_WBDISC)) ∧
      (late = false → (u.flipsAt a).length = 1 → exec .correctableWriteBack s = .next (u.freshCode a)) ∧
      (late = false → (u.flipsAt a).length ≠ 1 → exec .correctableWriteBack s = .next u)) ∧
    (s.memu.remapDue = [] → exec .remap s = .next s) ∧
    (∀ a rest, s.memu.remapDue = a :: rest →
      let u := { s with memu := { s.memu with remapDue := rest } }
      (8 ≤ u.rd (sparesFld (bankOf a)) → exec .remap s = .next (u.event F.MEM_EVT_remapfull)) ∧
      (u.rd (sparesFld (bankOf a)) < 8 → 2 ≤ (u.flipsAt a).length → exec .remap s = .next u) ∧
      (u.rd (sparesFld (bankOf a)) < 8 → (u.flipsAt a).length < 2 → exec .remap s = .next (u.remapWord a))) ∧
    (∀ env : Env, s.memu.recordDue = [] → s.cmd.halted = false → exec (.remapTableRecord env) s = .next s) ∧
    (∀ env : Env, s.cmd.halted = true → exec (.remapTableRecord env) s = .next s) ∧
    (∀ (env : Env) x rest t, s.cmd.halted = false → s.memu.recordDue = x :: rest → s.storeDevice 0x010000 s.remapData (readBackBad env) = (true, t) →
      exec (.remapTableRecord env) s = .next ({ t with memu := { t.memu with recordDue := rest } }.bookInternal 0x0101 0 0)) ∧
    (∀ (env : Env) x rest t, s.cmd.halted = false → s.memu.recordDue = x :: rest → s.storeDevice 0x010000 s.remapData (readBackBad env) = (false, t) →
      exec (.remapTableRecord env) s = .next (t.bookInternal 0x0101 0x0F00 0))) ∧
  (∀ (r : Fin 4) (s : State), s.alive = true →
    (s.rd (F.MEM_SCRUB_en r) = 0 → exec (.scrubStep r) s = .next s) ∧
    (s.rd (F.MEM_SCRUB_en r) ≠ 0 →
      let a := s.memu.scrub.getD r 0
      let u := if s.scrubbable a then (s.rdCoded true 0x2A a).2 else s
      let n := u.scrubSkip a
      (n < scrubHi r → exec (.scrubStep r) s = .next { u with memu := { u.memu with scrub := u.memu.scrub.set r n } }) ∧
      (scrubHi r ≤ n →
        let old := u.rd (F.MEM_PASS_LO r) + u.rd (F.MEM_PASS_HI r) * 2 ^ 32
        let m := { u.memu with scrub := u.memu.scrub.set r (scrubLo r), passDur := u.memu.passDur.set r ((u.raw + 2 ^ 64 - old) % 2 ^ 64) }
        let v := ({ u with memu := m } : State)
        exec (.scrubStep r) s = .next ((v.wr (F.MEM_PASS_LO r) u.rawLo).wr (F.MEM_PASS_HI r) u.rawHi)))) ∧
  (∀ (c : Fin 8) (s : State), s.alive = true →
    (s.rd (F.MEM_DMA2_busy c) = 0 → exec (.dmaDescriptorEnd c) s = .next s) ∧
    (s.rd (F.MEM_DMA2_busy c) ≠ 0 →
      let u := (s.dmaDesc c).dmaGo c (descLen ((s.dmaDesc c).dma c).words / 4)
      let x := u.dma c
      let stopped := u.rd (F.MEM_DMA2_busy c) = 0 ∨ x.waiting = true ∨ x.words = [] ∨ x.done < descLen x.words
      let told := if getF (wAt x.words 2) 30 1 = 1 then u.callEvent (u.rd (F.MEM_DMA0_chan c)) else u
      (stopped → exec (.dmaDescriptorEnd c) s = .next u) ∧
      (¬ stopped → getF (wAt x.words 2) 31 1 = 1 →
        exec (.dmaDescriptorEnd c) s = .next ((told.wr (F.MEM_DMA2_busy c) 0).wr (F.MEM_DMA2_done c) 1)) ∧
      (¬ stopped → getF (wAt x.words 2) 31 1 ≠ 1 → exec (.dmaDescriptorEnd c) s =
        .next (told.setDma c (fun _ => { desc := nAt x.words 3, words := [], done := 0, waiting := false }))))) ∧
  (∀ (id : Ident) (s : State), s.Backs id →
    exec (.memCtlCntclr id) s = .next (s.each (List.range 10) (fun i y => y.setReg (0x04070100 + 4 * i) 0)) ∧
    exec (.memCtlLogclr id) s = .next ((s.each (List.range 64) (fun i y => y.setReg (0x04070400 + 4 * i) 0)).wr F.MEM_ELOGSTAT_held 0))

/-- The host interfaces (R443, R446–R452, R454–R458, R461, R464): PCIe requests, the link and function loss, MSI-X masks, QSPI and parallel-bus accesses, and the hot
swap pins. -/
def Obligations.HostInterfaces : Prop :=
  (∀ (fn : Fin 2) (s : State), s.pcieUp = true →
    (∀ (x : Fin 0x20000000) (n : Fin 4097), 1 ≤ n.val → x.val + n.val ≤ 0x20000000 →
      exec (.pcieMemoryRead fn x n) s = .next (s.hostRun ⟨1 + fn, 0, hostSegs x n, [], false⟩)) ∧
    (∀ (x : Fin 0x20000000) (bs : List Byte), 1 ≤ bs.length → bs.length ≤ 256 → x.val + bs.length ≤ 0x20000000 →
      exec (.pcieMemoryWrite fn x bs) s = .next (s.hostRun ⟨1 + fn, 1, hostSegs x bs.length, segWords (hostSegs x bs.length) bs, false⟩)) ∧
    (∀ (x : Fin 0x20000000) (kind : Fin 3) (wide : Bool) (v : Word),
      let bad := fun (abort : Bool) => (s.inc F.HOST_CNT_UR).emit (.reject (1 + fn) abort)
      (wide = true ∨ kind.val = 2 → exec (.pcieAtomicop fn x kind wide v) s = .next (bad false)) ∧
      (wide = false → kind.val ≠ 2 → x.val % 4 ≠ 0 → exec (.pcieAtomicop fn x kind wide v) s = .next (bad true)) ∧
      (wide = false → kind.val ≠ 2 → x.val % 4 = 0 → s.noFw = true →
        exec (.pcieAtomicop fn x kind wide v) s = .next (s.emit (.answer (1 + fn) [0] false))) ∧
      (wide = false → kind.val ≠ 2 → x.val % 4 = 0 → s.noFw = false → area x = .house →
        exec (.pcieAtomicop fn x kind wide v) s = .next (s.hostRun ⟨1 + fn, 2 + kind.val, [(x.val, 4)], [v], false⟩)) ∧
      (wide = false → kind.val ≠ 2 → x.val % 4 = 0 → s.noFw = false → area x = .aperture → s.fenced fn = true →
        exec (.pcieAtomicop fn x kind wide v) s = .next ((s.inc F.HOST_CNT_FENCEREJ).emit (.answer (1 + fn) [0xFFFFFFFF#32] false))) ∧
      (wide = false → kind.val ≠ 2 → x.val % 4 = 0 → s.noFw = false → area x = .aperture → s.fenced fn = false →
        exec (.pcieAtomicop fn x kind wide v) s =
          .next (s.fabIssue (hostAcc (1 + fn) (if kind.val = 0 then .add else .swap) x 4 v (.host (1 + fn))))) ∧
      (wide = false → kind.val ≠ 2 → x.val % 4 = 0 → s.noFw = false → area x ≠ .house → area x ≠ .aperture →
        exec (.pcieAtomicop fn x kind wide v) s = .next (bad true))) ∧
    exec (.pcieUnsupportedRequest fn) s = .next ((s.inc F.HOST_CNT_UR).emit (.reject (1 + fn) false)) ∧
    exec (.busMasterEnable fn false) s = .next (s.wr (bitFld F.HOST_STAT_bme fn) 0) ∧
    (let t := s.wr (bitFld F.HOST_STAT_bme fn) 1
     let ws := t.host.writes.filter (fun w => w.fn = fn.val)
     let u := (t.setHost (fun h => { h with writes := h.writes.filter (fun w => w.fn ≠ fn.val) })).each ws (fun w y => y.emit (.hostWrite w.fn w.addr w.data))
     exec (.busMasterEnable fn true) s = .next (((u.setFn fn (fun f => { f with waiting := [] })).msixAll fn (t.fn fn).waiting).each (List.range 8)
       (fun q y => if y.hostQueue q && decide (y.owner q = 1 + fn) then y.drainAll q false else y))) ∧
    (∀ (en fmask : Bool) (mask : BitVec 64),
      let u := s.setFn fn (fun f => { f with msixEn := en, fmask := fmask, vmask := ones 64 mask.toNat })
      (en = false ∨ fmask = true → exec (.msixMaskChange fn en fmask mask) s = .next u) ∧
      (en = true → fmask = false → exec (.msixMaskChange fn en fmask mask) s =
        .next ((u.setFn fn (fun f => { f with pba := f.pba.filter (fun v => mask.toNat.testBit v) })).msixAll fn
          ((u.fn fn).pba.filter (fun v => !mask.toNat.testBit v)))))) ∧
  (∀ (fn : Fin 2) (x : Fin 0x20000000) (n : Fin 4097) (bs : List Byte) (s : State), s.pcieUp = false →
    exec (.pcieMemoryRead fn x n) s = .next s ∧ exec (.pcieMemoryWrite fn x bs) s = .next s ∧ exec (.pcieUnsupportedRequest fn) s = .next s) ∧
  (∀ (gen : Fin 5) (two : Bool) (s : State), s.alive = true →
    let ok := s.rd F.HOST_CFG_pcien ≠ 0 ∧ s.rd F.HOST_STAT_link = 0 ∧ 1 ≤ gen.val ∧ gen.val ≤ s.rd F.HOST_CFG_maxgen ∧
      (two = false ∨ s.rd F.HOST_CFG_maxwidth ≠ 0)
    (ok → exec (.pcieLinkUp gen two) s = .next (((((s.wr F.HOST_STAT_link 1).wr F.HOST_STAT_gen gen).wr F.HOST_STAT_width (if two then 2 else 1)).wr
      F.HOST_STAT_perst 0).event F.HOST_EVT_linkup)) ∧
    (¬ ok → exec (.pcieLinkUp gen two) s = .next s)) ∧
  (∀ (perst : Bool) (fn : Fin 2) (s : State), s.alive = true → s.rd F.HOST_STAT_link ≠ 0 →
    exec (.functionLoss false perst fn) s = .next ((s.event F.HOST_EVT_flr).loseFn fn) ∧
    exec (.functionLoss true perst fn) s = .next ((((((((s.wr F.HOST_STAT_link 0).wr F.HOST_STAT_gen 0).wr F.HOST_STAT_width 0).wr F.HOST_STAT_perst
      (if perst then 1 else 0)).inc F.HOST_CNT_LINKDOWN).event F.HOST_EVT_linkdown).loseFn 0).loseFn 1)) ∧
  (∀ (seq : Nat) (env : Env) (s : State), s.alive = true →
    exec (.hostReadTimeout true seq) s = .next (s.txRing [] true 4096) ∧
    (s.findCmd seq = none → exec (.hostReadTimeout false seq) s = .next s) ∧
    (∀ c, s.findCmd seq = some c → c.startRaw + 50 * 400000 ≤ s.raw →
      let t := s.giveBuffer seq ⟨[], true, []⟩
      exec (.hostReadTimeout false seq) s = .next (if t.bufferFailed seq then t else s)) ∧
    (∀ c, s.findCmd seq = some c → s.raw < c.startRaw + 50 * 400000 → exec (.hostReadTimeout false seq) s = .next s) ∧
    (s.coreUp = true → s.cmd.accStop = false → exec (.hostReadCompletion 0 seq env) s = .next (s.consume env)) ∧
    exec (.hostReadCompletion 1 seq env) s = .next (s.giveBuffer seq env) ∧
    exec (.hostReadCompletion 2 seq env) s = .next (s.txRing env.host env.hostFail 4096) ∧
    exec (.hostReadCompletion 3 seq env) s = .next (s.fetchRx env.host 4096)) ∧
  (∀ (w : Fin 0x40000000) (n : Fin 64) (ds : List Word) (code : BitVec 8) (s : State), s.qspiUp = true →
    let segs := (List.range (n.val + 1)).map (fun i => (4 * (w.val + i) % 2 ^ 32, 4))
    let lost := (s.event F.HOST_EVT_qspiovr).inc F.HOST_CNT_QSPIOVR
    (s.host.qbusy = true → exec (.qspiRead w n) s = .next lost ∧ exec (.qspiQuadRead w n) s = .next lost ∧ exec (.qspiWrite w n ds) s = .next lost ∧
      exec (.qspiQuadWrite w n ds) s = .next lost) ∧
    (s.host.qbusy = false → exec (.qspiRead w n) s = .next (s.hostRun ⟨3, 0, segs, [], false⟩) ∧
      exec (.qspiQuadRead w n) s = .next (s.hostRun ⟨3, 0, segs, [], false⟩) ∧
      (n.val + 1 ≤ ds.length → exec (.qspiWrite w n ds) s = .next (s.hostRun ⟨3, 1, segs, ds.take (n.val + 1), false⟩) ∧
        exec (.qspiQuadWrite w n ds) s = .next (s.hostRun ⟨3, 1, segs, ds.take (n.val + 1), false⟩)) ∧
      (ds.length < n.val + 1 → exec (.qspiWrite w n ds) s = .next s ∧ exec (.qspiQuadWrite w n ds) s = .next s)) ∧
    exec .qspiStatus s = .next ((s.setHost (fun h => { h with qerr := false })).emit (.answer 3
      [BitVec.ofNat 32 ((if s.host.qbusy then 1 else 0) + (if s.host.qerr then 2 else 0) + (if s.irqPin then 4 else 0))] false)) ∧
    (code ∉ [0x0B#8, 0xEB#8, 0x02#8, 0x38#8, 0x05#8] → exec (.qspiUnknownInstruction code) s = .next (s.inc F.HOST_CNT_QSPIBAD)) ∧
    (code ∈ [0x0B#8, 0xEB#8, 0x02#8, 0x38#8, 0x05#8] → exec (.qspiUnknownInstruction code) s = .next s)) ∧
  (∀ (v : BitVec 16) (s : State), s.alive = true → s.rd F.HOST_CFG_paren ≠ 0 → s.busHeld 4 = false →
    (let u := if s.host.latch.isSome then s.inc F.HOST_CNT_PARDISC else s
     exec (.parPointerWrite true v) s = .next (u.setHost (fun h => { h with latch := none, ptr := v.toNat * 65536 + h.ptr % 65536 })) ∧
     exec (.parPointerWrite false v) s = .next (u.setHost (fun h => { h with latch := none, ptr := h.ptr / 65536 * 65536 + v.toNat / 4 * 4 }))) ∧
    exec (.parControlWrite v) s = .next (s.setHost (fun h => { h with autoinc := v.getLsbD 0 })) ∧
    exec .parStatusRead s = .next ((s.setHost (fun h => { h with perr := false })).emit (.answer 4
      [BitVec.ofNat 32 ((if s.host.perr then 2 else 0) + (if s.irqPin then 4 else 0) + (if s.host.latch.isSome then 8 else 0))] false)) ∧
    exec .parDataLowRead s = .next (s.hostRun ⟨4, 0, [(s.host.ptr, 4)], [], false⟩) ∧
    exec .parDataHighRead s = .next (s.emit (.answer 4 [BitVec.ofNat 32 s.host.rdHigh] false)).parStep ∧
    exec (.parDataLowWrite v) s = .next (s.setHost (fun h => { h with latch := some v.toNat })) ∧
    (s.host.latch = none → exec (.parDataHighWrite v) s = .next (s.inc F.HOST_CNT_PARDISC).parStep) ∧
    (∀ lo, s.host.latch = some lo →
      let u := s.setHost (fun h => { h with latch := none })
      exec (.parDataHighWrite v) s = .next (u.hostRun ⟨4, 1, [(u.host.ptr, 4)], [BitVec.ofNat 32 (v.toNat * 65536 + lo)], false⟩).parStep)) ∧
  (∀ s : State,
    (s.rd F.HOST_HSSTAT_fault = 0 → exec .hotSwapGood s = .next (s.wr F.HOST_HSSTAT_good 1)) ∧
    (s.rd F.HOST_HSSTAT_fault ≠ 0 → exec .hotSwapGood s = .next s) ∧
    exec .hotSwapFault s = .next (((s.wr F.HOST_HSSTAT_good 0).wr F.HOST_HSSTAT_fault 1).event F.HOST_EVT_hsfault))

/-- Supplies, clocks, resets and start-up (R439, R468, R469, R472–R476, R479, R481, R486, R490): lockout, the power-fail warning and its end, the warm reset, PLL lock, the
steps of start-up, the ready limit, wakes, and the clock, rail and temperature monitors. -/
def Obligations.PowerEvents : Prop :=
  (∀ s : State,
    (s.power.on = true → exec .undervoltageLockout s =
      .next (((s.abandonLoads.setPower (fun p => { p with on := false, pll := false, low := false })).wr F.HOST_HSSTAT_good 0).emit (.pin 1 0 0))) ∧
    (s.power.on = false → exec .undervoltageLockout s = .next s) ∧
    (s.power.on = true → s.power.pll = false → exec .pllLock s = .next ((s.setPower (fun p => { p with pll := true })).wr F.CLK_STAT_lock 1)) ∧
    (s.power.on = false ∨ s.power.pll = true → exec .pllLock s = .next s)) ∧
  (∀ s : State, s.alive = true →
    (s.power.low = true → exec .powerFailWarning s = .next s) ∧
    (s.power.low = false →
      let u := ((s.setPower (fun p => { p with low := true })).wr F.PWR_STAT_pfw 1).event F.PWR_EVT_pfw
      let v := { u with cmd := { u.cmd with accStop := u.cmd.accStop || u.on F.PWR_HOLDUP_stopacc, recoverRaw := none } }
      exec .powerFailWarning s = .next (if v.rd F.PWR_HOLDUP_gate ≠ 0 then v.trip 6 else v)) ∧
    (s.power.low = false → exec .vinRecovery s = .next s) ∧
    (s.power.low = true →
      let u := ((s.setPower (fun p => { p with low := false })).wr F.PWR_STAT_pfw 0).event F.PWR_EVT_vinrec
      exec .vinRecovery s = .next (if u.cmd.accStop then { u with cmd := { u.cmd with recoverRaw := some u.raw } } else u)) ∧
    (s.cmd.recoverRaw = none → exec .consumptionResume s = .next s) ∧
    (∀ t, s.cmd.recoverRaw = some t → t + 10 * 400000 ≤ s.raw →
      exec .consumptionResume s = .next { s with cmd := { s.cmd with accStop := false, recoverRaw := none } }) ∧
    (∀ t, s.cmd.recoverRaw = some t → s.raw < t + 10 * 400000 → exec .consumptionResume s = .next s) ∧
    (s.cmd.resetReq = some 4 → exec .warmReset s = .next (s.warmReset 4)) ∧ (s.cmd.resetReq = some 5 → exec .warmReset s = .next (s.warmReset 5)) ∧
    (s.cmd.resetReq = none → exec .warmReset s = .next s) ∧
    (∀ (bist : Word) (bad : Bool), (s.power.starting = none ∨ s.cmd.halted = true → exec (.startUp bist bad) s = .next s) ∧
      (∀ c, s.power.starting = some c → s.cmd.halted = false → s.power.booted = false → exec (.startUp bist bad) s = .next (s.startSteps c bist)) ∧
      (∀ c, s.power.starting = some c → s.cmd.halted = false → s.power.booted = true → (∃ n, s.power.cur = some n ∧ (s.findCmd n).isSome = true) →
        exec (.startUp bist bad) s = .next s) ∧
      (∀ c, s.power.starting = some c → s.cmd.halted = false → s.power.booted = true → s.power.cur = none → s.power.todo = [] →
        exec (.startUp bist bad) s = .next (s.startEnd c bad)) ∧
      (∀ c d rest, s.power.starting = some c → s.cmd.halted = false → s.power.booted = true → s.power.cur = none → s.power.todo = .stored d :: rest →
        exec (.startUp bist bad) s =
          .next ((s.setPower (fun p => { p with todo := rest, cur := none })).bootCommand d (some (wordsToBytes d)))) ∧
      (∀ c k rest, s.power.starting = some c → s.cmd.halted = false → s.power.booted = true → s.power.cur = none → s.power.todo = .pair k :: rest →
        let u := s.setPower (fun p => { p with todo := rest, cur := none })
        exec (.startUp bist bad) s = .next (u.bootCommand (u.bootPacket k) none))) ∧
    (let late := s.power.booted = true ∧ s.rd F.CMD_STATUS_ready = 0 ∧ s.power.bootRaw + 1000 * 400000 ≤ s.raw
     (late → exec .readyTimeout s =
       .next (({ s with cmd := { s.cmd with resetReq := some 5 } }).wr F.SYS_BOOT_next (if s.rd F.SYS_BOOT_slot ≠ 0 then 2 else 3))) ∧
     (¬ late → exec .readyTimeout s = .next s))) ∧
  (∀ (code : Fin 64) (s : State), s.alive = true →
    (s.domState code ≠ 3 → exec (.domainWake code) s = .next s) ∧
    (s.domState code = 3 → code.val < 16 →
      exec (.domainWake code) s = .next ((s.wakeDom code).setEng code (fun x => { x with wdRaw := (s.wakeDom code).raw - x.wdRaw })).hostResume) ∧
    (s.domState code = 3 → 32 ≤ code.val → code.val < 56 →
      exec (.domainWake code) s = .next ((s.wakeDom code).each (domUnits code) (fun u y => (y.passRequest u).showUnit u)).hostResume) ∧
    (s.domState code = 3 → 56 ≤ code.val ∨ (16 ≤ code.val ∧ code.val < 32) → exec (.domainWake code) s = .next (s.wakeDom code).hostResume)) ∧
  (∀ (k : Fin 8) (dev : BitVec 16) (s : State), s.alive = true →
    let u := s.wrI (F.CLK_DEV k) dev.toInt
    let off := 200 < dev.toInt.natAbs ∨ u.power.moved.contains 5 = true
    (off →
      let v := (u.setPower (fun p => { p with moved := p.moved.filter (· ≠ 5) })).setPower (fun p => { p with goodWin := updAt p.goodWin k (fun _ => 0) })
      exec (.clockMonitorWindow k dev) s = .next (((v.wr (bitFld F.CLK_STAT_mon k) 1).event (bitFld F.CLK_EVT_mon k)).trip 3)) ∧
    (¬ off →
      let v := u.setPower (fun p => { p with goodWin := updAt p.goodWin k (· + 1) })
      exec (.clockMonitorWindow k dev) s =
        .next ((if 8 ≤ v.power.goodWin.getD k 0 then v.wr (bitFld F.CLK_STAT_mon k) 0 else v).clockOver))) ∧
  (∀ s : State, s.alive = true →
    (let v := s.setPower (fun p => { p with goodWin := updAt p.goodWin 8 (fun _ => 0) })
     exec (.referenceLoss true) s = .next (((v.wr F.CLK_STAT_refloss 1).event F.CLK_EVT_refloss).trip 3)) ∧
    (let v := s.setPower (fun p => { p with goodWin := updAt p.goodWin 8 (· + 1) })
     exec (.referenceLoss false) s = .next ((if 8 ≤ v.power.goodWin.getD 8 0 then v.wr F.CLK_STAT_refloss 0 else v).clockOver))) ∧
  (∀ (r : Fin 7) (mv : Fin 65536) (s : State), s.alive = true →
    (let u := s.setPower (fun p => { p with railsOut := r.val :: p.railsOut.filter (· ≠ r.val), moved := p.moved.filter (· ≠ 6) })
     exec (.railOutOfWindow r mv) s = .next ((if r.val = 6 ∧ mv.val < 1500 then u.wr F.PWR_STAT_vioabs 1 else u).trip 4)) ∧
    (let u := s.setPower (fun p => { p with railsOut := p.railsOut.filter (· ≠ r.val) })
     let v := if r.val = 6 then u.wr F.PWR_STAT_vioabs 0 else u
     exec (.railBackInWindow r) s = .next (if v.power.railsOut.isEmpty then v.uncause 4 else v))) ∧
  (∀ (k : Fin 6) (t : BitVec 16) (s : State), s.alive = true →
    let u := s.wrI (F.PWR_TEMP k) t.toInt
    let v := if 1400 < t.toInt then u.event F.SAFE_EVT_twarn else u
    let hot := 1500 < t.toInt ∨ v.power.moved.contains 7 = true
    (hot → exec (.temperatureMonitor k t) s =
      .next ((v.setPower (fun p => { p with hot := k.val :: p.hot.filter (· ≠ k.val), moved := p.moved.filter (· ≠ 7) })).trip 5)) ∧
    (¬ hot →
      let w := v.setPower (fun p => { p with hot := p.hot.filter (· ≠ k.val) })
      exec (.temperatureMonitor k t) s = .next (if w.power.hot.isEmpty then w.uncause 5 else w)))

/-- The safe-state gate outside its opcodes (R209, R217, R485, R489–R491, R494, DBG_CTL): a cause is latched and present; the first one in ARMED trips the gate and is
recorded; commits are refused while it forces or the table is locked; locks last; lockstep mismatches stop their cores. -/
def Obligations.SafetyGate : Prop :=
  (∀ (id : Ident) (s : State), s.alive = true →
    let u := (s.wr F.SAFE_CAUSE (s.rd F.SAFE_CAUSE ||| 2 ^ 8)).wr F.SAFE_CAUSENOW (s.rd F.SAFE_CAUSENOW ||| 2 ^ 8)
    (u.rd F.SAFE_STATE_state ≠ 1 → exec (.safeTrip id) s = .next u) ∧
    (u.rd F.SAFE_STATE_state = 1 →
      let v := ((((u.wr F.SAFE_STATE_state 2).wr F.SAFE_FIRST_INFO 8).wr F.SAFE_FIRST_LO u.rawLo).wr F.SAFE_FIRST_HI u.rawHi).event F.SAFE_EVT_trip
      let w := if v.isC then v else v.each (List.range 8) (fun n y => y.drvForce n)
      exec (.safeTrip id) s = .next (w.each (List.range 8) (fun n y => y.motTrip n)))) ∧
  (∀ (id : Ident) (s : State), s.Backs id →
    (s.forcing = true ∨ s.rd F.SAFE_LOCK_table ≠ 0 → exec (.safeCtlCommit id) s = .next s) ∧
    (s.forcing = false → s.rd F.SAFE_LOCK_table = 0 → exec (.safeCtlCommit id) s = .next ((s.commitRegs safeRegs).wr F.SAFE_STATE_pending 0)) ∧
    exec (.safeLockTable id) s = .next ((s.wr F.SAFE_LOCK_table 1).wr F.SAFE_STATE_tablock 1) ∧
    exec (.safeLockInj id) s = .next ((s.wr F.SAFE_LOCK_inj 1).wr F.SAFE_STATE_injlock 1) ∧
    exec (.safeLockDbg id) s = .next (((s.wr F.SAFE_LOCK_dbg 1).wr F.SAFE_STATE_dbglock 1).wr F.DBG_CTL_attached 0)) ∧
  (∀ (who : Fin 3) (s : State), s.alive = true →
    (who.val < 2 → s.pst who = pOFF ∨ s.pst who = pFAULT → exec (.lockstepMismatch who) s = .next s) ∧
    (who.val < 2 → s.pst who ≠ pOFF → s.pst who ≠ pFAULT → exec (.lockstepMismatch who) s = .next ((s.haltCores who).pairFault who)) ∧
    (who.val = 2 → s.cmd.halted = true → exec (.lockstepMismatch who) s = .next s) ∧
    (who.val = 2 → s.cmd.halted = false →
      exec (.lockstepMismatch who) s = .next ({ s with cmd := { s.cmd with halted := true, inject := [] } }.trip 2))) ∧
  (∀ s : State, s.alive = true →
    (s.rd F.SAFE_LOCK_dbg = 0 → exec (.debuggerAttach true) s = .next (s.wr F.DBG_CTL_attached 1)) ∧
    (s.rd F.SAFE_LOCK_dbg ≠ 0 → exec (.debuggerAttach true) s = .next s) ∧
    exec (.debuggerAttach false) s = .next ((s.wr F.DBG_CTL_attached 0).each (List.range 16) (fun n y =>
      if (y.proc (2 + n)).stall = .debug then y.setProc (2 + n) (fun x => { x with stall := .none }) else y)))
end

