-- ==== Sys2Proof/Laws/Sparse.lean ====
section
/-! SUPPORT. Laws of the sparse data: a read after a write, every other place left alone, and the canonical form kept. -/
namespace Sys2Proof.Machine
open Sys2Proof

variable {α : Type}

/-- Every key of the list lies above `k`. -/
def keysAbove (k : Nat) (m : List (Nat × α)) : Prop := ∀ e ∈ m, k < e.1

theorem sget_filter_ne (d : α) (m : List (Nat × α)) (a b : Nat) (h : b ≠ a) :
    sget d (m.filter (fun e => e.1 ≠ a)) b = sget d m b := by
  induction m with
  | nil => rfl
  | cons e t ih =>
    obtain ⟨k, v⟩ := e
    by_cases hk : k = a
    · subst hk
      simp [List.filter, sget, Ne.symm h] at ih ⊢
      exact ih
    · have e : ((k, v) :: t).filter (fun e => e.1 ≠ a) = (k, v) :: t.filter (fun e => e.1 ≠ a) := by simp [List.filter, hk]
      rw [e]
      simp only [sget, ih]

theorem sget_filter_same (d : α) (m : List (Nat × α)) (a : Nat) :
    sget d (m.filter (fun e => e.1 ≠ a)) a = d := by
  induction m with
  | nil => rfl
  | cons e t ih =>
    obtain ⟨k, v⟩ := e
    by_cases hk : k = a <;> simp [List.filter, sget, hk] at ih ⊢ <;> exact ih

theorem sget_sins_ne (d : α) (m : List (Nat × α)) (a b : Nat) (v : α) (h : b ≠ a) : sget d (sins m a v) b = sget d m b := by
  induction m with
  | nil => simp [sins, sget, Ne.symm h]
  | cons e t ih =>
    obtain ⟨k, w⟩ := e
    by_cases hk : a < k
    · simp [sins, hk, sget, Ne.symm h]
    · simp only [sins, hk, if_false, sget, ih]

theorem sget_sins_same (d : α) (m : List (Nat × α)) (a : Nat) (v : α) (h : ∀ e ∈ m, e.1 ≠ a) : sget d (sins m a v) a = v := by
  induction m with
  | nil => simp [sins, sget]
  | cons e t ih =>
    obtain ⟨k, w⟩ := e
    have hk : k ≠ a := h (k, w) (by simp)
    by_cases hl : a < k
    · simp [sins, hl, sget]
    · simp only [sins, hl, if_false, sget, hk]
      exact ih (fun e he => h e (by simp [he]))

variable [DecidableEq α]

/-- A read after a write to the same place gives the value written. -/
theorem sget_sset_same (d : α) (m : List (Nat × α)) (a : Nat) (v : α) : sget d (sset d m a v) a = v := by
  unfold sset
  by_cases hv : v = d
  · simp only [hv, if_true]
    exact sget_filter_same d m a
  · simp only [hv, if_false]
    exact sget_sins_same d _ a v (by intro e he; have := List.mem_filter.mp he; simpa using this.2)

/-- A write leaves every other place alone, whatever that place reads as when it is not listed. -/
theorem sget_sset_ne (d d' : α) (m : List (Nat × α)) (a b : Nat) (v : α) (h : b ≠ a) : sget d' (sset d m a v) b = sget d' m b := by
  unfold sset
  by_cases hv : v = d
  · simp only [hv, if_true]
    exact sget_filter_ne d' m a b h
  · simp only [hv, if_false]
    rw [sget_sins_ne d' _ a b v h, sget_filter_ne d' m a b h]

omit [DecidableEq α] in
theorem mem_sins (m : List (Nat × α)) (a : Nat) (v : α) (e : Nat × α) (h : e ∈ sins m a v) : e = (a, v) ∨ e ∈ m := by
  induction m with
  | nil => simpa [sins] using h
  | cons x t ih =>
    obtain ⟨k, w⟩ := x
    by_cases hk : a < k
    · simpa [sins, hk] using h
    · simp only [sins, hk, if_false, List.mem_cons] at h
      rcases h with h | h
      · exact Or.inr (by simp [h])
      · rcases ih h with h | h
        · exact Or.inl h
        · exact Or.inr (by simp [h])

/-- What the canonical form says of a list with a head. -/
theorem swf_cons (d : Nat → α) (k : Nat) (v : α) (t : List (Nat × α)) :
    swf d ((k, v) :: t) = true ↔ v ≠ d k ∧ keysAbove k t ∧ swf d t = true := by
  simp [swf, keysAbove, and_assoc]

/-- Dropping entries keeps the canonical form. -/
theorem swf_filter (d : Nat → α) (p : Nat × α → Bool) (m : List (Nat × α)) (h : swf d m = true) : swf d (m.filter p) = true := by
  induction m with
  | nil => rfl
  | cons e t ih =>
    obtain ⟨k, v⟩ := e
    obtain ⟨hv, hk, ht⟩ := (swf_cons d k v t).mp h
    by_cases hp : p (k, v) = true
    · rw [List.filter_cons_of_pos hp]
      exact (swf_cons d k v _).mpr ⟨hv, fun e he => hk e (List.mem_filter.mp he).1, ih ht⟩
    · rw [List.filter_cons_of_neg hp]
      exact ih ht

/-- Inserting a value that is not the unlisted one at a key that is not listed keeps the canonical form. -/
theorem swf_sins (d : Nat → α) (m : List (Nat × α)) (a : Nat) (v : α) (hv : v ≠ d a) (hn : ∀ e ∈ m, e.1 ≠ a) (h : swf d m = true) :
    swf d (sins m a v) = true := by
  induction m with
  | nil => simp [sins, swf, hv]
  | cons e t ih =>
    obtain ⟨k, w⟩ := e
    obtain ⟨hw, hk, ht⟩ := (swf_cons d k w t).mp h
    by_cases hl : a < k
    · simp only [sins, hl, if_true]
      refine (swf_cons d a v _).mpr ⟨hv, ?_, h⟩
      intro e he
      rcases List.mem_cons.mp he with rfl | he
      · exact hl
      · exact Nat.lt_trans hl (hk e he)
    · have hka : k < a := by
        have := hn (k, w) (by simp)
        simp only at this
        omega
      simp only [sins, hl, if_false]
      refine (swf_cons d k w _).mpr ⟨hw, ?_, ih (fun e he => hn e (by simp [he])) ht⟩
      intro e he
      rcases mem_sins t a v e he with rfl | he
      · exact hka
      · exact hk e he

/-- A write keeps the canonical form. -/
theorem swf_sset (d : Nat → α) (m : List (Nat × α)) (a : Nat) (v : α) (h : swf d m = true) : swf d (sset (d a) m a v) = true := by
  unfold sset
  have hf := swf_filter d (fun e => decide (e.1 ≠ a)) m h
  by_cases hv : v = d a
  · simp only [hv, if_true]
    exact hf
  · simp only [hv, if_false]
    exact swf_sins d _ a v hv (by intro e he; have := List.mem_filter.mp he; simpa using this.2) hf

end Sys2Proof.Machine
end

