-- ==== Sys2Proof/Laws/Fields.lean ====
section
/-! SUPPORT. Laws of the register operations (R6–R9): a field reads what was written to it, and every other register and field stays. -/
namespace Sys2Proof.Machine
open Sys2Proof

theorem testBit_getF (x : Word) (lo w i : Nat) : (getF x lo w).testBit i = (decide (i < w) && x.getLsbD (lo + i)) := by
  simp only [getF, Nat.testBit_mod_two_pow, Nat.testBit_div_two_pow, BitVec.getLsbD, Nat.add_comm]

theorem getLsbD_fmask (lo w i : Nat) : (fmask lo w).getLsbD i = decide (i < 32 ∧ lo ≤ i ∧ i < lo + w) := by
  simp only [fmask, BitVec.getLsbD_ofNat, ← Nat.shiftLeft_eq, Nat.testBit_shiftLeft, Nat.testBit_two_pow_sub_one]
  by_cases h1 : i < 32 <;> by_cases h2 : lo ≤ i <;> by_cases h3 : i < lo + w <;> simp [h1, h2] <;> omega

theorem getLsbD_setF (x : Word) (lo w v i : Nat) :
    (setF x lo w v).getLsbD i = if i < 32 ∧ lo ≤ i ∧ i < lo + w then v.testBit (i - lo) else x.getLsbD i := by
  unfold setF
  rw [BitVec.getLsbD_or, BitVec.getLsbD_and, BitVec.getLsbD_and, BitVec.getLsbD_not, getLsbD_fmask, BitVec.getLsbD_ofNat, ← Nat.shiftLeft_eq,
    Nat.testBit_shiftLeft, Nat.testBit_mod_two_pow]
  by_cases h1 : i < 32
  · by_cases h2 : lo ≤ i
    · by_cases h3 : i < lo + w
      · have : i - lo < w := by omega
        simp [h1, h2, h3, this]
      · simp [h1, h2, h3]
    · simp [h1, h2]
  · have : x.getLsbD i = false := BitVec.getLsbD_of_ge x i (by omega)
    simp [h1, this]

/-- A field reads the value written to it, cut to its width. -/
theorem getF_setF_same (x : Word) (lo w v : Nat) (h : lo + w ≤ 32) : getF (setF x lo w v) lo w = v % 2 ^ w := by
  apply Nat.eq_of_testBit_eq
  intro i
  rw [testBit_getF, getLsbD_setF, Nat.testBit_mod_two_pow]
  by_cases hi : i < w
  · have : lo + i < 32 ∧ lo ≤ lo + i ∧ lo + i < lo + w := by omega
    simp [hi, this]
  · simp [hi]

/-- A field that does not overlap the one written stays. -/
theorem getF_setF_disjoint (x : Word) (lo w v lo' w' : Nat) (h : lo + w ≤ lo' ∨ lo' + w' ≤ lo) : getF (setF x lo w v) lo' w' = getF x lo' w' := by
  apply Nat.eq_of_testBit_eq
  intro i
  rw [testBit_getF, testBit_getF, getLsbD_setF]
  by_cases hi : i < w'
  · have : ¬(lo' + i < 32 ∧ lo ≤ lo' + i ∧ lo' + i < lo + w) := by omega
    simp [this]
  · simp [hi]

theorem reg_setReg_same (s : State) (a : Nat) (v : Word) : (s.setReg a v).reg a = v := sget_sset_same _ _ _ _

theorem reg_setReg_ne (s : State) (a b : Nat) (v : Word) (h : b ≠ a) : (s.setReg a v).reg b = s.reg b := sget_sset_ne _ _ _ _ _ _ h

/-- A field reads the value written to it, cut to its width. -/
theorem rd_wr_same (s : State) (f : Fld) (v : Nat) (h : f.lo + f.w ≤ 32) : (s.wr f v).rd f = v % 2 ^ f.w := by
  unfold State.rd State.wr
  rw [reg_setReg_same, getF_setF_same _ _ _ _ h]

/-- A write of a field leaves every other register alone. -/
theorem reg_wr_ne (s : State) (f : Fld) (v a : Nat) (h : a ≠ f.addr) : (s.wr f v).reg a = s.reg a := reg_setReg_ne s f.addr a _ h

/-- A write of a field leaves the fields of every other register alone. -/
theorem rd_wr_ne (s : State) (f g : Fld) (v : Nat) (h : g.addr ≠ f.addr) : (s.wr f v).rd g = s.rd g := by
  unfold State.rd
  rw [reg_wr_ne s f v g.addr h]

/-- A write of a field leaves the other fields of its register alone. -/
theorem rd_wr_disjoint (s : State) (f g : Fld) (v : Nat) (h : f.lo + f.w ≤ g.lo ∨ g.lo + g.w ≤ f.lo) : (s.wr f v).rd g = s.rd g := by
  by_cases ha : g.addr = f.addr
  · unfold State.rd State.wr
    rw [ha, reg_setReg_same, getF_setF_disjoint _ _ _ _ _ _ h]
  · exact rd_wr_ne s f g v ha

end Sys2Proof.Machine
end

