-- ==== Sys2Proof/Laws/KeepsOps.lean ====
section
/-! SUPPORT. What every operation keeps: the raw counter, the queue of commands, and the canonical forms of registers and memory; here for
the named operations, registers, memory, channels, ring, healing and line operations. -/
namespace Sys2Proof.Machine
open Sys2Proof

structure Keeps (s0 s : State) : Prop where
  raw : s.raw = s0.raw
  pending : s.pending = s0.pending
  regs : Registers.wf s0.regs = true → Registers.wf s.regs = true
  mem : Memory.wf s0.mem = true → Memory.wf s.mem = true

theorem Keeps.refl (s : State) : Keeps s s := ⟨rfl, rfl, id, id⟩

/-- A change of other parts of the state. -/
theorem Keeps.of_eq {s0 s t : State} (h : Keeps s0 s) (h1 : t.raw = s.raw) (h2 : t.pending = s.pending) (h3 : t.regs = s.regs)
    (h4 : t.mem = s.mem) : Keeps s0 t :=
  ⟨h1.trans h.raw, h2.trans h.pending, fun k => h3 ▸ h.regs k, fun k => h4 ▸ h.mem k⟩

theorem Keeps.of_snd {α : Type} {s0 t : State} {p : α × State} {x : α} (e : p = (x, t)) (h : Keeps s0 p.2) : Keeps s0 t := by subst e; exact h
theorem Keeps.of_fst {α : Type} {s0 t : State} {p : State × α} {x : α} (e : p = (t, x)) (h : Keeps s0 p.1) : Keeps s0 t := by subst e; exact h
theorem Keeps.of_third {α β : Type} {s0 t : State} {p : α × β × State} {x : α} {y : β} (e : p = (x, y, t)) (h : Keeps s0 p.2.2) : Keeps s0 t := by subst e; exact h

theorem Keeps.of_pair {α β : Type} {s0 t : State} {p : (α × β) × State} {x : α} {y : β} (e : p = ((x, y), t)) (h : Keeps s0 p.2) : Keeps s0 t := by subst e; exact h
theorem keeps_ite {s0 a b : State} {c : Prop} [Decidable c] (ha : Keeps s0 a) (hb : Keeps s0 b) : Keeps s0 (if c then a else b) := by
  by_cases h : c <;> simp only [h, if_true, if_false] <;> assumption

theorem keeps_mk {s0 s : State} {shadow : List (Nat × Word)} {cmd : CmdSt} {memu : MemSt} {host : HostSt} {power : PowerSt} {ring : RingSt} {time : TimeSt} {mrsh : MrshSt} {heal : HealSt} {fab : FabSt} {gate : GateSt} {pairs : List PairSt} {procs : List Proc} {engs : List EngSt} {hands : List HandSt} {adlib : AdlibSt} {lib : List LibEnt} {lines : List LineSt} {field : FieldSt} {cans : List CanSt} {net : NetSt} {mots : List MotSt} {drvs : List DrvSt} {out : List Emit} {free : Nat} (h : Keeps s0 s) :
    Keeps s0 ⟨s.regs, shadow, s.mem, s.raw, cmd, memu, host, power, ring, time, mrsh, heal, fab, gate, pairs, procs, engs, hands, adlib, lib, lines, field, cans, net, mots, drvs, out, free, s.pending⟩ :=
  ⟨h.raw, h.pending, h.regs, h.mem⟩

/-- The state of a stagehand operation's result. -/
def HandRes.st : HandRes → State
  | .wait s => s
  | .done s => s
  | .jump s _ => s
theorem Keeps.of_wait {s0 t : State} {r : HandRes} (e : r = .wait t) (h : Keeps s0 r.st) : Keeps s0 t := by subst e; exact h
theorem Keeps.of_done {s0 t : State} {r : HandRes} (e : r = .done t) (h : Keeps s0 r.st) : Keeps s0 t := by subst e; exact h
theorem Keeps.of_jump {s0 t : State} {r : HandRes} {n : Nat} (e : r = .jump t n) (h : Keeps s0 r.st) : Keeps s0 t := by subst e; exact h

theorem keeps_setReg {s0 : State} (s : State) (a : Nat) (v : Word) (h : Keeps s0 s) : Keeps s0 (s.setReg a v) :=
  ⟨h.raw, h.pending, fun k => swf_sset coldWord s.regs a v (h.regs k), h.mem⟩

theorem keeps_wr {s0 : State} (s : State) (f : Fld) (v : Nat) (hk : Keeps s0 s) : Keeps s0 (State.wr s f v) := by
  unfold State.wr
  repeat' (first | with_reducible assumption | with_reducible first | apply keeps_setReg)

theorem keeps_addc {s0 : State} (s : State) (f : Fld) (n : Nat) (hk : Keeps s0 s) : Keeps s0 (State.addc s f n) := by
  unfold State.addc
  repeat' (first | with_reducible assumption | with_reducible first | apply keeps_wr)

theorem keeps_inc {s0 : State} (s : State) (f : Fld) (hk : Keeps s0 s) : Keeps s0 (State.inc s f) := by
  unfold State.inc
  repeat' (first | with_reducible assumption | with_reducible first | apply keeps_addc)

theorem keeps_wrI {s0 : State} (s : State) (f : Fld) (z : Int) (hk : Keeps s0 s) : Keeps s0 (State.wrI s f z) := by
  unfold State.wrI
  repeat' (first | with_reducible assumption | with_reducible first | apply keeps_wr)

theorem keeps_setShadow {s0 : State} (s : State) (a : Nat) (v : Word) (hk : Keeps s0 s) : Keeps s0 (State.setShadow s a v) := by
  unfold State.setShadow
  repeat' (first | with_reducible assumption | apply keeps_ite | apply keeps_mk)

theorem keeps_wrS {s0 : State} (s : State) (f : Fld) (v : Nat) (hk : Keeps s0 s) : Keeps s0 (State.wrS s f v) := by
  unfold State.wrS
  repeat' (first | with_reducible assumption | with_reducible first | apply keeps_setShadow)

theorem keeps_commitReg {s0 : State} (s : State) (a : Nat) (hk : Keeps s0 s) : Keeps s0 (State.commitReg s a) := by
  unfold State.commitReg
  repeat' (first | with_reducible assumption | intro _ | with_reducible first | apply keeps_setReg | apply keeps_ite | split | (dsimp -zeta only) | apply keeps_mk)

theorem keeps_commitRegs {s0 : State} (s : State) (as : List Nat) (h : Keeps s0 s) : Keeps s0 (s.commitRegs as) := by
  unfold State.commitRegs
  induction as generalizing s with
  | nil => exact h
  | cons a t ih => exact ih _ (keeps_commitReg s a h)

theorem keeps_dropShadow {s0 : State} (s : State) (as : List Nat) (hk : Keeps s0 s) : Keeps s0 (State.dropShadow s as) := by
  unfold State.dropShadow
  repeat' (first | with_reducible assumption | apply keeps_ite | apply keeps_mk)

theorem keeps_each {s0 : State} {α : Type} (s : State) (l : List α) (f : α → State → State) (h : Keeps s0 s) (hf : ∀ a t, Keeps s0 t → Keeps s0 (f a t)) :
    Keeps s0 (s.each l f) := by
  unfold State.each
  induction l generalizing s with
  | nil => exact h
  | cons a t ih => exact ih (f a s) (hf a s h)

theorem keeps_when {s0 : State} (s : State) (c : Bool) (f : State → State) (hk : Keeps s0 s) (hf2 : ∀ t, Keeps s0 t → Keeps s0 (f t)) : Keeps s0 (State.when s c f) := by
  unfold State.when
  repeat' (first | with_reducible assumption | apply hf2 | apply keeps_ite)

theorem keeps_emit {s0 : State} (s : State) (e : Emit) (hk : Keeps s0 s) : Keeps s0 (State.emit s e) := by
  unfold State.emit
  repeat' (first | with_reducible assumption | apply keeps_ite | apply keeps_mk)

theorem keeps_useFree {s0 : State} (s : State) (hk : Keeps s0 s) : Keeps s0 (State.useFree s) := by
  unfold State.useFree
  repeat' (first | with_reducible assumption | apply keeps_ite | apply keeps_mk)

theorem keeps_setProc {s0 : State} (s : State) (p : Nat) (f : Proc → Proc) (hk : Keeps s0 s) : Keeps s0 (State.setProc s p f) := by
  unfold State.setProc
  repeat' (first | with_reducible assumption | apply keeps_ite | apply keeps_mk)

theorem keeps_forgetProc {s0 : State} (s : State) (p : Nat) (hk : Keeps s0 s) : Keeps s0 (State.forgetProc s p) := by
  unfold State.forgetProc
  repeat' (first | with_reducible assumption | apply keeps_ite | apply keeps_mk)

theorem keeps_setPair {s0 : State} (s : State) (p : Nat) (f : PairSt → PairSt) (hk : Keeps s0 s) : Keeps s0 (State.setPair s p f) := by
  unfold State.setPair
  repeat' (first | with_reducible assumption | apply keeps_ite | apply keeps_mk)

theorem keeps_setEng {s0 : State} (s : State) (n : Nat) (f : EngSt → EngSt) (hk : Keeps s0 s) : Keeps s0 (State.setEng s n f) := by
  unfold State.setEng
  repeat' (first | with_reducible assumption | apply keeps_ite | apply keeps_mk)

theorem keeps_setHand {s0 : State} (s : State) (h : Nat) (f : HandSt → HandSt) (hk : Keeps s0 s) : Keeps s0 (State.setHand s h f) := by
  unfold State.setHand
  repeat' (first | with_reducible assumption | apply keeps_ite | apply keeps_mk)

theorem keeps_setMot {s0 : State} (s : State) (n : Nat) (f : MotSt → MotSt) (hk : Keeps s0 s) : Keeps s0 (State.setMot s n f) := by
  unfold State.setMot
  repeat' (first | with_reducible assumption | apply keeps_ite | apply keeps_mk)

theorem keeps_setDrv {s0 : State} (s : State) (n : Nat) (f : DrvSt → DrvSt) (hk : Keeps s0 s) : Keeps s0 (State.setDrv s n f) := by
  unfold State.setDrv
  repeat' (first | with_reducible assumption | apply keeps_ite | apply keeps_mk)

theorem keeps_setQueue {s0 : State} (s : State) (q : Nat) (f : QueueSt → QueueSt) (hk : Keeps s0 s) : Keeps s0 (State.setQueue s q f) := by
  unfold State.setQueue
  repeat' (first | with_reducible assumption | apply keeps_ite | apply keeps_mk)

theorem keeps_setFn {s0 : State} (s : State) (fn : Nat) (f : FnSt → FnSt) (hk : Keeps s0 s) : Keeps s0 (State.setFn s fn f) := by
  unfold State.setFn
  repeat' (first | with_reducible assumption | apply keeps_ite | apply keeps_mk)

theorem keeps_msix {s0 : State} (s : State) (fn : Nat) (vec : Nat) (hk : Keeps s0 s) : Keeps s0 (State.msix s fn vec) := by
  unfold State.msix
  repeat' (first | with_reducible assumption | with_reducible first | apply keeps_inc | apply keeps_setFn | apply keeps_emit | apply keeps_ite)

theorem keeps_unitIrq {s0 : State} (s : State) (src : Nat) (hk : Keeps s0 s) : Keeps s0 (State.unitIrq s src) := by
  unfold State.unitIrq
  repeat' (first | with_reducible assumption | intro _ | with_reducible first | apply keeps_msix | apply keeps_ite | split)

theorem keeps_event {s0 : State} (s : State) (f : Fld) (hk : Keeps s0 s) : Keeps s0 (State.event s f) := by
  unfold State.event
  repeat' (first | with_reducible assumption | with_reducible first | apply keeps_wr | apply keeps_unitIrq | apply keeps_ite)

theorem keeps_engEvent {s0 : State} (s : State) (n : Nat) (bitNo : Nat) (hk : Keeps s0 s) : Keeps s0 (State.engEvent s n bitNo) := by
  unfold State.engEvent
  repeat' (first | with_reducible assumption | with_reducible first | apply keeps_wr)

theorem keeps_pairEvent {s0 : State} (s : State) (p : Nat) (bitNo : Nat) (hk : Keeps s0 s) : Keeps s0 (State.pairEvent s p bitNo) := by
  unfold State.pairEvent
  repeat' (first | with_reducible assumption | with_reducible first | apply keeps_setPair)

theorem keeps_setDom {s0 : State} (s : State) (code : Nat) (st : Nat) (hk : Keeps s0 s) : Keeps s0 (State.setDom s code st) := by
  unfold State.setDom
  repeat' (first | with_reducible assumption | with_reducible first | apply keeps_wr)

theorem keeps_fin {s0 : State} (s : State) (seq : Nat) (st : Nat) (rs : List Word) (hk : Keeps s0 s) : Keeps s0 (State.fin s seq st rs) := by
  unfold State.fin
  repeat' (first | with_reducible assumption | apply keeps_ite | apply keeps_mk)

theorem keeps_finO {s0 : State} (s : State) (o : Option Nat) (st : Nat) (rs : List Word) (hk : Keeps s0 s) : Keeps s0 (State.finO s o st rs) := by
  unfold State.finO
  repeat' (first | with_reducible assumption | intro _ | with_reducible first | apply keeps_fin | apply keeps_ite | split)

theorem keeps_latched {s0 : State} (s : State) (n : Nat) (q : LatReq) (p : Int) (hk : Keeps s0 s) : Keeps s0 (State.latched s n q p) := by
  unfold State.latched
  repeat' (first | with_reducible assumption | with_reducible first | apply keeps_wr | apply keeps_wrI | apply keeps_event | apply keeps_setMot | apply keeps_finO)

theorem keeps_latch {s0 : State} (s : State) (n : Nat) (q : LatReq) (hk : Keeps s0 s) : Keeps s0 (State.latch s n q) := by
  unfold State.latch
  repeat' (first | with_reducible assumption | intro _ | with_reducible first | apply keeps_latched | apply keeps_setMot | apply keeps_finO | apply keeps_wr | apply keeps_ite | split)

theorem keeps_latchAgain {s0 : State} (s : State) (n : Nat) (hk : Keeps s0 s) : Keeps s0 (State.latchAgain s n) := by
  unfold State.latchAgain
  repeat' (first | with_reducible assumption | intro _ | with_reducible first | apply keeps_each | apply keeps_setMot | apply keeps_latch)

theorem keeps_homeFail {s0 : State} (s : State) (n : Nat) (reason : Nat) (hk : Keeps s0 s) : Keeps s0 (State.homeFail s n reason) := by
  unfold State.homeFail
  repeat' (first | with_reducible assumption | intro _ | with_reducible first | apply keeps_fin | apply keeps_wr | apply keeps_setMot | apply keeps_ite | split)

theorem keeps_motFault {s0 : State} (s : State) (n : Nat) (hk : Keeps s0 s) : Keeps s0 (State.motFault s n) := by
  unfold State.motFault
  repeat' (first | with_reducible assumption | intro _ | with_reducible first | apply keeps_each | apply keeps_homeFail | apply keeps_fin | apply keeps_setMot | apply keeps_latchAgain | apply keeps_event | apply keeps_wr)

theorem keeps_motTripStop {s0 : State} (s : State) (n : Nat) (hk : Keeps s0 s) : Keeps s0 (State.motTripStop s n) := by
  unfold State.motTripStop
  repeat' (first | with_reducible assumption | with_reducible first | apply keeps_motFault | apply keeps_wr | apply keeps_setMot | apply keeps_homeFail | apply keeps_ite)

theorem keeps_drvForce {s0 : State} (s : State) (n : Nat) (hk : Keeps s0 s) : Keeps s0 (State.drvForce s n) := by
  unfold State.drvForce
  repeat' (first | with_reducible assumption | with_reducible first | apply keeps_wr | apply keeps_ite)

theorem keeps_motTrip {s0 : State} (s : State) (n : Nat) (hk : Keeps s0 s) : Keeps s0 (State.motTrip s n) := by
  unfold State.motTrip
  repeat' (first | with_reducible assumption | with_reducible first | apply keeps_motFault | apply keeps_motTripStop | apply keeps_ite)

theorem keeps_trip {s0 : State} (s : State) (cause : Nat) (hk : Keeps s0 s) : Keeps s0 (State.trip s cause) := by
  unfold State.trip
  repeat' (first | with_reducible assumption | intro _ | with_reducible first | apply keeps_wr | apply keeps_event | apply keeps_when | apply keeps_each | apply keeps_drvForce | apply keeps_motTrip | apply keeps_ite)

theorem keeps_uncause {s0 : State} (s : State) (cause : Nat) (hk : Keeps s0 s) : Keeps s0 (State.uncause s cause) := by
  unfold State.uncause
  repeat' (first | with_reducible assumption | with_reducible first | apply keeps_wr)

theorem keeps_pairFault {s0 : State} (s : State) (p : Nat) (hk : Keeps s0 s) : Keeps s0 (State.pairFault s p) := by
  unfold State.pairFault
  repeat' (first | with_reducible assumption | with_reducible first | apply keeps_finO | apply keeps_wr | apply keeps_setPair | apply keeps_trip | apply keeps_event)

theorem keeps_setByte {s0 : State} (s : State) (a : Nat) (b : Byte) (h : Keeps s0 s) : Keeps s0 (s.setByte a b) :=
  ⟨h.raw, h.pending, h.regs, fun k => swf_sset (fun _ => 0) s.mem a b (h.mem k)⟩

theorem keeps_setWord {s0 : State} (s : State) (a : Nat) (v : Word) (hk : Keeps s0 s) : Keeps s0 (State.setWord s a v) := by
  unfold State.setWord
  repeat' (first | with_reducible assumption | with_reducible first | apply keeps_setByte)

theorem keeps_putWord {s0 : State} (s : State) (a : Nat) (v : Word) (hk : Keeps s0 s) : Keeps s0 (State.putWord s a v) := by
  unfold State.putWord
  repeat' (first | with_reducible assumption | with_reducible first | apply keeps_setWord | apply keeps_uncause | apply keeps_ite | apply keeps_mk)

theorem keeps_putWords {s0 : State} (s : State) (a : Nat) (l2 : List Word) (hk : Keeps s0 s) : Keeps s0 (State.putWords s a l2) := by
  revert s a
  induction l2 with
  | nil =>
    intros
    unfold State.putWords
    repeat' (first | with_reducible assumption)
  | cons v0 t0 ih =>
    intros
    unfold State.putWords
    repeat' (first | assumption | apply ih | with_reducible first | apply keeps_putWord)

theorem keeps_decErr {s0 : State} (s : State) (ident : Nat) (a : Nat) (write : Bool) (hk : Keeps s0 s) : Keeps s0 (State.decErr s ident a write) := by
  unfold State.decErr
  repeat' (first | with_reducible assumption | with_reducible first | apply keeps_wr | apply keeps_ite)

theorem keeps_viewFault {s0 : State} (s : State) (ident : Nat) (a : Nat) (write : Bool) (mram : Bool) (hk : Keeps s0 s) : Keeps s0 (State.viewFault s ident a write mram) := by
  unfold State.viewFault
  repeat' (first | with_reducible assumption | with_reducible first | apply keeps_wr | apply keeps_event | apply keeps_inc | apply keeps_ite)

theorem keeps_memLog {s0 : State} (s : State) (kind : Nat) (scrub : Bool) (ident : Nat) (a : Nat) (synd : Nat) (hk : Keeps s0 s) : Keeps s0 (State.memLog s kind scrub ident a synd) := by
  unfold State.memLog
  repeat' (first | with_reducible assumption | with_reducible first | apply keeps_wr | apply keeps_ite)

theorem keeps_narrowFault {s0 : State} (s : State) (ident : Nat) (a : Nat) (hk : Keeps s0 s) : Keeps s0 (State.narrowFault s ident a) := by
  unfold State.narrowFault
  repeat' (first | with_reducible assumption | with_reducible first | apply keeps_event | apply keeps_inc | apply keeps_memLog)

theorem keeps_setBank {s0 : State} (s : State) (k : Nat) (st : Nat) (hk : Keeps s0 s) : Keeps s0 (State.setBank s k st) := by
  unfold State.setBank
  repeat' (first | with_reducible assumption | with_reducible first | apply keeps_wr)

theorem keeps_countErr {s0 : State} (s : State) (a : Nat) (hk : Keeps s0 s) : Keeps s0 (State.countErr s a) := by
  unfold State.countErr
  repeat' (first | with_reducible assumption | apply keeps_ite | apply keeps_mk)

theorem keeps_corrected {s0 : State} (s : State) (scrub : Bool) (ident : Nat) (a : Nat) (pos : Nat) (hk : Keeps s0 s) : Keeps s0 (State.corrected s scrub ident a pos) := by
  unfold State.corrected
  repeat' (first | with_reducible assumption | with_reducible first | apply keeps_event | apply keeps_memLog | apply keeps_inc | apply keeps_countErr | apply keeps_ite | apply keeps_mk)

theorem keeps_tcmFault {s0 : State} (s : State) (p : Nat) (hk : Keeps s0 s) : Keeps s0 (State.tcmFault s p) := by
  unfold State.tcmFault
  repeat' (first | with_reducible assumption | with_reducible first | apply keeps_pairFault | apply keeps_ite)

theorem keeps_uncorrected {s0 : State} (s : State) (scrub : Bool) (ident : Nat) (a : Nat) (hk : Keeps s0 s) : Keeps s0 (State.uncorrected s scrub ident a) := by
  unfold State.uncorrected
  repeat' (first | with_reducible assumption | with_reducible first | apply keeps_event | apply keeps_memLog | apply keeps_inc | apply keeps_trip | apply keeps_tcmFault | apply keeps_ite | apply keeps_mk)

theorem keeps_rdCoded {s0 : State} (s : State) (scrub : Bool) (ident : Nat) (a : Nat) (hk : Keeps s0 s) : Keeps s0 (State.rdCoded s scrub ident a).2 := by
  unfold State.rdCoded
  repeat' (first | with_reducible assumption | intro _ | with_reducible first | apply keeps_corrected | apply keeps_uncorrected | apply keeps_ite | split)

theorem keeps_ready {s0 : State} (s : State) (a : Nat) (hk : Keeps s0 s) : Keeps s0 (State.ready s a).2 := by
  unfold State.ready
  repeat' (first | with_reducible assumption | intro _ | with_reducible first | apply keeps_event | apply keeps_setBank | apply keeps_setDom | apply keeps_ite | split)

theorem keeps_parityFound {s0 : State} (s : State) (ident : Nat) (a : Nat) (v : Word) (hk : Keeps s0 s) : Keeps s0 (State.parityFound s ident a v).2 := by
  unfold State.parityFound
  repeat' (first | with_reducible assumption | with_reducible first | apply keeps_inc)

theorem keeps_rdMem {s0 : State} (s : State) (ident : Nat) (a : Nat) (hk : Keeps s0 s) : Keeps s0 (State.rdMem s ident a).2 := by
  unfold State.rdMem
  repeat' (first | with_reducible assumption | intro _ | with_reducible first | apply keeps_rdCoded | apply keeps_viewFault | apply keeps_ready | apply keeps_decErr | apply keeps_parityFound | apply keeps_ite | split | extract_lets | (refine Keeps.of_snd (by assumption) ?_))

theorem keeps_wrMem {s0 : State} (s : State) (ident : Nat) (a : Nat) (v : Word) (hk : Keeps s0 s) : Keeps s0 (State.wrMem s ident a v).2 := by
  unfold State.wrMem
  repeat' (first | with_reducible assumption | intro _ | with_reducible first | apply keeps_putWord | apply keeps_decErr | apply keeps_event | apply keeps_ready | apply keeps_setEng | apply keeps_setWord | apply keeps_ite | split | extract_lets | (refine Keeps.of_snd (by assumption) ?_))

theorem keeps_atomic {s0 : State} (s : State) (ident : Nat) (a : Nat) (f : Word → Word) (hk : Keeps s0 s) : Keeps s0 (State.atomic s ident a f).2 := by
  unfold State.atomic
  repeat' (first | with_reducible assumption | intro _ | with_reducible first | apply keeps_rdMem | apply keeps_putWord | apply keeps_ite | split | extract_lets | (refine Keeps.of_snd (by assumption) ?_))

theorem keeps_rdList {s0 : State} (s : State) (ident : Nat) (a : Nat) (l3 : Nat) (hk : Keeps s0 s) : Keeps s0 (State.rdList s ident a l3).2 := by
  revert s ident a
  induction l3 with
  | zero =>
    intros
    unfold State.rdList
    repeat' (first | with_reducible assumption)
  | succ n0 ih =>
    intros
    unfold State.rdList
    repeat' (first | assumption | apply ih | intro _ | with_reducible first | apply keeps_rdMem | apply keeps_ite | split | extract_lets | (refine Keeps.of_snd (by assumption) ?_))

theorem keeps_callPend {s0 : State} (s : State) (c : Nat) (hk : Keeps s0 s) : Keeps s0 (State.callPend s c) := by
  unfold State.callPend
  repeat' (first | with_reducible assumption | with_reducible first | apply keeps_wr)

theorem keeps_notifyPair {s0 : State} (s : State) (p : Nat) (hk : Keeps s0 s) : Keeps s0 (State.notifyPair s p) := by
  unfold State.notifyPair
  repeat' (first | with_reducible assumption | intro _ | with_reducible first | apply keeps_pairEvent | apply keeps_setDom | apply keeps_ite | split)

theorem keeps_notifyEng {s0 : State} (s : State) (n : Nat) (hk : Keeps s0 s) : Keeps s0 (State.notifyEng s n) := by
  unfold State.notifyEng
  repeat' (first | with_reducible assumption | intro _ | with_reducible first | apply keeps_engEvent | apply keeps_setDom | apply keeps_ite | split)

theorem keeps_deliver {s0 : State} (s : State) (c : Nat) (hk : Keeps s0 s) : Keeps s0 (State.deliver s c) := by
  unfold State.deliver
  repeat' (first | with_reducible assumption | with_reducible first | apply keeps_callPend | apply keeps_notifyPair | apply keeps_notifyEng | apply keeps_msix | apply keeps_ite)

theorem keeps_callEvent {s0 : State} (s : State) (c : Nat) (hk : Keeps s0 s) : Keeps s0 (State.callEvent s c) := by
  unfold State.callEvent
  repeat' (first | with_reducible assumption | with_reducible first | apply keeps_deliver | apply keeps_inc | apply keeps_ite)

theorem keeps_signalQueue {s0 : State} (s : State) (q : Nat) (fin : Bool) (hk : Keeps s0 s) : Keeps s0 (State.signalQueue s q fin) := by
  unfold State.signalQueue
  repeat' (first | with_reducible assumption | with_reducible first | apply keeps_msix | apply keeps_setQueue | apply keeps_callEvent | apply keeps_ite)

theorem keeps_wakeDom {s0 : State} (s : State) (code : Nat) (hk : Keeps s0 s) : Keeps s0 (State.wakeDom s code) := by
  unfold State.wakeDom
  repeat' (first | with_reducible assumption | with_reducible first | apply keeps_event | apply keeps_setDom | apply keeps_engEvent | apply keeps_pairEvent | apply keeps_ite)

theorem keeps_modCmd {s0 : State} (s : State) (seq : Nat) (f : CmdRec → CmdRec) (hk : Keeps s0 s) : Keeps s0 (State.modCmd s seq f) := by
  unfold State.modCmd
  repeat' (first | with_reducible assumption | apply keeps_ite | apply keeps_mk)

theorem keeps_done {s0 : State} (s : State) (c : CmdRec) (rs : List Word) (hk : Keeps s0 s) : Keeps s0 (State.done s c rs) := by
  unfold State.done
  repeat' (first | with_reducible assumption | with_reducible first | apply keeps_fin)

theorem keeps_fail {s0 : State} (s : State) (c : CmdRec) (st : Nat) (rs : List Word) (hk : Keeps s0 s) : Keeps s0 (State.fail s c st rs) := by
  unfold State.fail
  repeat' (first | with_reducible assumption | with_reducible first | apply keeps_fin)

theorem keeps_badParam {s0 : State} (s : State) (c : CmdRec) (i : Nat) (hk : Keeps s0 s) : Keeps s0 (State.badParam s c i) := by
  unfold State.badParam
  repeat' (first | with_reducible assumption | with_reducible first | apply keeps_fin)

theorem keeps_badUnit {s0 : State} (s : State) (c : CmdRec) (hk : Keeps s0 s) : Keeps s0 (State.badUnit s c) := by
  unfold State.badUnit
  repeat' (first | with_reducible assumption | with_reducible first | apply keeps_fin)

theorem keeps_badEnc {s0 : State} (s : State) (c : CmdRec) (hk : Keeps s0 s) : Keeps s0 (State.badEnc s c) := by
  unfold State.badEnc
  repeat' (first | with_reducible assumption | with_reducible first | apply keeps_fin)

theorem keeps_again {s0 : State} (s : State) (c : CmdRec) (hk : Keeps s0 s) : Keeps s0 (State.again s c) := by
  unfold State.again
  repeat' (first | with_reducible assumption | with_reducible first | apply keeps_modCmd)

theorem keeps_runCmd {s0 : State} (s : State) (op : Nat) (seq : Nat) (body : CmdRec → State → State) (hk : Keeps s0 s) (hf3 : ∀ x0 t, Keeps s0 t → Keeps s0 (body x0 t)) : Keeps s0 (State.runCmd s op seq body) := by
  unfold State.runCmd
  repeat' (first | with_reducible assumption | intro _ | apply hf3 | with_reducible first | apply keeps_modCmd | apply keeps_ite | split)

theorem keeps_readBuf {s0 : State} (s : State) (c : CmdRec) (env : Env) (b : Bulk) (hk : Keeps s0 s) : Keeps s0 (State.readBuf s c env b).2 := by
  unfold State.readBuf
  repeat' (first | with_reducible assumption | intro _ | with_reducible first | apply keeps_rdList | apply keeps_ite | split | extract_lets | (refine Keeps.of_snd (by assumption) ?_))

theorem keeps_withBuf {s0 : State} (s : State) (c : CmdRec) (env : Env) (i : Nat) (k : List Byte → State → State) (hk : Keeps s0 s) (hf4 : ∀ x0 t, Keeps s0 t → Keeps s0 (k x0 t)) : Keeps s0 (State.withBuf s c env i k) := by
  unfold State.withBuf
  repeat' (first | with_reducible assumption | intro _ | apply hf4 | with_reducible first | apply keeps_fail | apply keeps_readBuf | apply keeps_again | apply keeps_ite | split | extract_lets | (refine Keeps.of_snd (by assumption) ?_))

theorem keeps_coreWord {s0 : State} (s : State) (a : Nat) (v : Word) (hk : Keeps s0 s) : Keeps s0 (State.coreWord s a v) := by
  unfold State.coreWord
  repeat' (first | with_reducible assumption | intro _ | with_reducible first | apply keeps_wrMem | apply keeps_putWord | apply keeps_ite | split | extract_lets | (refine Keeps.of_snd (by assumption) ?_))

theorem keeps_coreWords {s0 : State} (s : State) (a : Nat) (l2 : List Word) (hk : Keeps s0 s) : Keeps s0 (State.coreWords s a l2) := by
  revert s a
  induction l2 with
  | nil =>
    intros
    unfold State.coreWords
    repeat' (first | with_reducible assumption)
  | cons v0 t0 ih =>
    intros
    unfold State.coreWords
    repeat' (first | assumption | apply ih | with_reducible first | apply keeps_coreWord)

theorem keeps_writeBuf {s0 : State} (s : State) (c : CmdRec) (b : Bulk) (ws : List Word) (hk : Keeps s0 s) : Keeps s0 (State.writeBuf s c b ws) := by
  unfold State.writeBuf
  repeat' (first | with_reducible assumption | with_reducible first | apply keeps_emit | apply keeps_coreWords | apply keeps_ite)

theorem keeps_withOut {s0 : State} (s : State) (c : CmdRec) (i : Nat) (k : Bulk → State → State) (hk : Keeps s0 s) (hf3 : ∀ x0 t, Keeps s0 t → Keeps s0 (k x0 t)) : Keeps s0 (State.withOut s c i k) := by
  unfold State.withOut
  repeat' (first | with_reducible assumption | intro _ | apply hf3 | with_reducible first | apply keeps_fail | apply keeps_again | apply keeps_ite | split)

theorem keeps_bookPut {s0 : State} (s : State) (seq : Nat) (queue : Nat) (ident : Nat) (st : Nat) (opcode : Nat) (status : Nat) (tag : Word) (raw : Nat) (delta : Nat) (digest : Word) (hk : Keeps s0 s) : Keeps s0 (State.bookPut s seq queue ident st opcode status tag raw delta digest) := by
  unfold State.bookPut
  repeat' (first | with_reducible assumption | with_reducible first | apply keeps_putWords)

theorem keeps_bookSet {s0 : State} (s : State) (seq : Nat) (st : Nat) (status : Nat) (delta : Nat) (hk : Keeps s0 s) : Keeps s0 (State.bookSet s seq st status delta) := by
  unfold State.bookSet
  repeat' (first | with_reducible assumption | with_reducible first | apply keeps_putWord)

theorem keeps_showBook {s0 : State} (s : State) (hk : Keeps s0 s) : Keeps s0 (State.showBook s) := by
  unfold State.showBook
  repeat' (first | with_reducible assumption | with_reducible first | apply keeps_wr)

theorem keeps_bookInternal {s0 : State} (s : State) (opcode : Nat) (status : Nat) (tag : Word) (hk : Keeps s0 s) : Keeps s0 (State.bookInternal s opcode status tag) := by
  unfold State.bookInternal
  repeat' (first | with_reducible assumption | with_reducible first | apply keeps_bookPut | apply keeps_showBook | apply keeps_ite | apply keeps_mk)

theorem keeps_putCfg {s0 : State} (s : State) (a : Nat) (v : Word) (hk : Keeps s0 s) : Keeps s0 (State.putCfg s a v) := by
  unfold State.putCfg
  repeat' (first | with_reducible assumption | with_reducible first | apply keeps_setReg | apply keeps_ite | apply keeps_mk)

theorem keeps_shadowCfg {s0 : State} (s : State) (a : Nat) (v : Word) (hk : Keeps s0 s) : Keeps s0 (State.shadowCfg s a v) := by
  unfold State.shadowCfg
  repeat' (first | with_reducible assumption | with_reducible first | apply keeps_setShadow)

theorem keeps_putCfgs {s0 : State} (s : State) (l1 : List (Nat × Word)) (hk : Keeps s0 s) : Keeps s0 (State.putCfgs s l1) := by
  revert s
  induction l1 with
  | nil =>
    intros
    unfold State.putCfgs
    repeat' (first | with_reducible assumption)
  | cons v0 t0 ih =>
    intros
    unfold State.putCfgs
    repeat' (first | assumption | apply ih | with_reducible first | apply keeps_putCfg)

theorem keeps_clearRegs {s0 : State} (s : State) (a : Nat) (l2 : Nat) (hk : Keeps s0 s) : Keeps s0 (State.clearRegs s a l2) := by
  revert s a
  induction l2 with
  | zero =>
    intros
    unfold State.clearRegs
    repeat' (first | with_reducible assumption)
  | succ n0 ih =>
    intros
    unfold State.clearRegs
    repeat' (first | assumption | apply ih | with_reducible first | apply keeps_setReg)

theorem keeps_guardBs {s0 : State} (s : State) (id : Ident) (a : Nat) (f : State → State) (hk : Keeps s0 s) (hf3 : ∀ t, Keeps s0 t → Keeps s0 (f t)) : Keeps s0 (State.guardBs s id a f) := by
  unfold State.guardBs
  repeat' (first | with_reducible assumption | apply hf3 | with_reducible first | apply keeps_viewFault | apply keeps_ite)

theorem keeps_guardUp {s0 : State} (s : State) (f : State → State) (hk : Keeps s0 s) (hf1 : ∀ t, Keeps s0 t → Keeps s0 (f t)) : Keeps s0 (State.guardUp s f) := by
  unfold State.guardUp
  repeat' (first | with_reducible assumption | apply hf1 | apply keeps_ite)

theorem keeps_putSetWord {s0 : State} (s : State) (h : Nat) (i : Nat) (v : Nat) (hk : Keeps s0 s) : Keeps s0 (State.putSetWord s h i v) := by
  unfold State.putSetWord
  repeat' (first | with_reducible assumption | with_reducible first | apply keeps_wr)

theorem keeps_newSet {s0 : State} (s : State) (stepped : Bool) (step : Int) (r : Int) (hk : Keeps s0 s) : Keeps s0 (State.newSet s stepped step r) := by
  unfold State.newSet
  repeat' (first | with_reducible assumption | with_reducible first | apply keeps_putSetWord | apply keeps_event | apply keeps_ite)

theorem keeps_setRole {s0 : State} (s : State) (r : Nat) (hk : Keeps s0 s) : Keeps s0 (State.setRole s r) := by
  unfold State.setRole
  repeat' (first | with_reducible assumption | with_reducible first | apply keeps_wr)

theorem keeps_setTime {s0 : State} (s : State) (f : TimeSt → TimeSt) (hk : Keeps s0 s) : Keeps s0 (State.setTime s f) := by
  unfold State.setTime
  repeat' (first | with_reducible assumption | apply keeps_ite | apply keeps_mk)

theorem keeps_setLink {s0 : State} (s : State) (p : Nat) (f : LinkSt → LinkSt) (hk : Keeps s0 s) : Keeps s0 (State.setLink s p f) := by
  unfold State.setLink
  repeat' (first | with_reducible assumption | with_reducible first | apply keeps_setTime)

theorem keeps_dropLink {s0 : State} (s : State) (p : Nat) (hk : Keeps s0 s) : Keeps s0 (State.dropLink s p) := by
  unfold State.dropLink
  repeat' (first | with_reducible assumption | with_reducible first | apply keeps_wr | apply keeps_setLink | apply keeps_event | apply keeps_ite)

theorem keeps_showStamp {s0 : State} (s : State) (q : Nat) (hk : Keeps s0 s) : Keeps s0 (State.showStamp s q) := by
  unfold State.showStamp
  repeat' (first | with_reducible assumption | intro _ | with_reducible first | apply keeps_wr | apply keeps_each | apply keeps_setReg | apply keeps_ite | split)

theorem keeps_showCapture {s0 : State} (s : State) (n : Nat) (hk : Keeps s0 s) : Keeps s0 (State.showCapture s n) := by
  unfold State.showCapture
  repeat' (first | with_reducible assumption | with_reducible first | apply keeps_wr)

theorem keeps_pushStamp {s0 : State} (s : State) (q : Nat) (raw : Nat) (ident : Word) (subtick : Nat) (hk : Keeps s0 s) : Keeps s0 (State.pushStamp s q raw ident subtick) := by
  unfold State.pushStamp
  repeat' (first | with_reducible assumption | with_reducible first | apply keeps_showStamp | apply keeps_setTime | apply keeps_event | apply keeps_wr | apply keeps_ite)

theorem keeps_pushCapture {s0 : State} (s : State) (n : Nat) (edge : Nat) (hk : Keeps s0 s) : Keeps s0 (State.pushCapture s n edge) := by
  unfold State.pushCapture
  repeat' (first | with_reducible assumption | with_reducible first | apply keeps_showCapture | apply keeps_setTime | apply keeps_event | apply keeps_wr | apply keeps_ite)

theorem keeps_setReserves {s0 : State} (s : State) (r1 : Nat) (r2 : Nat) (r3 : Nat) (hk : Keeps s0 s) : Keeps s0 (State.setReserves s r1 r2 r3) := by
  unfold State.setReserves
  repeat' (first | with_reducible assumption | with_reducible first | apply keeps_wr)

theorem keeps_dropReserve {s0 : State} (s : State) (a : Nat) (hk : Keeps s0 s) : Keeps s0 (State.dropReserve s a) := by
  unfold State.dropReserve
  repeat' (first | with_reducible assumption | with_reducible first | apply keeps_setReserves | apply keeps_ite)

theorem keeps_enterFollow {s0 : State} (s : State) (hk : Keeps s0 s) : Keeps s0 (State.enterFollow s) := by
  unfold State.enterFollow
  repeat' (first | with_reducible assumption | with_reducible first | apply keeps_wr | apply keeps_setRole | apply keeps_setTime | apply keeps_ite)

theorem keeps_setRing {s0 : State} (s : State) (f : RingSt → RingSt) (hk : Keeps s0 s) : Keeps s0 (State.setRing s f) := by
  unfold State.setRing
  repeat' (first | with_reducible assumption | apply keeps_ite | apply keeps_mk)

theorem keeps_setLap {s0 : State} (s : State) (n : Nat) (hk : Keeps s0 s) : Keeps s0 (State.setLap s n) := by
  unfold State.setLap
  repeat' (first | with_reducible assumption | with_reducible first | apply keeps_wr)

theorem keeps_takeSeq {s0 : State} (s : State) (ring : Nat) (station : Nat) (cls : Nat) (hk : Keeps s0 s) : Keeps s0 (State.takeSeq s ring station cls) := by
  unfold State.takeSeq
  repeat' (first | with_reducible assumption | with_reducible first | apply keeps_setRing)

theorem keeps_pushIns {s0 : State} (s : State) (d : Nat) (f : InsFrame) (hk : Keeps s0 s) : Keeps s0 (State.pushIns s d f) := by
  unfold State.pushIns
  repeat' (first | with_reducible assumption | with_reducible first | apply keeps_setRing)

theorem keeps_sendFrame {s0 : State} (s : State) (typ : Nat) (dring : Nat) (dstation : Nat) (daddr : Nat) (payload : List Byte) (stamp : Bool) (hk : Keeps s0 s) : Keeps s0 (State.sendFrame s typ dring dstation daddr payload stamp) := by
  unfold State.sendFrame
  repeat' (first | with_reducible assumption | with_reducible first | apply keeps_pushIns | apply keeps_takeSeq)

theorem keeps_emitFrame {s0 : State} (s : State) (p : Nat) (f : RFrame) (hk : Keeps s0 s) : Keeps s0 (State.emitFrame s p f) := by
  unfold State.emitFrame
  repeat' (first | with_reducible assumption | with_reducible first | apply keeps_emit)

theorem keeps_edgeCopies {s0 : State} (s : State) (f : RFrame) (hk : Keeps s0 s) : Keeps s0 (State.edgeCopies s f) := by
  unfold State.edgeCopies
  repeat' (first | with_reducible assumption | intro _ | with_reducible first | apply keeps_each | apply keeps_emitFrame | apply keeps_ite)

theorem keeps_outScheduled {s0 : State} (s : State) (d : Nat) (f : RFrame) (hk : Keeps s0 s) : Keeps s0 (State.outScheduled s d f) := by
  unfold State.outScheduled
  repeat' (first | with_reducible assumption | with_reducible first | apply keeps_inc | apply keeps_emitFrame | apply keeps_edgeCopies | apply keeps_ite)

theorem keeps_pushTransit {s0 : State} (s : State) (d : Nat) (x : TransItem) (hk : Keeps s0 s) : Keeps s0 (State.pushTransit s d x) := by
  unfold State.pushTransit
  repeat' (first | with_reducible assumption | with_reducible first | apply keeps_setRing)

theorem keeps_outMarker {s0 : State} (s : State) (d : Nat) (v : Nat) (hk : Keeps s0 s) : Keeps s0 (State.outMarker s d v) := by
  unfold State.outMarker
  repeat' (first | with_reducible assumption | intro _ | with_reducible first | apply keeps_emit | apply keeps_pushTransit | apply keeps_ite | split)

theorem keeps_outOpen {s0 : State} (s : State) (d : Nat) (f : RFrame) (hk : Keeps s0 s) : Keeps s0 (State.outOpen s d f) := by
  unfold State.outOpen
  repeat' (first | with_reducible assumption | intro _ | with_reducible first | apply keeps_edgeCopies | apply keeps_emitFrame | apply keeps_inc | apply keeps_pushTransit | apply keeps_event | apply keeps_ite | split | extract_lets)

theorem keeps_releaseItem {s0 : State} (s : State) (p : Nat) (x : TransItem) (hk : Keeps s0 s) : Keeps s0 (State.releaseItem s p x) := by
  unfold State.releaseItem
  repeat' (first | with_reducible assumption | intro _ | with_reducible first | apply keeps_emit | apply keeps_emitFrame | apply keeps_ite | split)

theorem keeps_setMrsh {s0 : State} (s : State) (f : MrshSt → MrshSt) (hk : Keeps s0 s) : Keeps s0 (State.setMrsh s f) := by
  unfold State.setMrsh
  repeat' (first | with_reducible assumption | apply keeps_ite | apply keeps_mk)

theorem keeps_mrshJoin {s0 : State} (s : State) (was : Nat) (now : Nat) (hk : Keeps s0 s) : Keeps s0 (State.mrshJoin s was now) := by
  unfold State.mrshJoin
  repeat' (first | with_reducible assumption | with_reducible first | apply keeps_setMrsh | apply keeps_wr | apply keeps_ite)

theorem keeps_setJoin {s0 : State} (s : State) (j : Nat) (hk : Keeps s0 s) : Keeps s0 (State.setJoin s j) := by
  unfold State.setJoin
  repeat' (first | with_reducible assumption | with_reducible first | apply keeps_mrshJoin | apply keeps_wr | apply keeps_finO | apply keeps_event | apply keeps_enterFollow | apply keeps_setRing | apply keeps_ite)

theorem keeps_joinFail {s0 : State} (s : State) (st : Nat) (hk : Keeps s0 s) : Keeps s0 (State.joinFail s st) := by
  unfold State.joinFail
  repeat' (first | with_reducible assumption | with_reducible first | apply keeps_setRing | apply keeps_finO | apply keeps_setJoin)

theorem keeps_setHeal {s0 : State} (s : State) (f : HealSt → HealSt) (hk : Keeps s0 s) : Keeps s0 (State.setHeal s f) := by
  unfold State.setHeal
  repeat' (first | with_reducible assumption | apply keeps_ite | apply keeps_mk)

theorem keeps_setStream {s0 : State} (s : State) (ring : Nat) (station : Nat) (f : Stream → Stream) (hk : Keeps s0 s) : Keeps s0 (State.setStream s ring station f) := by
  unfold State.setStream
  repeat' (first | with_reducible assumption | with_reducible first | apply keeps_setHeal)

theorem keeps_sendRequest {s0 : State} (s : State) (x : Stream) (hk : Keeps s0 s) : Keeps s0 (State.sendRequest s x) := by
  unfold State.sendRequest
  repeat' (first | with_reducible assumption | with_reducible first | apply keeps_inc | apply keeps_sendFrame)

theorem keeps_enterRecover {s0 : State} (s : State) (ring : Nat) (station : Nat) (hk : Keeps s0 s) : Keeps s0 (State.enterRecover s ring station) := by
  unfold State.enterRecover
  repeat' (first | with_reducible assumption | intro _ | with_reducible first | apply keeps_setStream | apply keeps_sendRequest | apply keeps_ite | split | extract_lets)

theorem keeps_showFences {s0 : State} (s : State) (hk : Keeps s0 s) : Keeps s0 (State.showFences s) := by
  unfold State.showFences
  repeat' (first | with_reducible assumption | with_reducible first | apply keeps_wr)

theorem keeps_fence {s0 : State} (s : State) (ring : Nat) (station : Nat) (cause : Nat) (kinds : Nat) (seq : Nat) (hk : Keeps s0 s) : Keeps s0 (State.fence s ring station cause kinds seq) := by
  unfold State.fence
  repeat' (first | with_reducible assumption | with_reducible first | apply keeps_setStream | apply keeps_wr | apply keeps_sendFrame | apply keeps_event | apply keeps_showFences | apply keeps_ite)

theorem keeps_fenceCount {s0 : State} (s : State) (ring : Nat) (station : Nat) (hk : Keeps s0 s) : Keeps s0 (State.fenceCount s ring station) := by
  unfold State.fenceCount
  repeat' (first | with_reducible assumption | intro _ | with_reducible first | apply keeps_inc | apply keeps_ite | split | extract_lets)

theorem keeps_inSeq {s0 : State} (s : State) (f : RFrame) (x : Stream) (gapTo : State → State) (hk : Keeps s0 s) (hf3 : ∀ t, Keeps s0 t → Keeps s0 (gapTo  t)) : Keeps s0 (State.inSeq s f x gapTo).2 := by
  unfold State.inSeq
  repeat' (first | with_reducible assumption | intro _ | apply hf3 | with_reducible first | apply keeps_setStream | apply keeps_inc | apply keeps_ite | split | extract_lets)

theorem keeps_accept {s0 : State} (s : State) (f : RFrame) (hk : Keeps s0 s) : Keeps s0 (State.accept s f).2 := by
  unfold State.accept
  repeat' (first | with_reducible assumption | intro _ | with_reducible first | apply keeps_setHeal | apply keeps_event | apply keeps_inc | apply keeps_inSeq | apply keeps_enterRecover | apply keeps_setStream | apply keeps_fenceCount | apply keeps_ite | split)

theorem keeps_gapFrame {s0 : State} (s : State) (f : RFrame) (hk : Keeps s0 s) : Keeps s0 (State.gapFrame s f) := by
  unfold State.gapFrame
  repeat' (first | with_reducible assumption | intro _ | with_reducible first | apply keeps_enterRecover | apply keeps_setStream | apply keeps_ite | split)

theorem keeps_freeStream {s0 : State} (s : State) (ring : Nat) (station : Nat) (hk : Keeps s0 s) : Keeps s0 (State.freeStream s ring station) := by
  unfold State.freeStream
  repeat' (first | with_reducible assumption | with_reducible first | apply keeps_setHeal)

theorem keeps_keep {s0 : State} (s : State) (f : RFrame) (hk : Keeps s0 s) : Keeps s0 (State.keep s f) := by
  unfold State.keep
  repeat' (first | with_reducible assumption | with_reducible first | apply keeps_setHeal | apply keeps_event | apply keeps_ite)

theorem keeps_showReplays {s0 : State} (s : State) (hk : Keeps s0 s) : Keeps s0 (State.showReplays s) := by
  unfold State.showReplays
  repeat' (first | with_reducible assumption | with_reducible first | apply keeps_wr)

theorem keeps_queueMarkerReplay {s0 : State} (s : State) (hk : Keeps s0 s) : Keeps s0 (State.queueMarkerReplay s) := by
  unfold State.queueMarkerReplay
  repeat' (first | with_reducible assumption | with_reducible first | apply keeps_showReplays | apply keeps_setHeal | apply keeps_ite)

theorem keeps_sendReplay {s0 : State} (s : State) (startF : State → State) (endF : State → State) (fs : List RFrame) (hk : Keeps s0 s) (hf1 : ∀ t, Keeps s0 t → Keeps s0 (startF  t)) (hf2 : ∀ t, Keeps s0 t → Keeps s0 (endF  t)) : Keeps s0 (State.sendReplay s startF endF fs) := by
  unfold State.sendReplay
  repeat' (first | with_reducible assumption | intro _ | apply hf1 | apply hf2 | with_reducible first | apply keeps_each | apply keeps_inc | apply keeps_pushIns | apply keeps_wr)

theorem keeps_replayCtl {s0 : State} (s : State) (dring : Nat) (dstation : Nat) (payload : List Byte) (hk : Keeps s0 s) : Keeps s0 (State.replayCtl s dring dstation payload) := by
  unfold State.replayCtl
  repeat' (first | with_reducible assumption | with_reducible first | apply keeps_pushIns | apply keeps_takeSeq)

theorem keeps_showWraps {s0 : State} (s : State) (hk : Keeps s0 s) : Keeps s0 (State.showWraps s) := by
  unfold State.showWraps
  repeat' (first | with_reducible assumption | with_reducible first | apply keeps_wr)

theorem keeps_wrapEnter {s0 : State} (s : State) (station : Nat) (port : Nat) (hk : Keeps s0 s) : Keeps s0 (State.wrapEnter s station port) := by
  unfold State.wrapEnter
  repeat' (first | with_reducible assumption | with_reducible first | apply keeps_showWraps | apply keeps_setHeal | apply keeps_ite)

theorem keeps_holdAll {s0 : State} (s : State) (hk : Keeps s0 s) : Keeps s0 (State.holdAll s) := by
  unfold State.holdAll
  repeat' (first | with_reducible assumption | with_reducible first | apply keeps_setHeal)

theorem keeps_healLast {s0 : State} (s : State) (fnote : Bool) (kind : Nat) (port : Nat) (station : Nat) (hk : Keeps s0 s) : Keeps s0 (State.healLast s fnote kind port station) := by
  unfold State.healLast
  repeat' (first | with_reducible assumption | with_reducible first | apply keeps_wr)

theorem keeps_portFail {s0 : State} (s : State) (p : Nat) (hk : Keeps s0 s) : Keeps s0 (State.portFail s p) := by
  unfold State.portFail
  repeat' (first | with_reducible assumption | with_reducible first | apply keeps_event | apply keeps_wr | apply keeps_dropLink | apply keeps_emit | apply keeps_setHeal)

theorem keeps_wrapPort {s0 : State} (s : State) (p : Nat) (hk : Keeps s0 s) : Keeps s0 (State.wrapPort s p) := by
  unfold State.wrapPort
  repeat' (first | with_reducible assumption | with_reducible first | apply keeps_inc | apply keeps_wr | apply keeps_emit | apply keeps_event | apply keeps_queueMarkerReplay | apply keeps_wrapEnter)

theorem keeps_unwrapPort {s0 : State} (s : State) (p : Nat) (notice : Bool) (hk : Keeps s0 s) : Keeps s0 (State.unwrapPort s p notice) := by
  unfold State.unwrapPort
  repeat' (first | with_reducible assumption | intro _ | with_reducible first | apply keeps_wr | apply keeps_event | apply keeps_inc | apply keeps_when | apply keeps_emit | apply keeps_setHeal)

theorem keeps_setNet {s0 : State} (s : State) (f : NetSt → NetSt) (hk : Keeps s0 s) : Keeps s0 (State.setNet s f) := by
  unfold State.setNet
  repeat' (first | with_reducible assumption | apply keeps_ite | apply keeps_mk)

theorem keeps_setMac {s0 : State} (s : State) (m : Nat) (f : MacSt → MacSt) (hk : Keeps s0 s) : Keeps s0 (State.setMac s m f) := by
  unfold State.setMac
  repeat' (first | with_reducible assumption | with_reducible first | apply keeps_setNet)

theorem keeps_showPool {s0 : State} (s : State) (hk : Keeps s0 s) : Keeps s0 (State.showPool s) := by
  unfold State.showPool
  repeat' (first | with_reducible assumption | with_reducible first | apply keeps_wr)

theorem keeps_admitMac {s0 : State} (s : State) (m : Nat) (f : SwFrame) (shared : Bool) (hk : Keeps s0 s) : Keeps s0 (State.admitMac s m f shared).2 := by
  unfold State.admitMac
  repeat' (first | with_reducible assumption | intro _ | with_reducible first | apply keeps_showPool | apply keeps_setMac | apply keeps_ite | split | extract_lets)

theorem keeps_toHost {s0 : State} (s : State) (fn : Nat) (addr : Nat) (data : List Byte) (hk : Keeps s0 s) : Keeps s0 (State.toHost s fn addr data) := by
  unfold State.toHost
  repeat' (first | with_reducible assumption | with_reducible first | apply keeps_emit | apply keeps_ite | apply keeps_mk)

theorem keeps_swWord {s0 : State} (s : State) (a : Nat) (v : Word) (hk : Keeps s0 s) : Keeps s0 (State.swWord s a v) := by
  unfold State.swWord
  repeat' (first | with_reducible assumption | intro _ | with_reducible first | apply keeps_wrMem | apply keeps_putWord | apply keeps_ite | split | extract_lets | (refine Keeps.of_snd (by assumption) ?_))

theorem keeps_swWords {s0 : State} (s : State) (a : Nat) (l2 : List Word) (hk : Keeps s0 s) : Keeps s0 (State.swWords s a l2) := by
  revert s a
  induction l2 with
  | nil =>
    intros
    unfold State.swWords
    repeat' (first | with_reducible assumption)
  | cons v0 t0 ih =>
    intros
    unfold State.swWords
    repeat' (first | assumption | apply ih | with_reducible first | apply keeps_swWord)

theorem keeps_hrStep {s0 : State} (s : State) (i : Nat) (hk : Keeps s0 s) : Keeps s0 (State.hrStep s i) := by
  unfold State.hrStep
  repeat' (first | with_reducible assumption | with_reducible first | apply keeps_wr)

theorem keeps_putSpace {s0 : State} (s : State) (host : Bool) (a : Nat) (bs : List Byte) (hk : Keeps s0 s) : Keeps s0 (State.putSpace s host a bs) := by
  unfold State.putSpace
  repeat' (first | with_reducible assumption | with_reducible first | apply keeps_toHost | apply keeps_swWords | apply keeps_ite)

theorem keeps_rxDesc {s0 : State} (s : State) (hk : Keeps s0 s) : Keeps s0 (State.rxDesc s).2 := by
  unfold State.rxDesc
  repeat' (first | with_reducible assumption | intro _ | with_reducible first | apply keeps_rdList | apply keeps_ite | split)

theorem keeps_hostPut {s0 : State} (s : State) (ing : Nat) (f : SwFrame) (hk : Keeps s0 s) : Keeps s0 (State.hostPut s ing f).2 := by
  unfold State.hostPut
  repeat' (first | with_reducible assumption | intro _ | with_reducible first | apply keeps_rxDesc | apply keeps_putSpace | apply keeps_setNet | apply keeps_hrStep | apply keeps_ite | split | extract_lets | (refine Keeps.of_snd (by assumption) ?_))

theorem keeps_mirrorCopy {s0 : State} (s : State) (ing : Nat) (f : SwFrame) (shared : Bool) (hk : Keeps s0 s) : Keeps s0 (State.mirrorCopy s ing f shared) := by
  unfold State.mirrorCopy
  repeat' (first | with_reducible assumption | intro _ | with_reducible first | apply keeps_admitMac | apply keeps_hostPut | apply keeps_inc | apply keeps_ite | split)

theorem keeps_takeId {s0 : State} (s : State) (hk : Keeps s0 s) : Keeps s0 (State.takeId s) := by
  unfold State.takeId
  repeat' (first | with_reducible assumption | with_reducible first | apply keeps_setNet)

theorem keeps_ringMirror {s0 : State} (s : State) (on : Bool) (p : Nat) (f : RFrame) (hk : Keeps s0 s) : Keeps s0 (State.ringMirror s on p f) := by
  unfold State.ringMirror
  repeat' (first | with_reducible assumption | with_reducible first | apply keeps_mirrorCopy | apply keeps_takeId | apply keeps_ite)

theorem keeps_toTier {s0 : State} (s : State) (f : RFrame) (hk : Keeps s0 s) : Keeps s0 (State.toTier s f) := by
  unfold State.toTier
  repeat' (first | with_reducible assumption | intro _ | with_reducible first | apply keeps_admitMac | apply keeps_takeId | apply keeps_mirrorCopy | apply keeps_inc | apply keeps_ite | split | extract_lets | (refine Keeps.of_snd (by assumption) ?_))

theorem keeps_forward {s0 : State} (s : State) (d : Nat) (f : RFrame) (good : Bool) (hk : Keeps s0 s) : Keeps s0 (State.forward s d f good) := by
  unfold State.forward
  repeat' (first | with_reducible assumption | intro _ | with_reducible first | apply keeps_inc | apply keeps_emit | apply keeps_outScheduled | apply keeps_outOpen | apply keeps_ite | split)

theorem keeps_badHeader {s0 : State} (s : State) (p : Nat) (hk : Keeps s0 s) : Keeps s0 (State.badHeader s p) := by
  unfold State.badHeader
  repeat' (first | with_reducible assumption | with_reducible first | apply keeps_inc | apply keeps_outMarker | apply keeps_ite)

theorem keeps_lostHere {s0 : State} (s : State) (f : RFrame) (hk : Keeps s0 s) : Keeps s0 (State.lostHere s f) := by
  unfold State.lostHere
  repeat' (first | with_reducible assumption | with_reducible first | apply keeps_gapFrame | apply keeps_ite)

theorem keeps_arrive {s0 : State} (s : State) (p : Nat) (f : RFrame) (fx : RFrame → RFrame) (hk : Keeps s0 s) : Keeps s0 (State.arrive s p f fx).2 := by
  unfold State.arrive
  repeat' (first | with_reducible assumption | intro _ | with_reducible first | apply keeps_badHeader | apply keeps_inc | apply keeps_ringMirror | apply keeps_lostHere | apply keeps_forward | apply keeps_toTier | apply keeps_ite | split | extract_lets | (refine Keeps.of_snd (by assumption) ?_) | (dsimp -zeta only) | (dsimp -zeta +zetaDelta only))

theorem keeps_arriveSeq {s0 : State} (s : State) (p : Nat) (f : RFrame) (k : State → State) (refused : State → State) (hk : Keeps s0 s) (hf3 : ∀ t, Keeps s0 t → Keeps s0 (k  t)) (hf4 : ∀ t, Keeps s0 t → Keeps s0 (refused  t)) : Keeps s0 (State.arriveSeq s p f k refused) := by
  unfold State.arriveSeq
  repeat' (first | with_reducible assumption | intro _ | apply hf3 | apply hf4 | with_reducible first | apply keeps_arrive | apply keeps_accept | apply keeps_ite | split | extract_lets | (refine Keeps.of_snd (by assumption) ?_))

theorem keeps_setGate {s0 : State} (s : State) (f : GateSt → GateSt) (hk : Keeps s0 s) : Keeps s0 (State.setGate s f) := by
  unfold State.setGate
  repeat' (first | with_reducible assumption | apply keeps_ite | apply keeps_mk)

theorem keeps_gateIn {s0 : State} (s : State) (m : Msg) (hk : Keeps s0 s) : Keeps s0 (State.gateIn s m) := by
  unfold State.gateIn
  repeat' (first | with_reducible assumption | with_reducible first | apply keeps_setGate)

theorem keeps_sideBand {s0 : State} (s : State) (kind : Nat) (unit : Nat) (detail : Nat) (hk : Keeps s0 s) : Keeps s0 (State.sideBand s kind unit detail) := by
  unfold State.sideBand
  repeat' (first | with_reducible assumption | with_reducible first | apply keeps_gateIn)

theorem keeps_setField {s0 : State} (s : State) (f : FieldSt → FieldSt) (hk : Keeps s0 s) : Keeps s0 (State.setField s f) := by
  unfold State.setField
  repeat' (first | with_reducible assumption | apply keeps_ite | apply keeps_mk)

theorem keeps_setDio {s0 : State} (s : State) (n : Nat) (f : DioSt → DioSt) (hk : Keeps s0 s) : Keeps s0 (State.setDio s n f) := by
  unfold State.setDio
  repeat' (first | with_reducible assumption | with_reducible first | apply keeps_setField)

theorem keeps_setLine {s0 : State} (s : State) (n : Nat) (f : LineSt → LineSt) (hk : Keeps s0 s) : Keeps s0 (State.setLine s n f) := by
  unfold State.setLine
  repeat' (first | with_reducible assumption | apply keeps_ite | apply keeps_mk)

theorem keeps_setOwner {s0 : State} (s : State) (u : Nat) (o : Option Nat) (hk : Keeps s0 s) : Keeps s0 (State.setOwner s u o) := by
  unfold State.setOwner
  repeat' (first | with_reducible assumption | with_reducible first | apply keeps_setLine | apply keeps_setDio | apply keeps_ite)

theorem keeps_setCal {s0 : State} (s : State) (u : Nat) (f : CalSt → CalSt) (hk : Keeps s0 s) : Keeps s0 (State.setCal s u f) := by
  unfold State.setCal
  repeat' (first | with_reducible assumption | with_reducible first | apply keeps_setLine | apply keeps_setDio | apply keeps_ite)

theorem keeps_showLine {s0 : State} (s : State) (n : Nat) (hk : Keeps s0 s) : Keeps s0 (State.showLine s n) := by
  unfold State.showLine
  repeat' (first | with_reducible assumption | with_reducible first | apply keeps_wr)

theorem keeps_showUnit {s0 : State} (s : State) (u : Nat) (hk : Keeps s0 s) : Keeps s0 (State.showUnit s u) := by
  unfold State.showUnit
  repeat' (first | with_reducible assumption | with_reducible first | apply keeps_showLine | apply keeps_ite)

theorem keeps_passRequest {s0 : State} (s : State) (u : Nat) (hk : Keeps s0 s) : Keeps s0 (State.passRequest s u) := by
  unfold State.passRequest
  repeat' (first | with_reducible assumption | with_reducible first | apply keeps_showUnit | apply keeps_setCal | apply keeps_ite)

theorem keeps_calNone {s0 : State} (s : State) (u : Nat) (hk : Keeps s0 s) : Keeps s0 (State.calNone s u) := by
  unfold State.calNone
  repeat' (first | with_reducible assumption | with_reducible first | apply keeps_showUnit | apply keeps_setCal)

theorem keeps_modeChanged {s0 : State} (s : State) (u : Nat) (changed : Bool) (hk : Keeps s0 s) : Keeps s0 (State.modeChanged s u changed) := by
  unfold State.modeChanged
  repeat' (first | with_reducible assumption | with_reducible first | apply keeps_calNone | apply keeps_showUnit | apply keeps_passRequest | apply keeps_ite)

theorem keeps_foreground {s0 : State} (s : State) (u : Nat) (hk : Keeps s0 s) : Keeps s0 (State.foreground s u) := by
  unfold State.foreground
  repeat' (first | with_reducible assumption | with_reducible first | apply keeps_setCal | apply keeps_inc | apply keeps_ite)

theorem keeps_signalChange {s0 : State} (s : State) (u : Nat) (edge : Bool) (hk : Keeps s0 s) : Keeps s0 (State.signalChange s u edge) := by
  unfold State.signalChange
  repeat' (first | with_reducible assumption | with_reducible first | apply keeps_inc | apply keeps_showUnit | apply keeps_setCal | apply keeps_foreground | apply keeps_ite)

theorem keeps_setSig {s0 : State} (s : State) (code : Nat) (b : Bool) (hk : Keeps s0 s) : Keeps s0 (State.setSig s code b) := by
  unfold State.setSig
  repeat' (first | with_reducible assumption | intro _ | with_reducible first | apply keeps_setField | apply keeps_signalChange | apply keeps_ite | split)

theorem keeps_writeLineOut {s0 : State} (s : State) (n : Nat) (v : Word) (hk : Keeps s0 s) : Keeps s0 (State.writeLineOut s n v) := by
  unfold State.writeLineOut
  repeat' (first | with_reducible assumption | with_reducible first | apply keeps_wr | apply keeps_showLine | apply keeps_signalChange | apply keeps_ite)

theorem keeps_writeDioOut {s0 : State} (s : State) (id : Nat) (k : Nat) (v : Nat) (hk : Keeps s0 s) : Keeps s0 (State.writeDioOut s id k v) := by
  unfold State.writeDioOut
  repeat' (first | with_reducible assumption | intro _ | with_reducible first | apply keeps_each | apply keeps_signalChange | apply keeps_wr | apply keeps_decErr | apply keeps_ite | split)

theorem keeps_skipS4 {s0 : State} (s : State) (u : Nat) (hk : Keeps s0 s) : Keeps s0 (State.skipS4 s u) := by
  unfold State.skipS4
  repeat' (first | with_reducible assumption | with_reducible first | apply keeps_setCal | apply keeps_ite)

theorem keeps_passGo {s0 : State} (s : State) (u : Nat) (run : Bool) (hk : Keeps s0 s) : Keeps s0 (State.passGo s u run) := by
  unfold State.passGo
  repeat' (first | with_reducible assumption | with_reducible first | apply keeps_skipS4 | apply keeps_setCal | apply keeps_ite)

theorem keeps_showPad {s0 : State} (s : State) (n : Nat) (hk : Keeps s0 s) : Keeps s0 (State.showPad s n) := by
  unfold State.showPad
  repeat' (first | with_reducible assumption | with_reducible first | apply keeps_wr | apply keeps_ite)

theorem keeps_windowEnd {s0 : State} (s : State) (u : Nat) (hk : Keeps s0 s) : Keeps s0 (State.windowEnd s u) := by
  unfold State.windowEnd
  repeat' (first | with_reducible assumption | with_reducible first | apply keeps_setCal | apply keeps_inc | apply keeps_showUnit | apply keeps_setLine | apply keeps_showPad | apply keeps_setDio | apply keeps_ite)

theorem keeps_lineFault {s0 : State} (s : State) (f : Fld) (hk : Keeps s0 s) : Keeps s0 (State.lineFault s f) := by
  unfold State.lineFault
  repeat' (first | with_reducible assumption | with_reducible first | apply keeps_event | apply keeps_wr)

theorem keeps_calEnd {s0 : State} (s : State) (w : LineWait) (hk : Keeps s0 s) : Keeps s0 (State.calEnd s w) := by
  unfold State.calEnd
  repeat' (first | with_reducible assumption | with_reducible first | apply keeps_fin | apply keeps_setField)

theorem keeps_calTell {s0 : State} (s : State) (u : Nat) (bad : Bool) (hk : Keeps s0 s) : Keeps s0 (State.calTell s u bad) := by
  unfold State.calTell
  repeat' (first | with_reducible assumption | intro _ | with_reducible first | apply keeps_setField | apply keeps_each | apply keeps_calEnd | apply keeps_ite)

theorem keeps_passApply {s0 : State} (s : State) (u : Nat) (hk : Keeps s0 s) : Keeps s0 (State.passApply s u) := by
  unfold State.passApply
  repeat' (first | with_reducible assumption | with_reducible first | apply keeps_setCal | apply keeps_inc | apply keeps_wr | apply keeps_calTell | apply keeps_showUnit | apply keeps_ite)

theorem keeps_filteredEdge {s0 : State} (s : State) (n : Nat) (b : Bool) (hk : Keeps s0 s) : Keeps s0 (State.filteredEdge s n b) := by
  unfold State.filteredEdge
  repeat' (first | with_reducible assumption | with_reducible first | apply keeps_wr | apply keeps_sideBand | apply keeps_ite)

end Sys2Proof.Machine
end

