-- ==== Sys2Proof/Laws/KeepsField.lean ====
section
/-! SUPPORT. What every operation keeps: the raw counter, the queue of commands, and the canonical forms of registers and memory; here for
the hands, lines, CAN nodes, marshal, ring, healing and time. -/
namespace Sys2Proof.Machine
open Sys2Proof

theorem keeps_slotOut {s0 : State} (s : State) (h : Nat) (k : Nat) (b : Bool) (hk : Keeps s0 s) : Keeps s0 (State.slotOut s h k b) := by
  unfold State.slotOut
  repeat' (first | with_reducible assumption | with_reducible first | apply keeps_setHand | apply keeps_setSig | apply keeps_ite)

theorem keeps_slotsOut {s0 : State} (s : State) (h : Nat) (mask : Nat) (v : Nat) (hk : Keeps s0 s) : Keeps s0 (State.slotsOut s h mask v) := by
  unfold State.slotsOut
  repeat' (first | with_reducible assumption | intro _ | with_reducible first | apply keeps_each | apply keeps_slotOut)

theorem keeps_showHand {s0 : State} (s : State) (h : Nat) (hk : Keeps s0 s) : Keeps s0 (State.showHand s h) := by
  unfold State.showHand
  repeat' (first | with_reducible assumption | with_reducible first | apply keeps_wr)

theorem keeps_showHandPend {s0 : State} (s : State) (h : Nat) (hk : Keeps s0 s) : Keeps s0 (State.showHandPend s h) := by
  unfold State.showHandPend
  repeat' (first | with_reducible assumption | with_reducible first | apply keeps_wr)

theorem keeps_handApply {s0 : State} (s : State) (h : Nat) (hk : Keeps s0 s) : Keeps s0 (State.handApply s h) := by
  unfold State.handApply
  repeat' (first | with_reducible assumption | with_reducible first | apply keeps_setHand | apply keeps_dropShadow | apply keeps_showHandPend | apply keeps_commitRegs | apply keeps_ite)

theorem keeps_handCommit {s0 : State} (s : State) (h : Nat) (hk : Keeps s0 s) : Keeps s0 (State.handCommit s h) := by
  unfold State.handCommit
  repeat' (first | with_reducible assumption | with_reducible first | apply keeps_setHand | apply keeps_handApply | apply keeps_ite)

theorem keeps_handRestart {s0 : State} (s : State) (h : Nat) (hk : Keeps s0 s) : Keeps s0 (State.handRestart s h) := by
  unfold State.handRestart
  repeat' (first | with_reducible assumption | intro _ | with_reducible first | apply keeps_setHand | apply keeps_wr | apply keeps_each | apply keeps_slotOut)

theorem keeps_handFifoClr {s0 : State} (s : State) (h : Nat) (hk : Keeps s0 s) : Keeps s0 (State.handFifoClr s h) := by
  unfold State.handFifoClr
  repeat' (first | with_reducible assumption | with_reducible first | apply keeps_showHand | apply keeps_setHand)

theorem keeps_handOff {s0 : State} (s : State) (h : Nat) (hk : Keeps s0 s) : Keeps s0 (State.handOff s h) := by
  unfold State.handOff
  repeat' (first | with_reducible assumption | with_reducible first | apply keeps_wr | apply keeps_setHand | apply keeps_handApply | apply keeps_ite)

theorem keeps_handOn {s0 : State} (s : State) (h : Nat) (hk : Keeps s0 s) : Keeps s0 (State.handOn s h) := by
  unfold State.handOn
  repeat' (first | with_reducible assumption | with_reducible first | apply keeps_setHand | apply keeps_wr)

theorem keeps_handClr {s0 : State} (s : State) (h : Nat) (hk : Keeps s0 s) : Keeps s0 (State.handClr s h) := by
  unfold State.handClr
  repeat' (first | with_reducible assumption | with_reducible first | apply keeps_wr)

theorem keeps_handSync {s0 : State} (s : State) (mask : Nat) (hk : Keeps s0 s) : Keeps s0 (State.handSync s mask) := by
  unfold State.handSync
  repeat' (first | with_reducible assumption | intro _ | with_reducible first | apply keeps_each | apply keeps_handOn)

theorem keeps_handTrig {s0 : State} (s : State) (k : Nat) (hk : Keeps s0 s) : Keeps s0 (State.handTrig s k) := by
  unfold State.handTrig
  repeat' (first | with_reducible assumption | intro _ | with_reducible first | apply keeps_each | apply keeps_setHand | apply keeps_handOn | apply keeps_wr | apply keeps_ite)

theorem keeps_handPush {s0 : State} (s : State) (h : Nat) (v : Word) (hk : Keeps s0 s) : Keeps s0 (State.handPush s h v).2 := by
  unfold State.handPush
  repeat' (first | with_reducible assumption | intro _ | with_reducible first | apply keeps_showHand | apply keeps_setHand | apply keeps_inc | apply keeps_ite | split)

theorem keeps_handPop {s0 : State} (s : State) (h : Nat) (hk : Keeps s0 s) : Keeps s0 (State.handPop s h).2.2 := by
  unfold State.handPop
  repeat' (first | with_reducible assumption | intro _ | with_reducible first | apply keeps_showHand | apply keeps_setHand | apply keeps_wr | apply keeps_ite | split)

theorem keeps_handWriteMem {s0 : State} (s : State) (h : Nat) (f : Fld) (v : Nat) (hk : Keeps s0 s) : Keeps s0 (State.handWriteMem s h f v) := by
  unfold State.handWriteMem
  repeat' (first | with_reducible assumption | with_reducible first | apply keeps_wr | apply keeps_ite)

theorem keeps_handWritePin {s0 : State} (s : State) (h : Nat) (k : Nat) (v : Word) (hk : Keeps s0 s) : Keeps s0 (State.handWritePin s h k v) := by
  unfold State.handWritePin
  repeat' (first | with_reducible assumption | with_reducible first | apply keeps_wr | apply keeps_ite)

theorem keeps_guardHand {s0 : State} (s : State) (id : Ident) (h : Nat) (a : Nat) (f : State → State) (hk : Keeps s0 s) (hf4 : ∀ t, Keeps s0 t → Keeps s0 (f t)) : Keeps s0 (State.guardHand s id h a f) := by
  unfold State.guardHand
  repeat' (first | with_reducible assumption | apply hf4 | with_reducible first | apply keeps_decErr | apply keeps_ite)

theorem keeps_setFlag {s0 : State} (s : State) (h : Nat) (k : Nat) (b : Bool) (hk : Keeps s0 s) : Keeps s0 (State.setFlag s h k b) := by
  unfold State.setFlag
  repeat' (first | with_reducible assumption | with_reducible first | apply keeps_wr)

theorem keeps_loadTsr {s0 : State} (s : State) (h : Nat) (v : Nat) (hk : Keeps s0 s) : Keeps s0 (State.loadTsr s h v) := by
  unfold State.loadTsr
  repeat' (first | with_reducible assumption | with_reducible first | apply keeps_wr)

theorem keeps_handJump {s0 : State} (h cond addr : Nat) (s : State) (hk : Keeps s0 s) : Keeps s0 (handJump h cond addr s).st := by
  unfold handJump
  extract_lets a b go
  have hg : ∀ c, Keeps s0 (go c).st := by
    intro c
    cases c <;> exact hk
  split
  · exact hk
  · split
    · exact keeps_wr _ _ _ hk
    · exact hk
  · split
    · exact keeps_wr _ _ _ hk
    · exact hk
  all_goals exact hg _

theorem keeps_handWait {s0 : State} (h : Nat) (lvl : Bool) (src : Nat) (k : Nat) (s : State) (hk : Keeps s0 s) : Keeps s0 (handWait h lvl src k s).st := by
  unfold handWait
  repeat' (first | with_reducible assumption | intro _ | apply keeps_ite | split | (dsimp -zeta only [HandRes.st]))

theorem keeps_shiftDst {s0 : State} (s : State) (h : Nat) (n : Nat) (dst : Nat) (v : Nat) (hk : Keeps s0 s) : Keeps s0 (State.shiftDst s h n dst v) := by
  unfold State.shiftDst
  repeat' (first | with_reducible assumption | intro _ | with_reducible first | apply keeps_slotsOut | apply keeps_wr | apply keeps_ite | split)

theorem keeps_handShift {s0 : State} (h : Nat) (n : Nat) (dst : Nat) (src : Nat) (ien : Bool) (oen : Bool) (s : State) (hk : Keeps s0 s) : Keeps s0 (handShift h n dst src ien oen s).st := by
  unfold handShift
  repeat' (first | with_reducible assumption | intro _ | with_reducible first | apply keeps_shiftDst | apply keeps_wr | apply keeps_ite | split | (dsimp -zeta only [HandRes.st]))

theorem keeps_handTake {s0 : State} (h : Nat) (nb : Bool) (ife : Bool) (s : State) (hk : Keeps s0 s) : Keeps s0 (handTake h nb ife s).st := by
  unfold handTake
  repeat' (first | with_reducible assumption | intro _ | with_reducible first | apply keeps_loadTsr | apply keeps_showHand | apply keeps_setHand | apply keeps_wr | apply keeps_ite | split | (dsimp -zeta only [HandRes.st]))

theorem keeps_handGive {s0 : State} (h : Nat) (nb : Bool) (iff : Bool) (s : State) (hk : Keeps s0 s) : Keeps s0 (handGive h nb iff s).st := by
  unfold handGive
  repeat' (first | with_reducible assumption | intro _ | with_reducible first | apply keeps_wr | apply keeps_showHand | apply keeps_setHand | apply keeps_inc | apply keeps_ite | split | extract_lets | (refine Keeps.of_snd (by assumption) ?_) | (dsimp -zeta only [HandRes.st]))

theorem keeps_handMove {s0 : State} (h : Nat) (dst : Nat) (src : Nat) (op : Nat) (s : State) (hk : Keeps s0 s) : Keeps s0 (handMove h dst src op s).st := by
  unfold handMove
  repeat' (first | with_reducible assumption | intro _ | with_reducible first | apply keeps_slotsOut | apply keeps_wr | apply keeps_loadTsr | apply keeps_ite | split | (dsimp -zeta only [HandRes.st]))

theorem keeps_handSignal {s0 : State} (h : Nat) (act : Nat) (k : Nat) (s : State) (hk : Keeps s0 s) : Keeps s0 (handSignal h act k s).st := by
  unfold handSignal
  repeat' (first | with_reducible assumption | intro _ | with_reducible first | apply keeps_setFlag | apply keeps_ite | split | (dsimp -zeta only [HandRes.st]))

theorem keeps_handNext {s0 : State} (s : State) (h : Nat) (sel : Nat) (pc : Option Nat) (hk : Keeps s0 s) : Keeps s0 (State.handNext s h sel pc) := by
  unfold State.handNext
  repeat' (first | with_reducible assumption | with_reducible first | apply keeps_wr | apply keeps_setHand)

theorem keeps_handIllegal {s0 : State} (s : State) (h : Nat) (hk : Keeps s0 s) : Keeps s0 (State.handIllegal s h) := by
  unfold State.handIllegal
  repeat' (first | with_reducible assumption | with_reducible first | apply keeps_engEvent | apply keeps_wr)

theorem keeps_handBegin {s0 : State} (s : State) (h : Nat) (hk : Keeps s0 s) : Keeps s0 (State.handBegin s h) := by
  unfold State.handBegin
  repeat' (first | with_reducible assumption | with_reducible first | apply keeps_setHand | apply keeps_handApply | apply keeps_ite)

theorem keeps_handTick {s0 : State} (s : State) (h : Nat) (w : Nat) (legal : State → Bool) (op : State → HandRes) (hk : Keeps s0 s) (hf4 : ∀ t, Keeps s0 t → Keeps s0 (op t).st) : Keeps s0 (State.handTick s h w legal op) := by
  unfold State.handTick
  repeat' (first | with_reducible assumption | intro _ | apply hf4 | with_reducible first | apply keeps_handBegin | apply keeps_setHand | apply keeps_handIllegal | apply keeps_wr | apply keeps_handNext | apply keeps_ite | split | extract_lets | (refine Keeps.of_snd (by assumption) ?_) | (refine Keeps.of_fst (by assumption) ?_) | (refine Keeps.of_third (by assumption) ?_) | (refine Keeps.of_pair (by assumption) ?_) | (refine Keeps.of_wait (by assumption) ?_) | (refine Keeps.of_done (by assumption) ?_) | (refine Keeps.of_jump (by assumption) ?_))

theorem keeps_writeHandCtl {s0 : State} (s : State) (h : Nat) (v : Word) (hk : Keeps s0 s) : Keeps s0 (State.writeHandCtl s h v) := by
  unfold State.writeHandCtl
  repeat' (first | with_reducible assumption | with_reducible first | apply keeps_handOff | apply keeps_handRestart | apply keeps_handFifoClr | apply keeps_handCommit | apply keeps_handClr | apply keeps_handOn | apply keeps_wr | apply keeps_ite)

theorem keeps_lineCommit {s0 : State} (s : State) (n : Nat) (hk : Keeps s0 s) : Keeps s0 (State.lineCommit s n) := by
  unfold State.lineCommit
  repeat' (first | with_reducible assumption | with_reducible first | apply keeps_commitReg | apply keeps_showLine | apply keeps_modeChanged | apply keeps_ite)

theorem keeps_lineClr {s0 : State} (s : State) (n : Nat) (hk : Keeps s0 s) : Keeps s0 (State.lineClr s n) := by
  unfold State.lineClr
  repeat' (first | with_reducible assumption | with_reducible first | apply keeps_clearRegs)

theorem keeps_calStep {s0 : State} (s : State) (u : Nat) (hk : Keeps s0 s) : Keeps s0 (State.calStep s u) := by
  unfold State.calStep
  repeat' (first | with_reducible assumption | with_reducible first | apply keeps_passGo | apply keeps_ite)

theorem keeps_stepDone {s0 : State} (s : State) (u : Nat) (trim : Word) (out : Bool) (agree : Bool) (hk : Keeps s0 s) : Keeps s0 (State.stepDone s u trim out agree) := by
  unfold State.stepDone
  repeat' (first | with_reducible assumption | intro _ | with_reducible first | apply keeps_passGo | apply keeps_setCal | apply keeps_event | apply keeps_inc | apply keeps_ite | split)

theorem keeps_padEdge {s0 : State} (s : State) (u : Nat) (b : Bool) (hk : Keeps s0 s) : Keeps s0 (State.padEdge s u b) := by
  unfold State.padEdge
  repeat' (first | with_reducible assumption | with_reducible first | apply keeps_showLine | apply keeps_setLine | apply keeps_setDio | apply keeps_wr | apply keeps_foreground | apply keeps_ite)

theorem keeps_quadHot {s0 : State} (s : State) (q : Nat) (hot : Bool) (hk : Keeps s0 s) : Keeps s0 (State.quadHot s q hot) := by
  unfold State.quadHot
  repeat' (first | with_reducible assumption | intro _ | with_reducible first | apply keeps_setField | apply keeps_each | apply keeps_lineFault | apply keeps_showLine | apply keeps_ite)

theorem keeps_commonMode {s0 : State} (s : State) (n : Nat) (out : Bool) (lvl : Bool) (hk : Keeps s0 s) : Keeps s0 (State.commonMode s n out lvl) := by
  unfold State.commonMode
  repeat' (first | with_reducible assumption | with_reducible first | apply keeps_showLine | apply keeps_useFree | apply keeps_setLine | apply keeps_lineFault | apply keeps_ite)

theorem keeps_dioCommit1 {s0 : State} (s : State) (n : Nat) (hk : Keeps s0 s) : Keeps s0 (State.dioCommit1 s n) := by
  unfold State.dioCommit1
  repeat' (first | with_reducible assumption | with_reducible first | apply keeps_commitReg | apply keeps_wr | apply keeps_showPad | apply keeps_modeChanged | apply keeps_ite)

theorem keeps_dioCommit {s0 : State} (s : State) (k : Nat) (hk : Keeps s0 s) : Keeps s0 (State.dioCommit s k) := by
  unfold State.dioCommit
  repeat' (first | with_reducible assumption | intro _ | with_reducible first | apply keeps_each | apply keeps_dioCommit1)

theorem keeps_dioClr {s0 : State} (s : State) (hk : Keeps s0 s) : Keeps s0 (State.dioClr s) := by
  unfold State.dioClr
  repeat' (first | with_reducible assumption | intro _ | with_reducible first | apply keeps_each | apply keeps_clearRegs)

theorem keeps_stampRead {s0 : State} (s : State) (n : Nat) (hk : Keeps s0 s) : Keeps s0 (State.stampRead s n) := by
  unfold State.stampRead
  repeat' (first | with_reducible assumption | with_reducible first | apply keeps_wr)

theorem keeps_opLineMode {s0 : State} (c : CmdRec) (s : State) (hk : Keeps s0 s) : Keeps s0 (opLineMode c s) := by
  unfold opLineMode
  repeat' (first | with_reducible assumption | with_reducible first | apply keeps_badUnit | apply keeps_badParam | apply keeps_fail | apply keeps_badEnc | apply keeps_done | apply keeps_lineCommit | apply keeps_shadowCfg | apply keeps_ite)

theorem keeps_opLineCal {s0 : State} (c : CmdRec) (s : State) (hk : Keeps s0 s) : Keeps s0 (opLineCal c s) := by
  unfold opLineCal
  repeat' (first | with_reducible assumption | intro _ | with_reducible first | apply keeps_again | apply keeps_badParam | apply keeps_fail | apply keeps_done | apply keeps_each | apply keeps_passRequest | apply keeps_setField | apply keeps_ite | split)

theorem keeps_opLineScope {s0 : State} (env : Env) (c : CmdRec) (s : State) (hk : Keeps s0 s) : Keeps s0 (opLineScope env c s) := by
  unfold opLineScope
  repeat' (first | with_reducible assumption | intro _ | with_reducible first | apply keeps_badUnit | apply keeps_badParam | apply keeps_badEnc | apply keeps_fail | apply keeps_withOut | apply keeps_again | apply keeps_done | apply keeps_writeBuf | apply keeps_ite)

theorem keeps_calLimit {s0 : State} (s : State) (seq : Nat) (hk : Keeps s0 s) : Keeps s0 (State.calLimit s seq) := by
  unfold State.calLimit
  repeat' (first | with_reducible assumption | intro _ | with_reducible first | apply keeps_calEnd | apply keeps_ite | split)

theorem keeps_scopeLimit {s0 : State} (s : State) (seq : Nat) (hk : Keeps s0 s) : Keeps s0 (State.scopeLimit s seq) := by
  unfold State.scopeLimit
  repeat' (first | with_reducible assumption | intro _ | with_reducible first | apply keeps_fail | apply keeps_ite | split)

theorem keeps_opLineEcho {s0 : State} (env : Env) (c : CmdRec) (s : State) (hk : Keeps s0 s) : Keeps s0 (opLineEcho env c s) := by
  unfold opLineEcho
  repeat' (first | with_reducible assumption | intro _ | with_reducible first | apply keeps_badUnit | apply keeps_badParam | apply keeps_fail | apply keeps_withOut | apply keeps_done | apply keeps_writeBuf | apply keeps_ite)

theorem keeps_windowStart {s0 : State} (s : State) (u : Nat) (t : Nat) (hk : Keeps s0 s) : Keeps s0 (State.windowStart s u t) := by
  unfold State.windowStart
  repeat' (first | with_reducible assumption | with_reducible first | apply keeps_showUnit | apply keeps_setLine | apply keeps_setDio | apply keeps_ite)

theorem keeps_opLineMaint {s0 : State} (c : CmdRec) (s : State) (hk : Keeps s0 s) : Keeps s0 (opLineMaint c s) := by
  unfold opLineMaint
  repeat' (first | with_reducible assumption | intro _ | with_reducible first | apply keeps_badParam | apply keeps_fail | apply keeps_done | apply keeps_each | apply keeps_windowStart | apply keeps_windowEnd | apply keeps_ite)

theorem keeps_opLineTelem {s0 : State} (env : Env) (c : CmdRec) (s : State) (hk : Keeps s0 s) : Keeps s0 (opLineTelem env c s) := by
  unfold opLineTelem
  repeat' (first | with_reducible assumption | intro _ | with_reducible first | apply keeps_badUnit | apply keeps_badParam | apply keeps_fail | apply keeps_withOut | apply keeps_done | apply keeps_writeBuf | apply keeps_ite)

theorem keeps_opDioMode {s0 : State} (c : CmdRec) (s : State) (hk : Keeps s0 s) : Keeps s0 (opDioMode c s) := by
  unfold opDioMode
  repeat' (first | with_reducible assumption | with_reducible first | apply keeps_badEnc | apply keeps_fail | apply keeps_done | apply keeps_dioCommit1 | apply keeps_wrS | apply keeps_ite)

theorem keeps_opDioFilter {s0 : State} (c : CmdRec) (s : State) (hk : Keeps s0 s) : Keeps s0 (opDioFilter c s) := by
  unfold opDioFilter
  repeat' (first | with_reducible assumption | intro _ | with_reducible first | apply keeps_fail | apply keeps_done | apply keeps_each | apply keeps_dioCommit1 | apply keeps_wrS | apply keeps_ite)

theorem keeps_opDioSet {s0 : State} (c : CmdRec) (s : State) (hk : Keeps s0 s) : Keeps s0 (opDioSet c s) := by
  unfold opDioSet
  repeat' (first | with_reducible assumption | intro _ | with_reducible first | apply keeps_fail | apply keeps_each | apply keeps_signalChange | apply keeps_wr | apply keeps_done | apply keeps_ite)

theorem keeps_opDioStatus {s0 : State} (c : CmdRec) (s : State) (hk : Keeps s0 s) : Keeps s0 (opDioStatus c s) := by
  unfold opDioStatus
  repeat' (first | with_reducible assumption | with_reducible first | apply keeps_fail | apply keeps_done | apply keeps_useFree | apply keeps_ite)

theorem keeps_setCan {s0 : State} (s : State) (n : Nat) (f : CanSt → CanSt) (hk : Keeps s0 s) : Keeps s0 (State.setCan s n f) := by
  unfold State.setCan
  repeat' (first | with_reducible assumption | apply keeps_ite | apply keeps_mk)

theorem keeps_setTx {s0 : State} (s : State) (e : Nat) (c : Nat) (l : List Word) (hk : Keeps s0 s) : Keeps s0 (State.setTx s e c l) := by
  unfold State.setTx
  repeat' (first | with_reducible assumption | with_reducible first | apply keeps_wr | apply keeps_setEng)

theorem keeps_setRx {s0 : State} (s : State) (e : Nat) (c : Nat) (l : List Word) (hk : Keeps s0 s) : Keeps s0 (State.setRx s e c l) := by
  unfold State.setRx
  repeat' (first | with_reducible assumption | with_reducible first | apply keeps_wr | apply keeps_setEng)

theorem keeps_canFill {s0 : State} (s : State) (n : Nat) (hk : Keeps s0 s) : Keeps s0 (State.canFill s n) := by
  unfold State.canFill
  repeat' (first | with_reducible assumption | intro _ | with_reducible first | apply keeps_setRx | apply keeps_setCan | apply keeps_ite | split)

theorem keeps_showCan {s0 : State} (s : State) (n : Nat) (hk : Keeps s0 s) : Keeps s0 (State.showCan s n) := by
  unfold State.showCan
  repeat' (first | with_reducible assumption | intro _ | with_reducible first | apply keeps_wr | apply keeps_each | apply keeps_setReg)

theorem keeps_canEvent {s0 : State} (s : State) (n : Nat) (r : List Word) (outcome : Nat) (sof : Nat) (hk : Keeps s0 s) : Keeps s0 (State.canEvent s n r outcome sof) := by
  unfold State.canEvent
  repeat' (first | with_reducible assumption | with_reducible first | apply keeps_canFill | apply keeps_setCan | apply keeps_showCan | apply keeps_event | apply keeps_wr | apply keeps_ite)

theorem keeps_canPop {s0 : State} (s : State) (n : Nat) (outcome : Nat) (hk : Keeps s0 s) : Keeps s0 (State.canPop s n outcome) := by
  unfold State.canPop
  repeat' (first | with_reducible assumption | intro _ | with_reducible first | apply keeps_showCan | apply keeps_canEvent | apply keeps_setCan | apply keeps_ite | split)

theorem keeps_canFlush {s0 : State} (s : State) (n : Nat) (hk : Keeps s0 s) : Keeps s0 (State.canFlush s n) := by
  unfold State.canFlush
  repeat' (first | with_reducible assumption | intro _ | with_reducible first | apply keeps_each | apply keeps_canPop)

theorem keeps_canEnqueue {s0 : State} (s : State) (n : Nat) (r : List Word) (hk : Keeps s0 s) : Keeps s0 (State.canEnqueue s n r) := by
  unfold State.canEnqueue
  repeat' (first | with_reducible assumption | intro _ | with_reducible first | apply keeps_inc | apply keeps_wr | apply keeps_showCan | apply keeps_setCan | apply keeps_canFlush | apply keeps_ite | split | extract_lets)

theorem keeps_canDrain {s0 : State} (s : State) (n : Nat) (e : Nat) (c : Nat) (l4 : Nat) (hk : Keeps s0 s) : Keeps s0 (State.canDrain s n e c l4) := by
  revert s n e c
  induction l4 with
  | zero =>
    intros
    unfold State.canDrain
    repeat' (first | with_reducible assumption)
  | succ n0 ih =>
    intros
    unfold State.canDrain
    repeat' (first | assumption | apply ih | intro _ | with_reducible first | apply keeps_setTx | apply keeps_setCan | apply keeps_canEnqueue | apply keeps_ite | split)

theorem keeps_canTake {s0 : State} (s : State) (n : Nat) (hk : Keeps s0 s) : Keeps s0 (State.canTake s n) := by
  unfold State.canTake
  repeat' (first | with_reducible assumption | intro _ | with_reducible first | apply keeps_canDrain | apply keeps_ite | split)

theorem keeps_canDeliver {s0 : State} (s : State) (n : Nat) (data : List Byte) (hk : Keeps s0 s) : Keeps s0 (State.canDeliver s n data).2 := by
  unfold State.canDeliver
  repeat' (first | with_reducible assumption | intro _ | with_reducible first | apply keeps_inc | apply keeps_canEnqueue | apply keeps_ite | split | extract_lets)

theorem keeps_canCancel {s0 : State} (s : State) (n : Nat) (tag : Nat) (hk : Keeps s0 s) : Keeps s0 (State.canCancel s n tag).2 := by
  unfold State.canCancel
  repeat' (first | with_reducible assumption | intro _ | with_reducible first | apply keeps_wr | apply keeps_setCan | apply keeps_showCan | apply keeps_canTake | apply keeps_canEvent | apply keeps_ite | split | extract_lets)

theorem keeps_canReceive {s0 : State} (s : State) (n : Nat) (w0 : Word) (w1 : Word) (data : List Word) (sof : Nat) (hk : Keeps s0 s) : Keeps s0 (State.canReceive s n w0 w1 data sof) := by
  unfold State.canReceive
  repeat' (first | with_reducible assumption | intro _ | with_reducible first | apply keeps_inc | apply keeps_event | apply keeps_canFill | apply keeps_setCan | apply keeps_gateIn | apply keeps_ite | split)

theorem keeps_showCanPend {s0 : State} (s : State) (n : Nat) (hk : Keeps s0 s) : Keeps s0 (State.showCanPend s n) := by
  unfold State.showCanPend
  repeat' (first | with_reducible assumption | with_reducible first | apply keeps_wr)

theorem keeps_canOff {s0 : State} (s : State) (n : Nat) (hk : Keeps s0 s) : Keeps s0 (State.canOff s n) := by
  unfold State.canOff
  repeat' (first | with_reducible assumption | with_reducible first | apply keeps_setCan | apply keeps_canFlush | apply keeps_showCan | apply keeps_wr)

theorem keeps_canCommitted {s0 : State} (s : State) (n : Nat) (hk : Keeps s0 s) : Keeps s0 (State.canCommitted s n) := by
  unfold State.canCommitted
  repeat' (first | with_reducible assumption | intro _ | with_reducible first | apply keeps_setCan | apply keeps_showCanPend | apply keeps_each | apply keeps_fin)

theorem keeps_canEnter {s0 : State} (s : State) (n : Nat) (m : Nat) (timing : Bool) (hk : Keeps s0 s) : Keeps s0 (State.canEnter s n m timing) := by
  unfold State.canEnter
  repeat' (first | with_reducible assumption | with_reducible first | apply keeps_canOff | apply keeps_wr | apply keeps_ite)

theorem keeps_canApply {s0 : State} (s : State) (n : Nat) (hk : Keeps s0 s) : Keeps s0 (State.canApply s n) := by
  unfold State.canApply
  repeat' (first | with_reducible assumption | with_reducible first | apply keeps_commitRegs | apply keeps_canEnter | apply keeps_canOff | apply keeps_wr | apply keeps_canCommitted | apply keeps_ite)

theorem keeps_canCommit {s0 : State} (s : State) (n : Nat) (seq : Option (Nat × List Word)) (hk : Keeps s0 s) : Keeps s0 (State.canCommit s n seq) := by
  unfold State.canCommit
  repeat' (first | with_reducible assumption | intro _ | with_reducible first | apply keeps_event | apply keeps_fin | apply keeps_setCan | apply keeps_canApply | apply keeps_showCanPend | apply keeps_ite | split)

theorem keeps_canErrState {s0 : State} (s : State) (n : Nat) (st : Nat) (hk : Keeps s0 s) : Keeps s0 (State.canErrState s n st) := by
  unfold State.canErrState
  repeat' (first | with_reducible assumption | with_reducible first | apply keeps_sideBand | apply keeps_event | apply keeps_wr | apply keeps_ite)

theorem keeps_canRecover {s0 : State} (s : State) (n : Nat) (hk : Keeps s0 s) : Keeps s0 (State.canRecover s n) := by
  unfold State.canRecover
  repeat' (first | with_reducible assumption | with_reducible first | apply keeps_wr | apply keeps_event | apply keeps_ite)

theorem keeps_canGuard {s0 : State} (s : State) (id : Ident) (n : Nat) (f : State → State) (hk : Keeps s0 s) (hf3 : ∀ t, Keeps s0 t → Keeps s0 (f t)) : Keeps s0 (State.canGuard s id n f) := by
  unfold State.canGuard
  repeat' (first | with_reducible assumption | apply hf3 | with_reducible first | apply keeps_guardBs)

theorem keeps_canFltCommit {s0 : State} (s : State) (n : Nat) (hk : Keeps s0 s) : Keeps s0 (State.canFltCommit s n) := by
  unfold State.canFltCommit
  repeat' (first | with_reducible assumption | with_reducible first | apply keeps_showCanPend | apply keeps_commitRegs)

theorem keeps_canCntClr {s0 : State} (s : State) (n : Nat) (hk : Keeps s0 s) : Keeps s0 (State.canCntClr s n) := by
  unfold State.canCntClr
  repeat' (first | with_reducible assumption | with_reducible first | apply keeps_clearRegs)

theorem keeps_canTxw {s0 : State} (s : State) (n : Nat) (v : Word) (hk : Keeps s0 s) : Keeps s0 (State.canTxw s n v) := by
  unfold State.canTxw
  repeat' (first | with_reducible assumption | with_reducible first | apply keeps_setCan | apply keeps_wr | apply keeps_canEnqueue | apply keeps_ite)

theorem keeps_txevRead {s0 : State} (s : State) (n : Nat) (hk : Keeps s0 s) : Keeps s0 (State.txevRead s n) := by
  unfold State.txevRead
  repeat' (first | with_reducible assumption | with_reducible first | apply keeps_showCan | apply keeps_setCan)

theorem keeps_canTry {s0 : State} (s : State) (n : Nat) (nb : Word) (db : Word) (hk : Keeps s0 s) : Keeps s0 (State.canTry s n nb db) := by
  unfold State.canTry
  repeat' (first | with_reducible assumption | with_reducible first | apply keeps_setReg | apply keeps_wr | apply keeps_dropShadow)

theorem keeps_canSettle {s0 : State} (s : State) (n : Nat) (d : CanDetect) (hk : Keeps s0 s) : Keeps s0 (State.canSettle s n d) := by
  unfold State.canSettle
  repeat' (first | with_reducible assumption | with_reducible first | apply keeps_setCan | apply keeps_wr | apply keeps_fin)

theorem keeps_canNext {s0 : State} (s : State) (n : Nat) (d : CanDetect) (hk : Keeps s0 s) : Keeps s0 (State.canNext s n d) := by
  unfold State.canNext
  repeat' (first | with_reducible assumption | with_reducible first | apply keeps_canTry | apply keeps_setCan | apply keeps_wr | apply keeps_fin | apply keeps_canOff | apply keeps_ite)

theorem keeps_canGood {s0 : State} (s : State) (n : Nat) (brs : Bool) (hk : Keeps s0 s) : Keeps s0 (State.canGood s n brs) := by
  unfold State.canGood
  repeat' (first | with_reducible assumption | intro _ | with_reducible first | apply keeps_canSettle | apply keeps_setCan | apply keeps_ite | split)

theorem keeps_canFrame {s0 : State} (s : State) (n : Nat) (w0 : Word) (w1 : Word) (data : List Word) (ago : Nat) (hk : Keeps s0 s) : Keeps s0 (State.canFrame s n w0 w1 data ago) := by
  unfold State.canFrame
  repeat' (first | with_reducible assumption | with_reducible first | apply keeps_canGood | apply keeps_canReceive | apply keeps_ite)

theorem keeps_canSent {s0 : State} (s : State) (n : Nat) (t : Nat) (hk : Keeps s0 s) : Keeps s0 (State.canSent s n t) := by
  unfold State.canSent
  repeat' (first | with_reducible assumption | with_reducible first | apply keeps_canPop | apply keeps_setCan | apply keeps_inc | apply keeps_canReceive | apply keeps_canTake | apply keeps_ite)

theorem keeps_canLost {s0 : State} (s : State) (n : Nat) (hk : Keeps s0 s) : Keeps s0 (State.canLost s n) := by
  unfold State.canLost
  repeat' (first | with_reducible assumption | with_reducible first | apply keeps_setCan | apply keeps_showCan | apply keeps_canTake | apply keeps_canPop | apply keeps_ite)

theorem keeps_canTx {s0 : State} (s : State) (n : Nat) (won : Bool) (hk : Keeps s0 s) : Keeps s0 (State.canTx s n won) := by
  unfold State.canTx
  repeat' (first | with_reducible assumption | intro _ | with_reducible first | apply keeps_canSent | apply keeps_canLost | apply keeps_ite | split)

theorem keeps_canStart {s0 : State} (s : State) (n : Nat) (delay : Nat) (hk : Keeps s0 s) : Keeps s0 (State.canStart s n delay) := by
  unfold State.canStart
  repeat' (first | with_reducible assumption | intro _ | with_reducible first | apply keeps_when | apply keeps_inc | apply keeps_showCan | apply keeps_setCan | apply keeps_ite)

theorem keeps_canCounts {s0 : State} (s : State) (n : Nat) (tec : Nat) (rec_ : Nat) (hk : Keeps s0 s) : Keeps s0 (State.canCounts s n tec rec_) := by
  unfold State.canCounts
  repeat' (first | with_reducible assumption | with_reducible first | apply keeps_wr | apply keeps_ite)

theorem keeps_canBusError {s0 : State} (s : State) (n : Nat) (tec : Nat) (rec_ : Nat) (hk : Keeps s0 s) : Keeps s0 (State.canBusError s n tec rec_) := by
  unfold State.canBusError
  repeat' (first | with_reducible assumption | intro _ | with_reducible first | apply keeps_canCounts | apply keeps_inc | apply keeps_canLost | apply keeps_canNext | apply keeps_ite | split | extract_lets)

theorem keeps_canDwell {s0 : State} (s : State) (n : Nat) (hk : Keeps s0 s) : Keeps s0 (State.canDwell s n) := by
  unfold State.canDwell
  repeat' (first | with_reducible assumption | intro _ | with_reducible first | apply keeps_canNext | apply keeps_ite | split)

theorem keeps_canErrors {s0 : State} (s : State) (n : Nat) (st : Nat) (tec : Nat) (rec_ : Nat) (hk : Keeps s0 s) : Keeps s0 (State.canErrors s n st tec rec_) := by
  unfold State.canErrors
  repeat' (first | with_reducible assumption | with_reducible first | apply keeps_canErrState | apply keeps_canCounts | apply keeps_ite)

theorem keeps_canBusOff {s0 : State} (s : State) (n : Nat) (hk : Keeps s0 s) : Keeps s0 (State.canBusOff s n) := by
  unfold State.canBusOff
  repeat' (first | with_reducible assumption | with_reducible first | apply keeps_canLost | apply keeps_wr | apply keeps_event | apply keeps_canErrState | apply keeps_canFlush | apply keeps_ite)

theorem keeps_canRecovered {s0 : State} (s : State) (n : Nat) (hk : Keeps s0 s) : Keeps s0 (State.canRecovered s n) := by
  unfold State.canRecovered
  repeat' (first | with_reducible assumption | with_reducible first | apply keeps_canErrState | apply keeps_wr | apply keeps_ite)

theorem keeps_opCanMode {s0 : State} (c : CmdRec) (s : State) (hk : Keeps s0 s) : Keeps s0 (opCanMode c s) := by
  unfold opCanMode
  repeat' (first | with_reducible assumption | intro _ | with_reducible first | apply keeps_badEnc | apply keeps_fail | apply keeps_canCancel | apply keeps_setReg | apply keeps_canCommit | apply keeps_shadowCfg | apply keeps_ite | split)

theorem keeps_opCanTiming {s0 : State} (c : CmdRec) (s : State) (hk : Keeps s0 s) : Keeps s0 (opCanTiming c s) := by
  unfold opCanTiming
  repeat' (first | with_reducible assumption | with_reducible first | apply keeps_fail | apply keeps_badParam | apply keeps_canCommit | apply keeps_shadowCfg | apply keeps_ite)

theorem keeps_opCanDetect {s0 : State} (c : CmdRec) (s : State) (hk : Keeps s0 s) : Keeps s0 (opCanDetect c s) := by
  unfold opCanDetect
  repeat' (first | with_reducible assumption | intro _ | with_reducible first | apply keeps_fail | apply keeps_again | apply keeps_badParam | apply keeps_canTry | apply keeps_setCan | apply keeps_wr | apply keeps_ite | split | extract_lets)

theorem keeps_opCanFilter {s0 : State} (c : CmdRec) (s : State) (hk : Keeps s0 s) : Keeps s0 (opCanFilter c s) := by
  unfold opCanFilter
  repeat' (first | with_reducible assumption | intro _ | with_reducible first | apply keeps_fail | apply keeps_badParam | apply keeps_done | apply keeps_canFltCommit | apply keeps_each | apply keeps_putCfg | apply keeps_ite)

theorem keeps_opCanPair {s0 : State} (c : CmdRec) (s : State) (hk : Keeps s0 s) : Keeps s0 (opCanPair c s) := by
  unfold opCanPair
  repeat' (first | with_reducible assumption | with_reducible first | apply keeps_fail | apply keeps_done | apply keeps_wr | apply keeps_ite)

theorem keeps_opCanRecover {s0 : State} (c : CmdRec) (s : State) (hk : Keeps s0 s) : Keeps s0 (opCanRecover c s) := by
  unfold opCanRecover
  repeat' (first | with_reducible assumption | with_reducible first | apply keeps_done | apply keeps_canRecover | apply keeps_fail | apply keeps_ite)

theorem keeps_opCanStatus {s0 : State} (c : CmdRec) (s : State) (hk : Keeps s0 s) : Keeps s0 (opCanStatus c s) := by
  unfold opCanStatus
  repeat' (first | with_reducible assumption | with_reducible first | apply keeps_done)

theorem keeps_cutNow {s0 : State} (s : State) (hk : Keeps s0 s) : Keeps s0 (State.cutNow s) := by
  unfold State.cutNow
  repeat' (first | with_reducible assumption | with_reducible first | apply keeps_event | apply keeps_inc | apply keeps_setMrsh | apply keeps_wr | apply keeps_ite)

theorem keeps_selfOffset {s0 : State} (s : State) (d : Nat) (n : Nat) (subtick : Nat) (hk : Keeps s0 s) : Keeps s0 (State.selfOffset s d n subtick) := by
  unfold State.selfOffset
  repeat' (first | with_reducible assumption | with_reducible first | apply keeps_wrI | apply keeps_wr | apply keeps_ite)

theorem keeps_takeRef {s0 : State} (s : State) (m : Int) (hk : Keeps s0 s) : Keeps s0 (State.takeRef s m) := by
  unfold State.takeRef
  repeat' (first | with_reducible assumption | with_reducible first | apply keeps_setMrsh | apply keeps_wr | apply keeps_ite)

theorem keeps_mrshMiss {s0 : State} (s : State) (hk : Keeps s0 s) : Keeps s0 (State.mrshMiss s) := by
  unfold State.mrshMiss
  repeat' (first | with_reducible assumption | with_reducible first | apply keeps_inc | apply keeps_setMrsh | apply keeps_wr | apply keeps_event | apply keeps_ite)

theorem keeps_mrshBoundary {s0 : State} (s : State) (hk : Keeps s0 s) : Keeps s0 (State.mrshBoundary s) := by
  unfold State.mrshBoundary
  repeat' (first | with_reducible assumption | with_reducible first | apply keeps_wr | apply keeps_setMrsh)

theorem keeps_mrshApply {s0 : State} (s : State) (hk : Keeps s0 s) : Keeps s0 (State.mrshApply s) := by
  unfold State.mrshApply
  repeat' (first | with_reducible assumption | intro _ | with_reducible first | apply keeps_setMrsh | apply keeps_wr | apply keeps_commitRegs | apply keeps_ite | split | extract_lets)

theorem keeps_desync {s0 : State} (s : State) (hk : Keeps s0 s) : Keeps s0 (State.desync s) := by
  unfold State.desync
  repeat' (first | with_reducible assumption | with_reducible first | apply keeps_wr | apply keeps_event | apply keeps_inc | apply keeps_setMrsh | apply keeps_emit | apply keeps_setRing | apply keeps_setJoin | apply keeps_ite)

theorem keeps_listenAgain {s0 : State} (s : State) (hk : Keeps s0 s) : Keeps s0 (State.listenAgain s) := by
  unfold State.listenAgain
  repeat' (first | with_reducible assumption | with_reducible first | apply keeps_emit | apply keeps_setMrsh | apply keeps_setRing | apply keeps_setJoin)

theorem keeps_leaveOut {s0 : State} (s : State) (hk : Keeps s0 s) : Keeps s0 (State.leaveOut s) := by
  unfold State.leaveOut
  repeat' (first | with_reducible assumption | with_reducible first | apply keeps_listenAgain | apply keeps_wr | apply keeps_ite)

theorem keeps_mrshCommit {s0 : State} (s : State) (hk : Keeps s0 s) : Keeps s0 (State.mrshCommit s) := by
  unfold State.mrshCommit
  repeat' (first | with_reducible assumption | with_reducible first | apply keeps_setMrsh)

theorem keeps_showWlog {s0 : State} (s : State) (hk : Keeps s0 s) : Keeps s0 (State.showWlog s) := by
  unfold State.showWlog
  repeat' (first | with_reducible assumption | intro _ | with_reducible first | apply keeps_wr | apply keeps_ite | split | extract_lets)

theorem keeps_warn {s0 : State} (s : State) (d : Nat) (station : Nat) (o : Int) (hk : Keeps s0 s) : Keeps s0 (State.warn s d station o) := by
  unfold State.warn
  repeat' (first | with_reducible assumption | with_reducible first | apply keeps_inc | apply keeps_event | apply keeps_showWlog | apply keeps_setMrsh | apply keeps_wr | apply keeps_ite)

theorem keeps_popWlog {s0 : State} (s : State) (hk : Keeps s0 s) : Keeps s0 (State.popWlog s) := by
  unfold State.popWlog
  repeat' (first | with_reducible assumption | with_reducible first | apply keeps_showWlog | apply keeps_setMrsh)

theorem keeps_watchOne {s0 : State} (s : State) (d : Nat) (station : Nat) (subtick : Nat) (n : Nat) (hk : Keeps s0 s) : Keeps s0 (State.watchOne s d station subtick n) := by
  unfold State.watchOne
  repeat' (first | with_reducible assumption | with_reducible first | apply keeps_wrI | apply keeps_setMrsh | apply keeps_wr | apply keeps_warn | apply keeps_ite)

theorem keeps_watch {s0 : State} (s : State) (d : Nat) (station : Nat) (subtick : Nat) (hk : Keeps s0 s) : Keeps s0 (State.watch s d station subtick) := by
  unfold State.watch
  repeat' (first | with_reducible assumption | intro _ | with_reducible first | apply keeps_each | apply keeps_watchOne | apply keeps_ite)

theorem keeps_opMrshConfig {s0 : State} (c : CmdRec) (s : State) (hk : Keeps s0 s) : Keeps s0 (opMrshConfig c s) := by
  unfold opMrshConfig
  repeat' (first | with_reducible assumption | intro _ | with_reducible first | apply keeps_badParam | apply keeps_shadowCfg | apply keeps_each | apply keeps_done | apply keeps_wr | apply keeps_mrshCommit | apply keeps_ite | split)

theorem keeps_opMrshMode {s0 : State} (c : CmdRec) (s : State) (hk : Keeps s0 s) : Keeps s0 (opMrshMode c s) := by
  unfold opMrshMode
  repeat' (first | with_reducible assumption | with_reducible first | apply keeps_badEnc | apply keeps_done | apply keeps_setMrsh | apply keeps_putCfg | apply keeps_ite)

theorem keeps_opMrshStatus {s0 : State} (c : CmdRec) (s : State) (hk : Keeps s0 s) : Keeps s0 (opMrshStatus c s) := by
  unfold opMrshStatus
  repeat' (first | with_reducible assumption | with_reducible first | apply keeps_done)

theorem keeps_opMrshClear {s0 : State} (c : CmdRec) (s : State) (hk : Keeps s0 s) : Keeps s0 (opMrshClear c s) := by
  unfold opMrshClear
  repeat' (first | with_reducible assumption | intro _ | with_reducible first | apply keeps_when | apply keeps_clearRegs | apply keeps_each | apply keeps_wr | apply keeps_showWlog | apply keeps_setMrsh | apply keeps_leaveOut | apply keeps_done)

theorem keeps_showRingPending {s0 : State} (s : State) (hk : Keeps s0 s) : Keeps s0 (State.showRingPending s) := by
  unfold State.showRingPending
  repeat' (first | with_reducible assumption | with_reducible first | apply keeps_wr)

theorem keeps_ringCfgNew {s0 : State} (s : State) (hk : Keeps s0 s) : Keeps s0 (State.ringCfgNew s) := by
  unfold State.ringCfgNew
  repeat' (first | with_reducible assumption | with_reducible first | apply keeps_wr)

theorem keeps_ringCommit {s0 : State} (s : State) (hk : Keeps s0 s) : Keeps s0 (State.ringCommit s) := by
  unfold State.ringCommit
  repeat' (first | with_reducible assumption | with_reducible first | apply keeps_event | apply keeps_showRingPending | apply keeps_ringCfgNew | apply keeps_commitReg | apply keeps_ite)

theorem keeps_splitCommit {s0 : State} (s : State) (hk : Keeps s0 s) : Keeps s0 (State.splitCommit s) := by
  unfold State.splitCommit
  repeat' (first | with_reducible assumption | with_reducible first | apply keeps_setRing)

theorem keeps_ringCntClr {s0 : State} (s : State) (hk : Keeps s0 s) : Keeps s0 (State.ringCntClr s) := by
  unfold State.ringCntClr
  repeat' (first | with_reducible assumption | with_reducible first | apply keeps_clearRegs)

theorem keeps_pubWindow {s0 : State} (s : State) (i : Nat) (hk : Keeps s0 s) : Keeps s0 (State.pubWindow s i) := by
  unfold State.pubWindow
  repeat' (first | with_reducible assumption | with_reducible first | apply keeps_setRing | apply keeps_ite)

theorem keeps_pubCommit {s0 : State} (s : State) (v : Nat) (hk : Keeps s0 s) : Keeps s0 (State.pubCommit s v) := by
  unfold State.pubCommit
  repeat' (first | with_reducible assumption | intro _ | with_reducible first | apply keeps_each | apply keeps_pubWindow)

theorem keeps_opRingConfig {s0 : State} (c : CmdRec) (s : State) (hk : Keeps s0 s) : Keeps s0 (opRingConfig c s) := by
  unfold opRingConfig
  repeat' (first | with_reducible assumption | with_reducible first | apply keeps_badEnc | apply keeps_fail | apply keeps_event | apply keeps_done | apply keeps_showRingPending | apply keeps_ringCfgNew | apply keeps_putCfg | apply keeps_ite)

theorem keeps_loadImage {s0 : State} (s : State) (ws : List Word) (hk : Keeps s0 s) : Keeps s0 (State.loadImage s ws) := by
  unfold State.loadImage
  repeat' (first | with_reducible assumption | intro _ | with_reducible first | apply keeps_each | apply keeps_setShadow | apply keeps_wr)

theorem keeps_opRingSchedule {s0 : State} (env : Env) (c : CmdRec) (s : State) (hk : Keeps s0 s) : Keeps s0 (opRingSchedule env c s) := by
  unfold opRingSchedule
  repeat' (first | with_reducible assumption | intro _ | with_reducible first | apply keeps_fail | apply keeps_withBuf | apply keeps_done | apply keeps_loadImage | apply keeps_ite | split | extract_lets)

theorem keeps_sendJoin {s0 : State} (s : State) (dring : Nat) (dstation : Nat) (ws : List Word) (hk : Keeps s0 s) : Keeps s0 (State.sendJoin s dring dstation ws) := by
  unfold State.sendJoin
  repeat' (first | with_reducible assumption | with_reducible first | apply keeps_sendFrame)

theorem keeps_addCommit {s0 : State} (s : State) (gen : Nat) (lap : Nat) (wide : Bool) (seq : Option Nat) (hk : Keeps s0 s) : Keeps s0 (State.addCommit s gen lap wide seq) := by
  unfold State.addCommit
  repeat' (first | with_reducible assumption | with_reducible first | apply keeps_setRing)

theorem keeps_opRingCommit {s0 : State} (c : CmdRec) (s : State) (hk : Keeps s0 s) : Keeps s0 (opRingCommit c s) := by
  unfold opRingCommit
  repeat' (first | with_reducible assumption | with_reducible first | apply keeps_fail | apply keeps_badParam | apply keeps_addCommit | apply keeps_sendJoin | apply keeps_ite)

theorem keeps_startJoin {s0 : State} (s : State) (seq : Option Nat) (hk : Keeps s0 s) : Keeps s0 (State.startJoin s seq) := by
  unfold State.startJoin
  repeat' (first | with_reducible assumption | with_reducible first | apply keeps_setRing | apply keeps_setJoin)

theorem keeps_putGrant {s0 : State} (s : State) (g : GrantEnt) (hk : Keeps s0 s) : Keeps s0 (State.putGrant s g) := by
  unfold State.putGrant
  repeat' (first | with_reducible assumption | with_reducible first | apply keeps_setRing)

theorem keeps_opJoinGrant {s0 : State} (env : Env) (c : CmdRec) (s : State) (hk : Keeps s0 s) : Keeps s0 (opJoinGrant env c s) := by
  unfold opJoinGrant
  repeat' (first | with_reducible assumption | intro _ | with_reducible first | apply keeps_badParam | apply keeps_fail | apply keeps_withBuf | apply keeps_done | apply keeps_putGrant | apply keeps_ite | split | extract_lets)

theorem keeps_opRingJoin {s0 : State} (env : Env) (c : CmdRec) (s : State) (hk : Keeps s0 s) : Keeps s0 (opRingJoin env c s) := by
  unfold opRingJoin
  repeat' (first | with_reducible assumption | intro _ | with_reducible first | apply keeps_fail | apply keeps_startJoin | apply keeps_opJoinGrant | apply keeps_done | apply keeps_setRing | apply keeps_badEnc | apply keeps_ite | split)

theorem keeps_opRingSplit {s0 : State} (c : CmdRec) (s : State) (hk : Keeps s0 s) : Keeps s0 (opRingSplit c s) := by
  unfold opRingSplit
  repeat' (first | with_reducible assumption | with_reducible first | apply keeps_badParam | apply keeps_done | apply keeps_showRingPending | apply keeps_shadowCfg | apply keeps_ite)

theorem keeps_opRingCredits {s0 : State} (c : CmdRec) (s : State) (hk : Keeps s0 s) : Keeps s0 (opRingCredits c s) := by
  unfold opRingCredits
  repeat' (first | with_reducible assumption | with_reducible first | apply keeps_done | apply keeps_putCfg)

theorem keeps_opRingStatus {s0 : State} (c : CmdRec) (s : State) (hk : Keeps s0 s) : Keeps s0 (opRingStatus c s) := by
  unfold opRingStatus
  repeat' (first | with_reducible assumption | with_reducible first | apply keeps_done)

theorem keeps_makeActive {s0 : State} (s : State) (hk : Keeps s0 s) : Keeps s0 (State.makeActive s) := by
  unfold State.makeActive
  repeat' (first | with_reducible assumption | with_reducible first | apply keeps_wr | apply keeps_commitRegs | apply keeps_setRing)

theorem keeps_doCommit {s0 : State} (s : State) (q : CommitReq) (hk : Keeps s0 s) : Keeps s0 (State.doCommit s q) := by
  unfold State.doCommit
  repeat' (first | with_reducible assumption | with_reducible first | apply keeps_makeActive | apply keeps_setRing | apply keeps_wr | apply keeps_event | apply keeps_finO | apply keeps_ite)

theorem keeps_applyCommits {s0 : State} (s : State) (hk : Keeps s0 s) : Keeps s0 (State.applyCommits s) := by
  unfold State.applyCommits
  repeat' (first | with_reducible assumption | intro _ | with_reducible first | apply keeps_setRing | apply keeps_each | apply keeps_doCommit | apply keeps_inc | apply keeps_ite)

theorem keeps_missPub {s0 : State} (s : State) (hk : Keeps s0 s) : Keeps s0 (State.missPub s) := by
  unfold State.missPub
  repeat' (first | with_reducible assumption | with_reducible first | apply keeps_event | apply keeps_inc)

theorem keeps_sendWindow {s0 : State} (s : State) (d : Nat) (n : Nat) (subtick : Nat) (f : RFrame) (hk : Keeps s0 s) : Keeps s0 (State.sendWindow s d n subtick f) := by
  unfold State.sendWindow
  repeat' (first | with_reducible assumption | with_reducible first | apply keeps_outScheduled | apply keeps_takeSeq | apply keeps_selfOffset | apply keeps_wr | apply keeps_ite)

theorem keeps_window {s0 : State} (s : State) (d : Nat) (n : Nat) (subtick : Nat) (hk : Keeps s0 s) : Keeps s0 (State.window s d n subtick) := by
  unfold State.window
  repeat' (first | with_reducible assumption | intro _ | with_reducible first | apply keeps_missPub | apply keeps_sendWindow | apply keeps_cutNow | apply keeps_ite | split | extract_lets)

theorem keeps_takeIns {s0 : State} (s : State) (d : Nat) (i : Nat) (hk : Keeps s0 s) : Keeps s0 (State.takeIns s d i) := by
  unfold State.takeIns
  repeat' (first | with_reducible assumption | with_reducible first | apply keeps_setRing)

theorem keeps_charge {s0 : State} (s : State) (d : Nat) (f : InsFrame) (hk : Keeps s0 s) : Keeps s0 (State.charge s d f) := by
  unfold State.charge
  repeat' (first | with_reducible assumption | with_reducible first | apply keeps_setRing | apply keeps_ite)

theorem keeps_insert {s0 : State} (s : State) (d : Nat) (i : Nat) (p : Nat) (subtick : Nat) (f : InsFrame) (hk : Keeps s0 s) : Keeps s0 (State.insert s d i p subtick f) := by
  unfold State.insert
  repeat' (first | with_reducible assumption | with_reducible first | apply keeps_edgeCopies | apply keeps_emitFrame | apply keeps_charge | apply keeps_takeIns | apply keeps_ringMirror | apply keeps_keep | apply keeps_pushStamp | apply keeps_wr | apply keeps_showPool | apply keeps_ite)

theorem keeps_openInsert {s0 : State} (s : State) (d : Nat) (subtick : Nat) (hk : Keeps s0 s) : Keeps s0 (State.openInsert s d subtick) := by
  unfold State.openInsert
  repeat' (first | with_reducible assumption | intro _ | with_reducible first | apply keeps_insert | apply keeps_cutNow | apply keeps_ite | split)

theorem keeps_releaseTransit {s0 : State} (s : State) (p : Nat) (l2 : List TransItem) (hk : Keeps s0 s) : Keeps s0 (State.releaseTransit s p l2) := by
  revert s p
  induction l2 with
  | nil =>
    intros
    unfold State.releaseTransit
    repeat' (first | with_reducible assumption | with_reducible first | apply keeps_setRing)
  | cons v0 t0 ih =>
    intros
    unfold State.releaseTransit
    repeat' (first | assumption | apply ih | with_reducible first | apply keeps_setRing | apply keeps_releaseItem | apply keeps_ite)

theorem keeps_process {s0 : State} (s : State) (f : RFrame) (hk : Keeps s0 s) : Keeps s0 (State.process s f) := by
  unfold State.process
  repeat' (first | with_reducible assumption | with_reducible first | apply keeps_inc | apply keeps_putWords | apply keeps_setRing | apply keeps_ite)

theorem keeps_arriveJoin {s0 : State} (s : State) (p : Nat) (f : RFrame) (k : State → State) (hk : Keeps s0 s) (hf3 : ∀ t, Keeps s0 t → Keeps s0 (k  t)) : Keeps s0 (State.arriveJoin s p f k) := by
  unfold State.arriveJoin
  repeat' (first | with_reducible assumption | intro _ | apply hf3 | with_reducible first | apply keeps_pushIns | apply keeps_arrive | apply keeps_ite | split | extract_lets | (refine Keeps.of_snd (by assumption) ?_))

theorem keeps_answerJoin {s0 : State} (s : State) (f : RFrame) (sub : Nat) (reason : Nat) (gen : Nat) (addr : Nat) (lap : Nat) (image : List Word) (hk : Keeps s0 s) : Keeps s0 (State.answerJoin s f sub reason gen addr lap image) := by
  unfold State.answerJoin
  repeat' (first | with_reducible assumption | with_reducible first | apply keeps_sendJoin)

theorem keeps_grant {s0 : State} (s : State) (f : RFrame) (addr : Nat) (gen : Nat) (image : List Word) (hk : Keeps s0 s) : Keeps s0 (State.grant s f addr gen image) := by
  unfold State.grant
  repeat' (first | with_reducible assumption | with_reducible first | apply keeps_answerJoin | apply keeps_sendJoin | apply keeps_addCommit | apply keeps_setRing)

theorem keeps_joinRequest {s0 : State} (s : State) (f : RFrame) (hk : Keeps s0 s) : Keeps s0 (State.joinRequest s f) := by
  unfold State.joinRequest
  repeat' (first | with_reducible assumption | intro _ | with_reducible first | apply keeps_answerJoin | apply keeps_grant | apply keeps_ite | split)

theorem keeps_joinGranted {s0 : State} (s : State) (f : RFrame) (hk : Keeps s0 s) : Keeps s0 (State.joinGranted s f) := by
  unfold State.joinGranted
  repeat' (first | with_reducible assumption | with_reducible first | apply keeps_wr | apply keeps_loadImage | apply keeps_setJoin | apply keeps_ite)

theorem keeps_sendRequestJoin {s0 : State} (s : State) (hk : Keeps s0 s) : Keeps s0 (State.sendRequestJoin s) := by
  unfold State.sendRequestJoin
  repeat' (first | with_reducible assumption | with_reducible first | apply keeps_setRing | apply keeps_sendJoin)

theorem keeps_joinBusy {s0 : State} (s : State) (hk : Keeps s0 s) : Keeps s0 (State.joinBusy s) := by
  unfold State.joinBusy
  repeat' (first | with_reducible assumption | with_reducible first | apply keeps_joinFail | apply keeps_sendRequestJoin | apply keeps_setRing | apply keeps_ite)

theorem keeps_joinSilent {s0 : State} (s : State) (hk : Keeps s0 s) : Keeps s0 (State.joinSilent s) := by
  unfold State.joinSilent
  repeat' (first | with_reducible assumption | with_reducible first | apply keeps_joinFail | apply keeps_sendRequestJoin | apply keeps_setRing | apply keeps_ite)

theorem keeps_closeNotice {s0 : State} (s : State) (f : RFrame) (hk : Keeps s0 s) : Keeps s0 (State.closeNotice s f) := by
  unfold State.closeNotice
  repeat' (first | with_reducible assumption | with_reducible first | apply keeps_freeStream | apply keeps_addCommit | apply keeps_setRing | apply keeps_setJoin | apply keeps_ite)

theorem keeps_leaveRequest {s0 : State} (s : State) (addr : Nat) (gen : Nat) (lo : Word) (hi : Word) (hk : Keeps s0 s) : Keeps s0 (State.leaveRequest s addr gen lo hi) := by
  unfold State.leaveRequest
  repeat' (first | with_reducible assumption | with_reducible first | apply keeps_sendJoin | apply keeps_addCommit | apply keeps_setRing | apply keeps_dropReserve | apply keeps_ite)

theorem keeps_leaveNotice {s0 : State} (s : State) (f : RFrame) (hk : Keeps s0 s) : Keeps s0 (State.leaveNotice s f) := by
  unfold State.leaveNotice
  repeat' (first | with_reducible assumption | with_reducible first | apply keeps_dropReserve | apply keeps_freeStream | apply keeps_setRing | apply keeps_addCommit | apply keeps_ite)

theorem keeps_opRingLeave {s0 : State} (c : CmdRec) (s : State) (hk : Keeps s0 s) : Keeps s0 (opRingLeave c s) := by
  unfold opRingLeave
  repeat' (first | with_reducible assumption | with_reducible first | apply keeps_fail | apply keeps_setRing | apply keeps_setJoin | apply keeps_leaveRequest | apply keeps_sendJoin | apply keeps_ite)

theorem keeps_joinBoundary {s0 : State} (s : State) (hk : Keeps s0 s) : Keeps s0 (State.joinBoundary s) := by
  unfold State.joinBoundary
  repeat' (first | with_reducible assumption | intro _ | with_reducible first | apply keeps_setRing | apply keeps_setJoin | apply keeps_each | apply keeps_unwrapPort | apply keeps_finO | apply keeps_setRole | apply keeps_ite)

theorem keeps_blockLock {s0 : State} (s : State) (p : Nat) (member : Bool) (hk : Keeps s0 s) : Keeps s0 (State.blockLock s p member) := by
  unfold State.blockLock
  repeat' (first | with_reducible assumption | with_reducible first | apply keeps_setHeal | apply keeps_wr | apply keeps_setTime | apply keeps_ite)

theorem keeps_marker {s0 : State} (s : State) (p : Nat) (v : Nat) (k : State → State) (hk : Keeps s0 s) (hf3 : ∀ t, Keeps s0 t → Keeps s0 (k  t)) : Keeps s0 (State.marker s p v k) := by
  unfold State.marker
  repeat' (first | with_reducible assumption | apply hf3 | with_reducible first | apply keeps_setHeal | apply keeps_outMarker | apply keeps_ite)

theorem keeps_holdMarker {s0 : State} (s : State) (kind : Nat) (port : Nat) (station : Nat) (hk : Keeps s0 s) : Keeps s0 (State.holdMarker s kind port station) := by
  unfold State.holdMarker
  repeat' (first | with_reducible assumption | with_reducible first | apply keeps_healLast | apply keeps_event | apply keeps_inc | apply keeps_queueMarkerReplay | apply keeps_holdAll)

theorem keeps_setLapU {s0 : State} (s : State) (p : Nat) (u : Option Nat) (hk : Keeps s0 s) : Keeps s0 (State.setLapU s p u) := by
  unfold State.setLapU
  repeat' (first | with_reducible assumption | with_reducible first | apply keeps_setHeal)

theorem keeps_portBoundary {s0 : State} (s : State) (p : Nat) (hk : Keeps s0 s) : Keeps s0 (State.portBoundary s p) := by
  unfold State.portBoundary
  repeat' (first | with_reducible assumption | intro _ | with_reducible first | apply keeps_setHeal | apply keeps_unwrapPort | apply keeps_setLapU | apply keeps_wr | apply keeps_ite | split | extract_lets | (refine Keeps.of_snd (by assumption) ?_) | (dsimp -zeta only) | (dsimp -zeta +zetaDelta only))

theorem keeps_healBoundary {s0 : State} (s : State) (hk : Keeps s0 s) : Keeps s0 (State.healBoundary s) := by
  unfold State.healBoundary
  repeat' (first | with_reducible assumption | intro _ | with_reducible first | apply keeps_showWraps | apply keeps_setHeal | apply keeps_each | apply keeps_portBoundary)

theorem keeps_markerReplay {s0 : State} (s : State) (m : Nat) (hk : Keeps s0 s) : Keeps s0 (State.markerReplay s m) := by
  unfold State.markerReplay
  repeat' (first | with_reducible assumption | intro _ | with_reducible first | apply keeps_sendReplay | apply keeps_replayCtl)

theorem keeps_popReplay {s0 : State} (s : State) (hk : Keeps s0 s) : Keeps s0 (State.popReplay s) := by
  unfold State.popReplay
  repeat' (first | with_reducible assumption | with_reducible first | apply keeps_showReplays | apply keeps_setHeal)

theorem keeps_requestReplay {s0 : State} (s : State) (ring : Nat) (station : Nat) (mask : Nat) (exp : List Nat) (hk : Keeps s0 s) : Keeps s0 (State.requestReplay s ring station mask exp) := by
  unfold State.requestReplay
  repeat' (first | with_reducible assumption | intro _ | with_reducible first | apply keeps_sendReplay | apply keeps_replayCtl)

theorem keeps_queueRequest {s0 : State} (s : State) (f : RFrame) (hk : Keeps s0 s) : Keeps s0 (State.queueRequest s f) := by
  unfold State.queueRequest
  repeat' (first | with_reducible assumption | with_reducible first | apply keeps_showReplays | apply keeps_setHeal | apply keeps_event | apply keeps_inc | apply keeps_ite)

theorem keeps_replayStart {s0 : State} (s : State) (f : RFrame) (hk : Keeps s0 s) : Keeps s0 (State.replayStart s f) := by
  unfold State.replayStart
  repeat' (first | with_reducible assumption | intro _ | with_reducible first | apply keeps_setStream | apply keeps_fence | apply keeps_ite | split)

theorem keeps_replayEnd {s0 : State} (s : State) (f : RFrame) (hk : Keeps s0 s) : Keeps s0 (State.replayEnd s f) := by
  unfold State.replayEnd
  repeat' (first | with_reducible assumption | intro _ | with_reducible first | apply keeps_setStream | apply keeps_enterRecover | apply keeps_ite | split)

theorem keeps_holdTimeout {s0 : State} (s : State) (ring : Nat) (station : Nat) (hk : Keeps s0 s) : Keeps s0 (State.holdTimeout s ring station) := by
  unfold State.holdTimeout
  repeat' (first | with_reducible assumption | intro _ | with_reducible first | apply keeps_enterRecover | apply keeps_setStream | apply keeps_ite | split)

theorem keeps_recoverTimeout {s0 : State} (s : State) (ring : Nat) (station : Nat) (hk : Keeps s0 s) : Keeps s0 (State.recoverTimeout s ring station) := by
  unfold State.recoverTimeout
  repeat' (first | with_reducible assumption | intro _ | with_reducible first | apply keeps_fence | apply keeps_sendRequest | apply keeps_setStream | apply keeps_ite | split)

theorem keeps_opHealFlush {s0 : State} (c : CmdRec) (s : State) (hk : Keeps s0 s) : Keeps s0 (opHealFlush c s) := by
  unfold opHealFlush
  repeat' (first | with_reducible assumption | with_reducible first | apply keeps_fail | apply keeps_showWraps | apply keeps_setHeal | apply keeps_done | apply keeps_ite)

theorem keeps_forcePort {s0 : State} (s : State) (p : Nat) (v : Bool) (hk : Keeps s0 s) : Keeps s0 (State.forcePort s p v) := by
  unfold State.forcePort
  repeat' (first | with_reducible assumption | with_reducible first | apply keeps_setHeal)

theorem keeps_opRingHeal {s0 : State} (c : CmdRec) (s : State) (hk : Keeps s0 s) : Keeps s0 (opRingHeal c s) := by
  unfold opRingHeal
  repeat' (first | with_reducible assumption | intro _ | with_reducible first | apply keeps_badEnc | apply keeps_wr | apply keeps_wrS | apply keeps_done | apply keeps_each | apply keeps_portFail | apply keeps_forcePort | apply keeps_opHealFlush | apply keeps_ite | split)

theorem keeps_dropFence {s0 : State} (s : State) (n : Nat) (hk : Keeps s0 s) : Keeps s0 (State.dropFence s n) := by
  unfold State.dropFence
  repeat' (first | with_reducible assumption | intro _ | with_reducible first | apply keeps_each | apply keeps_setReg | apply keeps_wr)

theorem keeps_clearFence {s0 : State} (s : State) (x : Stream) (hk : Keeps s0 s) : Keeps s0 (State.clearFence s x) := by
  unfold State.clearFence
  repeat' (first | with_reducible assumption | intro _ | with_reducible first | apply keeps_setStream | apply keeps_dropFence | apply keeps_showFences | apply keeps_ite | split)

theorem keeps_opFabFenceclr {s0 : State} (c : CmdRec) (s : State) (hk : Keeps s0 s) : Keeps s0 (opFabFenceclr c s) := by
  unfold opFabFenceclr
  repeat' (first | with_reducible assumption | intro _ | with_reducible first | apply keeps_done | apply keeps_each | apply keeps_clearFence)

theorem keeps_delayRequest {s0 : State} (s : State) (p : Nat) (subtick : Nat) (hk : Keeps s0 s) : Keeps s0 (State.delayRequest s p subtick) := by
  unfold State.delayRequest
  repeat' (first | with_reducible assumption | with_reducible first | apply keeps_inc | apply keeps_emit | apply keeps_setLink | apply keeps_ite)

theorem keeps_linkSample {s0 : State} (s : State) (p : Nat) (x : Int) (hk : Keeps s0 s) : Keeps s0 (State.linkSample s p x) := by
  unfold State.linkSample
  repeat' (first | with_reducible assumption | with_reducible first | apply keeps_inc | apply keeps_wrI | apply keeps_setLink | apply keeps_wr | apply keeps_ite)

theorem keeps_adoptLap {s0 : State} (s : State) (f : RFrame) (hk : Keeps s0 s) : Keeps s0 (State.adoptLap s f) := by
  unfold State.adoptLap
  repeat' (first | with_reducible assumption | with_reducible first | apply keeps_setTime | apply keeps_addc | apply keeps_ite)

theorem keeps_markTaken {s0 : State} (s : State) (f : RFrame) (hk : Keeps s0 s) : Keeps s0 (State.markTaken s f) := by
  unfold State.markTaken
  repeat' (first | with_reducible assumption | with_reducible first | apply keeps_setTime | apply keeps_ite)

theorem keeps_takeCopy {s0 : State} (s : State) (p : Nat) (subtick : Nat) (f : RFrame) (hk : Keeps s0 s) : Keeps s0 (State.takeCopy s p subtick f) := by
  unfold State.takeCopy
  repeat' (first | with_reducible assumption | with_reducible first | apply keeps_setTime | apply keeps_wrI | apply keeps_takeRef | apply keeps_ite)

theorem keeps_listenFrame {s0 : State} (s : State) (p : Nat) (hk : Keeps s0 s) : Keeps s0 (State.listenFrame s p) := by
  unfold State.listenFrame
  repeat' (first | with_reducible assumption | with_reducible first | apply keeps_setRing | apply keeps_sendRequestJoin | apply keeps_setJoin | apply keeps_ite)

theorem keeps_followFrame {s0 : State} (s : State) (f : RFrame) (hk : Keeps s0 s) : Keeps s0 (State.followFrame s f) := by
  unfold State.followFrame
  repeat' (first | with_reducible assumption | with_reducible first | apply keeps_wr | apply keeps_setTime | apply keeps_setReserves | apply keeps_setRing | apply keeps_enterFollow | apply keeps_setJoin | apply keeps_startJoin | apply keeps_setRole | apply keeps_ite)

theorem keeps_noteStarter {s0 : State} (s : State) (f : RFrame) (hk : Keeps s0 s) : Keeps s0 (State.noteStarter s f) := by
  unfold State.noteStarter
  repeat' (first | with_reducible assumption | with_reducible first | apply keeps_setRing | apply keeps_event | apply keeps_ite)

theorem keeps_meetStarter {s0 : State} (s : State) (f : RFrame) (hk : Keeps s0 s) : Keeps s0 (State.meetStarter s f) := by
  unfold State.meetStarter
  repeat' (first | with_reducible assumption | with_reducible first | apply keeps_event | apply keeps_setTime | apply keeps_ite)

theorem keeps_lapTaken {s0 : State} (s : State) (p : Nat) (subtick : Nat) (f : RFrame) (hk : Keeps s0 s) : Keeps s0 (State.lapTaken s p subtick f) := by
  unfold State.lapTaken
  repeat' (first | with_reducible assumption | with_reducible first | apply keeps_meetStarter | apply keeps_followFrame | apply keeps_markTaken | apply keeps_adoptLap | apply keeps_noteStarter | apply keeps_listenFrame | apply keeps_takeCopy | apply keeps_ite)

theorem keeps_lapReturned {s0 : State} (s : State) (p : Nat) (subtick : Nat) (f : RFrame) (hk : Keeps s0 s) : Keeps s0 (State.lapReturned s p subtick f) := by
  unfold State.lapReturned
  repeat' (first | with_reducible assumption | intro _ | with_reducible first | apply keeps_setTime | apply keeps_ite | split)

theorem keeps_lapFrame {s0 : State} (s : State) (p : Nat) (subtick : Nat) (res : Nat) (f : RFrame) (hk : Keeps s0 s) : Keeps s0 (State.lapFrame s p subtick res f) := by
  unfold State.lapFrame
  repeat' (first | with_reducible assumption | intro _ | with_reducible first | apply keeps_badHeader | apply keeps_forward | apply keeps_arrive | apply keeps_lapTaken | apply keeps_lapReturned | apply keeps_setRing | apply keeps_ite | split | extract_lets | (refine Keeps.of_snd (by assumption) ?_))

theorem keeps_sendLapDir {s0 : State} (s : State) (d : Nat) (dep : Nat) (hk : Keeps s0 s) : Keeps s0 (State.sendLapDir s d dep) := by
  unfold State.sendLapDir
  repeat' (first | with_reducible assumption | with_reducible first | apply keeps_outScheduled | apply keeps_takeSeq | apply keeps_takeRef | apply keeps_ite)

theorem keeps_sendLap {s0 : State} (s : State) (dep0 : Nat) (dep1 : Nat) (hk : Keeps s0 s) : Keeps s0 (State.sendLap s dep0 dep1) := by
  unfold State.sendLap
  repeat' (first | with_reducible assumption | with_reducible first | apply keeps_sendLapDir | apply keeps_setTime)

theorem keeps_asymBoundary {s0 : State} (s : State) (hk : Keeps s0 s) : Keeps s0 (State.asymBoundary s) := by
  unfold State.asymBoundary
  repeat' (first | with_reducible assumption | intro _ | with_reducible first | apply keeps_event | apply keeps_setTime | apply keeps_fin | apply keeps_ite | split)

theorem keeps_putAsym {s0 : State} (s : State) (p : Nat) (a : Word) (hk : Keeps s0 s) : Keeps s0 (State.putAsym s p a) := by
  unfold State.putAsym
  repeat' (first | with_reducible assumption | with_reducible first | apply keeps_setReg | apply keeps_setTime | apply keeps_wr | apply keeps_ite)

theorem keeps_syncCheck {s0 : State} (s : State) (theta : Int) (hk : Keeps s0 s) : Keeps s0 (State.syncCheck s theta) := by
  unfold State.syncCheck
  repeat' (first | with_reducible assumption | with_reducible first | apply keeps_setTime | apply keeps_wr | apply keeps_event | apply keeps_ite)

theorem keeps_lapEnds {s0 : State} (s : State) (hk : Keeps s0 s) : Keeps s0 (State.lapEnds s) := by
  unfold State.lapEnds
  repeat' (first | with_reducible assumption | intro _ | with_reducible first | apply keeps_wr | apply keeps_setTime | apply keeps_syncCheck | apply keeps_event | apply keeps_inc | apply keeps_ite | split)

theorem keeps_openLap {s0 : State} (s : State) (hk : Keeps s0 s) : Keeps s0 (State.openLap s) := by
  unfold State.openLap
  repeat' (first | with_reducible assumption | with_reducible first | apply keeps_setLap | apply keeps_setTime)

theorem keeps_timeChanges {s0 : State} (s : State) (hk : Keeps s0 s) : Keeps s0 (State.timeChanges s) := by
  unfold State.timeChanges
  repeat' (first | with_reducible assumption | intro _ | with_reducible first | apply keeps_newSet | apply keeps_setTime | apply keeps_wr | apply keeps_each | apply keeps_putAsym | apply keeps_ite | split)

theorem keeps_yieldNow {s0 : State} (s : State) (hk : Keeps s0 s) : Keeps s0 (State.yieldNow s) := by
  unfold State.yieldNow
  repeat' (first | with_reducible assumption | with_reducible first | apply keeps_setRole | apply keeps_setTime | apply keeps_enterFollow | apply keeps_wr | apply keeps_ite)

theorem keeps_timeBoundary {s0 : State} (s : State) (hk : Keeps s0 s) : Keeps s0 (State.timeBoundary s) := by
  unfold State.timeBoundary
  repeat' (first | with_reducible assumption | with_reducible first | apply keeps_timeChanges | apply keeps_openLap | apply keeps_asymBoundary | apply keeps_lapEnds | apply keeps_yieldNow)

theorem keeps_servo {s0 : State} (s : State) (hk : Keeps s0 s) : Keeps s0 (State.servo s) := by
  unfold State.servo
  repeat' (first | with_reducible assumption | with_reducible first | apply keeps_setTime | apply keeps_newSet | apply keeps_inc | apply keeps_ite)

theorem keeps_addClaim {s0 : State} (s : State) (c : Claim) (hk : Keeps s0 s) : Keeps s0 (State.addClaim s c) := by
  unfold State.addClaim
  repeat' (first | with_reducible assumption | with_reducible first | apply keeps_setTime)

theorem keeps_sendClaim {s0 : State} (s : State) (hk : Keeps s0 s) : Keeps s0 (State.sendClaim s) := by
  unfold State.sendClaim
  repeat' (first | with_reducible assumption | intro _ | with_reducible first | apply keeps_addClaim | apply keeps_setRole | apply keeps_setTime | apply keeps_each | apply keeps_outScheduled | apply keeps_takeSeq | apply keeps_ite)

theorem keeps_claimTaken {s0 : State} (s : State) (f : RFrame) (hk : Keeps s0 s) : Keeps s0 (State.claimTaken s f) := by
  unfold State.claimTaken
  repeat' (first | with_reducible assumption | with_reducible first | apply keeps_sendClaim | apply keeps_addClaim | apply keeps_ite)

theorem keeps_settle {s0 : State} (s : State) (hk : Keeps s0 s) : Keeps s0 (State.settle s) := by
  unfold State.settle
  repeat' (first | with_reducible assumption | with_reducible first | apply keeps_setTime | apply keeps_setJoin | apply keeps_setReserves | apply keeps_setRole | apply keeps_setRing | apply keeps_enterFollow | apply keeps_ite)

theorem keeps_enterStart {s0 : State} (s : State) (hk : Keeps s0 s) : Keeps s0 (State.enterStart s) := by
  unfold State.enterStart
  repeat' (first | with_reducible assumption | with_reducible first | apply keeps_setTime | apply keeps_setRole | apply keeps_ite)

theorem keeps_eightMissed {s0 : State} (s : State) (hk : Keeps s0 s) : Keeps s0 (State.eightMissed s) := by
  unfold State.eightMissed
  repeat' (first | with_reducible assumption | with_reducible first | apply keeps_setJoin | apply keeps_setTime | apply keeps_wr | apply keeps_enterStart | apply keeps_setRole)

theorem keeps_takeover {s0 : State} (s : State) (dep0 : Nat) (dep1 : Nat) (hk : Keeps s0 s) : Keeps s0 (State.takeover s dep0 dep1) := by
  unfold State.takeover
  repeat' (first | with_reducible assumption | with_reducible first | apply keeps_wr | apply keeps_setReserves | apply keeps_setRole | apply keeps_event | apply keeps_setRing | apply keeps_sendLap | apply keeps_setTime)

theorem keeps_forerunner {s0 : State} (s : State) (f : RFrame) (subtick : Nat) (hk : Keeps s0 s) : Keeps s0 (State.forerunner s f subtick) := by
  unfold State.forerunner
  repeat' (first | with_reducible assumption | with_reducible first | apply keeps_inc | apply keeps_setTime | apply keeps_wrI | apply keeps_takeRef | apply keeps_setRing | apply keeps_wr | apply keeps_setJoin | apply keeps_ite)

theorem keeps_snapshot {s0 : State} (s : State) (hk : Keeps s0 s) : Keeps s0 (State.snapshot s) := by
  unfold State.snapshot
  repeat' (first | with_reducible assumption | with_reducible first | apply keeps_wr)

theorem keeps_timeCntClr {s0 : State} (s : State) (hk : Keeps s0 s) : Keeps s0 (State.timeCntClr s) := by
  unfold State.timeCntClr
  repeat' (first | with_reducible assumption | with_reducible first | apply keeps_clearRegs)

theorem keeps_setTrig {s0 : State} (s : State) (n : Nat) (f : TrigSt → TrigSt) (hk : Keeps s0 s) : Keeps s0 (State.setTrig s n f) := by
  unfold State.setTrig
  repeat' (first | with_reducible assumption | with_reducible first | apply keeps_setTime)

theorem keeps_missTrig {s0 : State} (s : State) (n : Nat) (hk : Keeps s0 s) : Keeps s0 (State.missTrig s n) := by
  unfold State.missTrig
  repeat' (first | with_reducible assumption | with_reducible first | apply keeps_event | apply keeps_wr)

theorem keeps_startTrig {s0 : State} (s : State) (n : Nat) (hk : Keeps s0 s) : Keeps s0 (State.startTrig s n) := by
  unfold State.startTrig
  repeat' (first | with_reducible assumption | with_reducible first | apply keeps_setTrig | apply keeps_missTrig | apply keeps_ite)

theorem keeps_trigCommit {s0 : State} (s : State) (n : Nat) (hk : Keeps s0 s) : Keeps s0 (State.trigCommit s n) := by
  unfold State.trigCommit
  repeat' (first | with_reducible assumption | with_reducible first | apply keeps_commitRegs | apply keeps_startTrig | apply keeps_wr | apply keeps_ite)

theorem keeps_captureEdge {s0 : State} (s : State) (n : Nat) (rising : Bool) (hk : Keeps s0 s) : Keeps s0 (State.captureEdge s n rising) := by
  unfold State.captureEdge
  repeat' (first | with_reducible assumption | with_reducible first | apply keeps_sideBand | apply keeps_pushCapture | apply keeps_ite)

theorem keeps_popCapture {s0 : State} (s : State) (n : Nat) (hk : Keeps s0 s) : Keeps s0 (State.popCapture s n) := by
  unfold State.popCapture
  repeat' (first | with_reducible assumption | with_reducible first | apply keeps_showCapture | apply keeps_setTime)

theorem keeps_popStamp {s0 : State} (s : State) (q : Nat) (hk : Keeps s0 s) : Keeps s0 (State.popStamp s q) := by
  unfold State.popStamp
  repeat' (first | with_reducible assumption | with_reducible first | apply keeps_showStamp | apply keeps_setTime)

theorem keeps_setPtp {s0 : State} (s : State) (m : Nat) (f : PtpSt → PtpSt) (hk : Keeps s0 s) : Keeps s0 (State.setPtp s m f) := by
  unfold State.setPtp
  repeat' (first | with_reducible assumption | with_reducible first | apply keeps_setTime)

theorem keeps_ptpMessage {s0 : State} (s : State) (m : Nat) (src : Nat) (offset : Option Word) (hk : Keeps s0 s) : Keeps s0 (State.ptpMessage s m src offset) := by
  unfold State.ptpMessage
  repeat' (first | with_reducible assumption | intro _ | with_reducible first | apply keeps_setNet | apply keeps_setPtp | apply keeps_setTime | apply keeps_ite | split)

theorem keeps_opTimeStarter {s0 : State} (c : CmdRec) (s : State) (hk : Keeps s0 s) : Keeps s0 (opTimeStarter c s) := by
  unfold opTimeStarter
  repeat' (first | with_reducible assumption | intro _ | with_reducible first | apply keeps_badEnc | apply keeps_wr | apply keeps_setRole | apply keeps_done | apply keeps_setReserves | apply keeps_fail | apply keeps_ite | split)

theorem keeps_setRunning {s0 : State} (s : State) (c : CmdRec) (hk : Keeps s0 s) : Keeps s0 (State.setRunning s c) := by
  unfold State.setRunning
  repeat' (first | with_reducible assumption | with_reducible first | apply keeps_setTime | apply keeps_done | apply keeps_ite)

theorem keeps_opTimeSet {s0 : State} (c : CmdRec) (s : State) (hk : Keeps s0 s) : Keeps s0 (opTimeSet c s) := by
  unfold opTimeSet
  repeat' (first | with_reducible assumption | with_reducible first | apply keeps_badParam | apply keeps_fail | apply keeps_setRunning | apply keeps_newSet | apply keeps_done | apply keeps_wr | apply keeps_ite)

theorem keeps_opTimeAsym {s0 : State} (c : CmdRec) (s : State) (hk : Keeps s0 s) : Keeps s0 (opTimeAsym c s) := by
  unfold opTimeAsym
  repeat' (first | with_reducible assumption | with_reducible first | apply keeps_setTime | apply keeps_putAsym | apply keeps_done | apply keeps_fail | apply keeps_ite)

theorem keeps_opTimeTrig {s0 : State} (c : CmdRec) (s : State) (hk : Keeps s0 s) : Keeps s0 (opTimeTrig c s) := by
  unfold opTimeTrig
  repeat' (first | with_reducible assumption | with_reducible first | apply keeps_badEnc | apply keeps_badParam | apply keeps_fail | apply keeps_done | apply keeps_startTrig | apply keeps_putCfgs | apply keeps_ite)

theorem keeps_opTimeCapt {s0 : State} (c : CmdRec) (s : State) (hk : Keeps s0 s) : Keeps s0 (opTimeCapt c s) := by
  unfold opTimeCapt
  repeat' (first | with_reducible assumption | with_reducible first | apply keeps_badEnc | apply keeps_wr | apply keeps_done | apply keeps_ite)

theorem keeps_opTimeUtc {s0 : State} (c : CmdRec) (s : State) (hk : Keeps s0 s) : Keeps s0 (opTimeUtc c s) := by
  unfold opTimeUtc
  repeat' (first | with_reducible assumption | with_reducible first | apply keeps_fail | apply keeps_done | apply keeps_wr | apply keeps_ite)

theorem keeps_showSource {s0 : State} (s : State) (hk : Keeps s0 s) : Keeps s0 (State.showSource s) := by
  unfold State.showSource
  repeat' (first | with_reducible assumption | with_reducible first | apply keeps_wr)

theorem keeps_opTimePtp {s0 : State} (c : CmdRec) (s : State) (hk : Keeps s0 s) : Keeps s0 (opTimePtp c s) := by
  unfold opTimePtp
  repeat' (first | with_reducible assumption | with_reducible first | apply keeps_badEnc | apply keeps_fail | apply keeps_setPtp | apply keeps_done | apply keeps_showSource | apply keeps_ite)

theorem keeps_opTimeStatus {s0 : State} (c : CmdRec) (s : State) (hk : Keeps s0 s) : Keeps s0 (opTimeStatus c s) := by
  unfold opTimeStatus
  repeat' (first | with_reducible assumption | with_reducible first | apply keeps_done)

end Sys2Proof.Machine
end

