-- ==== Sys2Proof/Laws/KeepsCmd.lean ====
section
/-! SUPPORT. What every operation keeps: the raw counter, the queue of commands, and the canonical forms of registers and memory; here for
the store, the command core, calls, memory, system, network, motion and drives. -/
namespace Sys2Proof.Machine
open Sys2Proof

theorem keeps_storeShow {s0 : State} (s : State) (b : Nat) (ok : Bool) (seq : Word) (hk : Keeps s0 s) : Keeps s0 (State.storeShow s b ok seq) := by
  unfold State.storeShow
  repeat' (first | with_reducible assumption | with_reducible first | apply keeps_wr | apply keeps_ite)

theorem keeps_storeWrite {s0 : State} (s : State) (es : List StoreEnt) (bad : Bool) (hk : Keeps s0 s) : Keeps s0 (State.storeWrite s es bad).2 := by
  unfold State.storeWrite
  repeat' (first | with_reducible assumption | intro _ | with_reducible first | apply keeps_putWords | apply keeps_event | apply keeps_storeShow | apply keeps_wr | apply keeps_ite | split | extract_lets)

theorem keeps_storeChange {s0 : State} (s : State) (c : CmdRec) (env : Env) (es : List StoreEnt) (res : State → List Word) (hk : Keeps s0 s) : Keeps s0 (State.storeChange s c env es res) := by
  unfold State.storeChange
  repeat' (first | with_reducible assumption | intro _ | apply hf4 | with_reducible first | apply keeps_fail | apply keeps_storeWrite | apply keeps_done | apply keeps_ite | split | extract_lets | (refine Keeps.of_snd (by assumption) ?_))

theorem keeps_opStoreWrite {s0 : State} (env : Env) (c : CmdRec) (s : State) (hk : Keeps s0 s) : Keeps s0 (opStoreWrite env c s) := by
  unfold opStoreWrite
  repeat' (first | with_reducible assumption | intro _ | with_reducible first | apply keeps_withBuf | apply keeps_fail | apply keeps_storeChange | apply keeps_ite | split | extract_lets)

theorem keeps_opStoreRead {s0 : State} (_env : Env) (c : CmdRec) (s : State) (hk : Keeps s0 s) : Keeps s0 (opStoreRead _env c s) := by
  unfold opStoreRead
  repeat' (first | with_reducible assumption | intro _ | with_reducible first | apply keeps_withOut | apply keeps_done | apply keeps_writeBuf)

theorem keeps_opStoreList {s0 : State} (_env : Env) (c : CmdRec) (s : State) (hk : Keeps s0 s) : Keeps s0 (opStoreList _env c s) := by
  unfold opStoreList
  repeat' (first | with_reducible assumption | intro _ | with_reducible first | apply keeps_withOut | apply keeps_done | apply keeps_writeBuf)

theorem keeps_opStoreErase {s0 : State} (env : Env) (c : CmdRec) (s : State) (hk : Keeps s0 s) : Keeps s0 (opStoreErase env c s) := by
  unfold opStoreErase
  repeat' (first | with_reducible assumption | with_reducible first | apply keeps_badParam | apply keeps_fail | apply keeps_storeChange | apply keeps_ite)

theorem keeps_opStoreStatus {s0 : State} (_env : Env) (c : CmdRec) (s : State) (hk : Keeps s0 s) : Keeps s0 (opStoreStatus _env c s) := by
  unfold opStoreStatus
  repeat' (first | with_reducible assumption | with_reducible first | apply keeps_done)

theorem keeps_opStoreFactory {s0 : State} (env : Env) (c : CmdRec) (s : State) (hk : Keeps s0 s) : Keeps s0 (opStoreFactory env c s) := by
  unfold opStoreFactory
  repeat' (first | with_reducible assumption | with_reducible first | apply keeps_storeChange)

theorem keeps_storeDevice {s0 : State} (s : State) (key : Nat) (data : List Word) (bad : Bool) (hk : Keeps s0 s) : Keeps s0 (State.storeDevice s key data bad).2 := by
  unfold State.storeDevice
  repeat' (first | with_reducible assumption | with_reducible first | apply keeps_storeWrite)

theorem keeps_storeDrop {s0 : State} (s : State) (key : Nat) (bad : Bool) (hk : Keeps s0 s) : Keeps s0 (State.storeDrop s key bad).2 := by
  unfold State.storeDrop
  repeat' (first | with_reducible assumption | with_reducible first | apply keeps_storeWrite)

theorem keeps_showFlight {s0 : State} (s : State) (hk : Keeps s0 s) : Keeps s0 (State.showFlight s) := by
  unfold State.showFlight
  repeat' (first | with_reducible assumption | intro _ | with_reducible first | apply keeps_wr | apply keeps_each)

theorem keeps_cqAdvance {s0 : State} (s : State) (q : Nat) (hk : Keeps s0 s) : Keeps s0 (State.cqAdvance s q) := by
  unfold State.cqAdvance
  repeat' (first | with_reducible assumption | with_reducible first | apply keeps_wr | apply keeps_setQueue | apply keeps_ite)

theorem keeps_finalFlag {s0 : State} (s : State) (q : Nat) (hk : Keeps s0 s) : Keeps s0 (State.finalFlag s q) := by
  unfold State.finalFlag
  repeat' (first | with_reducible assumption | with_reducible first | apply keeps_wr | apply keeps_signalQueue | apply keeps_ite)

theorem keeps_post {s0 : State} (s : State) (q : Nat) (x : PostItem) (st : Nat) (rs : List Word) (hostFail : Bool) (hk : Keeps s0 s) : Keeps s0 (State.post s q x st rs hostFail) := by
  unfold State.post
  repeat' (first | with_reducible assumption | with_reducible first | apply keeps_wr | apply keeps_finalFlag | apply keeps_cqAdvance | apply keeps_emit | apply keeps_coreWords | apply keeps_ite)

theorem keeps_drain {s0 : State} (s : State) (q : Nat) (hostFail : Bool) (l3 : Nat) (hk : Keeps s0 s) : Keeps s0 (State.drain s q hostFail l3) := by
  revert s q hostFail
  induction l3 with
  | zero =>
    intros
    unfold State.drain
    repeat' (first | with_reducible assumption)
  | succ n0 ih =>
    intros
    unfold State.drain
    repeat' (first | assumption | apply ih | intro _ | with_reducible first | apply keeps_setQueue | apply keeps_post | apply keeps_ite | split)

theorem keeps_drainAll {s0 : State} (s : State) (q : Nat) (hostFail : Bool) (hk : Keeps s0 s) : Keeps s0 (State.drainAll s q hostFail) := by
  unfold State.drainAll
  repeat' (first | with_reducible assumption | with_reducible first | apply keeps_drain)

theorem keeps_slotWord {s0 : State} (s : State) (a : Nat) (hk : Keeps s0 s) : Keeps s0 (State.slotWord s a).2 := by
  unfold State.slotWord
  repeat' (first | with_reducible assumption | intro _ | with_reducible first | apply keeps_rdMem | apply keeps_useFree | apply keeps_ite | split | extract_lets | (refine Keeps.of_snd (by assumption) ?_))

theorem keeps_slotWords {s0 : State} (s : State) (a : Nat) (l2 : Nat) (hk : Keeps s0 s) : Keeps s0 (State.slotWords s a l2).2.2 := by
  revert s a
  induction l2 with
  | zero =>
    intros
    unfold State.slotWords
    repeat' (first | with_reducible assumption)
  | succ n0 ih =>
    intros
    unfold State.slotWords
    repeat' (first | assumption | apply ih | with_reducible first | apply keeps_slotWord)

theorem keeps_slotAt {s0 : State} (s : State) (a : Nat) (hk : Keeps s0 s) : Keeps s0 (s.slotAt a).2.2 := by
  have aux : ∀ x : (Word × Bool) × State, Keeps s0 x.2 → Keeps s0 (if x.1.2 = true then ([x.1.1], true, x.2)
        else
          let r := x.2.slotWords (a + 4) (min (getF x.1.1 0 8) 64 - 1)
          (x.1.1 :: r.1, r.2.1, r.2.2)).2.2 := by
    intro x hx
    split
    · exact hx
    · generalize min (getF x.1.1 0 8) 64 - 1 = n
      exact keeps_slotWords _ _ n hx
  exact aux (s.slotWord a) (keeps_slotWord s a hk)

theorem keeps_readSlot {s0 : State} (s : State) (q : Nat) (env : Env) (hk : Keeps s0 s) : Keeps s0 (State.readSlot s q env).2.2 := by
  unfold State.readSlot
  repeat' (first | with_reducible assumption | intro _ | with_reducible first | apply keeps_slotAt | apply keeps_ite | split)

theorem keeps_acceptSlot {s0 : State} (s : State) (q : Nat) (ws : List Word) (bad : Bool) (hostFail : Bool) (hk : Keeps s0 s) : Keeps s0 (State.acceptSlot s q ws bad hostFail) := by
  unfold State.acceptSlot
  repeat' (first | with_reducible assumption | intro _ | with_reducible first | apply keeps_bookPut | apply keeps_showBook | apply keeps_wr | apply keeps_drainAll | apply keeps_setQueue | apply keeps_ite | split | (dsimp -zeta only) | apply keeps_mk)

theorem keeps_consume {s0 : State} (s : State) (env : Env) (hk : Keeps s0 s) : Keeps s0 (State.consume s env) := by
  unfold State.consume
  repeat' (first | with_reducible assumption | intro _ | with_reducible first | apply keeps_wr | apply keeps_readSlot | apply keeps_acceptSlot | apply keeps_ite | split | (dsimp -zeta only) | apply keeps_mk)

theorem keeps_startCmd {s0 : State} (s : State) (c : CmdRec) (hostFail : Bool) (hk : Keeps s0 s) : Keeps s0 (State.startCmd s c hostFail) := by
  unfold State.startCmd
  repeat' (first | with_reducible assumption | with_reducible first | apply keeps_bookSet | apply keeps_showFlight | apply keeps_modCmd | apply keeps_drainAll | apply keeps_setQueue | apply keeps_ite)

theorem keeps_coreFault {s0 : State} (s : State) (hk : Keeps s0 s) : Keeps s0 (State.coreFault s) := by
  unfold State.coreFault
  repeat' (first | with_reducible assumption | with_reducible first | apply keeps_trip | apply keeps_ite | apply keeps_mk)

theorem keeps_postEnd {s0 : State} (s : State) (c : CmdRec) (st : Nat) (rs : List Word) (hostFail : Bool) (hk : Keeps s0 s) : Keeps s0 (State.postEnd s c st rs hostFail) := by
  unfold State.postEnd
  repeat' (first | with_reducible assumption | with_reducible first | apply keeps_finalFlag | apply keeps_drainAll | apply keeps_setQueue | apply keeps_ite)

theorem keeps_endCmd {s0 : State} (s : State) (c : CmdRec) (st : Nat) (rs : List Word) (hostFail : Bool) (hk : Keeps s0 s) : Keeps s0 (State.endCmd s c st rs hostFail) := by
  unfold State.endCmd
  repeat' (first | with_reducible assumption | with_reducible first | apply keeps_bookSet | apply keeps_showFlight | apply keeps_postEnd | apply keeps_coreFault | apply keeps_ite | apply keeps_mk)

theorem keeps_zeroPtrs {s0 : State} (s : State) (q : Nat) (hk : Keeps s0 s) : Keeps s0 (State.zeroPtrs s q) := by
  unfold State.zeroPtrs
  repeat' (first | with_reducible assumption | with_reducible first | apply keeps_wr)

theorem keeps_unpost {s0 : State} (s : State) (q : Nat) (hk : Keeps s0 s) : Keeps s0 (State.unpost s q) := by
  unfold State.unpost
  repeat' (first | with_reducible assumption | with_reducible first | apply keeps_setQueue | apply keeps_ite | apply keeps_mk)

theorem keeps_newEpoch {s0 : State} (s : State) (q : Nat) (e : Nat) (bad : Bool) (hk : Keeps s0 s) : Keeps s0 (State.newEpoch s q e bad) := by
  unfold State.newEpoch
  repeat' (first | with_reducible assumption | intro _ | with_reducible first | apply keeps_storeDevice | apply keeps_wr | apply keeps_setQueue | apply keeps_ite | split | extract_lets | (refine Keeps.of_snd (by assumption) ?_))

theorem keeps_abandonAccepted {s0 : State} (s : State) (q : Nat) (hk : Keeps s0 s) : Keeps s0 (State.abandonAccepted s q) := by
  unfold State.abandonAccepted
  repeat' (first | with_reducible assumption | intro _ | with_reducible first | apply keeps_each | apply keeps_bookSet | apply keeps_ite | split | (dsimp -zeta only) | apply keeps_mk)

theorem keeps_queueReset {s0 : State} (s : State) (q : Nat) (bad : Bool) (hk : Keeps s0 s) : Keeps s0 (State.queueReset s q bad) := by
  unfold State.queueReset
  repeat' (first | with_reducible assumption | with_reducible first | apply keeps_unpost | apply keeps_abandonAccepted | apply keeps_zeroPtrs | apply keeps_wr | apply keeps_newEpoch | apply keeps_ite)

theorem keeps_bindDoorbell {s0 : State} (s : State) (c : Nat) (o : Nat) (hk : Keeps s0 s) : Keeps s0 (State.bindDoorbell s c o) := by
  unfold State.bindDoorbell
  repeat' (first | with_reducible assumption | with_reducible first | apply keeps_wr)

theorem keeps_showQPending {s0 : State} (s : State) (hk : Keeps s0 s) : Keeps s0 (State.showQPending s) := by
  unfold State.showQPending
  repeat' (first | with_reducible assumption | with_reducible first | apply keeps_wr)

theorem keeps_queueCommit {s0 : State} (s : State) (q : Nat) (hk : Keeps s0 s) : Keeps s0 (State.queueCommit s q) := by
  unfold State.queueCommit
  repeat' (first | with_reducible assumption | with_reducible first | apply keeps_wr | apply keeps_showQPending | apply keeps_bindDoorbell | apply keeps_commitRegs | apply keeps_ite)

theorem keeps_queueEnable {s0 : State} (s : State) (q : Nat) (bad : Bool) (hk : Keeps s0 s) : Keeps s0 (State.queueEnable s q bad) := by
  unfold State.queueEnable
  repeat' (first | with_reducible assumption | with_reducible first | apply keeps_newEpoch | apply keeps_zeroPtrs | apply keeps_unpost | apply keeps_wr | apply keeps_ite)

theorem keeps_queueDisable {s0 : State} (s : State) (q : Nat) (hk : Keeps s0 s) : Keeps s0 (State.queueDisable s q) := by
  unfold State.queueDisable
  repeat' (first | with_reducible assumption | with_reducible first | apply keeps_wr | apply keeps_setQueue | apply keeps_abandonAccepted | apply keeps_ite)

theorem keeps_writeQctl {s0 : State} (s : State) (q : Nat) (v : Word) (bad : Bool) (hk : Keeps s0 s) : Keeps s0 (State.writeQctl s q v bad) := by
  unfold State.writeQctl
  repeat' (first | with_reducible assumption | intro _ | with_reducible first | apply keeps_when | apply keeps_queueReset | apply keeps_queueCommit | apply keeps_queueEnable | apply keeps_queueDisable | apply keeps_ite)

theorem keeps_ackChannel {s0 : State} (s : State) (c : Nat) (code : Nat) (hk : Keeps s0 s) : Keeps s0 (State.ackChannel s c code) := by
  unfold State.ackChannel
  repeat' (first | with_reducible assumption | with_reducible first | apply keeps_callPend | apply keeps_wr)

theorem keeps_tailBell {s0 : State} (s : State) (q : Nat) (v : Nat) (hk : Keeps s0 s) : Keeps s0 (State.tailBell s q v).1 := by
  unfold State.tailBell
  repeat' (first | with_reducible assumption | intro _ | with_reducible first | apply keeps_wr | apply keeps_ite | split | extract_lets)

theorem keeps_headBell {s0 : State} (s : State) (q : Nat) (v : Nat) (hk : Keeps s0 s) : Keeps s0 (State.headBell s q v).1 := by
  unfold State.headBell
  repeat' (first | with_reducible assumption | intro _ | with_reducible first | apply keeps_setQueue | apply keeps_wr | apply keeps_ite | split | extract_lets)

theorem keeps_bell {s0 : State} (s : State) (c : Nat) (hk : Keeps s0 s) : Keeps s0 (State.bell s c).1 := by
  unfold State.bell
  repeat' (first | with_reducible assumption | intro _ | with_reducible first | apply keeps_tailBell | apply keeps_headBell | apply keeps_ite | split | extract_lets)

theorem keeps_callRefuse {s0 : State} (s : State) (ident : Nat) (a : Nat) (write : Bool) (hk : Keeps s0 s) : Keeps s0 (State.callRefuse s ident a write) := by
  unfold State.callRefuse
  repeat' (first | with_reducible assumption | with_reducible first | apply keeps_wr | apply keeps_event | apply keeps_ite)

theorem keeps_ringBell {s0 : State} (s : State) (c : Nat) (v : Word) (hk : Keeps s0 s) : Keeps s0 (State.ringBell s c v) := by
  unfold State.ringBell
  repeat' (first | with_reducible assumption | intro _ | with_reducible first | apply keeps_when | apply keeps_inc | apply keeps_wr | apply keeps_ackChannel | apply keeps_deliver | apply keeps_ite)

theorem keeps_writeDoorbell {s0 : State} (s : State) (ident : Nat) (a : Nat) (c : Nat) (v : Word) (hk : Keeps s0 s) : Keeps s0 (State.writeDoorbell s ident a c v) := by
  unfold State.writeDoorbell
  repeat' (first | with_reducible assumption | with_reducible first | apply keeps_ringBell | apply keeps_callRefuse | apply keeps_ite)

theorem keeps_writeMessage {s0 : State} (s : State) (ident : Nat) (a : Nat) (c : Nat) (w : Nat) (v : Word) (hk : Keeps s0 s) : Keeps s0 (State.writeMessage s ident a c w v) := by
  unfold State.writeMessage
  repeat' (first | with_reducible assumption | with_reducible first | apply keeps_wr | apply keeps_callRefuse | apply keeps_ite)

theorem keeps_writeAck {s0 : State} (s : State) (ident : Nat) (a : Nat) (c : Nat) (v : Word) (hk : Keeps s0 s) : Keeps s0 (State.writeAck s ident a c v) := by
  unfold State.writeAck
  repeat' (first | with_reducible assumption | intro _ | with_reducible first | apply keeps_when | apply keeps_ackChannel | apply keeps_callPend | apply keeps_wr | apply keeps_callRefuse | apply keeps_ite)

theorem keeps_writeCallCfg {s0 : State} (s : State) (ident : Nat) (a : Nat) (c : Nat) (v : Word) (hk : Keeps s0 s) : Keeps s0 (State.writeCallCfg s ident a c v) := by
  unfold State.writeCallCfg
  repeat' (first | with_reducible assumption | with_reducible first | apply keeps_wr | apply keeps_callRefuse | apply keeps_ite)

theorem keeps_writeBind {s0 : State} (s : State) (c : Nat) (v : Word) (hk : Keeps s0 s) : Keeps s0 (State.writeBind s c v) := by
  unfold State.writeBind
  repeat' (first | with_reducible assumption | with_reducible first | apply keeps_event | apply keeps_setReg | apply keeps_ite)

theorem keeps_clearCallErr {s0 : State} (s : State) (hk : Keeps s0 s) : Keeps s0 (State.clearCallErr s) := by
  unfold State.clearCallErr
  repeat' (first | with_reducible assumption | with_reducible first | apply keeps_wr)

theorem keeps_clearBank {s0 : State} (s : State) (k : Nat) (h : Keeps s0 s) : Keeps s0 (s.clearBank k) :=
  ⟨h.raw, h.pending, h.regs, fun m => swf_filter _ _ s.mem (h.mem m)⟩

theorem keeps_bankWake {s0 : State} (s : State) (k : Nat) (hk : Keeps s0 s) : Keeps s0 (State.bankWake s k) := by
  unfold State.bankWake
  repeat' (first | with_reducible assumption | with_reducible first | apply keeps_event | apply keeps_setBank | apply keeps_ite)

theorem keeps_freshCode {s0 : State} (s : State) (a : Nat) (hk : Keeps s0 s) : Keeps s0 (State.freshCode s a) := by
  unfold State.freshCode
  repeat' (first | with_reducible assumption | apply keeps_ite | apply keeps_mk)

theorem keeps_remapWord {s0 : State} (s : State) (a : Nat) (hk : Keeps s0 s) : Keeps s0 (State.remapWord s a) := by
  unfold State.remapWord
  repeat' (first | with_reducible assumption | with_reducible first | apply keeps_freshCode | apply keeps_event | apply keeps_inc | apply keeps_wr | apply keeps_ite | apply keeps_mk)

theorem keeps_scrubStep {s0 : State} (s : State) (r : Nat) (hk : Keeps s0 s) : Keeps s0 (State.scrubStep s r) := by
  unfold State.scrubStep
  repeat' (first | with_reducible assumption | with_reducible first | apply keeps_rdCoded | apply keeps_wr | apply keeps_ite | apply keeps_mk)

theorem keeps_memCntClr {s0 : State} (s : State) (hk : Keeps s0 s) : Keeps s0 (State.memCntClr s) := by
  unfold State.memCntClr
  repeat' (first | with_reducible assumption | intro _ | with_reducible first | apply keeps_each | apply keeps_setReg)

theorem keeps_memLogClr {s0 : State} (s : State) (hk : Keeps s0 s) : Keeps s0 (State.memLogClr s) := by
  unfold State.memLogClr
  repeat' (first | with_reducible assumption | intro _ | with_reducible first | apply keeps_wr | apply keeps_each | apply keeps_setReg)

theorem keeps_bankTo {s0 : State} (s : State) (k : Nat) (st : Nat) (hk : Keeps s0 s) : Keeps s0 (State.bankTo s k st) := by
  unfold State.bankTo
  repeat' (first | with_reducible assumption | intro _ | with_reducible first | apply keeps_bankWake | apply keeps_setBank | apply keeps_clearBank | apply keeps_ite | split)

theorem keeps_opMemPower {s0 : State} (c : CmdRec) (s : State) (hk : Keeps s0 s) : Keeps s0 (opMemPower c s) := by
  unfold opMemPower
  repeat' (first | with_reducible assumption | intro _ | with_reducible first | apply keeps_badEnc | apply keeps_fail | apply keeps_each | apply keeps_bankTo | apply keeps_done | apply keeps_ite)

theorem keeps_opMemScrub {s0 : State} (c : CmdRec) (s : State) (hk : Keeps s0 s) : Keeps s0 (opMemScrub c s) := by
  unfold opMemScrub
  repeat' (first | with_reducible assumption | with_reducible first | apply keeps_badEnc | apply keeps_done | apply keeps_wr | apply keeps_ite)

theorem keeps_opMemRemap {s0 : State} (c : CmdRec) (s : State) (hk : Keeps s0 s) : Keeps s0 (opMemRemap c s) := by
  unfold opMemRemap
  repeat' (first | with_reducible assumption | with_reducible first | apply keeps_done | apply keeps_badParam | apply keeps_fail | apply keeps_event | apply keeps_uncorrected | apply keeps_remapWord | apply keeps_ite)

theorem keeps_opMemCopy {s0 : State} (env : Env) (c : CmdRec) (s : State) (hk : Keeps s0 s) : Keeps s0 (opMemCopy env c s) := by
  unfold opMemCopy
  repeat' (first | with_reducible assumption | intro _ | with_reducible first | apply keeps_withOut | apply keeps_fail | apply keeps_withBuf | apply keeps_done | apply keeps_wr | apply keeps_writeBuf | apply keeps_ite)

theorem keeps_opMemStatus {s0 : State} (c : CmdRec) (s : State) (hk : Keeps s0 s) : Keeps s0 (opMemStatus c s) := by
  unfold opMemStatus
  repeat' (first | with_reducible assumption | with_reducible first | apply keeps_done)

theorem keeps_opSysNop {s0 : State} (c : CmdRec) (s : State) (hk : Keeps s0 s) : Keeps s0 (opSysNop c s) := by
  unfold opSysNop
  repeat' (first | with_reducible assumption | with_reducible first | apply keeps_done)

theorem keeps_opSysIdent {s0 : State} (c : CmdRec) (s : State) (hk : Keeps s0 s) : Keeps s0 (opSysIdent c s) := by
  unfold opSysIdent
  repeat' (first | with_reducible assumption | with_reducible first | apply keeps_done)

theorem keeps_opSysReset {s0 : State} (c : CmdRec) (s : State) (hk : Keeps s0 s) : Keeps s0 (opSysReset c s) := by
  unfold opSysReset
  repeat' (first | with_reducible assumption | with_reducible first | apply keeps_done)

theorem keeps_opSysStatus {s0 : State} (c : CmdRec) (s : State) (hk : Keeps s0 s) : Keeps s0 (opSysStatus c s) := by
  unfold opSysStatus
  repeat' (first | with_reducible assumption | with_reducible first | apply keeps_done)

theorem keeps_opSysFwload {s0 : State} (env : Env) (c : CmdRec) (s : State) (hk : Keeps s0 s) : Keeps s0 (opSysFwload env c s) := by
  unfold opSysFwload
  repeat' (first | with_reducible assumption | intro _ | with_reducible first | apply keeps_fail | apply keeps_withBuf | apply keeps_putWords | apply keeps_putWord | apply keeps_done | apply keeps_ite)

theorem keeps_opSysFwselect {s0 : State} (c : CmdRec) (s : State) (hk : Keeps s0 s) : Keeps s0 (opSysFwselect c s) := by
  unfold opSysFwselect
  repeat' (first | with_reducible assumption | with_reducible first | apply keeps_badEnc | apply keeps_fail | apply keeps_wr | apply keeps_done | apply keeps_ite)

theorem keeps_opBookHead {s0 : State} (c : CmdRec) (s : State) (hk : Keeps s0 s) : Keeps s0 (opBookHead c s) := by
  unfold opBookHead
  repeat' (first | with_reducible assumption | with_reducible first | apply keeps_done)

theorem keeps_opBookRead {s0 : State} (c : CmdRec) (s : State) (hk : Keeps s0 s) : Keeps s0 (opBookRead c s) := by
  unfold opBookRead
  repeat' (first | with_reducible assumption | intro _ | with_reducible first | apply keeps_withOut | apply keeps_fail | apply keeps_done | apply keeps_writeBuf | apply keeps_ite)

theorem keeps_opBookFind {s0 : State} (c : CmdRec) (s : State) (hk : Keeps s0 s) : Keeps s0 (opBookFind c s) := by
  unfold opBookFind
  repeat' (first | with_reducible assumption | intro _ | with_reducible first | apply keeps_fail | apply keeps_done | apply keeps_ite | split)

theorem keeps_opBookMark {s0 : State} (c : CmdRec) (s : State) (hk : Keeps s0 s) : Keeps s0 (opBookMark c s) := by
  unfold opBookMark
  repeat' (first | with_reducible assumption | with_reducible first | apply keeps_done)

theorem keeps_hostCommit {s0 : State} (s : State) (hk : Keeps s0 s) : Keeps s0 (State.hostCommit s) := by
  unfold State.hostCommit
  repeat' (first | with_reducible assumption | with_reducible first | apply keeps_wr | apply keeps_commitReg)

theorem keeps_opHostConfig {s0 : State} (c : CmdRec) (s : State) (hk : Keeps s0 s) : Keeps s0 (opHostConfig c s) := by
  unfold opHostConfig
  repeat' (first | with_reducible assumption | intro _ | with_reducible first | apply keeps_badEnc | apply keeps_badParam | apply keeps_fail | apply keeps_wr | apply keeps_wrS | apply keeps_hostCommit | apply keeps_each | apply keeps_done | apply keeps_ite)

theorem keeps_opHostUnfence {s0 : State} (c : CmdRec) (s : State) (hk : Keeps s0 s) : Keeps s0 (opHostUnfence c s) := by
  unfold opHostUnfence
  repeat' (first | with_reducible assumption | intro _ | with_reducible first | apply keeps_fail | apply keeps_when | apply keeps_wr | apply keeps_done | apply keeps_ite)

theorem keeps_opHostStatus {s0 : State} (c : CmdRec) (s : State) (hk : Keeps s0 s) : Keeps s0 (opHostStatus c s) := by
  unfold opHostStatus
  repeat' (first | with_reducible assumption | with_reducible first | apply keeps_done)

theorem keeps_opSafeTable {s0 : State} (c : CmdRec) (s : State) (hk : Keeps s0 s) : Keeps s0 (opSafeTable c s) := by
  unfold opSafeTable
  repeat' (first | with_reducible assumption | intro _ | with_reducible first | apply keeps_badEnc | apply keeps_fail | apply keeps_each | apply keeps_wrS | apply keeps_done | apply keeps_wr | apply keeps_commitRegs | apply keeps_ite)

theorem keeps_release {s0 : State} (s : State) (hk : Keeps s0 s) : Keeps s0 (State.release s) := by
  unfold State.release
  repeat' (first | with_reducible assumption | intro _ | with_reducible first | apply keeps_wr | apply keeps_each)

theorem keeps_opSafeRelease {s0 : State} (c : CmdRec) (s : State) (hk : Keeps s0 s) : Keeps s0 (opSafeRelease c s) := by
  unfold opSafeRelease
  repeat' (first | with_reducible assumption | with_reducible first | apply keeps_done | apply keeps_release | apply keeps_fail | apply keeps_ite)

theorem keeps_opSafeStatus {s0 : State} (c : CmdRec) (s : State) (hk : Keeps s0 s) : Keeps s0 (opSafeStatus c s) := by
  unfold opSafeStatus
  repeat' (first | with_reducible assumption | with_reducible first | apply keeps_done)

theorem keeps_safeCommit {s0 : State} (s : State) (hk : Keeps s0 s) : Keeps s0 (State.safeCommit s) := by
  unfold State.safeCommit
  repeat' (first | with_reducible assumption | with_reducible first | apply keeps_wr | apply keeps_commitRegs | apply keeps_ite)

theorem keeps_lockDbg {s0 : State} (s : State) (hk : Keeps s0 s) : Keeps s0 (State.lockDbg s) := by
  unfold State.lockDbg
  repeat' (first | with_reducible assumption | with_reducible first | apply keeps_wr)

theorem keeps_netFill {s0 : State} (s : State) (ep : Nat) (l2 : Nat) (hk : Keeps s0 s) : Keeps s0 (State.netFill s ep l2) := by
  revert s ep
  induction l2 with
  | zero =>
    intros
    unfold State.netFill
    repeat' (first | with_reducible assumption)
  | succ n0 ih =>
    intros
    unfold State.netFill
    repeat' (first | assumption | apply ih | intro _ | with_reducible first | apply keeps_setRx | apply keeps_showPool | apply keeps_setNet | apply keeps_ite | split)

theorem keeps_engPut {s0 : State} (s : State) (ing : Nat) (f : SwFrame) (shared : Bool) (ep : Nat) (hk : Keeps s0 s) : Keeps s0 (State.engPut s ing f shared ep).2 := by
  unfold State.engPut
  repeat' (first | with_reducible assumption | intro _ | with_reducible first | apply keeps_netFill | apply keeps_showPool | apply keeps_setNet | apply keeps_ite | split | extract_lets)

theorem keeps_egressOne {s0 : State} (s : State) (ing : Nat) (f : SwFrame) (shared : Bool) (p : Nat) (hk : Keeps s0 s) : Keeps s0 (State.egressOne s ing f shared p).2 := by
  unfold State.egressOne
  repeat' (first | with_reducible assumption | intro _ | with_reducible first | apply keeps_admitMac | apply keeps_hostPut | apply keeps_engPut | apply keeps_inc | apply keeps_ite | split | extract_lets)

theorem keeps_spread {s0 : State} (s : State) (ing : Nat) (f : SwFrame) (ports : List Nat) (hk : Keeps s0 s) : Keeps s0 (s.spread ing f ports) := by
  have aux : ∀ (l : List Nat) (r : Bool × Bool × State), Keeps s0 r.2.2 → Keeps s0 (l.foldl (fun (r : Bool × Bool × State) p =>
      let q := r.2.2.egressOne ing f r.1 p
      (r.1 || q.1, r.2.1 || (q.1 && q.2.mirOut (min p 7)), q.2)) r).2.2 := by
    intro l
    induction l with
    | nil => intro r hr; exact hr
    | cons p t ih => intro r hr; exact ih _ (keeps_egressOne _ _ _ _ _ hr)
  unfold State.spread
  exact keeps_ite (keeps_mirrorCopy _ _ _ _ (aux ports _ hk)) (aux ports _ hk)

theorem keeps_switchIn {s0 : State} (s : State) (ing : Nat) (f : SwFrame) (hk : Keeps s0 s) : Keeps s0 (State.switchIn s ing f) := by
  unfold State.switchIn
  repeat' (first | with_reducible assumption | with_reducible first | apply keeps_takeId | apply keeps_spread | apply keeps_inc | apply keeps_ite)

theorem keeps_learn {s0 : State} (s : State) (p : Nat) (f : SwFrame) (hk : Keeps s0 s) : Keeps s0 (State.learn s p f) := by
  unfold State.learn
  repeat' (first | with_reducible assumption | with_reducible first | apply keeps_setNet | apply keeps_inc | apply keeps_ite)

theorem keeps_ethIn {s0 : State} (s : State) (m : Nat) (fcs : Bool) (bs : List Byte) (hk : Keeps s0 s) : Keeps s0 (State.ethIn s m fcs bs) := by
  unfold State.ethIn
  repeat' (first | with_reducible assumption | with_reducible first | apply keeps_inc | apply keeps_learn | apply keeps_spread | apply keeps_takeId | apply keeps_switchIn | apply keeps_ite)

theorem keeps_tierIn {s0 : State} (s : State) (m : Nat) (fcs : Bool) (bs : List Byte) (hk : Keeps s0 s) : Keeps s0 (State.tierIn s m fcs bs) := by
  unfold State.tierIn
  repeat' (first | with_reducible assumption | with_reducible first | apply keeps_inc | apply keeps_mirrorCopy | apply keeps_takeId | apply keeps_showPool | apply keeps_pushIns | apply keeps_ite)

theorem keeps_pauseIn {s0 : State} (s : State) (m : Nat) (fcs : Bool) (quanta : Nat) (hk : Keeps s0 s) : Keeps s0 (State.pauseIn s m fcs quanta) := by
  unfold State.pauseIn
  repeat' (first | with_reducible assumption | with_reducible first | apply keeps_inc | apply keeps_setMac | apply keeps_wr | apply keeps_ite)

theorem keeps_egressStart {s0 : State} (s : State) (m : Nat) (subtick : Nat) (hk : Keeps s0 s) : Keeps s0 (State.egressStart s m subtick) := by
  unfold State.egressStart
  repeat' (first | with_reducible assumption | intro _ | with_reducible first | apply keeps_showPool | apply keeps_setMac | apply keeps_inc | apply keeps_emit | apply keeps_pushStamp | apply keeps_ite | split)

theorem keeps_showMac {s0 : State} (s : State) (m : Nat) (hk : Keeps s0 s) : Keeps s0 (State.showMac s m) := by
  unfold State.showMac
  repeat' (first | with_reducible assumption | with_reducible first | apply keeps_wr)

theorem keeps_gateApply {s0 : State} (s : State) (m : Nat) (hk : Keeps s0 s) : Keeps s0 (State.gateApply s m) := by
  unfold State.gateApply
  repeat' (first | with_reducible assumption | with_reducible first | apply keeps_showMac | apply keeps_setMac | apply keeps_commitRegs)

theorem keeps_gateCommit {s0 : State} (s : State) (m : Nat) (hk : Keeps s0 s) : Keeps s0 (State.gateCommit s m) := by
  unfold State.gateCommit
  repeat' (first | with_reducible assumption | with_reducible first | apply keeps_setMac | apply keeps_gateApply | apply keeps_ite)

theorem keeps_gateStart {s0 : State} (s : State) (m : Nat) (t : Int) (hk : Keeps s0 s) : Keeps s0 (State.gateStart s m t) := by
  unfold State.gateStart
  repeat' (first | with_reducible assumption | with_reducible first | apply keeps_setMac)

theorem keeps_gateTick {s0 : State} (s : State) (m : Nat) (hk : Keeps s0 s) : Keeps s0 (State.gateTick s m) := by
  unfold State.gateTick
  repeat' (first | with_reducible assumption | intro _ | with_reducible first | apply keeps_gateStart | apply keeps_gateApply | apply keeps_setMac | apply keeps_ite | split | extract_lets)

theorem keeps_macBoundary {s0 : State} (s : State) (m : Nat) (hk : Keeps s0 s) : Keeps s0 (State.macBoundary s m) := by
  unfold State.macBoundary
  repeat' (first | with_reducible assumption | with_reducible first | apply keeps_gateApply | apply keeps_gateStart | apply keeps_ite)

theorem keeps_netBoundary {s0 : State} (s : State) (hk : Keeps s0 s) : Keeps s0 (State.netBoundary s) := by
  unfold State.netBoundary
  repeat' (first | with_reducible assumption | intro _ | with_reducible first | apply keeps_each | apply keeps_macBoundary)

theorem keeps_linkDown {s0 : State} (s : State) (m : Nat) (hk : Keeps s0 s) : Keeps s0 (State.linkDown s m) := by
  unfold State.linkDown
  repeat' (first | with_reducible assumption | with_reducible first | apply keeps_setMac | apply keeps_addc | apply keeps_showPool | apply keeps_wr)

theorem keeps_linkUp {s0 : State} (s : State) (m : Nat) (neg : Nat) (hk : Keeps s0 s) : Keeps s0 (State.linkUp s m neg) := by
  unfold State.linkUp
  repeat' (first | with_reducible assumption | with_reducible first | apply keeps_wr | apply keeps_ite)

theorem keeps_ageEntry {s0 : State} (s : State) (i : Nat) (hk : Keeps s0 s) : Keeps s0 (State.ageEntry s i) := by
  unfold State.ageEntry
  repeat' (first | with_reducible assumption | intro _ | with_reducible first | apply keeps_setNet | apply keeps_ite | split)

theorem keeps_macCommit {s0 : State} (s : State) (m : Nat) (hk : Keeps s0 s) : Keeps s0 (State.macCommit s m) := by
  unfold State.macCommit
  repeat' (first | with_reducible assumption | with_reducible first | apply keeps_showMac | apply keeps_setMac | apply keeps_commitRegs | apply keeps_linkDown | apply keeps_ite)

theorem keeps_macCntClr {s0 : State} (s : State) (m : Nat) (hk : Keeps s0 s) : Keeps s0 (State.macCntClr s m) := by
  unfold State.macCntClr
  repeat' (first | with_reducible assumption | with_reducible first | apply keeps_clearRegs)

theorem keeps_showSw {s0 : State} (s : State) (hk : Keeps s0 s) : Keeps s0 (State.showSw s) := by
  unfold State.showSw
  repeat' (first | with_reducible assumption | with_reducible first | apply keeps_wr)

theorem keeps_swCommit {s0 : State} (s : State) (hk : Keeps s0 s) : Keeps s0 (State.swCommit s) := by
  unfold State.swCommit
  repeat' (first | with_reducible assumption | with_reducible first | apply keeps_showSw | apply keeps_commitRegs)

theorem keeps_swCntClr {s0 : State} (s : State) (hk : Keeps s0 s) : Keeps s0 (State.swCntClr s) := by
  unfold State.swCntClr
  repeat' (first | with_reducible assumption | with_reducible first | apply keeps_clearRegs)

theorem keeps_macGuard {s0 : State} (s : State) (id : Ident) (m : Nat) (f : State → State) (hk : Keeps s0 s) (hf3 : ∀ t, Keeps s0 t → Keeps s0 (f t)) : Keeps s0 (State.macGuard s id m f) := by
  unfold State.macGuard
  repeat' (first | with_reducible assumption | apply hf3 | with_reducible first | apply keeps_guardBs)

theorem keeps_getSpace {s0 : State} (s : State) (host : Bool) (a : Nat) (n : Nat) (got : List Byte) (hk : Keeps s0 s) : Keeps s0 (State.getSpace s host a n got).2.2 := by
  unfold State.getSpace
  repeat' (first | with_reducible assumption | intro _ | with_reducible first | apply keeps_rdList | apply keeps_ite | split | extract_lets | (refine Keeps.of_snd (by assumption) ?_))

theorem keeps_hostFrame {s0 : State} (s : State) (d : List Word) (bs : List Byte) (hk : Keeps s0 s) : Keeps s0 (State.hostFrame s d bs) := by
  unfold State.hostFrame
  repeat' (first | with_reducible assumption | with_reducible first | apply keeps_switchIn | apply keeps_ite)

theorem keeps_txRing {s0 : State} (s : State) (got : List Byte) (fail : Bool) (l3 : Nat) (hk : Keeps s0 s) : Keeps s0 (State.txRing s got fail l3) := by
  revert s got fail
  induction l3 with
  | zero =>
    intros
    unfold State.txRing
    repeat' (first | with_reducible assumption)
  | succ n0 ih =>
    intros
    unfold State.txRing
    repeat' (first | assumption | apply ih | intro _ | with_reducible first | apply keeps_getSpace | apply keeps_inc | apply keeps_hrStep | apply keeps_putSpace | apply keeps_hostFrame | apply keeps_ite | split | extract_lets | (refine Keeps.of_snd (by assumption) ?_) | (refine Keeps.of_fst (by assumption) ?_) | (refine Keeps.of_third (by assumption) ?_))

theorem keeps_fetchRx {s0 : State} (s : State) (got : List Byte) (l2 : Nat) (hk : Keeps s0 s) : Keeps s0 (State.fetchRx s got l2) := by
  revert s got
  induction l2 with
  | zero =>
    intros
    unfold State.fetchRx
    repeat' (first | with_reducible assumption)
  | succ n0 ih =>
    intros
    unfold State.fetchRx
    repeat' (first | assumption | apply ih | with_reducible first | apply keeps_setNet | apply keeps_ite)

theorem keeps_htxWrite {s0 : State} (s : State) (v : Nat) (env : Env) (hk : Keeps s0 s) : Keeps s0 (State.htxWrite s v env) := by
  unfold State.htxWrite
  repeat' (first | with_reducible assumption | with_reducible first | apply keeps_txRing | apply keeps_wr)

theorem keeps_hrxWrite {s0 : State} (s : State) (v : Nat) (env : Env) (hk : Keeps s0 s) : Keeps s0 (State.hrxWrite s v env) := by
  unfold State.hrxWrite
  repeat' (first | with_reducible assumption | with_reducible first | apply keeps_fetchRx | apply keeps_wr)

theorem keeps_engFrame {s0 : State} (s : State) (e : Nat) (c : Nat) (m : Nat) (r : List Word) (hk : Keeps s0 s) : Keeps s0 (State.engFrame s e c m r) := by
  unfold State.engFrame
  repeat' (first | with_reducible assumption | with_reducible first | apply keeps_wr | apply keeps_spread | apply keeps_takeId | apply keeps_switchIn | apply keeps_ite)

theorem keeps_engPush {s0 : State} (s : State) (e : Nat) (c : Nat) (m : Nat) (v : Word) (hk : Keeps s0 s) : Keeps s0 (State.engPush s e c m v) := by
  unfold State.engPush
  repeat' (first | with_reducible assumption | with_reducible first | apply keeps_setNet | apply keeps_engFrame | apply keeps_ite)

theorem keeps_epClear {s0 : State} (s : State) (ep : Nat) (hk : Keeps s0 s) : Keeps s0 (State.epClear s ep) := by
  unfold State.epClear
  repeat' (first | with_reducible assumption | with_reducible first | apply keeps_showPool | apply keeps_setNet)

theorem keeps_opNetPort {s0 : State} (c : CmdRec) (s : State) (hk : Keeps s0 s) : Keeps s0 (opNetPort c s) := by
  unfold opNetPort
  repeat' (first | with_reducible assumption | with_reducible first | apply keeps_badEnc | apply keeps_putCfg | apply keeps_setNet | apply keeps_macCommit | apply keeps_done | apply keeps_ite)

theorem keeps_opNetQueue {s0 : State} (c : CmdRec) (s : State) (hk : Keeps s0 s) : Keeps s0 (opNetQueue c s) := by
  unfold opNetQueue
  repeat' (first | with_reducible assumption | with_reducible first | apply keeps_done | apply keeps_showMac | apply keeps_putCfg)

theorem keeps_opNetGates {s0 : State} (c : CmdRec) (s : State) (hk : Keeps s0 s) : Keeps s0 (opNetGates c s) := by
  unfold opNetGates
  repeat' (first | with_reducible assumption | intro _ | with_reducible first | apply keeps_badEnc | apply keeps_fail | apply keeps_shadowCfg | apply keeps_each | apply keeps_done | apply keeps_gateCommit | apply keeps_showMac | apply keeps_ite)

theorem keeps_opNetVlan {s0 : State} (c : CmdRec) (s : State) (hk : Keeps s0 s) : Keeps s0 (opNetVlan c s) := by
  unfold opNetVlan
  repeat' (first | with_reducible assumption | with_reducible first | apply keeps_badEnc | apply keeps_done | apply keeps_showMac | apply keeps_putCfg | apply keeps_ite)

theorem keeps_opNetFdb {s0 : State} (c : CmdRec) (s : State) (hk : Keeps s0 s) : Keeps s0 (opNetFdb c s) := by
  unfold opNetFdb
  repeat' (first | with_reducible assumption | intro _ | with_reducible first | apply keeps_badEnc | apply keeps_done | apply keeps_setNet | apply keeps_fail | apply keeps_withOut | apply keeps_writeBuf | apply keeps_ite | split)

theorem keeps_opNetLimits {s0 : State} (c : CmdRec) (s : State) (hk : Keeps s0 s) : Keeps s0 (opNetLimits c s) := by
  unfold opNetLimits
  repeat' (first | with_reducible assumption | with_reducible first | apply keeps_badParam | apply keeps_putCfg | apply keeps_done | apply keeps_showSw | apply keeps_ite)

theorem keeps_opNetMirror {s0 : State} (c : CmdRec) (s : State) (hk : Keeps s0 s) : Keeps s0 (opNetMirror c s) := by
  unfold opNetMirror
  repeat' (first | with_reducible assumption | intro _ | with_reducible first | apply keeps_badParam | apply keeps_badEnc | apply keeps_fail | apply keeps_putCfg | apply keeps_done | apply keeps_each | apply keeps_setNet | apply keeps_ite)

theorem keeps_opNetStatus {s0 : State} (c : CmdRec) (s : State) (hk : Keeps s0 s) : Keeps s0 (opNetStatus c s) := by
  unfold opNetStatus
  repeat' (first | with_reducible assumption | with_reducible first | apply keeps_done)

theorem keeps_motTake {s0 : State} (s : State) (n : Nat) (hk : Keeps s0 s) : Keeps s0 (State.motTake s n) := by
  unfold State.motTake
  repeat' (first | with_reducible assumption | intro _ | with_reducible first | apply keeps_setMot | apply keeps_ite | split)

theorem keeps_motStill {s0 : State} (s : State) (n : Nat) (hk : Keeps s0 s) : Keeps s0 (State.motStill s n) := by
  unfold State.motStill
  repeat' (first | with_reducible assumption | intro _ | with_reducible first | apply keeps_setMot | apply keeps_latchAgain | apply keeps_wr | apply keeps_each | apply keeps_fin | apply keeps_motFault | apply keeps_event | apply keeps_ite | split)

theorem keeps_motArm {s0 : State} (s : State) (n : Nat) (up : Bool) (iv : Nat) (hk : Keeps s0 s) : Keeps s0 (State.motArm s n up iv) := by
  unfold State.motArm
  repeat' (first | with_reducible assumption | with_reducible first | apply keeps_setMot | apply keeps_wr | apply keeps_ite)

theorem keeps_motWait {s0 : State} (s : State) (n : Nat) (iv : Nat) (hk : Keeps s0 s) : Keeps s0 (State.motWait s n iv) := by
  unfold State.motWait
  repeat' (first | with_reducible assumption | with_reducible first | apply keeps_setMot)

theorem keeps_motCompute {s0 : State} (s : State) (n : Nat) (hk : Keeps s0 s) : Keeps s0 (State.motCompute s n) := by
  unfold State.motCompute
  repeat' (first | with_reducible assumption | intro _ | with_reducible first | apply keeps_motTake | apply keeps_setMot | apply keeps_motWait | apply keeps_wrI | apply keeps_motArm | apply keeps_motStill | apply keeps_ite | split | extract_lets | (refine Keeps.of_snd (by assumption) ?_) | (dsimp -zeta only) | (dsimp -zeta +zetaDelta only))

theorem keeps_motPlan {s0 : State} (s : State) (n : Nat) (p : Plan) (vmax : Nat) (hk : Keeps s0 s) : Keeps s0 (State.motPlan s n p vmax) := by
  unfold State.motPlan
  repeat' (first | with_reducible assumption | with_reducible first | apply keeps_setMot | apply keeps_motCompute | apply keeps_ite)

theorem keeps_motFull {s0 : State} (s : State) (n : Nat) (hk : Keeps s0 s) : Keeps s0 (State.motFull s n) := by
  unfold State.motFull
  repeat' (first | with_reducible assumption | with_reducible first | apply keeps_inc | apply keeps_wr | apply keeps_ite)

theorem keeps_motBackoff {s0 : State} (s : State) (n : Nat) (hk : Keeps s0 s) : Keeps s0 (State.motBackoff s n) := by
  unfold State.motBackoff
  repeat' (first | with_reducible assumption | intro _ | with_reducible first | apply keeps_setMot | apply keeps_wr | apply keeps_ite | split)

theorem keeps_motStep {s0 : State} (s : State) (n : Nat) (hk : Keeps s0 s) : Keeps s0 (State.motStep s n) := by
  unfold State.motStep
  repeat' (first | with_reducible assumption | with_reducible first | apply keeps_wrI | apply keeps_setMot | apply keeps_emit | apply keeps_inc | apply keeps_setDrv | apply keeps_motFull | apply keeps_motBackoff | apply keeps_latchAgain | apply keeps_ite)

theorem keeps_motExpire {s0 : State} (s : State) (n : Nat) (hk : Keeps s0 s) : Keeps s0 (State.motExpire s n) := by
  unfold State.motExpire
  repeat' (first | with_reducible assumption | with_reducible first | apply keeps_motCompute | apply keeps_motStep | apply keeps_ite)

theorem keeps_motHalt {s0 : State} (s : State) (n : Nat) (emergency : Bool) (hk : Keeps s0 s) : Keeps s0 (State.motHalt s n emergency) := by
  unfold State.motHalt
  repeat' (first | with_reducible assumption | with_reducible first | apply keeps_setMot | apply keeps_homeFail | apply keeps_wr | apply keeps_motPlan | apply keeps_ite)

theorem keeps_showMot {s0 : State} (s : State) (n : Nat) (hk : Keeps s0 s) : Keeps s0 (State.showMot s n) := by
  unfold State.showMot
  repeat' (first | with_reducible assumption | with_reducible first | apply keeps_wr)

theorem keeps_motCommit {s0 : State} (s : State) (n : Nat) (hk : Keeps s0 s) : Keeps s0 (State.motCommit s n).2 := by
  unfold State.motCommit
  repeat' (first | with_reducible assumption | intro _ | with_reducible first | apply keeps_event | apply keeps_showMot | apply keeps_commitRegs | apply keeps_setMot | apply keeps_ite | split)

theorem keeps_motStart {s0 : State} (s : State) (n : Nat) (p : Plan) (vmax : Nat) (hk : Keeps s0 s) : Keeps s0 (State.motStart s n p vmax) := by
  unfold State.motStart
  repeat' (first | with_reducible assumption | intro _ | with_reducible first | apply keeps_wrI | apply keeps_motPlan | apply keeps_wr | apply keeps_ite | split)

theorem keeps_motFire {s0 : State} (s : State) (kind : Nat) (k : Nat) (mask : Nat) (hk : Keeps s0 s) : Keeps s0 (State.motFire s kind k mask) := by
  unfold State.motFire
  repeat' (first | with_reducible assumption | intro _ | with_reducible first | apply keeps_each | apply keeps_motStart | apply keeps_setMot | apply keeps_ite | split)

theorem keeps_motEdge {s0 : State} (s : State) (src : Nat) (num : Nat) (rising : Bool) (raw : Nat) (hk : Keeps s0 s) : Keeps s0 (State.motEdge s src num rising raw) := by
  unfold State.motEdge
  repeat' (first | with_reducible assumption | intro _ | with_reducible first | apply keeps_each | apply keeps_latch | apply keeps_setMot | apply keeps_ite | split)

theorem keeps_latchTime {s0 : State} (s : State) (n : Nat) (sec : Nat) (ns : Nat) (seq : Option Nat) (hk : Keeps s0 s) : Keeps s0 (State.latchTime s n sec ns seq) := by
  unfold State.latchTime
  repeat' (first | with_reducible assumption | with_reducible first | apply keeps_latch)

theorem keeps_lapWord {s0 : State} (s : State) (a : Nat) (v : Word) (hk : Keeps s0 s) : Keeps s0 (State.lapWord s a v) := by
  unfold State.lapWord
  repeat' (first | with_reducible assumption | with_reducible first | apply keeps_wrMem)

theorem keeps_setPoint {s0 : State} (s : State) (n : Nat) (hk : Keeps s0 s) : Keeps s0 (State.setPoint s n) := by
  unfold State.setPoint
  repeat' (first | with_reducible assumption | with_reducible first | apply keeps_lapWord | apply keeps_ite)

theorem keeps_followPoint {s0 : State} (s : State) (n : Nat) (hk : Keeps s0 s) : Keeps s0 (State.followPoint s n) := by
  unfold State.followPoint
  repeat' (first | with_reducible assumption | with_reducible first | apply keeps_motPlan | apply keeps_wr | apply keeps_event | apply keeps_ite)

theorem keeps_motBoundary {s0 : State} (s : State) (hk : Keeps s0 s) : Keeps s0 (State.motBoundary s) := by
  unfold State.motBoundary
  repeat' (first | with_reducible assumption | intro _ | with_reducible first | apply keeps_each | apply keeps_setPoint | apply keeps_followPoint)

theorem keeps_limitSwitch {s0 : State} (s : State) (n : Nat) (up : Bool) (hk : Keeps s0 s) : Keeps s0 (State.limitSwitch s n up) := by
  unfold State.limitSwitch
  repeat' (first | with_reducible assumption | with_reducible first | apply keeps_homeFail | apply keeps_inc | apply keeps_motPlan | apply keeps_wr | apply keeps_setMot | apply keeps_ite)

theorem keeps_homeSwitch {s0 : State} (s : State) (n : Nat) (hk : Keeps s0 s) : Keeps s0 (State.homeSwitch s n) := by
  unfold State.homeSwitch
  repeat' (first | with_reducible assumption | intro _ | with_reducible first | apply keeps_motPlan | apply keeps_wr | apply keeps_setMot | apply keeps_motBackoff | apply keeps_latch | apply keeps_ite | split)

theorem keeps_indexEdge {s0 : State} (s : State) (n : Nat) (hk : Keeps s0 s) : Keeps s0 (State.indexEdge s n) := by
  unfold State.indexEdge
  repeat' (first | with_reducible assumption | with_reducible first | apply keeps_motPlan | apply keeps_wr | apply keeps_latch | apply keeps_ite)

theorem keeps_homingSet {s0 : State} (s : State) (n : Nat) (hk : Keeps s0 s) : Keeps s0 (State.homingSet s n) := by
  unfold State.homingSet
  repeat' (first | with_reducible assumption | intro _ | with_reducible first | apply keeps_useFree | apply keeps_wrI | apply keeps_setMot | apply keeps_fin | apply keeps_event | apply keeps_wr | apply keeps_ite | split)

theorem keeps_searchLimit {s0 : State} (s : State) (n : Nat) (hk : Keeps s0 s) : Keeps s0 (State.searchLimit s n) := by
  unfold State.searchLimit
  repeat' (first | with_reducible assumption | intro _ | with_reducible first | apply keeps_motPlan | apply keeps_wr | apply keeps_homeFail | apply keeps_ite | split)

theorem keeps_motGuard {s0 : State} (s : State) (id : Ident) (n : Nat) (f : State → State) (hk : Keeps s0 s) (hf3 : ∀ t, Keeps s0 t → Keeps s0 (f t)) : Keeps s0 (State.motGuard s id n f) := by
  unfold State.motGuard
  repeat' (first | with_reducible assumption | apply hf3 | with_reducible first | apply keeps_guardBs)

theorem keeps_motCntClr {s0 : State} (s : State) (n : Nat) (hk : Keeps s0 s) : Keeps s0 (State.motCntClr s n) := by
  unfold State.motCntClr
  repeat' (first | with_reducible assumption | with_reducible first | apply keeps_clearRegs)

theorem keeps_motTgt {s0 : State} (s : State) (n : Nat) (v : Word) (hk : Keeps s0 s) : Keeps s0 (State.motTgt s n v) := by
  unfold State.motTgt
  repeat' (first | with_reducible assumption | with_reducible first | apply keeps_setReg | apply keeps_motStart | apply keeps_ite)

theorem keeps_motLatt {s0 : State} (s : State) (n : Nat) (v : Word) (hk : Keeps s0 s) : Keeps s0 (State.motLatt s n v) := by
  unfold State.motLatt
  repeat' (first | with_reducible assumption | with_reducible first | apply keeps_setReg | apply keeps_latchTime)

theorem keeps_motLatRead {s0 : State} (s : State) (n : Nat) (hk : Keeps s0 s) : Keeps s0 (State.motLatRead s n) := by
  unfold State.motLatRead
  repeat' (first | with_reducible assumption | with_reducible first | apply keeps_wr)

theorem keeps_opMotConfig {s0 : State} (c : CmdRec) (s : State) (hk : Keeps s0 s) : Keeps s0 (opMotConfig c s) := by
  unfold opMotConfig
  repeat' (first | with_reducible assumption | intro _ | with_reducible first | apply keeps_fail | apply keeps_badEnc | apply keeps_badParam | apply keeps_each | apply keeps_shadowCfg | apply keeps_motCommit | apply keeps_done | apply keeps_showMot | apply keeps_ite | split | extract_lets | (refine Keeps.of_snd (by assumption) ?_) | (dsimp -zeta only) | (dsimp -zeta +zetaDelta only) | apply keeps_mk)

theorem keeps_motGo {s0 : State} (s : State) (c : CmdRec) (n : Nat) (p : Plan) (vmax : Nat) (hk : Keeps s0 s) : Keeps s0 (State.motGo s c n p vmax) := by
  unfold State.motGo
  repeat' (first | with_reducible assumption | with_reducible first | apply keeps_done | apply keeps_motStart | apply keeps_setMot | apply keeps_wr | apply keeps_ite)

theorem keeps_opMotMove {s0 : State} (c : CmdRec) (s : State) (hk : Keeps s0 s) : Keeps s0 (opMotMove c s) := by
  unfold opMotMove
  repeat' (first | with_reducible assumption | with_reducible first | apply keeps_badEnc | apply keeps_fail | apply keeps_badParam | apply keeps_motGo | apply keeps_ite)

theorem keeps_opMotVelocity {s0 : State} (c : CmdRec) (s : State) (hk : Keeps s0 s) : Keeps s0 (opMotVelocity c s) := by
  unfold opMotVelocity
  repeat' (first | with_reducible assumption | with_reducible first | apply keeps_badEnc | apply keeps_fail | apply keeps_badParam | apply keeps_motGo | apply keeps_ite)

theorem keeps_opMotStop {s0 : State} (c : CmdRec) (s : State) (hk : Keeps s0 s) : Keeps s0 (opMotStop c s) := by
  unfold opMotStop
  repeat' (first | with_reducible assumption | with_reducible first | apply keeps_fail | apply keeps_done | apply keeps_motHalt | apply keeps_setMot | apply keeps_ite)

theorem keeps_opMotHome {s0 : State} (c : CmdRec) (s : State) (hk : Keeps s0 s) : Keeps s0 (opMotHome c s) := by
  unfold opMotHome
  repeat' (first | with_reducible assumption | with_reducible first | apply keeps_fail | apply keeps_badParam | apply keeps_wr | apply keeps_setMot | apply keeps_motPlan | apply keeps_ite)

theorem keeps_opMotLatch {s0 : State} (c : CmdRec) (s : State) (hk : Keeps s0 s) : Keeps s0 (opMotLatch c s) := by
  unfold opMotLatch
  repeat' (first | with_reducible assumption | intro _ | with_reducible first | apply keeps_fail | apply keeps_setMot | apply keeps_badParam | apply keeps_latchTime | apply keeps_badEnc | apply keeps_ite | split)

theorem keeps_opMotStatus {s0 : State} (c : CmdRec) (s : State) (hk : Keeps s0 s) : Keeps s0 (opMotStatus c s) := by
  unfold opMotStatus
  repeat' (first | with_reducible assumption | with_reducible first | apply keeps_done)

theorem keeps_drvOff {s0 : State} (s : State) (b : Nat) (hk : Keeps s0 s) : Keeps s0 (State.drvOff s b) := by
  unfold State.drvOff
  repeat' (first | with_reducible assumption | with_reducible first | apply keeps_setDrv | apply keeps_wr)

theorem keeps_drvRearm {s0 : State} (s : State) (b : Nat) (hk : Keeps s0 s) : Keeps s0 (State.drvRearm s b) := by
  unfold State.drvRearm
  repeat' (first | with_reducible assumption | intro _ | with_reducible first | apply keeps_each | apply keeps_wr | apply keeps_ite)

theorem keeps_drvOn {s0 : State} (s : State) (b : Nat) (hk : Keeps s0 s) : Keeps s0 (State.drvOn s b) := by
  unfold State.drvOn
  repeat' (first | with_reducible assumption | with_reducible first | apply keeps_wr | apply keeps_drvRearm | apply keeps_setDrv | apply keeps_ite)

theorem keeps_drvEnable {s0 : State} (s : State) (b : Nat) (on : Bool) (hk : Keeps s0 s) : Keeps s0 (State.drvEnable s b on) := by
  unfold State.drvEnable
  repeat' (first | with_reducible assumption | with_reducible first | apply keeps_drvOn | apply keeps_drvOff | apply keeps_ite)

theorem keeps_drvKick {s0 : State} (s : State) (b : Nat) (hk : Keeps s0 s) : Keeps s0 (State.drvKick s b) := by
  unfold State.drvKick
  repeat' (first | with_reducible assumption | intro _ | with_reducible first | apply keeps_each | apply keeps_motCompute | apply keeps_ite)

theorem keeps_drvFault {s0 : State} (s : State) (b : Nat) (k : Nat) (hk : Keeps s0 s) : Keeps s0 (State.drvFault s b k) := by
  unfold State.drvFault
  repeat' (first | with_reducible assumption | intro _ | with_reducible first | apply keeps_drvOff | apply keeps_inc | apply keeps_wr | apply keeps_each | apply keeps_motFault | apply keeps_sideBand | apply keeps_ite)

theorem keeps_drvMeasured {s0 : State} (s : State) (b : Nat) (r : Nat) (l : Nat) (hk : Keeps s0 s) : Keeps s0 (State.drvMeasured s b r l) := by
  unfold State.drvMeasured
  repeat' (first | with_reducible assumption | with_reducible first | apply keeps_setDrv | apply keeps_wr | apply keeps_drvFault | apply keeps_drvKick | apply keeps_ite)

theorem keeps_drvHold {s0 : State} (s : State) (b : Nat) (rise : Nat) (dip : Nat) (hk : Keeps s0 s) : Keeps s0 (State.drvHold s b rise dip) := by
  unfold State.drvHold
  repeat' (first | with_reducible assumption | with_reducible first | apply keeps_wr | apply keeps_ite)

theorem keeps_holdDelay {s0 : State} (s : State) (k : Nat) (hk : Keeps s0 s) : Keeps s0 (State.holdDelay s k) := by
  unfold State.holdDelay
  repeat' (first | with_reducible assumption | intro _ | with_reducible first | apply keeps_setDrv | apply keeps_ite | split)

theorem keeps_showDrv {s0 : State} (s : State) (b : Nat) (hk : Keeps s0 s) : Keeps s0 (State.showDrv s b) := by
  unfold State.showDrv
  repeat' (first | with_reducible assumption | with_reducible first | apply keeps_wr)

theorem keeps_drvCommit {s0 : State} (s : State) (b : Nat) (hk : Keeps s0 s) : Keeps s0 (State.drvCommit s b) := by
  unfold State.drvCommit
  repeat' (first | with_reducible assumption | with_reducible first | apply keeps_showDrv | apply keeps_commitRegs | apply keeps_drvOff | apply keeps_ite)

theorem keeps_drvClear {s0 : State} (s : State) (b : Nat) (hk : Keeps s0 s) : Keeps s0 (State.drvClear s b) := by
  unfold State.drvClear
  repeat' (first | with_reducible assumption | with_reducible first | apply keeps_wr)

theorem keeps_drvGuard {s0 : State} (s : State) (b : Nat) (f : State → State) (hk : Keeps s0 s) (hf2 : ∀ t, Keeps s0 t → Keeps s0 (f t)) : Keeps s0 (State.drvGuard s b f) := by
  unfold State.drvGuard
  repeat' (first | with_reducible assumption | apply hf2 | apply keeps_ite)

theorem keeps_drvCntClr {s0 : State} (s : State) (b : Nat) (hk : Keeps s0 s) : Keeps s0 (State.drvCntClr s b) := by
  unfold State.drvCntClr
  repeat' (first | with_reducible assumption | with_reducible first | apply keeps_clearRegs)

theorem keeps_drvCtl {s0 : State} (s : State) (b : Nat) (v : Word) (hk : Keeps s0 s) : Keeps s0 (State.drvCtl s b v) := by
  unfold State.drvCtl
  repeat' (first | with_reducible assumption | intro _ | with_reducible first | apply keeps_drvGuard | apply keeps_drvCommit | apply keeps_drvClear | apply keeps_drvCntClr | apply keeps_drvEnable | apply keeps_ite)

theorem keeps_drvOnly {s0 : State} (body : CmdRec → State → State) (c : CmdRec) (s : State) (hf0 : ∀ x0 t, Keeps s0 t → Keeps s0 (body x0 t)) (hk2 : Keeps s0 s) : Keeps s0 (drvOnly body c s) := by
  unfold drvOnly
  repeat' (first | with_reducible assumption | apply hf0 | with_reducible first | apply keeps_fail | apply keeps_ite)

theorem keeps_opDrvConfig {s0 : State} (c : CmdRec) (s : State) (hk : Keeps s0 s) : Keeps s0 (opDrvConfig c s) := by
  unfold opDrvConfig
  repeat' (first | with_reducible assumption | intro _ | with_reducible first | apply keeps_badParam | apply keeps_badEnc | apply keeps_done | apply keeps_drvCommit | apply keeps_putCfgs | apply keeps_ite | split | extract_lets)

theorem keeps_opDrvEnable {s0 : State} (c : CmdRec) (s : State) (hk : Keeps s0 s) : Keeps s0 (opDrvEnable c s) := by
  unfold opDrvEnable
  repeat' (first | with_reducible assumption | intro _ | with_reducible first | apply keeps_each | apply keeps_drvEnable | apply keeps_done)

theorem keeps_opDrvCoil {s0 : State} (c : CmdRec) (s : State) (hk : Keeps s0 s) : Keeps s0 (opDrvCoil c s) := by
  unfold opDrvCoil
  repeat' (first | with_reducible assumption | with_reducible first | apply keeps_badParam | apply keeps_done | apply keeps_showDrv | apply keeps_dropShadow | apply keeps_wr | apply keeps_ite)

theorem keeps_opDrvClear {s0 : State} (c : CmdRec) (s : State) (hk : Keeps s0 s) : Keeps s0 (opDrvClear c s) := by
  unfold opDrvClear
  repeat' (first | with_reducible assumption | intro _ | with_reducible first | apply keeps_done | apply keeps_each | apply keeps_drvClear)

theorem keeps_opDrvStatus {s0 : State} (c : CmdRec) (s : State) (hk : Keeps s0 s) : Keeps s0 (opDrvStatus c s) := by
  unfold opDrvStatus
  repeat' (first | with_reducible assumption | with_reducible first | apply keeps_useFree | apply keeps_done)

end Sys2Proof.Machine
end

