-- ==== Sys2Proof/Laws/KeepsStage.lean ====
section
/-! SUPPORT. What every operation keeps: the raw counter, the queue of commands, and the canonical forms of registers and memory; here for
the gate, the engines, the bus, the stage and the fabric. -/
namespace Sys2Proof.Machine
open Sys2Proof

theorem keeps_gateLog {s0 : State} (s : State) (cause : Nat) (src : Nat) (dst : Nat) (tx : Nat) (srcId : Word) (dstId : Word) (hk : Keeps s0 s) : Keeps s0 (State.gateLog s cause src dst tx srcId dstId) := by
  unfold State.gateLog
  repeat' (first | with_reducible assumption | with_reducible first | apply keeps_wr | apply keeps_ite)

theorem keeps_gateRing {s0 : State} (s : State) (q : Nat) (m : Msg) (hk : Keeps s0 s) : Keeps s0 (State.gateRing s q m) := by
  unfold State.gateRing
  repeat' (first | with_reducible assumption | with_reducible first | apply keeps_inc | apply keeps_wr | apply keeps_coreWords | apply keeps_pairEvent | apply keeps_callEvent | apply keeps_ite)

theorem keeps_engRing {s0 : State} (s : State) (e : Nat) (m : Msg) (hk : Keeps s0 s) : Keeps s0 (State.engRing s e m) := by
  unfold State.engRing
  repeat' (first | with_reducible assumption | intro _ | with_reducible first | apply keeps_inc | apply keeps_each | apply keeps_wrMem | apply keeps_wr | apply keeps_ite)

theorem keeps_deliverPort {s0 : State} (s : State) (m : Msg) (hk : Keeps s0 s) : Keeps s0 (State.deliverPort s m) := by
  unfold State.deliverPort
  repeat' (first | with_reducible assumption | intro _ | with_reducible first | apply keeps_engRing | apply keeps_canDeliver | apply keeps_inc | apply keeps_gateRing | apply keeps_ite | split | extract_lets | (refine Keeps.of_snd (by assumption) ?_))

theorem keeps_gateFrame {s0 : State} (s : State) (typ : Nat) (ring : Nat) (station : Nat) (stamp : Bool) (m : Msg) (hk : Keeps s0 s) : Keeps s0 (State.gateFrame s typ ring station stamp m) := by
  unfold State.gateFrame
  repeat' (first | with_reducible assumption | with_reducible first | apply keeps_sendFrame)

theorem keeps_showGate {s0 : State} (s : State) (hk : Keeps s0 s) : Keeps s0 (State.showGate s) := by
  unfold State.showGate
  repeat' (first | with_reducible assumption | intro _ | with_reducible first | apply keeps_wr | apply keeps_each)

theorem keeps_txDeliver {s0 : State} (s : State) (t : GateTx) (m : Msg) (hk : Keeps s0 s) : Keeps s0 (State.txDeliver s t m) := by
  unfold State.txDeliver
  repeat' (first | with_reducible assumption | with_reducible first | apply keeps_deliverPort | apply keeps_setGate)

theorem keeps_txNext {s0 : State} (s : State) (p : Nat) (hk : Keeps s0 s) : Keeps s0 (State.txNext s p) := by
  unfold State.txNext
  repeat' (first | with_reducible assumption | intro _ | with_reducible first | apply keeps_txDeliver | apply keeps_ite | split)

theorem keeps_txAnswer {s0 : State} (s : State) (t : GateTx) (m : Msg) (hk : Keeps s0 s) : Keeps s0 (State.txAnswer s t m) := by
  unfold State.txAnswer
  repeat' (first | with_reducible assumption | intro _ | with_reducible first | apply keeps_deliverPort | apply keeps_gateFrame | apply keeps_ite | split)

theorem keeps_txClose {s0 : State} (s : State) (t : GateTx) (hk : Keeps s0 s) : Keeps s0 (State.txClose s t) := by
  unfold State.txClose
  repeat' (first | with_reducible assumption | with_reducible first | apply keeps_showGate | apply keeps_setGate | apply keeps_txNext | apply keeps_ite)

theorem keeps_txBusy {s0 : State} (s : State) (t : GateTx) (hk : Keeps s0 s) : Keeps s0 (State.txBusy s t) := by
  unfold State.txBusy
  repeat' (first | with_reducible assumption | with_reducible first | apply keeps_txClose | apply keeps_txAnswer | apply keeps_inc)

theorem keeps_dropRets {s0 : State} (s : State) (p : Nat) (hk : Keeps s0 s) : Keeps s0 (State.dropRets s p) := by
  unfold State.dropRets
  repeat' (first | with_reducible assumption | apply keeps_ite | apply keeps_mk)

theorem keeps_chanClear {s0 : State} (s : State) (n : Nat) (c : Nat) (hk : Keeps s0 s) : Keeps s0 (State.chanClear s n c) := by
  unfold State.chanClear
  repeat' (first | with_reducible assumption | with_reducible first | apply keeps_epClear | apply keeps_setRx | apply keeps_setTx)

theorem keeps_engStop {s0 : State} (s : State) (n : Nat) (cause : Nat) (st : Nat) (hk : Keeps s0 s) : Keeps s0 (State.engStop s n cause st) := by
  unfold State.engStop
  repeat' (first | with_reducible assumption | intro _ | with_reducible first | apply keeps_wr | apply keeps_inc | apply keeps_setReg | apply keeps_dropRets | apply keeps_setProc | apply keeps_setEng | apply keeps_each | apply keeps_handRestart | apply keeps_handOff | apply keeps_chanClear | apply keeps_txBusy | apply keeps_unitIrq | apply keeps_ite)

theorem keeps_zeroMem {s0 : State} (s : State) (a n : Nat) (h : Keeps s0 s) : Keeps s0 (s.zeroMem a n) :=
  ⟨h.raw, h.pending, h.regs, fun k => swf_filter _ _ s.mem (h.mem k)⟩

theorem keeps_engRun {s0 : State} (s : State) (n : Nat) (e : LibEnt) (pb : List Word) (hk : Keeps s0 s) : Keeps s0 (State.engRun s n e pb) := by
  unfold State.engRun
  repeat' (first | with_reducible assumption | intro _ | with_reducible first | apply keeps_zeroMem | apply keeps_each | apply keeps_setWord | apply keeps_setEng | apply keeps_setProc | apply keeps_forgetProc | apply keeps_wr)

theorem keeps_unbind {s0 : State} (s : State) (u : Nat) (hk : Keeps s0 s) : Keeps s0 (State.unbind s u) := by
  unfold State.unbind
  repeat' (first | with_reducible assumption | intro _ | with_reducible first | apply keeps_each | apply keeps_wr | apply keeps_ite)

theorem keeps_giveUnit {s0 : State} (s : State) (u : Nat) (o : Option Nat) (hk : Keeps s0 s) : Keeps s0 (State.giveUnit s u o) := by
  unfold State.giveUnit
  repeat' (first | with_reducible assumption | with_reducible first | apply keeps_unbind | apply keeps_setOwner | apply keeps_setField | apply keeps_showLine | apply keeps_ite)

theorem keeps_setCanOwner {s0 : State} (s : State) (n : Nat) (o : Option Nat) (hk : Keeps s0 s) : Keeps s0 (State.setCanOwner s n o) := by
  unfold State.setCanOwner
  repeat' (first | with_reducible assumption | intro _ | with_reducible first | apply keeps_chanClear | apply keeps_wr | apply keeps_setCan | apply keeps_ite | split)

theorem keeps_opEngLoad {s0 : State} (env : Env) (c : CmdRec) (s : State) (hk : Keeps s0 s) : Keeps s0 (opEngLoad env c s) := by
  unfold opEngLoad
  repeat' (first | with_reducible assumption | intro _ | with_reducible first | apply keeps_withBuf | apply keeps_fail | apply keeps_putWords | apply keeps_done | apply keeps_ite | split | (dsimp -zeta only) | apply keeps_mk)

theorem keeps_opEngStart {s0 : State} (env : Env) (c : CmdRec) (s : State) (hk : Keeps s0 s) : Keeps s0 (opEngStart env c s) := by
  unfold opEngStart
  repeat' (first | with_reducible assumption | intro _ | with_reducible first | apply keeps_fail | apply keeps_engStop | apply keeps_readBuf | apply keeps_again | apply keeps_engRun | apply keeps_done | apply keeps_engEvent | apply keeps_withBuf | apply keeps_setEng | apply keeps_wr | apply keeps_ite | split | extract_lets | (refine Keeps.of_snd (by assumption) ?_))

theorem keeps_opEngStop {s0 : State} (c : CmdRec) (s : State) (hk : Keeps s0 s) : Keeps s0 (opEngStop c s) := by
  unfold opEngStop
  repeat' (first | with_reducible assumption | intro _ | with_reducible first | apply keeps_done | apply keeps_each | apply keeps_engStop)

theorem keeps_opEngMatrix {s0 : State} (c : CmdRec) (s : State) (hk : Keeps s0 s) : Keeps s0 (opEngMatrix c s) := by
  unfold opEngMatrix
  repeat' (first | with_reducible assumption | intro _ | with_reducible first | apply keeps_fail | apply keeps_done | apply keeps_each | apply keeps_giveUnit | apply keeps_setCanOwner | apply keeps_badEnc | apply keeps_badParam | apply keeps_wr | apply keeps_chanClear | apply keeps_ite | split)

theorem keeps_opEngHands {s0 : State} (c : CmdRec) (s : State) (hk : Keeps s0 s) : Keeps s0 (opEngHands c s) := by
  unfold opEngHands
  repeat' (first | with_reducible assumption | intro _ | with_reducible first | apply keeps_fail | apply keeps_done | apply keeps_each | apply keeps_wr | apply keeps_handRestart | apply keeps_handFifoClr | apply keeps_ite)

theorem keeps_opEngAdlib {s0 : State} (c : CmdRec) (s : State) (hk : Keeps s0 s) : Keeps s0 (opEngAdlib c s) := by
  unfold opEngAdlib
  repeat' (first | with_reducible assumption | intro _ | with_reducible first | apply keeps_fail | apply keeps_badParam | apply keeps_done | apply keeps_withOut | apply keeps_writeBuf | apply keeps_ite | split | (dsimp -zeta only) | apply keeps_mk)

theorem keeps_opEngAdliblock {s0 : State} (c : CmdRec) (s : State) (hk : Keeps s0 s) : Keeps s0 (opEngAdliblock c s) := by
  unfold opEngAdliblock
  repeat' (first | with_reducible assumption | with_reducible first | apply keeps_fail | apply keeps_done | apply keeps_ite | apply keeps_mk)

theorem keeps_opEngStatus {s0 : State} (c : CmdRec) (s : State) (hk : Keeps s0 s) : Keeps s0 (opEngStatus c s) := by
  unfold opEngStatus
  repeat' (first | with_reducible assumption | with_reducible first | apply keeps_done)

theorem keeps_engTimer {s0 : State} (s : State) (n : Nat) (hk : Keeps s0 s) : Keeps s0 (State.engTimer s n) := by
  unfold State.engTimer
  repeat' (first | with_reducible assumption | with_reducible first | apply keeps_wr | apply keeps_engEvent | apply keeps_ite)

theorem keeps_engWatchdog {s0 : State} (s : State) (n : Nat) (hk : Keeps s0 s) : Keeps s0 (State.engWatchdog s n) := by
  unfold State.engWatchdog
  repeat' (first | with_reducible assumption | with_reducible first | apply keeps_engStop | apply keeps_ite)

theorem keeps_engSync {s0 : State} (s : State) (id : Nat) (mask : Nat) (hk : Keeps s0 s) : Keeps s0 (State.engSync s id mask) := by
  unfold State.engSync
  repeat' (first | with_reducible assumption | with_reducible first | apply keeps_handSync)

theorem keeps_wdKick {s0 : State} (s : State) (n : Nat) (hk : Keeps s0 s) : Keeps s0 (State.wdKick s n) := by
  unfold State.wdKick
  repeat' (first | with_reducible assumption | with_reducible first | apply keeps_setEng)

theorem keeps_engGtx {s0 : State} (s : State) (n : Nat) (v : Word) (hk : Keeps s0 s) : Keeps s0 (State.engGtx s n v) := by
  unfold State.engGtx
  repeat' (first | with_reducible assumption | with_reducible first | apply keeps_wr | apply keeps_setEng | apply keeps_ite)

theorem keeps_evtClear {s0 : State} (s : State) (n : Nat) (v : Word) (hk : Keeps s0 s) : Keeps s0 (State.evtClear s n v) := by
  unfold State.evtClear
  repeat' (first | with_reducible assumption | with_reducible first | apply keeps_wr)

theorem keeps_engCntClr {s0 : State} (s : State) (n : Nat) (hk : Keeps s0 s) : Keeps s0 (State.engCntClr s n) := by
  unfold State.engCntClr
  repeat' (first | with_reducible assumption | with_reducible first | apply keeps_clearRegs)

theorem keeps_rateValue {s0 : State} (s : State) (i : Nat) (src : Nat) (raw : Nat) (data : List Byte) (hk : Keeps s0 s) : Keeps s0 (State.rateValue s i src raw data) := by
  unfold State.rateValue
  repeat' (first | with_reducible assumption | intro _ | with_reducible first | apply keeps_setGate | apply keeps_ite | split)

theorem keeps_gatePop {s0 : State} (s : State) (hk : Keeps s0 s) : Keeps s0 (State.gatePop s) := by
  unfold State.gatePop
  repeat' (first | with_reducible assumption | with_reducible first | apply keeps_setGate)

theorem keeps_gateSend {s0 : State} (s : State) (w3 : Word) (m : Msg) (hk : Keeps s0 s) : Keeps s0 (State.gateSend s w3 m) := by
  unfold State.gateSend
  repeat' (first | with_reducible assumption | with_reducible first | apply keeps_deliverPort | apply keeps_gateFrame | apply keeps_ite)

theorem keeps_openTx {s0 : State} (s : State) (t : GateTx) (w3 : Word) (m : Msg) (hk : Keeps s0 s) : Keeps s0 (State.openTx s t w3 m) := by
  unfold State.openTx
  repeat' (first | with_reducible assumption | with_reducible first | apply keeps_showGate | apply keeps_setGate | apply keeps_deliverPort | apply keeps_gateSend | apply keeps_ite)

theorem keeps_gateAnswer {s0 : State} (s : State) (m : Msg) (hk : Keeps s0 s) : Keeps s0 (State.gateAnswer s m) := by
  unfold State.gateAnswer
  repeat' (first | with_reducible assumption | intro _ | with_reducible first | apply keeps_rateValue | apply keeps_txClose | apply keeps_txAnswer | apply keeps_ite | split)

theorem keeps_answerNow {s0 : State} (s : State) (m : Msg) (dst : Nat) (v : Option (List Byte)) (hk : Keeps s0 s) : Keeps s0 (State.answerNow s m dst v) := by
  unfold State.answerNow
  repeat' (first | with_reducible assumption | with_reducible first | apply keeps_deliverPort)

theorem keeps_gateRequest {s0 : State} (s : State) (w : List Word) (m : Msg) (hk : Keeps s0 s) : Keeps s0 (State.gateRequest s w m) := by
  unfold State.gateRequest
  repeat' (first | with_reducible assumption | intro _ | with_reducible first | apply keeps_answerNow | apply keeps_gateLog | apply keeps_inc | apply keeps_openTx | apply keeps_ite | split)

theorem keeps_gateRoute {s0 : State} (s : State) (w : List Word) (m : Msg) (hk : Keeps s0 s) : Keeps s0 (State.gateRoute s w m) := by
  unfold State.gateRoute
  repeat' (first | with_reducible assumption | intro _ | with_reducible first | apply keeps_gatePop | apply keeps_answerNow | apply keeps_inc | apply keeps_rateValue | apply keeps_gateRequest | apply keeps_gateSend | apply keeps_ite | split)

theorem keeps_gateHead {s0 : State} (s : State) (hk : Keeps s0 s) : Keeps s0 (State.gateHead s) := by
  unfold State.gateHead
  repeat' (first | with_reducible assumption | intro _ | with_reducible first | apply keeps_inc | apply keeps_gatePop | apply keeps_gateAnswer | apply keeps_gateRoute | apply keeps_gateLog | apply keeps_ite | split)

theorem keeps_gateTake {s0 : State} (s : State) (n : Nat) (hk : Keeps s0 s) : Keeps s0 (State.gateTake s n) := by
  unfold State.gateTake
  repeat' (first | with_reducible assumption | intro _ | with_reducible first | apply keeps_engEvent | apply keeps_wr | apply keeps_setEng | apply keeps_inc | apply keeps_gateIn | apply keeps_ite | split)

theorem keeps_gateEnter {s0 : State} (s : State) (src : Nat) (hk : Keeps s0 s) : Keeps s0 (State.gateEnter s src) := by
  unfold State.gateEnter
  repeat' (first | with_reducible assumption | with_reducible first | apply keeps_gateHead | apply keeps_gateTake | apply keeps_ite)

theorem keeps_rateSend {s0 : State} (s : State) (i : Nat) (hk : Keeps s0 s) : Keeps s0 (State.rateSend s i) := by
  unfold State.rateSend
  repeat' (first | with_reducible assumption | intro _ | with_reducible first | apply keeps_setGate | apply keeps_inc | apply keeps_gateSend | apply keeps_ite | split)

theorem keeps_txLimit {s0 : State} (s : State) (n : Nat) (cause : Nat) (hk : Keeps s0 s) : Keeps s0 (State.txLimit s n cause) := by
  unfold State.txLimit
  repeat' (first | with_reducible assumption | intro _ | with_reducible first | apply keeps_txBusy | apply keeps_gateLog | apply keeps_ite | split)

theorem keeps_gateArrive {s0 : State} (s : State) (ring : Nat) (station : Nat) (ws : List Word) (hk : Keeps s0 s) : Keeps s0 (State.gateArrive s ring station ws) := by
  unfold State.gateArrive
  repeat' (first | with_reducible assumption | intro _ | with_reducible first | apply keeps_inc | apply keeps_gateAnswer | apply keeps_gateFrame | apply keeps_openTx | apply keeps_deliverPort | apply keeps_ite | split)

theorem keeps_gateLogClr {s0 : State} (s : State) (hk : Keeps s0 s) : Keeps s0 (State.gateLogClr s) := by
  unfold State.gateLogClr
  repeat' (first | with_reducible assumption | with_reducible first | apply keeps_wr | apply keeps_clearRegs)

theorem keeps_gateCntClr {s0 : State} (s : State) (hk : Keeps s0 s) : Keeps s0 (State.gateCntClr s) := by
  unfold State.gateCntClr
  repeat' (first | with_reducible assumption | with_reducible first | apply keeps_clearRegs)

theorem keeps_showRoutes {s0 : State} (s : State) (hk : Keeps s0 s) : Keeps s0 (State.showRoutes s) := by
  unfold State.showRoutes
  repeat' (first | with_reducible assumption | with_reducible first | apply keeps_wr)

theorem keeps_opGateRoute {s0 : State} (env : Env) (c : CmdRec) (s : State) (hk : Keeps s0 s) : Keeps s0 (opGateRoute env c s) := by
  unfold opGateRoute
  repeat' (first | with_reducible assumption | intro _ | with_reducible first | apply keeps_done | apply keeps_showRoutes | apply keeps_setGate | apply keeps_badEnc | apply keeps_badParam | apply keeps_withBuf | apply keeps_fail | apply keeps_withOut | apply keeps_writeBuf | apply keeps_ite | split)

theorem keeps_opGateRate {s0 : State} (c : CmdRec) (s : State) (hk : Keeps s0 s) : Keeps s0 (opGateRate c s) := by
  unfold opGateRate
  repeat' (first | with_reducible assumption | with_reducible first | apply keeps_badParam | apply keeps_fail | apply keeps_badEnc | apply keeps_done | apply keeps_showRoutes | apply keeps_setGate | apply keeps_ite)

theorem keeps_opGateCache {s0 : State} (c : CmdRec) (s : State) (hk : Keeps s0 s) : Keeps s0 (opGateCache c s) := by
  unfold opGateCache
  repeat' (first | with_reducible assumption | intro _ | with_reducible first | apply keeps_badParam | apply keeps_withOut | apply keeps_fail | apply keeps_done | apply keeps_writeBuf | apply keeps_ite)

theorem keeps_opGateStatus {s0 : State} (c : CmdRec) (s : State) (hk : Keeps s0 s) : Keeps s0 (opGateStatus c s) := by
  unfold opGateStatus
  repeat' (first | with_reducible assumption | with_reducible first | apply keeps_done)

theorem keeps_setFab {s0 : State} (s : State) (f : FabSt → FabSt) (hk : Keeps s0 s) : Keeps s0 (State.setFab s f) := by
  unfold State.setFab
  repeat' (first | with_reducible assumption | apply keeps_ite | apply keeps_mk)

theorem keeps_showFab {s0 : State} (s : State) (hk : Keeps s0 s) : Keeps s0 (State.showFab s) := by
  unfold State.showFab
  repeat' (first | with_reducible assumption | intro _ | with_reducible first | apply keeps_wr | apply keeps_each)

theorem keeps_showWins {s0 : State} (s : State) (hk : Keeps s0 s) : Keeps s0 (State.showWins s) := by
  unfold State.showWins
  repeat' (first | with_reducible assumption | intro _ | with_reducible first | apply keeps_each | apply keeps_wr)

theorem keeps_fabLog {s0 : State} (s : State) (posted : Bool) (tag : Nat) (cause : Nat) (ident : Nat) (ring : Nat) (station : Nat) (daddr : Nat) (hk : Keeps s0 s) : Keeps s0 (State.fabLog s posted tag cause ident ring station daddr) := by
  unfold State.fabLog
  repeat' (first | with_reducible assumption | intro _ | with_reducible first | apply keeps_event | apply keeps_wr | apply keeps_each | apply keeps_setReg | apply keeps_ite)

theorem keeps_pfDrop {s0 : State} (s : State) (w : Nat) (hk : Keeps s0 s) : Keeps s0 (State.pfDrop s w) := by
  unfold State.pfDrop
  repeat' (first | with_reducible assumption | intro _ | with_reducible first | apply keeps_setFab | apply keeps_wr | apply keeps_event | apply keeps_each | apply keeps_setReg | apply keeps_ite | split)

theorem keeps_winApply {s0 : State} (s : State) (w : Nat) (hk : Keeps s0 s) : Keeps s0 (State.winApply s w) := by
  unfold State.winApply
  repeat' (first | with_reducible assumption | with_reducible first | apply keeps_commitRegs | apply keeps_pfDrop | apply keeps_showWins | apply keeps_setFab)

theorem keeps_winCommit {s0 : State} (s : State) (w : Nat) (hk : Keeps s0 s) : Keeps s0 (State.winCommit s w) := by
  unfold State.winCommit
  repeat' (first | with_reducible assumption | with_reducible first | apply keeps_winApply | apply keeps_setFab | apply keeps_ite)

theorem keeps_freeTag {s0 : State} (s : State) (t : Nat) (hk : Keeps s0 s) : Keeps s0 (State.freeTag s t) := by
  unfold State.freeTag
  repeat' (first | with_reducible assumption | intro _ | with_reducible first | apply keeps_showFab | apply keeps_setFab | apply keeps_each | apply keeps_winApply | apply keeps_ite)

theorem keeps_fabCntClr {s0 : State} (s : State) (hk : Keeps s0 s) : Keeps s0 (State.fabCntClr s) := by
  unfold State.fabCntClr
  repeat' (first | with_reducible assumption | with_reducible first | apply keeps_clearRegs)

theorem keeps_fabElogClr {s0 : State} (s : State) (hk : Keeps s0 s) : Keeps s0 (State.fabElogClr s) := by
  unfold State.fabElogClr
  repeat' (first | with_reducible assumption | with_reducible first | apply keeps_wr | apply keeps_clearRegs)

theorem keeps_fabDlogClr {s0 : State} (s : State) (hk : Keeps s0 s) : Keeps s0 (State.fabDlogClr s) := by
  unfold State.fabDlogClr
  repeat' (first | with_reducible assumption | with_reducible first | apply keeps_wr | apply keeps_clearRegs)

theorem keeps_setDma {s0 : State} (s : State) (c : Nat) (f : DmaSt → DmaSt) (hk : Keeps s0 s) : Keeps s0 (State.setDma s c f) := by
  unfold State.setDma
  repeat' (first | with_reducible assumption | apply keeps_ite | apply keeps_mk)

theorem keeps_dmaStart {s0 : State} (s : State) (c : Nat) (hk : Keeps s0 s) : Keeps s0 (State.dmaStart s c) := by
  unfold State.dmaStart
  repeat' (first | with_reducible assumption | with_reducible first | apply keeps_setDma | apply keeps_wr | apply keeps_ite)

theorem keeps_dmaError {s0 : State} (s : State) (c : Nat) (cause : Nat) (hk : Keeps s0 s) : Keeps s0 (State.dmaError s c cause) := by
  unfold State.dmaError
  repeat' (first | with_reducible assumption | with_reducible first | apply keeps_wr | apply keeps_callEvent | apply keeps_setDma | apply keeps_ite)

theorem keeps_showPend {s0 : State} (s : State) (a : Nat) (hk : Keeps s0 s) : Keeps s0 (State.showPend s a) := by
  unfold State.showPend
  repeat' (first | with_reducible assumption | intro _ | with_reducible first | apply keeps_wr | apply keeps_showQPending | apply keeps_showRingPending | apply keeps_showWins | apply keeps_showSw | apply keeps_showMac | apply keeps_showCanPend | apply keeps_showLine | apply keeps_showHandPend | apply keeps_showMot | apply keeps_showDrv | apply keeps_ite | split)

theorem keeps_plainWrite {s0 : State} (s : State) (a : Nat) (v : Word) (hk : Keeps s0 s) : Keeps s0 (State.plainWrite s a v) := by
  unfold State.plainWrite
  repeat' (first | with_reducible assumption | intro _ | with_reducible first | apply keeps_setReg | apply keeps_showPend | apply keeps_setShadow | apply keeps_ite | split)

theorem keeps_clearDecErr {s0 : State} (s : State) (hk : Keeps s0 s) : Keeps s0 (State.clearDecErr s) := by
  unfold State.clearDecErr
  repeat' (first | with_reducible assumption | with_reducible first | apply keeps_wr)

theorem keeps_clearLinkErr {s0 : State} (s : State) (hk : Keeps s0 s) : Keeps s0 (State.clearLinkErr s) := by
  unfold State.clearLinkErr
  repeat' (first | with_reducible assumption | with_reducible first | apply keeps_setReg)

theorem keeps_clearViewFault {s0 : State} (s : State) (hk : Keeps s0 s) : Keeps s0 (State.clearViewFault s) := by
  unfold State.clearViewFault
  repeat' (first | with_reducible assumption | with_reducible first | apply keeps_wr)

theorem keeps_writeIdt {s0 : State} (s : State) (id : Nat) (a : Nat) (i : Nat) (v : Word) (hk : Keeps s0 s) : Keeps s0 (State.writeIdt s id a i v) := by
  unfold State.writeIdt
  repeat' (first | with_reducible assumption | with_reducible first | apply keeps_viewFault | apply keeps_setReg | apply keeps_ite)

theorem keeps_acts_nil {s0 : State} (s : State) (v : Word) (h : Keeps s0 s) : Keeps s0 (s.acts v []) := h
theorem keeps_acts_cons {s0 : State} (s : State) (v : Word) (i : Nat) (f : State → State) (l : List (Nat × (State → State)))
    (h : Keeps s0 s) (hf : ∀ t, Keeps s0 t → Keeps s0 (f t)) (hl : ∀ t, Keeps s0 t → Keeps s0 (t.acts v l)) : Keeps s0 (s.acts v ((i, f) :: l)) := by
  unfold State.acts
  apply hl
  split
  · exact hf s h
  · exact h

theorem keeps_writeSafe {s0 : State} (s : State) (a : Nat) (v : Word) (hk : Keeps s0 s) : Keeps s0 (State.writeSafe s a v) := by
  unfold State.writeSafe
  repeat' (first | with_reducible assumption | intro _ | with_reducible first | apply keeps_acts_nil | apply keeps_acts_cons | apply keeps_trip | apply keeps_safeCommit | apply keeps_wr | apply keeps_lockDbg | apply keeps_plainWrite | apply keeps_ite)

theorem keeps_writeCmd {s0 : State} (s : State) (a : Nat) (v : Word) (hk : Keeps s0 s) : Keeps s0 (State.writeCmd s a v) := by
  unfold State.writeCmd
  repeat' (first | with_reducible assumption | intro _ | with_reducible first | apply keeps_each | apply keeps_plainWrite | apply keeps_setQueue | apply keeps_writeQctl | apply keeps_ite)

theorem keeps_writeCall {s0 : State} (s : State) (id : Nat) (a : Nat) (b : Nat) (v : Word) (hk : Keeps s0 s) : Keeps s0 (State.writeCall s id a b v) := by
  unfold State.writeCall
  repeat' (first | with_reducible assumption | with_reducible first | apply keeps_clearCallErr | apply keeps_wr | apply keeps_writeBind | apply keeps_writeMessage | apply keeps_writeDoorbell | apply keeps_writeAck | apply keeps_writeCallCfg | apply keeps_callRefuse | apply keeps_plainWrite | apply keeps_ite)

theorem keeps_writeView {s0 : State} (s : State) (id : Nat) (a : Nat) (b : Nat) (v : Word) (hk : Keeps s0 s) : Keeps s0 (State.writeView s id a b v) := by
  unfold State.writeView
  repeat' (first | with_reducible assumption | with_reducible first | apply keeps_clearViewFault | apply keeps_writeIdt | apply keeps_plainWrite | apply keeps_ite)

theorem keeps_writeMemReg {s0 : State} (s : State) (id : Nat) (a : Nat) (b : Nat) (v : Word) (hk : Keeps s0 s) : Keeps s0 (State.writeMemReg s id a b v) := by
  unfold State.writeMemReg
  repeat' (first | with_reducible assumption | intro _ | with_reducible first | apply keeps_acts_nil | apply keeps_acts_cons | apply keeps_memCntClr | apply keeps_memLogClr | apply keeps_decErr | apply keeps_plainWrite | apply keeps_dmaError | apply keeps_dmaStart | apply keeps_ite)

theorem keeps_writeTime {s0 : State} (s : State) (b : Nat) (v : Word) (hk : Keeps s0 s) : Keeps s0 (State.writeTime s b v) := by
  unfold State.writeTime
  repeat' (first | with_reducible assumption | intro _ | with_reducible first | apply keeps_acts_nil | apply keeps_acts_cons | apply keeps_snapshot | apply keeps_timeCntClr | apply keeps_plainWrite | apply keeps_trigCommit | apply keeps_ite)

theorem keeps_writeRing {s0 : State} (s : State) (b : Nat) (v : Word) (hk : Keeps s0 s) : Keeps s0 (State.writeRing s b v) := by
  unfold State.writeRing
  repeat' (first | with_reducible assumption | intro _ | with_reducible first | apply keeps_acts_nil | apply keeps_acts_cons | apply keeps_ringCommit | apply keeps_splitCommit | apply keeps_ringCntClr | apply keeps_pubCommit | apply keeps_plainWrite | apply keeps_ite)

theorem keeps_writeMrsh {s0 : State} (s : State) (b : Nat) (v : Word) (hk : Keeps s0 s) : Keeps s0 (State.writeMrsh s b v) := by
  unfold State.writeMrsh
  repeat' (first | with_reducible assumption | intro _ | with_reducible first | apply keeps_acts_nil | apply keeps_acts_cons | apply keeps_mrshCommit | apply keeps_leaveOut | apply keeps_setMrsh | apply keeps_wr | apply keeps_plainWrite | apply keeps_ite)

theorem keeps_writeFab {s0 : State} (s : State) (b : Nat) (v : Word) (hk : Keeps s0 s) : Keeps s0 (State.writeFab s b v) := by
  unfold State.writeFab
  repeat' (first | with_reducible assumption | intro _ | with_reducible first | apply keeps_each | apply keeps_winCommit | apply keeps_acts_nil | apply keeps_acts_cons | apply keeps_fabCntClr | apply keeps_plainWrite | apply keeps_ite)

theorem keeps_writeGate {s0 : State} (s : State) (b : Nat) (v : Word) (hk : Keeps s0 s) : Keeps s0 (State.writeGate s b v) := by
  unfold State.writeGate
  repeat' (first | with_reducible assumption | intro _ | with_reducible first | apply keeps_acts_nil | apply keeps_acts_cons | apply keeps_plainWrite | apply keeps_gateCntClr | apply keeps_gateLogClr | apply keeps_ite)

theorem keeps_writeSw {s0 : State} (s : State) (b : Nat) (v : Word) (hk : Keeps s0 s) : Keeps s0 (State.writeSw s b v) := by
  unfold State.writeSw
  repeat' (first | with_reducible assumption | intro _ | with_reducible first | apply keeps_acts_nil | apply keeps_acts_cons | apply keeps_swCommit | apply keeps_swCntClr | apply keeps_htxWrite | apply keeps_hrxWrite | apply keeps_plainWrite | apply keeps_ite)

theorem keeps_writeMac {s0 : State} (s : State) (b : Nat) (v : Word) (hk : Keeps s0 s) : Keeps s0 (State.writeMac s b v) := by
  unfold State.writeMac
  repeat' (first | with_reducible assumption | intro _ | with_reducible first | apply keeps_acts_nil | apply keeps_acts_cons | apply keeps_macCommit | apply keeps_gateCommit | apply keeps_macCntClr | apply keeps_plainWrite | apply keeps_ite)

theorem keeps_writeCan {s0 : State} (s : State) (b : Nat) (v : Word) (hk : Keeps s0 s) : Keeps s0 (State.writeCan s b v) := by
  unfold State.writeCan
  repeat' (first | with_reducible assumption | intro _ | with_reducible first | apply keeps_acts_nil | apply keeps_acts_cons | apply keeps_canCommit | apply keeps_canFltCommit | apply keeps_canRecover | apply keeps_canCntClr | apply keeps_canTxw | apply keeps_canCancel | apply keeps_plainWrite | apply keeps_ite)

theorem keeps_writeLine {s0 : State} (s : State) (b : Nat) (v : Word) (hk : Keeps s0 s) : Keeps s0 (State.writeLine s b v) := by
  unfold State.writeLine
  repeat' (first | with_reducible assumption | intro _ | with_reducible first | apply keeps_acts_nil | apply keeps_acts_cons | apply keeps_lineCommit | apply keeps_passRequest | apply keeps_lineClr | apply keeps_writeLineOut | apply keeps_plainWrite | apply keeps_ite)

theorem keeps_writeDio {s0 : State} (s : State) (id : Nat) (b : Nat) (v : Word) (hk : Keeps s0 s) : Keeps s0 (State.writeDio s id b v) := by
  unfold State.writeDio
  repeat' (first | with_reducible assumption | intro _ | with_reducible first | apply keeps_each | apply keeps_dioCommit | apply keeps_acts_nil | apply keeps_acts_cons | apply keeps_dioClr | apply keeps_writeDioOut | apply keeps_plainWrite | apply keeps_ite)

theorem keeps_writeEng {s0 : State} (s : State) (id : Nat) (b : Nat) (v : Word) (hk : Keeps s0 s) : Keeps s0 (State.writeEng s id b v) := by
  unfold State.writeEng
  repeat' (first | with_reducible assumption | intro _ | with_reducible first | apply keeps_evtClear | apply keeps_engSync | apply keeps_wdKick | apply keeps_plainWrite | apply keeps_engGtx | apply keeps_engCntClr | apply keeps_ite | split)

theorem keeps_writeHand {s0 : State} (s : State) (b : Nat) (v : Word) (hk : Keeps s0 s) : Keeps s0 (State.writeHand s b v) := by
  unfold State.writeHand
  repeat' (first | with_reducible assumption | with_reducible first | apply keeps_writeHandCtl | apply keeps_handWriteMem | apply keeps_handPush | apply keeps_handWritePin | apply keeps_plainWrite | apply keeps_ite)

theorem keeps_writeMot {s0 : State} (s : State) (b : Nat) (v : Word) (hk : Keeps s0 s) : Keeps s0 (State.writeMot s b v) := by
  unfold State.writeMot
  repeat' (first | with_reducible assumption | intro _ | with_reducible first | apply keeps_acts_nil | apply keeps_acts_cons | apply keeps_motCommit | apply keeps_motHalt | apply keeps_motCntClr | apply keeps_motTgt | apply keeps_motLatt | apply keeps_plainWrite | apply keeps_ite)

theorem keeps_writeDrv {s0 : State} (s : State) (b : Nat) (v : Word) (hk : Keeps s0 s) : Keeps s0 (State.writeDrv s b v) := by
  unfold State.writeDrv
  repeat' (first | with_reducible assumption | with_reducible first | apply keeps_drvCtl | apply keeps_plainWrite | apply keeps_ite)

theorem keeps_hostCntClr {s0 : State} (s : State) (hk : Keeps s0 s) : Keeps s0 (State.hostCntClr s) := by
  unfold State.hostCntClr
  repeat' (first | with_reducible assumption | with_reducible first | apply keeps_clearRegs)

theorem keeps_writeHost {s0 : State} (s : State) (b : Nat) (v : Word) (hk : Keeps s0 s) : Keeps s0 (State.writeHost s b v) := by
  unfold State.writeHost
  repeat' (first | with_reducible assumption | intro _ | with_reducible first | apply keeps_acts_nil | apply keeps_acts_cons | apply keeps_hostCommit | apply keeps_hostCntClr | apply keeps_plainWrite | apply keeps_ite)

theorem keeps_regWrite {s0 : State} (s : State) (id : Nat) (a : Nat) (b : Nat) (v : Word) (hk : Keeps s0 s) : Keeps s0 (State.regWrite s id a b v) := by
  unfold State.regWrite
  repeat' (first | with_reducible assumption | intro _ | with_reducible first | apply keeps_clearDecErr | apply keeps_clearLinkErr | apply keeps_plainWrite | apply keeps_writeSafe | apply keeps_writeCmd | apply keeps_writeCall | apply keeps_writeView | apply keeps_writeMemReg | apply keeps_writeTime | apply keeps_writeRing | apply keeps_writeMrsh | apply keeps_writeFab | apply keeps_writeGate | apply keeps_writeSw | apply keeps_writeMac | apply keeps_writeCan | apply keeps_writeLine | apply keeps_writeDio | apply keeps_writeEng | apply keeps_writeHand | apply keeps_writeMot | apply keeps_writeDrv | apply keeps_writeHost | apply keeps_ite | split)

theorem keeps_regRead {s0 : State} (s : State) (id : Nat) (a : Nat) (b : Nat) (hk : Keeps s0 s) : Keeps s0 (State.regRead s id a b).2 := by
  unfold State.regRead
  repeat' (first | with_reducible assumption | intro _ | with_reducible first | apply keeps_callRefuse | apply keeps_popCapture | apply keeps_popStamp | apply keeps_popWlog | apply keeps_txevRead | apply keeps_stampRead | apply keeps_handPop | apply keeps_motLatRead | apply keeps_useFree | apply keeps_ite | split | extract_lets)

theorem keeps_busRead {s0 : State} (s : State) (id : Nat) (a : Nat) (hk : Keeps s0 s) : Keeps s0 (State.busRead s id a).2 := by
  unfold State.busRead
  repeat' (first | with_reducible assumption | intro _ | with_reducible first | apply keeps_regRead | apply keeps_viewFault | apply keeps_decErr | apply keeps_ite | split)

theorem keeps_busWrite {s0 : State} (s : State) (id : Nat) (a : Nat) (v : Word) (hk : Keeps s0 s) : Keeps s0 (State.busWrite s id a v).2 := by
  unfold State.busWrite
  repeat' (first | with_reducible assumption | intro _ | with_reducible first | apply keeps_regWrite | apply keeps_viewFault | apply keeps_decErr | apply keeps_ite | split)

theorem keeps_setPst {s0 : State} (s : State) (p : Nat) (n : Nat) (hk : Keeps s0 s) : Keeps s0 (State.setPst s p n) := by
  unfold State.setPst
  repeat' (first | with_reducible assumption | with_reducible first | apply keeps_event | apply keeps_wr | apply keeps_ite)

theorem keeps_setPhase {s0 : State} (s : State) (p : Nat) (n : Nat) (hk : Keeps s0 s) : Keeps s0 (State.setPhase s p n) := by
  unfold State.setPhase
  repeat' (first | with_reducible assumption | with_reducible first | apply keeps_wr)

theorem keeps_showOwn {s0 : State} (s : State) (hk : Keeps s0 s) : Keeps s0 (State.showOwn s) := by
  unfold State.showOwn
  repeat' (first | with_reducible assumption | intro _ | with_reducible first | apply keeps_each | apply keeps_wr)

theorem keeps_takeWord {s0 : State} (r : Found × State) (hk : Keeps s0 r.2) : Keeps s0 (takeWord r).2 := by
  obtain ⟨x, s⟩ := r
  unfold takeWord
  cases x
  · exact hk
  · exact keeps_useFree _ hk
  · exact hk
  · exact hk

theorem keeps_copyWords {s0 : State} (s : State) (id : Nat) (src : Nat) (dst : Nat) (l4 : Nat) (hk : Keeps s0 s) : Keeps s0 (State.copyWords s id src dst l4) := by
  revert s id src dst
  induction l4 with
  | zero =>
    intros
    unfold State.copyWords
    repeat' (first | with_reducible assumption)
  | succ n0 ih =>
    intros
    unfold State.copyWords
    repeat' (first | assumption | apply ih | with_reducible first | apply keeps_takeWord | apply keeps_rdMem | apply keeps_wrMem)

theorem keeps_copyRegs {s0 : State} (s : State) (id : Nat) (src : Nat) (dst : Nat) (l4 : Nat) (hk : Keeps s0 s) : Keeps s0 (State.copyRegs s id src dst l4) := by
  revert s id src dst
  induction l4 with
  | zero =>
    intros
    unfold State.copyRegs
    repeat' (first | with_reducible assumption)
  | succ n0 ih =>
    intros
    unfold State.copyRegs
    repeat' (first | assumption | apply ih | with_reducible first | apply keeps_takeWord | apply keeps_busRead | apply keeps_wrMem)

theorem keeps_writeRegs {s0 : State} (s : State) (id : Nat) (src : Nat) (dst : Nat) (l4 : Nat) (hk : Keeps s0 s) : Keeps s0 (State.writeRegs s id src dst l4) := by
  revert s id src dst
  induction l4 with
  | zero =>
    intros
    unfold State.writeRegs
    repeat' (first | with_reducible assumption)
  | succ n0 ih =>
    intros
    unfold State.writeRegs
    repeat' (first | assumption | apply ih | with_reducible first | apply keeps_takeWord | apply keeps_rdMem | apply keeps_busWrite)

theorem keeps_zeroRegs {s0 : State} (s : State) (id : Nat) (dst : Nat) (l3 : Nat) (hk : Keeps s0 s) : Keeps s0 (State.zeroRegs s id dst l3) := by
  revert s id dst
  induction l3 with
  | zero =>
    intros
    unfold State.zeroRegs
    repeat' (first | with_reducible assumption)
  | succ n0 ih =>
    intros
    unfold State.zeroRegs
    repeat' (first | assumption | apply ih | with_reducible first | apply keeps_busWrite)

theorem keeps_zeroWords {s0 : State} (s : State) (a : Nat) (l2 : Nat) (hk : Keeps s0 s) : Keeps s0 (State.zeroWords s a l2) := by
  revert s a
  induction l2 with
  | zero =>
    intros
    unfold State.zeroWords
    repeat' (first | with_reducible assumption)
  | succ n0 ih =>
    intros
    unfold State.zeroWords
    repeat' (first | assumption | apply ih | with_reducible first | apply keeps_putWord)

theorem keeps_tcmByte {s0 : State} (s : State) (p : Nat) (a : Nat) (v : Nat) (hk : Keeps s0 s) : Keeps s0 (State.tcmByte s p a v) := by
  unfold State.tcmByte
  repeat' (first | with_reducible assumption | with_reducible first | apply keeps_takeWord | apply keeps_rdMem | apply keeps_wrMem)

theorem keeps_readInput {s0 : State} (s : State) (p : Nat) (i : Nat) (e : MapEnt) (hk : Keeps s0 s) : Keeps s0 (State.readInput s p i e) := by
  unfold State.readInput
  repeat' (first | with_reducible assumption | with_reducible first | apply keeps_tcmByte | apply keeps_copyRegs | apply keeps_copyWords | apply keeps_setPair | apply keeps_inc | apply keeps_event | apply keeps_ite)

theorem keeps_clearUndel {s0 : State} (s : State) (p : Nat) (hk : Keeps s0 s) : Keeps s0 (State.clearUndel s p) := by
  unfold State.clearUndel
  repeat' (first | with_reducible assumption | intro _ | with_reducible first | apply keeps_each | apply keeps_tcmByte | apply keeps_ite)

theorem keeps_readInputs {s0 : State} (s : State) (p : Nat) (hk : Keeps s0 s) : Keeps s0 (State.readInputs s p) := by
  unfold State.readInputs
  repeat' (first | with_reducible assumption | intro _ | with_reducible first | apply keeps_setPhase | apply keeps_clearUndel | apply keeps_copyRegs | apply keeps_each | apply keeps_readInput)

theorem keeps_enterAt {s0 : State} (s : State) (p : Nat) (pc : Nat) (hk : Keeps s0 s) : Keeps s0 (State.enterAt s p pc) := by
  unfold State.enterAt
  repeat' (first | with_reducible assumption | with_reducible first | apply keeps_setProc)

theorem keeps_freshProc {s0 : State} (s : State) (p : Nat) (hk : Keeps s0 s) : Keeps s0 (State.freshProc s p) := by
  unfold State.freshProc
  repeat' (first | with_reducible assumption | with_reducible first | apply keeps_setProc | apply keeps_forgetProc)

theorem keeps_haltCores {s0 : State} (s : State) (p : Nat) (hk : Keeps s0 s) : Keeps s0 (State.haltCores s p) := by
  unfold State.haltCores
  repeat' (first | with_reducible assumption | with_reducible first | apply keeps_setProc)

theorem keeps_startCycle {s0 : State} (s : State) (p : Nat) (gap : Nat) (hk : Keeps s0 s) : Keeps s0 (State.startCycle s p gap) := by
  unfold State.startCycle
  repeat' (first | with_reducible assumption | intro _ | with_reducible first | apply keeps_wr | apply keeps_setPair | apply keeps_readInputs | apply keeps_setPhase | apply keeps_enterAt | apply keeps_ite | split)

theorem keeps_safeReg {s0 : State} (s : State) (p : Nat) (e : MapEnt) (hk : Keeps s0 s) : Keeps s0 (State.safeReg s p e) := by
  unfold State.safeReg
  repeat' (first | with_reducible assumption | with_reducible first | apply keeps_zeroRegs | apply keeps_writeRegs | apply keeps_ite)

theorem keeps_safeRegs {s0 : State} (s : State) (p : Nat) (hk : Keeps s0 s) : Keeps s0 (State.safeRegs s p) := by
  unfold State.safeRegs
  repeat' (first | with_reducible assumption | intro _ | with_reducible first | apply keeps_each | apply keeps_safeReg)

theorem keeps_safeActions {s0 : State} (s : State) (p : Nat) (hk : Keeps s0 s) : Keeps s0 (State.safeActions s p) := by
  unfold State.safeActions
  repeat' (first | with_reducible assumption | with_reducible first | apply keeps_setPair | apply keeps_safeRegs)

theorem keeps_publish {s0 : State} (s : State) (p : Nat) (hk : Keeps s0 s) : Keeps s0 (State.publish s p) := by
  unfold State.publish
  repeat' (first | with_reducible assumption | intro _ | with_reducible first | apply keeps_setPair | apply keeps_pubCommit | apply keeps_ite | split)

theorem keeps_refresh {s0 : State} (s : State) (p : Nat) (hk : Keeps s0 s) : Keeps s0 (State.refresh s p) := by
  unfold State.refresh
  repeat' (first | with_reducible assumption | intro _ | with_reducible first | apply keeps_each | apply keeps_copyWords | apply keeps_wrMem | apply keeps_publish | apply keeps_setPair | apply keeps_ite)

theorem keeps_journalApply {s0 : State} (s : State) (p : Nat) (hk : Keeps s0 s) : Keeps s0 (State.journalApply s p) := by
  unfold State.journalApply
  repeat' (first | with_reducible assumption | intro _ | with_reducible first | apply keeps_each | apply keeps_putWord | apply keeps_setPair | apply keeps_ite)

theorem keeps_journalWrite {s0 : State} (s : State) (p : Nat) (hk : Keeps s0 s) : Keeps s0 (State.journalWrite s p) := by
  unfold State.journalWrite
  repeat' (first | with_reducible assumption | with_reducible first | apply keeps_journalApply | apply keeps_putWords | apply keeps_setPair | apply keeps_ite)

theorem keeps_writeOutput {s0 : State} (s : State) (p : Nat) (e : MapEnt) (hk : Keeps s0 s) : Keeps s0 (State.writeOutput s p e) := by
  unfold State.writeOutput
  repeat' (first | with_reducible assumption | with_reducible first | apply keeps_writeRegs | apply keeps_copyWords | apply keeps_ite)

theorem keeps_putByteW {s0 : State} (s : State) (a : Nat) (b : Byte) (hk : Keeps s0 s) : Keeps s0 (State.putByteW s a b) := by
  unfold State.putByteW
  repeat' (first | with_reducible assumption | with_reducible first | apply keeps_putWord)

theorem keeps_putBytesW {s0 : State} (s : State) (a : Nat) (l2 : List Byte) (hk : Keeps s0 s) : Keeps s0 (State.putBytesW s a l2) := by
  revert s a
  induction l2 with
  | nil =>
    intros
    unfold State.putBytesW
    repeat' (first | with_reducible assumption)
  | cons v0 t0 ih =>
    intros
    unfold State.putBytesW
    repeat' (first | assumption | apply ih | with_reducible first | apply keeps_putByteW)

theorem keeps_carry {s0 : State} (s : State) (p : Nat) (x : Section) (e : CarryEnt) (hk : Keeps s0 s) : Keeps s0 (State.carry s p x e) := by
  unfold State.carry
  repeat' (first | with_reducible assumption | intro _ | with_reducible first | apply keeps_putBytesW | apply keeps_ite | split)

theorem keeps_setSlot {s0 : State} (s : State) (p : Nat) (k : Nat) (hk : Keeps s0 s) : Keeps s0 (State.setSlot s p k) := by
  unfold State.setSlot
  repeat' (first | with_reducible assumption | with_reducible first | apply keeps_wr | apply keeps_putWord)

theorem keeps_doCue {s0 : State} (s : State) (p : Nat) (x : Section) (hk : Keeps s0 s) : Keeps s0 (State.doCue s p x) := by
  unfold State.doCue
  repeat' (first | with_reducible assumption | intro _ | with_reducible first | apply keeps_setPhase | apply keeps_setPair | apply keeps_each | apply keeps_carry | apply keeps_setSlot | apply keeps_wr | apply keeps_event | apply keeps_inc | apply keeps_showOwn | apply keeps_freshProc | apply keeps_ite)

theorem keeps_cueDone {s0 : State} (s : State) (seq : Nat) (hk : Keeps s0 s) : Keeps s0 (State.cueDone s seq) := by
  unfold State.cueDone
  repeat' (first | with_reducible assumption | intro _ | with_reducible first | apply keeps_done | apply keeps_ite | split)

theorem keeps_cuePair {s0 : State} (s : State) (p : Nat) (seq : Nat) (hk : Keeps s0 s) : Keeps s0 (State.cuePair s p seq).2 := by
  unfold State.cuePair
  repeat' (first | with_reducible assumption | intro _ | with_reducible first | apply keeps_fin | apply keeps_wr | apply keeps_setPair | apply keeps_cueDone | apply keeps_doCue | apply keeps_ite | split)

theorem keeps_showStg {s0 : State} (s : State) (p : Nat) (hk : Keeps s0 s) : Keeps s0 (State.showStg s p) := by
  unfold State.showStg
  repeat' (first | with_reducible assumption | with_reducible first | apply keeps_wr)

theorem keeps_stgCommit {s0 : State} (s : State) (p : Nat) (hk : Keeps s0 s) : Keeps s0 (State.stgCommit s p) := by
  unfold State.stgCommit
  repeat' (first | with_reducible assumption | with_reducible first | apply keeps_setPair | apply keeps_showStg | apply keeps_commitRegs | apply keeps_ite)

theorem keeps_undelivered {s0 : State} (s : State) (p : Nat) (hk : Keeps s0 s) : Keeps s0 (State.undelivered s p) := by
  unfold State.undelivered
  repeat' (first | with_reducible assumption | intro _ | with_reducible first | apply keeps_each | apply keeps_tcmByte | apply keeps_event | apply keeps_inc | apply keeps_setPair | apply keeps_ite)

theorem keeps_holdCount {s0 : State} (s : State) (p : Nat) (hk : Keeps s0 s) : Keeps s0 (State.holdCount s p) := by
  unfold State.holdCount
  repeat' (first | with_reducible assumption | with_reducible first | apply keeps_wr | apply keeps_ite)

theorem keeps_outputHold {s0 : State} (s : State) (p : Nat) (hk : Keeps s0 s) : Keeps s0 (State.outputHold s p) := by
  unfold State.outputHold
  repeat' (first | with_reducible assumption | with_reducible first | apply keeps_inc | apply keeps_event | apply keeps_wr | apply keeps_safeRegs | apply keeps_ite)

theorem keeps_enterStop {s0 : State} (s : State) (p : Nat) (hk : Keeps s0 s) : Keeps s0 (State.enterStop s p) := by
  unfold State.enterStop
  repeat' (first | with_reducible assumption | with_reducible first | apply keeps_setPst | apply keeps_setPair | apply keeps_setPhase | apply keeps_wr | apply keeps_safeActions | apply keeps_haltCores)

theorem keeps_enterHold {s0 : State} (s : State) (p : Nat) (hk : Keeps s0 s) : Keeps s0 (State.enterHold s p) := by
  unfold State.enterHold
  repeat' (first | with_reducible assumption | with_reducible first | apply keeps_setPst | apply keeps_safeActions | apply keeps_ite)

theorem keeps_modeNow {s0 : State} (s : State) (p : Nat) (hk : Keeps s0 s) : Keeps s0 (State.modeNow s p) := by
  unfold State.modeNow
  repeat' (first | with_reducible assumption | intro _ | with_reducible first | apply keeps_setPair | apply keeps_enterStop | apply keeps_enterHold | apply keeps_setPst | apply keeps_finO | apply keeps_ite | split)

theorem keeps_stageBoundary {s0 : State} (s : State) (p : Nat) (m : Nat) (told : Bool) (hk : Keeps s0 s) : Keeps s0 (State.stageBoundary s p m told) := by
  unfold State.stageBoundary
  repeat' (first | with_reducible assumption | intro _ | with_reducible first | apply keeps_holdCount | apply keeps_undelivered | apply keeps_refresh | apply keeps_setPair | apply keeps_showStg | apply keeps_commitRegs | apply keeps_modeNow | apply keeps_cuePair | apply keeps_startCycle | apply keeps_ite | split)

theorem keeps_endLogic {s0 : State} (s : State) (p : Nat) (hk : Keeps s0 s) : Keeps s0 (State.endLogic s p) := by
  unfold State.endLogic
  repeat' (first | with_reducible assumption | intro _ | with_reducible first | apply keeps_haltCores | apply keeps_setPair | apply keeps_setPst | apply keeps_wr | apply keeps_finO | apply keeps_setPhase | apply keeps_ite | split)

theorem keeps_cycleEnd {s0 : State} (s : State) (p : Nat) (hk : Keeps s0 s) : Keeps s0 (State.cycleEnd s p) := by
  unfold State.cycleEnd
  repeat' (first | with_reducible assumption | with_reducible first | apply keeps_setPair | apply keeps_setPst | apply keeps_ite)

theorem keeps_writeOutputs {s0 : State} (s : State) (p : Nat) (hk : Keeps s0 s) : Keeps s0 (State.writeOutputs s p) := by
  unfold State.writeOutputs
  repeat' (first | with_reducible assumption | intro _ | with_reducible first | apply keeps_setPhase | apply keeps_each | apply keeps_writeOutput | apply keeps_publish | apply keeps_cycleEnd | apply keeps_journalWrite | apply keeps_ite)

theorem keeps_cycleWdog {s0 : State} (s : State) (p : Nat) (hk : Keeps s0 s) : Keeps s0 (State.cycleWdog s p) := by
  unfold State.cycleWdog
  repeat' (first | with_reducible assumption | with_reducible first | apply keeps_pairFault | apply keeps_event | apply keeps_inc | apply keeps_haltCores | apply keeps_ite)

theorem keeps_debugHalt {s0 : State} (s : State) (p : Nat) (hk : Keeps s0 s) : Keeps s0 (State.debugHalt s p) := by
  unfold State.debugHalt
  repeat' (first | with_reducible assumption | with_reducible first | apply keeps_wr | apply keeps_setPair | apply keeps_setPhase | apply keeps_emit | apply keeps_enterHold | apply keeps_ite)

theorem keeps_stgWrite {s0 : State} (s : State) (v : Nat) (hk : Keeps s0 s) : Keeps s0 (State.stgWrite s v) := by
  unfold State.stgWrite
  repeat' (first | with_reducible assumption | intro _ | with_reducible first | apply keeps_each | apply keeps_stgCommit)

theorem keeps_stgCntClr {s0 : State} (s : State) (hk : Keeps s0 s) : Keeps s0 (State.stgCntClr s) := by
  unfold State.stgCntClr
  repeat' (first | with_reducible assumption | with_reducible first | apply keeps_clearRegs)

theorem keeps_opStageLoad {s0 : State} (env : Env) (c : CmdRec) (s : State) (hk : Keeps s0 s) : Keeps s0 (opStageLoad env c s) := by
  unfold opStageLoad
  repeat' (first | with_reducible assumption | intro _ | with_reducible first | apply keeps_fail | apply keeps_withBuf | apply keeps_each | apply keeps_setPair | apply keeps_wr | apply keeps_done | apply keeps_putWords | apply keeps_ite)

theorem keeps_opStageVerify {s0 : State} (c : CmdRec) (s : State) (hk : Keeps s0 s) : Keeps s0 (opStageVerify c s) := by
  unfold opStageVerify
  repeat' (first | with_reducible assumption | intro _ | with_reducible first | apply keeps_fail | apply keeps_each | apply keeps_setPair | apply keeps_done | apply keeps_ite | split | extract_lets)

theorem keeps_armPair {s0 : State} (s : State) (p : Nat) (k : Nat) (x : Section) (hk : Keeps s0 s) : Keeps s0 (State.armPair s p k x) := by
  unfold State.armPair
  repeat' (first | with_reducible assumption | intro _ | with_reducible first | apply keeps_putWords | apply keeps_each | apply keeps_carry | apply keeps_wr | apply keeps_setPair | apply keeps_ite)

theorem keeps_opStageArm {s0 : State} (c : CmdRec) (s : State) (hk : Keeps s0 s) : Keeps s0 (opStageArm c s) := by
  unfold opStageArm
  repeat' (first | with_reducible assumption | intro _ | with_reducible first | apply keeps_fail | apply keeps_badParam | apply keeps_done | apply keeps_each | apply keeps_armPair | apply keeps_ite)

theorem keeps_opStageCue {s0 : State} (c : CmdRec) (s : State) (hk : Keeps s0 s) : Keeps s0 (opStageCue c s) := by
  unfold opStageCue
  repeat' (first | with_reducible assumption | intro _ | with_reducible first | apply keeps_fail | apply keeps_badParam | apply keeps_each | apply keeps_wr | apply keeps_setPair | apply keeps_cuePair | apply keeps_done | apply keeps_ite)

theorem keeps_disarm {s0 : State} (s : State) (p : Nat) (hk : Keeps s0 s) : Keeps s0 (State.disarm s p) := by
  unfold State.disarm
  repeat' (first | with_reducible assumption | with_reducible first | apply keeps_finO | apply keeps_setPair | apply keeps_wr)

theorem keeps_opStageDisarm {s0 : State} (c : CmdRec) (s : State) (hk : Keeps s0 s) : Keeps s0 (opStageDisarm c s) := by
  unfold opStageDisarm
  repeat' (first | with_reducible assumption | intro _ | with_reducible first | apply keeps_done | apply keeps_each | apply keeps_disarm)

theorem keeps_askMode {s0 : State} (s : State) (p : Nat) (m : Nat) (seq : Nat) (hk : Keeps s0 s) : Keeps s0 (State.askMode s p m seq) := by
  unfold State.askMode
  repeat' (first | with_reducible assumption | with_reducible first | apply keeps_finO | apply keeps_setPair)

theorem keeps_opStageMode {s0 : State} (c : CmdRec) (s : State) (hk : Keeps s0 s) : Keeps s0 (opStageMode c s) := by
  unfold opStageMode
  repeat' (first | with_reducible assumption | intro _ | with_reducible first | apply keeps_askMode | apply keeps_done | apply keeps_enterStop | apply keeps_fail | apply keeps_setPst | apply keeps_wr | apply keeps_setPair | apply keeps_ite | split)

theorem keeps_loadPair {s0 : State} (s : State) (p : Nat) (x : Section) (cold : Bool) (seq : Option Nat) (thenS : Nat) (us : Word) (hk : Keeps s0 s) : Keeps s0 (State.loadPair s p x cold seq thenS us) := by
  unfold State.loadPair
  repeat' (first | with_reducible assumption | with_reducible first | apply keeps_putWords | apply keeps_zeroWords | apply keeps_setPair | apply keeps_setPhase | apply keeps_wr | apply keeps_enterAt | apply keeps_showOwn | apply keeps_freshProc | apply keeps_setPst | apply keeps_disarm | apply keeps_ite)

theorem keeps_restartPair {s0 : State} (s : State) (p : Nat) (cold : Bool) (seq : Option Nat) (thenS : Nat) (us : Word) (hk : Keeps s0 s) : Keeps s0 (State.restartPair s p cold seq thenS us) := by
  unfold State.restartPair
  repeat' (first | with_reducible assumption | intro _ | with_reducible first | apply keeps_finO | apply keeps_setPair | apply keeps_uncause | apply keeps_wr | apply keeps_safeActions | apply keeps_showOwn | apply keeps_setPst | apply keeps_haltCores | apply keeps_loadPair | apply keeps_ite | split | extract_lets)

theorem keeps_opStageRestart {s0 : State} (env : Env) (c : CmdRec) (s : State) (hk : Keeps s0 s) : Keeps s0 (opStageRestart env c s) := by
  unfold opStageRestart
  repeat' (first | with_reducible assumption | with_reducible first | apply keeps_badEnc | apply keeps_fail | apply keeps_again | apply keeps_setPair | apply keeps_restartPair | apply keeps_ite)

theorem keeps_opStageCycle {s0 : State} (c : CmdRec) (s : State) (hk : Keeps s0 s) : Keeps s0 (opStageCycle c s) := by
  unfold opStageCycle
  repeat' (first | with_reducible assumption | with_reducible first | apply keeps_badEnc | apply keeps_badParam | apply keeps_wrS | apply keeps_done | apply keeps_stgCommit | apply keeps_showStg | apply keeps_ite)

theorem keeps_opStageStatus {s0 : State} (c : CmdRec) (s : State) (hk : Keeps s0 s) : Keeps s0 (opStageStatus c s) := by
  unfold opStageStatus
  repeat' (first | with_reducible assumption | with_reducible first | apply keeps_done)

theorem keeps_regPut {s0 : State} (s : State) (id : Nat) (a : Nat) (v : Word) (hk : Keeps s0 s) : Keeps s0 (State.regPut s id a v).2 := by
  unfold State.regPut
  repeat' (first | with_reducible assumption | intro _ | with_reducible first | apply keeps_acts_nil | apply keeps_acts_cons | apply keeps_stgCntClr | apply keeps_stgWrite | apply keeps_debugHalt | apply keeps_regWrite | apply keeps_busWrite | apply keeps_ite | split)

theorem keeps_locRead {s0 : State} (s : State) (id : Nat) (a : Nat) (hk : Keeps s0 s) : Keeps s0 (State.locRead s id a).2 := by
  unfold State.locRead
  repeat' (first | with_reducible assumption | intro _ | with_reducible first | apply keeps_busRead | apply keeps_atomic | apply keeps_rdMem | apply keeps_ite | split)

theorem keeps_atomicPut {s0 : State} (s : State) (id : Nat) (a : Nat) (f : Word → Word) (hk : Keeps s0 s) : Keeps s0 (State.atomicPut s id a f).2 := by
  unfold State.atomicPut
  repeat' (first | with_reducible assumption | with_reducible first | apply keeps_atomic)

theorem keeps_locWrite {s0 : State} (s : State) (id : Nat) (a : Nat) (v : Word) (hk : Keeps s0 s) : Keeps s0 (State.locWrite s id a v).2 := by
  unfold State.locWrite
  repeat' (first | with_reducible assumption | intro _ | with_reducible first | apply keeps_regPut | apply keeps_atomicPut | apply keeps_wrMem | apply keeps_ite | split)

theorem keeps_locNarrowRead {s0 : State} (s : State) (id : Nat) (a : Nat) (n : Nat) (hk : Keeps s0 s) : Keeps s0 (State.locNarrowRead s id a n).2 := by
  unfold State.locNarrowRead
  repeat' (first | with_reducible assumption | intro _ | with_reducible first | apply keeps_ready | apply keeps_parityFound | apply keeps_decErr | apply keeps_locRead | apply keeps_ite | split | extract_lets | (refine Keeps.of_snd (by assumption) ?_))

theorem keeps_englBytes {s0 : State} (s : State) (a : Nat) (v : Nat) (l3 : Nat) (hk : Keeps s0 s) : Keeps s0 (State.englBytes s a v l3) := by
  revert s a v
  induction l3 with
  | zero =>
    intros
    unfold State.englBytes
    repeat' (first | with_reducible assumption)
  | succ n0 ih =>
    intros
    unfold State.englBytes
    repeat' (first | assumption | apply ih | with_reducible first | apply keeps_setByte | apply keeps_setEng)

theorem keeps_locNarrowWrite {s0 : State} (s : State) (id : Nat) (a : Nat) (n : Nat) (v : Nat) (hk : Keeps s0 s) : Keeps s0 (State.locNarrowWrite s id a n v).2 := by
  unfold State.locNarrowWrite
  repeat' (first | with_reducible assumption | intro _ | with_reducible first | apply keeps_narrowFault | apply keeps_decErr | apply keeps_ready | apply keeps_englBytes | apply keeps_ite | split | extract_lets | (refine Keeps.of_snd (by assumption) ?_))

theorem keeps_registerWrite {s0 : State} (s : State) (id : Nat) (a : Nat) (whole : Bool) (v : Word) (hk : Keeps s0 s) : Keeps s0 (State.registerWrite s id a whole v) := by
  unfold State.registerWrite
  repeat' (first | with_reducible assumption | with_reducible first | apply keeps_decErr | apply keeps_regPut | apply keeps_ite)

theorem keeps_hostDone {s0 : State} (s : State) (id : Nat) (read : Bool) (data : List Word) (ok : Bool) (hk : Keeps s0 s) : Keeps s0 (State.hostDone s id read data ok) := by
  unfold State.hostDone
  repeat' (first | with_reducible assumption | with_reducible first | apply keeps_emit | apply keeps_ite | apply keeps_mk)

theorem keeps_dmaMoved {s0 : State} (s : State) (c : Nat) (hk : Keeps s0 s) : Keeps s0 (State.dmaMoved s c) := by
  unfold State.dmaMoved
  repeat' (first | with_reducible assumption | with_reducible first | apply keeps_setDma | apply keeps_addc)

theorem keeps_dmaPut {s0 : State} (s : State) (c : Nat) (dst : Nat) (v : Word) (hk : Keeps s0 s) : Keeps s0 (State.dmaPut s c dst v) := by
  unfold State.dmaPut
  repeat' (first | with_reducible assumption | intro _ | with_reducible first | apply keeps_locWrite | apply keeps_dmaMoved | apply keeps_setDma | apply keeps_dmaError | apply keeps_ite | split | extract_lets | (refine Keeps.of_snd (by assumption) ?_))

theorem keeps_fabIssue {s0 : State} (s : State) (a : FabAcc) (hk : Keeps s0 s) : Keeps s0 (State.fabIssue s a) := by
  unfold State.fabIssue
  repeat' (first | with_reducible assumption | with_reducible first | apply keeps_setFab)

theorem keeps_fabDone {s0 : State} (s : State) (a : FabAcc) (data : List Word) (ok : Bool) (hk : Keeps s0 s) : Keeps s0 (State.fabDone s a data ok) := by
  unfold State.fabDone
  repeat' (first | with_reducible assumption | intro _ | with_reducible first | apply keeps_setProc | apply keeps_hostDone | apply keeps_dmaError | apply keeps_fabIssue | apply keeps_dmaPut | apply keeps_dmaMoved | apply keeps_ite | split)

theorem keeps_fabFail {s0 : State} (s : State) (a : FabAcc) (tag : Nat) (cause : Nat) (hk : Keeps s0 s) : Keeps s0 (State.fabFail s a tag cause) := by
  unfold State.fabFail
  repeat' (first | with_reducible assumption | with_reducible first | apply keeps_fabDone | apply keeps_fabLog)

theorem keeps_takeTag {s0 : State} (s : State) (t : Nat) (a : FabAcc) (spec : Bool) (hk : Keeps s0 s) : Keeps s0 (State.takeTag s t a spec) := by
  unfold State.takeTag
  repeat' (first | with_reducible assumption | with_reducible first | apply keeps_showFab | apply keeps_setFab)

theorem keeps_fabSend {s0 : State} (s : State) (a : FabAcc) (np : Bool) (spec : Bool) (tag : Nat) (hk : Keeps s0 s) : Keeps s0 (State.fabSend s a np spec tag) := by
  unfold State.fabSend
  repeat' (first | with_reducible assumption | with_reducible first | apply keeps_sendFrame)

theorem keeps_speculate {s0 : State} (s : State) (ident : Nat) (e : Nat) (w : Nat) (hk : Keeps s0 s) : Keeps s0 (State.speculate s ident e w) := by
  unfold State.speculate
  repeat' (first | with_reducible assumption | intro _ | with_reducible first | apply keeps_fabSend | apply keeps_inc | apply keeps_takeTag | apply keeps_ite | split)

theorem keeps_pfWritten {s0 : State} (s : State) (ring : Nat) (station : Nat) (daddr : Nat) (n : Nat) (hk : Keeps s0 s) : Keeps s0 (State.pfWritten s ring station daddr n) := by
  unfold State.pfWritten
  repeat' (first | with_reducible assumption | intro _ | with_reducible first | apply keeps_each | apply keeps_pfDrop | apply keeps_ite | split)

theorem keeps_inWrite {s0 : State} (s : State) (a be : Nat) (v : Word) (hk : Keeps s0 s) : Keeps s0 (s.inWrite a be v).2 := by
  have aux : ∀ (l : List (Nat × Nat)) (r : Nat × State), Keeps s0 r.2 → Keeps s0 (l.foldl (fun r e => if r.1 ≠ 0 then r
      else let q := r.2.locNarrowWrite 0x28 (a + e.1) e.2 (getF v (8 * e.1) 8); (causeOf a q.1, q.2)) r).2 := by
    intro l
    induction l with
    | nil => intro r hr; exact hr
    | cons p t ih =>
      intro r hr
      apply ih
      dsimp only
      split
      · exact hr
      · exact keeps_locNarrowWrite _ _ _ _ _ hr
  unfold State.inWrite
  split
  · exact keeps_locWrite _ _ _ _ hk
  · split
    · exact hk
    · split
      · exact aux _ _ hk
      · exact keeps_locNarrowWrite _ _ _ _ _ hk

theorem keeps_inWrites {s0 : State} (s : State) (a : Nat) (ctl : Word) (n : Nat) (i : Nat) (l5 : List Word) (hk : Keeps s0 s) : Keeps s0 (State.inWrites s a ctl n i l5).2 := by
  revert s a ctl n i
  induction l5 with
  | nil =>
    intros
    unfold State.inWrites
    repeat' (first | with_reducible assumption)
  | cons v0 t0 ih =>
    intros
    unfold State.inWrites
    repeat' (first | assumption | apply ih | intro _ | with_reducible first | apply keeps_inWrite | apply keeps_ite | split | extract_lets | (refine Keeps.of_snd (by assumption) ?_))

theorem keeps_inRead {s0 : State} (s : State) (a : Nat) (hk : Keeps s0 s) : Keeps s0 (State.inRead s a).2 := by
  unfold State.inRead
  repeat' (first | with_reducible assumption | intro _ | with_reducible first | apply keeps_locRead | apply keeps_ite | split | extract_lets)

theorem keeps_inReads {s0 : State} (s : State) (a : Nat) (l2 : Nat) (hk : Keeps s0 s) : Keeps s0 (State.inReads s a l2).2 := by
  revert s a
  induction l2 with
  | zero =>
    intros
    unfold State.inReads
    repeat' (first | with_reducible assumption)
  | succ n0 ih =>
    intros
    unfold State.inReads
    repeat' (first | assumption | apply ih | intro _ | with_reducible first | apply keeps_inRead | apply keeps_ite | split | extract_lets)

theorem keeps_inWaits {s0 : State} (s : State) (a : Nat) (n : Nat) (hk : Keeps s0 s) : Keeps s0 (State.inWaits s a n).2 := by
  unfold State.inWaits
  repeat' (first | with_reducible assumption | intro _ | with_reducible first | apply keeps_ready | apply keeps_ite | split | extract_lets | (refine Keeps.of_snd (by assumption) ?_))

theorem keeps_target {s0 : State} (s : State) (r : InReq) (hk : Keeps s0 s) : Keeps s0 (State.target s r).2 := by
  unfold State.target
  repeat' (first | with_reducible assumption | intro _ | with_reducible first | apply keeps_inWaits | apply keeps_atomic | apply keeps_decErr | apply keeps_inWrites | apply keeps_inReads | apply keeps_ite | split | extract_lets | (refine Keeps.of_snd (by assumption) ?_))

theorem keeps_complete {s0 : State} (s : State) (r : InReq) (cause : Nat) (data : List Word) (se : Bool) (hk : Keeps s0 s) : Keeps s0 (State.complete s r cause data se) := by
  unfold State.complete
  repeat' (first | with_reducible assumption | with_reducible first | apply keeps_sendFrame)

theorem keeps_inAnswer {s0 : State} (s : State) (r : InReq) (cause : Nat) (data : List Word) (se : Bool) (hk : Keeps s0 s) : Keeps s0 (State.inAnswer s r cause data se) := by
  unfold State.inAnswer
  repeat' (first | with_reducible assumption | with_reducible first | apply keeps_inc | apply keeps_complete | apply keeps_ite)

theorem keeps_drainOne {s0 : State} (s : State) (hk : Keeps s0 s) : Keeps s0 (State.drainOne s) := by
  unfold State.drainOne
  repeat' (first | with_reducible assumption | intro _ | with_reducible first | apply keeps_setFab | apply keeps_gateArrive | apply keeps_target | apply keeps_inAnswer | apply keeps_ite | split | extract_lets | (refine Keeps.of_snd (by assumption) ?_))

theorem keeps_inPush {s0 : State} (s : State) (f : RFrame) (hk : Keeps s0 s) : Keeps s0 (State.inPush s f) := by
  unfold State.inPush
  repeat' (first | with_reducible assumption | with_reducible first | apply keeps_setFab | apply keeps_drainOne | apply keeps_ite)

theorem keeps_inFenced {s0 : State} (s : State) (f : RFrame) (hk : Keeps s0 s) : Keeps s0 (State.inFenced s f) := by
  unfold State.inFenced
  repeat' (first | with_reducible assumption | with_reducible first | apply keeps_inAnswer)

theorem keeps_inRequest {s0 : State} (s : State) (p : Nat) (f : RFrame) (hk : Keeps s0 s) : Keeps s0 (State.inRequest s p f) := by
  unfold State.inRequest
  repeat' (first | with_reducible assumption | intro _ | with_reducible first | apply keeps_arrive | apply keeps_accept | apply keeps_enterRecover | apply keeps_event | apply keeps_inc | apply keeps_inPush | apply keeps_inFenced | apply keeps_ite | split | extract_lets | (refine Keeps.of_snd (by assumption) ?_))

theorem keeps_inMessage {s0 : State} (s : State) (p : Nat) (f : RFrame) (hk : Keeps s0 s) : Keeps s0 (State.inMessage s p f) := by
  unfold State.inMessage
  repeat' (first | with_reducible assumption | intro _ | with_reducible first | apply keeps_arriveSeq | apply keeps_setFab | apply keeps_gateArrive | apply keeps_ite)

theorem keeps_fabOwn {s0 : State} (s d : State) (a : FabAcc) (h : Keeps s0 s) (hd : Keeps s0 d) : Keeps s0 ((s.fabOwn a).getD d) := by
  unfold State.fabOwn
  have hr := keeps_target s ⟨s.ringId, s.station, s.fabDaddr a.addr, fabType a.kind, fabCtl a (!s.fabPosted a) false 0 0,
    (fabPayload a (fabCtl a (!s.fabPosted a) false 0 0)).drop 1⟩ h
  dsimp only
  generalize s.target _ = x at hr
  obtain ⟨f, t⟩ := x
  cases f with
  | wait => exact hd
  | done c e _ =>
    dsimp only [Option.getD_some]
    have hi : Keeps s0 (if c = 0 then t.inc F.FAB_CNT_INREQ else t.inc F.FAB_CNT_INERR) :=
      keeps_ite (keeps_inc t _ hr) (keeps_inc t _ hr)
    exact keeps_ite (keeps_fabDone _ _ _ _ hi) (keeps_ite (keeps_fabFail _ _ _ _ hi) (keeps_fabDone _ _ _ _ hi))

theorem keeps_fabGo {s0 : State} (s : State) (a : FabAcc) (hk : Keeps s0 s) : Keeps s0 (State.fabGo s a) := by
  unfold State.fabGo
  repeat' (first | with_reducible assumption | intro _ | with_reducible first | apply keeps_pfWritten | apply keeps_fabDone | apply keeps_fabSend | apply keeps_inc | apply keeps_setFab | apply keeps_speculate | apply keeps_takeTag | apply keeps_ite | split | extract_lets)

theorem keeps_fabGrant {s0 : State} (s : State) (hk : Keeps s0 s) : Keeps s0 (State.fabGrant s) := by
  unfold State.fabGrant
  repeat' (first | with_reducible assumption | intro _ | with_reducible first | apply keeps_setFab | apply keeps_fabDone | apply keeps_inc | apply keeps_fabFail | apply keeps_fabOwn | apply keeps_fabGo | apply keeps_ite | split)

theorem keeps_completion {s0 : State} (s : State) (f : RFrame) (hk : Keeps s0 s) : Keeps s0 (State.completion s f) := by
  unfold State.completion
  repeat' (first | with_reducible assumption | intro _ | with_reducible first | apply keeps_event | apply keeps_inc | apply keeps_fabDone | apply keeps_freeTag | apply keeps_fabLog | apply keeps_pfDrop | apply keeps_setFab | apply keeps_ite | split | extract_lets)

theorem keeps_tagTimeout {s0 : State} (s : State) (t : Nat) (hk : Keeps s0 s) : Keeps s0 (State.tagTimeout s t) := by
  unfold State.tagTimeout
  repeat' (first | with_reducible assumption | intro _ | with_reducible first | apply keeps_fabDone | apply keeps_freeTag | apply keeps_fabLog | apply keeps_inc | apply keeps_ite | split)

theorem keeps_pfAge {s0 : State} (s : State) (w : Nat) (hk : Keeps s0 s) : Keeps s0 (State.pfAge s w) := by
  unfold State.pfAge
  repeat' (first | with_reducible assumption | intro _ | with_reducible first | apply keeps_pfDrop | apply keeps_ite | split)

theorem keeps_opFabWindow {s0 : State} (c : CmdRec) (s : State) (hk : Keeps s0 s) : Keeps s0 (opFabWindow c s) := by
  unfold opFabWindow
  repeat' (first | with_reducible assumption | with_reducible first | apply keeps_badEnc | apply keeps_badParam | apply keeps_done | apply keeps_winCommit | apply keeps_showWins | apply keeps_shadowCfg | apply keeps_ite)

theorem keeps_opFabLogread {s0 : State} (c : CmdRec) (s : State) (hk : Keeps s0 s) : Keeps s0 (opFabLogread c s) := by
  unfold opFabLogread
  repeat' (first | with_reducible assumption | intro _ | with_reducible first | apply keeps_withOut | apply keeps_fail | apply keeps_done | apply keeps_writeBuf | apply keeps_ite)

theorem keeps_opFabLogclr {s0 : State} (c : CmdRec) (s : State) (hk : Keeps s0 s) : Keeps s0 (opFabLogclr c s) := by
  unfold opFabLogclr
  repeat' (first | with_reducible assumption | with_reducible first | apply keeps_fabElogClr | apply keeps_fabDlogClr | apply keeps_done | apply keeps_fabCntClr | apply keeps_ite)

end Sys2Proof.Machine
end

