-- ==== Sys2Proof/Laws/KeepsIsa.lean ====
section
/-! SUPPORT. What every operation keeps: the raw counter, the queue of commands, and the canonical forms of registers and memory; here for
the stage instruction set, DMA, the host ports, lap ends, power, resets, start-up and diagnosis. -/
namespace Sys2Proof.Machine
open Sys2Proof

theorem keeps_setW {s0 : State} (s : State) (p : Nat) (i : Nat) (v : Word) (hk : Keeps s0 s) : Keeps s0 (State.setW s p i v) := by
  unfold State.setW
  repeat' (first | with_reducible assumption | with_reducible first | apply keeps_setProc | apply keeps_ite)

theorem keeps_setPc {s0 : State} (s : State) (p : Nat) (a : Nat) (hk : Keeps s0 s) : Keeps s0 (State.setPc s p a) := by
  unfold State.setPc
  repeat' (first | with_reducible assumption | with_reducible first | apply keeps_setProc)

theorem keeps_setSr {s0 : State} (s : State) (p : Nat) (i : Nat) (v : Word) (hk : Keeps s0 s) : Keeps s0 (State.setSr s p i v) := by
  unfold State.setSr
  repeat' (first | with_reducible assumption | with_reducible first | apply keeps_setProc)

theorem keeps_recordTrap {s0 : State} (s : State) (p : Nat) (epc : Word) (cause : Word) (tval : Word) (hk : Keeps s0 s) : Keeps s0 (State.recordTrap s p epc cause tval) := by
  unfold State.recordTrap
  repeat' (first | with_reducible assumption | with_reducible first | apply keeps_setSr)

theorem keeps_enterHandler {s0 : State} (s : State) (p : Nat) (off : Nat) (hk : Keeps s0 s) : Keeps s0 (State.enterHandler s p off) := by
  unfold State.enterHandler
  repeat' (first | with_reducible assumption | with_reducible first | apply keeps_setPc | apply keeps_setSr)

theorem keeps_takeTrap {s0 : State} (s : State) (p : Nat) (cause : Nat) (tval : Word) (hk : Keeps s0 s) : Keeps s0 (State.takeTrap s p cause tval) := by
  unfold State.takeTrap
  repeat' (first | with_reducible assumption | with_reducible first | apply keeps_recordTrap | apply keeps_inc | apply keeps_enterHandler | apply keeps_pairFault | apply keeps_setProc | apply keeps_engStop | apply keeps_ite)

theorem keeps_retire {s0 : State} (p : Nat) (r : Res × State) (hk : Keeps s0 r.2) : Keeps s0 (State.retire p r) := by
  obtain ⟨x, s⟩ := r
  unfold State.retire
  cases x
  · exact keeps_setPc _ _ _ hk
  · exact keeps_setPc _ _ _ hk
  · exact keeps_takeTrap _ _ _ _ hk
  · exact hk

theorem keeps_fetch {s0 : State} (s : State) (p : Nat) (a : Nat) (hk : Keeps s0 s) : Keeps s0 (State.fetch s p a).2 := by
  unfold State.fetch
  repeat' (first | with_reducible assumption | intro _ | with_reducible first | apply keeps_rdMem | apply keeps_engStop | apply keeps_ite | split | extract_lets | (refine Keeps.of_snd (by assumption) ?_))

theorem keeps_issue {s0 : State} (s : State) (p : Nat) (w : Word) (ok : Bool) (body : State → Res × State) (hk : Keeps s0 s) (hf4 : ∀ t, Keeps s0 t → Keeps s0 (body t).2) : Keeps s0 (State.issue s p w ok body) := by
  unfold State.issue
  repeat' (first | with_reducible assumption | intro _ | apply hf4 | with_reducible first | apply keeps_fetch | apply keeps_takeTrap | apply keeps_retire | apply keeps_ite | split | extract_lets | (refine Keeps.of_snd (by assumption) ?_))

theorem keeps_alu2 {s0 : State} (s : State) (p : Nat) (w : Word) (ok : Bool) (wd : Fin 32) (ws : Fin 32) (wt : Fin 32) (f : Word → Word → Word) (hk : Keeps s0 s) : Keeps s0 (State.alu2 s p w ok wd ws wt f) := by
  unfold State.alu2
  repeat' (first | with_reducible assumption | intro _ | with_reducible first | apply keeps_issue | apply keeps_setW)

theorem keeps_alu1 {s0 : State} (s : State) (p : Nat) (w : Word) (ok : Bool) (wd : Fin 32) (ws : Fin 32) (f : Word → Word) (hk : Keeps s0 s) : Keeps s0 (State.alu1 s p w ok wd ws f) := by
  unfold State.alu1
  repeat' (first | with_reducible assumption | intro _ | with_reducible first | apply keeps_issue | apply keeps_setW)

theorem keeps_intR {s0 : State} (s : State) (p : Fin 18) (maj : Nat) (fn : Nat) (r : RFmt) (f : Word → Word → Word) (hk : Keeps s0 s) : Keeps s0 (State.intR s p maj fn r f) := by
  unfold State.intR
  repeat' (first | with_reducible assumption | with_reducible first | apply keeps_alu2)

theorem keeps_intR1 {s0 : State} (s : State) (p : Fin 18) (maj : Nat) (fn : Nat) (r : RFmt) (f : Word → Word) (hk : Keeps s0 s) : Keeps s0 (State.intR1 s p maj fn r f) := by
  unfold State.intR1
  repeat' (first | with_reducible assumption | with_reducible first | apply keeps_alu1)

theorem keeps_shiftK {s0 : State} (s : State) (p : Fin 18) (fn : Nat) (r : RFmt) (f : Word → Nat → Word) (hk : Keeps s0 s) : Keeps s0 (State.shiftK s p fn r f) := by
  unfold State.shiftK
  repeat' (first | with_reducible assumption | with_reducible first | apply keeps_alu1)

theorem keeps_intI {s0 : State} (s : State) (p : Fin 18) (maj : Nat) (r : IFmt) (ok : Bool) (f : Word → Word) (hk : Keeps s0 s) : Keeps s0 (State.intI s p maj r ok f) := by
  unfold State.intI
  repeat' (first | with_reducible assumption | with_reducible first | apply keeps_alu1)

theorem keeps_fPick {s0 : State} (s : State) (p : Fin 18) (fn : Nat) (r : RFmt) (f : Bool → Word → Word → Word) (hk : Keeps s0 s) : Keeps s0 (State.fPick s p fn r f) := by
  unfold State.fPick
  repeat' (first | with_reducible assumption | intro _ | with_reducible first | apply keeps_issue | apply keeps_setW | apply keeps_useFree)

theorem keeps_runBperm {s0 : State} (s : State) (p : Fin 18) (r : IFmt) (hk : Keeps s0 s) : Keeps s0 (State.runBperm s p r) := by
  unfold State.runBperm
  repeat' (first | with_reducible assumption | intro _ | with_reducible first | apply keeps_issue | apply keeps_setW)

theorem keeps_runBfx {s0 : State} (s : State) (p : Fin 18) (r : FieldFmt) (hk : Keeps s0 s) : Keeps s0 (State.runBfx s p r) := by
  unfold State.runBfx
  repeat' (first | with_reducible assumption | with_reducible first | apply keeps_alu1)

theorem keeps_runBfi {s0 : State} (s : State) (p : Fin 18) (r : FieldFmt) (hk : Keeps s0 s) : Keeps s0 (State.runBfi s p r) := by
  unfold State.runBfi
  repeat' (first | with_reducible assumption | with_reducible first | apply keeps_alu2)

theorem keeps_branch {s0 : State} (s : State) (p : Fin 18) (maj : Nat) (r : BFmt) (c : Word → Word → Bool) (hk : Keeps s0 s) : Keeps s0 (State.branch s p maj r c) := by
  unfold State.branch
  repeat' (first | with_reducible assumption | intro _ | with_reducible first | apply keeps_issue)

theorem keeps_link {s0 : State} (s : State) (p : Nat) (on_ : Bool) (hk : Keeps s0 s) : Keeps s0 (State.link s p on_) := by
  unfold State.link
  repeat' (first | with_reducible assumption | with_reducible first | apply keeps_setW | apply keeps_ite)

theorem keeps_jumpJ {s0 : State} (s : State) (p : Fin 18) (maj : Nat) (off : BitVec 26) (call : Bool) (hk : Keeps s0 s) : Keeps s0 (State.jumpJ s p maj off call) := by
  unfold State.jumpJ
  repeat' (first | with_reducible assumption | intro _ | with_reducible first | apply keeps_issue | apply keeps_link)

theorem keeps_jumpR {s0 : State} (s : State) (p : Fin 18) (fn : Nat) (r : RFmt) (call : Bool) (hk : Keeps s0 s) : Keeps s0 (State.jumpR s p fn r call) := by
  unfold State.jumpR
  repeat' (first | with_reducible assumption | intro _ | with_reducible first | apply keeps_issue | apply keeps_link)

theorem keeps_keepTrail {s0 : State} (s : State) (p : Nat) (t : Trail) (hk : Keeps s0 s) : Keeps s0 (State.keepTrail s p t) := by
  unfold State.keepTrail
  repeat' (first | with_reducible assumption | with_reducible first | apply keeps_setProc)

theorem keeps_stallFab {s0 : State} (s : State) (p : Nat) (t : Trail) (hk : Keeps s0 s) : Keeps s0 (State.stallFab s p t) := by
  unfold State.stallFab
  repeat' (first | with_reducible assumption | with_reducible first | apply keeps_setProc)

theorem keeps_accRead {s0 : State} (s : State) (p : Nat) (a : Nat) (n : Nat) (t : Trail) (hk : Keeps s0 s) : Keeps s0 (State.accRead s p a n t).2.2 := by
  unfold State.accRead
  repeat' (first | with_reducible assumption | intro _ | with_reducible first | apply keeps_fabIssue | apply keeps_stallFab | apply keeps_locRead | apply keeps_locNarrowRead | apply keeps_keepTrail | apply keeps_ite | split | extract_lets | (refine Keeps.of_snd (by assumption) ?_))

theorem keeps_retStore {s0 : State} (s : State) (p : Nat) (a : Nat) (v : Word) (hk : Keeps s0 s) : Keeps s0 (State.retStore s p a v) := by
  unfold State.retStore
  repeat' (first | with_reducible assumption | with_reducible first | apply keeps_setPair | apply keeps_inc | apply keeps_event | apply keeps_putWord | apply keeps_ite)

theorem keeps_accWrite {s0 : State} (s : State) (p : Nat) (a : Nat) (n : Nat) (v : Word) (t : Trail) (hk : Keeps s0 s) : Keeps s0 (State.accWrite s p a n v t).2 := by
  unfold State.accWrite
  repeat' (first | with_reducible assumption | intro _ | with_reducible first | apply keeps_fabIssue | apply keeps_stallFab | apply keeps_retStore | apply keeps_locWrite | apply keeps_locNarrowWrite | apply keeps_keepTrail | apply keeps_ite | split | extract_lets | (refine Keeps.of_snd (by assumption) ?_))

theorem keeps_loadBody {s0 : State} (p : Nat) (n : Nat) (sg : Bool) (r : IFmt) (s : State) (hk : Keeps s0 s) : Keeps s0 (State.loadBody p n sg r s).2 := by
  unfold State.loadBody
  repeat' (first | with_reducible assumption | intro _ | with_reducible first | apply keeps_accRead | apply keeps_setW | apply keeps_ite | split | extract_lets | (refine Keeps.of_snd (by assumption) ?_) | (refine Keeps.of_fst (by assumption) ?_) | (refine Keeps.of_third (by assumption) ?_))

theorem keeps_load {s0 : State} (s : State) (p : Fin 18) (maj : Nat) (n : Nat) (sg : Bool) (r : IFmt) (hk : Keeps s0 s) : Keeps s0 (State.load s p maj n sg r) := by
  unfold State.load
  repeat' (first | with_reducible assumption | with_reducible first | apply keeps_issue | apply keeps_loadBody)

theorem keeps_storeBody {s0 : State} (p : Nat) (n : Nat) (r : IFmt) (s : State) (hk : Keeps s0 s) : Keeps s0 (State.storeBody p n r s).2 := by
  unfold State.storeBody
  repeat' (first | with_reducible assumption | intro _ | with_reducible first | apply keeps_accWrite | apply keeps_ite | split | extract_lets | (refine Keeps.of_snd (by assumption) ?_))

theorem keeps_store {s0 : State} (s : State) (p : Fin 18) (maj : Nat) (n : Nat) (r : IFmt) (hk : Keeps s0 s) : Keeps s0 (State.store s p maj n r) := by
  unfold State.store
  repeat' (first | with_reducible assumption | with_reducible first | apply keeps_issue | apply keeps_storeBody)

theorem keeps_atomicBody {s0 : State} (p : Nat) (kind : AccKind) (f : Word → Word → Word) (r : RFmt) (s : State) (hk : Keeps s0 s) : Keeps s0 (State.atomicBody p kind f r s).2 := by
  unfold State.atomicBody
  repeat' (first | with_reducible assumption | intro _ | with_reducible first | apply keeps_setW | apply keeps_fabIssue | apply keeps_stallFab | apply keeps_atomic | apply keeps_ite | split | extract_lets | (refine Keeps.of_snd (by assumption) ?_))

theorem keeps_atomicOp {s0 : State} (s : State) (p : Fin 18) (fn : Nat) (kind : AccKind) (f : Word → Word → Word) (r : RFmt) (hk : Keeps s0 s) : Keeps s0 (State.atomicOp s p fn kind f r) := by
  unfold State.atomicOp
  repeat' (first | with_reducible assumption | with_reducible first | apply keeps_issue | apply keeps_atomicBody)

theorem keeps_stepW {s0 : State} (s : State) (p : Nat) (i : Nat) (n : Nat) (stride : Nat) (hk : Keeps s0 s) : Keeps s0 (State.stepW s p i n stride) := by
  unfold State.stepW
  repeat' (first | with_reducible assumption | with_reducible first | apply keeps_setW)

theorem keeps_countW {s0 : State} (s : State) (p : Nat) (hk : Keeps s0 s) : Keeps s0 (State.countW s p) := by
  unfold State.countW
  repeat' (first | with_reducible assumption | with_reducible first | apply keeps_setW)

theorem keeps_elemMove {s0 : State} (s : State) (p : Nat) (n : Nat) (ss : Nat) (ds : Nat) (hk : Keeps s0 s) : Keeps s0 (State.elemMove s p n ss ds).2 := by
  unfold State.elemMove
  repeat' (first | with_reducible assumption | intro _ | with_reducible first | apply keeps_accRead | apply keeps_accWrite | apply keeps_countW | apply keeps_stepW | apply keeps_ite | split | extract_lets | (refine Keeps.of_snd (by assumption) ?_) | (refine Keeps.of_fst (by assumption) ?_) | (refine Keeps.of_third (by assumption) ?_))

theorem keeps_elemFill {s0 : State} (s : State) (p : Nat) (n : Nat) (ds : Nat) (hk : Keeps s0 s) : Keeps s0 (State.elemFill s p n ds).2 := by
  unfold State.elemFill
  repeat' (first | with_reducible assumption | intro _ | with_reducible first | apply keeps_accWrite | apply keeps_countW | apply keeps_stepW | apply keeps_ite | split | extract_lets | (refine Keeps.of_snd (by assumption) ?_))

theorem keeps_elemCmp {s0 : State} (s : State) (p : Nat) (n : Nat) (ss : Nat) (ds : Nat) (hk : Keeps s0 s) : Keeps s0 (State.elemCmp s p n ss ds).2 := by
  unfold State.elemCmp
  repeat' (first | with_reducible assumption | intro _ | with_reducible first | apply keeps_accRead | apply keeps_countW | apply keeps_stepW | apply keeps_ite | split | extract_lets | (refine Keeps.of_snd (by assumption) ?_) | (refine Keeps.of_fst (by assumption) ?_) | (refine Keeps.of_third (by assumption) ?_))

theorem keeps_element {s0 : State} (s : State) (p : Nat) (op : Nat) (size : Nat) (ss : Nat) (ds : Nat) (hk : Keeps s0 s) : Keeps s0 (State.element s p op size ss ds).2 := by
  unfold State.element
  repeat' (first | with_reducible assumption | intro _ | with_reducible first | apply keeps_elemMove | apply keeps_elemFill | apply keeps_elemCmp | apply keeps_ite | split)

theorem keeps_stringBody {s0 : State} (p : Nat) (op : Nat) (r : StrFmt) (s : State) (hk : Keeps s0 s) : Keeps s0 (State.stringBody p op r s).2 := by
  unfold State.stringBody
  repeat' (first | with_reducible assumption | intro _ | with_reducible first | apply keeps_element | apply keeps_ite | split | extract_lets | (refine Keeps.of_snd (by assumption) ?_))

theorem keeps_string {s0 : State} (s : State) (p : Fin 18) (op : Nat) (r : StrFmt) (hk : Keeps s0 s) : Keeps s0 (State.string s p op r) := by
  unfold State.string
  repeat' (first | with_reducible assumption | with_reducible first | apply keeps_issue | apply keeps_stringBody)

theorem keeps_repBody {s0 : State} (p : Nat) (w : Word) (s : State) (hk : Keeps s0 s) : Keeps s0 (State.repBody p w s).2 := by
  unfold State.repBody
  repeat' (first | with_reducible assumption | intro _ | with_reducible first | apply keeps_fetch | apply keeps_element | apply keeps_ite | split | extract_lets | (refine Keeps.of_snd (by assumption) ?_))

theorem keeps_runRep {s0 : State} (s : State) (p : Fin 18) (r : StrFmt) (hk : Keeps s0 s) : Keeps s0 (State.runRep s p r) := by
  unfold State.runRep
  repeat' (first | with_reducible assumption | with_reducible first | apply keeps_issue | apply keeps_repBody)

theorem keeps_sysOp {s0 : State} (s : State) (p : Fin 18) (fn : Nat) (r : RFmt) (ok : Bool) (body : State → Res × State) (hk : Keeps s0 s) (hf5 : ∀ t, Keeps s0 t → Keeps s0 (body t).2) : Keeps s0 (State.sysOp s p fn r ok body) := by
  unfold State.sysOp
  repeat' (first | with_reducible assumption | apply hf5 | with_reducible first | apply keeps_issue)

theorem keeps_runTrap {s0 : State} (s : State) (p : Fin 18) (r : RFmt) (hk : Keeps s0 s) : Keeps s0 (State.runTrap s p r) := by
  unfold State.runTrap
  repeat' (first | with_reducible assumption | intro _ | with_reducible first | apply keeps_sysOp)

theorem keeps_brkBody {s0 : State} (p : Nat) (w : Word) (s : State) (hk : Keeps s0 s) : Keeps s0 (State.brkBody p w s).2 := by
  unfold State.brkBody
  repeat' (first | with_reducible assumption | intro _ | with_reducible first | apply keeps_setPc | apply keeps_debugHalt | apply keeps_emit | apply keeps_setProc | apply keeps_ite | split)

theorem keeps_runBrk {s0 : State} (s : State) (p : Fin 18) (r : RFmt) (hk : Keeps s0 s) : Keeps s0 (State.runBrk s p r) := by
  unfold State.runBrk
  repeat' (first | with_reducible assumption | with_reducible first | apply keeps_sysOp | apply keeps_brkBody)

theorem keeps_runTret {s0 : State} (s : State) (p : Fin 18) (r : RFmt) (hk : Keeps s0 s) : Keeps s0 (State.runTret s p r) := by
  unfold State.runTret
  repeat' (first | with_reducible assumption | intro _ | with_reducible first | apply keeps_sysOp | apply keeps_setSr)

theorem keeps_srWrite {s0 : State} (s : State) (p : Nat) (n : Nat) (v : Word) (hk : Keeps s0 s) : Keeps s0 (State.srWrite s p n v) := by
  unfold State.srWrite
  repeat' (first | with_reducible assumption | intro _ | with_reducible first | apply keeps_setSr | apply keeps_ite | split)

theorem keeps_runRds {s0 : State} (s : State) (p : Fin 18) (r : RFmt) (hk : Keeps s0 s) : Keeps s0 (State.runRds s p r) := by
  unfold State.runRds
  repeat' (first | with_reducible assumption | intro _ | with_reducible first | apply keeps_sysOp | apply keeps_setW)

theorem keeps_runWrs {s0 : State} (s : State) (p : Fin 18) (r : RFmt) (hk : Keeps s0 s) : Keeps s0 (State.runWrs s p r) := by
  unfold State.runWrs
  repeat' (first | with_reducible assumption | intro _ | with_reducible first | apply keeps_sysOp | apply keeps_srWrite)

theorem keeps_drainBody {s0 : State} (p : Nat) (s : State) (hk : Keeps s0 s) : Keeps s0 (State.drainBody p s).2 := by
  unfold State.drainBody
  repeat' (first | with_reducible assumption | intro _ | apply keeps_ite | split)

theorem keeps_runDrain {s0 : State} (s : State) (p : Fin 18) (r : RFmt) (hk : Keeps s0 s) : Keeps s0 (State.runDrain s p r) := by
  unfold State.runDrain
  repeat' (first | with_reducible assumption | with_reducible first | apply keeps_sysOp | apply keeps_drainBody)

theorem keeps_tgetBody {s0 : State} (p : Nat) (r : RFmt) (s : State) (hk : Keeps s0 s) : Keeps s0 (State.tgetBody p r s).2 := by
  unfold State.tgetBody
  repeat' (first | with_reducible assumption | intro _ | with_reducible first | apply keeps_setW | apply keeps_ite | split)

theorem keeps_runTget {s0 : State} (s : State) (p : Fin 18) (r : RFmt) (hk : Keeps s0 s) : Keeps s0 (State.runTget s p r) := by
  unfold State.runTget
  repeat' (first | with_reducible assumption | with_reducible first | apply keeps_sysOp | apply keeps_tgetBody)

theorem keeps_setDrop {s0 : State} (s : State) (p : Nat) (b : Bool) (hk : Keeps s0 s) : Keeps s0 (State.setDrop s p b) := by
  unfold State.setDrop
  repeat' (first | with_reducible assumption | with_reducible first | apply keeps_setSr)

theorem keeps_setStale {s0 : State} (s : State) (p : Nat) (b : Bool) (hk : Keeps s0 s) : Keeps s0 (State.setStale s p b) := by
  unfold State.setStale
  repeat' (first | with_reducible assumption | with_reducible first | apply keeps_setSr)

theorem keeps_chanPush {s0 : State} (s : State) (e : Nat) (c : Nat) (v : Word) (hk : Keeps s0 s) : Keeps s0 (State.chanPush s e c v) := by
  unfold State.chanPush
  repeat' (first | with_reducible assumption | with_reducible first | apply keeps_canTake | apply keeps_setTx | apply keeps_engPush | apply keeps_ite)

theorem keeps_chanPop {s0 : State} (s : State) (e : Nat) (c : Nat) (hk : Keeps s0 s) : Keeps s0 (State.chanPop s e c).2 := by
  unfold State.chanPop
  repeat' (first | with_reducible assumption | with_reducible first | apply keeps_setEng | apply keeps_setRx | apply keeps_canFill | apply keeps_netFill | apply keeps_ite)

theorem keeps_pushBody {s0 : State} (p : Nat) (r : IoFmt) (w : Word) (s : State) (hk : Keeps s0 s) : Keeps s0 (State.pushBody p r w s).2 := by
  unfold State.pushBody
  repeat' (first | with_reducible assumption | intro _ | with_reducible first | apply keeps_setDrop | apply keeps_handPush | apply keeps_chanPush | apply keeps_wr | apply keeps_inc | apply keeps_ite | split | extract_lets)

theorem keeps_popBody {s0 : State} (p : Nat) (r : IoFmt) (w : Word) (s : State) (hk : Keeps s0 s) : Keeps s0 (State.popBody p r w s).2 := by
  unfold State.popBody
  repeat' (first | with_reducible assumption | intro _ | with_reducible first | apply keeps_setStale | apply keeps_handPop | apply keeps_setW | apply keeps_chanPop | apply keeps_wr | apply keeps_ite | split | extract_lets)

theorem keeps_ioOp {s0 : State} (s : State) (p : Fin 18) (fn : Nat) (r : IoFmt) (ok : Bool) (body : State → Res × State) (hk : Keeps s0 s) (hf5 : ∀ t, Keeps s0 t → Keeps s0 (body t).2) : Keeps s0 (State.ioOp s p fn r ok body) := by
  unfold State.ioOp
  repeat' (first | with_reducible assumption | apply hf5 | with_reducible first | apply keeps_issue)

theorem keeps_runPush {s0 : State} (s : State) (p : Fin 18) (r : IoFmt) (hk : Keeps s0 s) : Keeps s0 (State.runPush s p r) := by
  unfold State.runPush
  repeat' (first | with_reducible assumption | with_reducible first | apply keeps_ioOp | apply keeps_pushBody)

theorem keeps_runPop {s0 : State} (s : State) (p : Fin 18) (r : IoFmt) (hk : Keeps s0 s) : Keeps s0 (State.runPop s p r) := by
  unfold State.runPop
  repeat' (first | with_reducible assumption | with_reducible first | apply keeps_ioOp | apply keeps_popBody)

theorem keeps_hctlBody {s0 : State} (p : Nat) (r : IoFmt) (w : Word) (s : State) (hk : Keeps s0 s) : Keeps s0 (State.hctlBody p r w s).2 := by
  unfold State.hctlBody
  repeat' (first | with_reducible assumption | intro _ | with_reducible first | apply keeps_handOff | apply keeps_handOn | apply keeps_handRestart | apply keeps_ite | split | extract_lets)

theorem keeps_runHctl {s0 : State} (s : State) (p : Fin 18) (r : IoFmt) (hk : Keeps s0 s) : Keeps s0 (State.runHctl s p r) := by
  unfold State.runHctl
  repeat' (first | with_reducible assumption | with_reducible first | apply keeps_ioOp | apply keeps_hctlBody)

theorem keeps_hsyncBody {s0 : State} (p : Nat) (r : IoFmt) (w : Word) (s : State) (hk : Keeps s0 s) : Keeps s0 (State.hsyncBody p r w s).2 := by
  unfold State.hsyncBody
  repeat' (first | with_reducible assumption | intro _ | with_reducible first | apply keeps_handSync | apply keeps_ite | split | extract_lets)

theorem keeps_runHsync {s0 : State} (s : State) (p : Fin 18) (r : IoFmt) (hk : Keeps s0 s) : Keeps s0 (State.runHsync s p r) := by
  unfold State.runHsync
  repeat' (first | with_reducible assumption | with_reducible first | apply keeps_ioOp | apply keeps_hsyncBody)

theorem keeps_evTake {s0 : State} (s : State) (p : Nat) (m : Word) (hk : Keeps s0 s) : Keeps s0 (State.evTake s p m) := by
  unfold State.evTake
  repeat' (first | with_reducible assumption | with_reducible first | apply keeps_setPair | apply keeps_evtClear | apply keeps_ite)

theorem keeps_wevBody {s0 : State} (p : Nat) (r : IoFmt) (s : State) (hk : Keeps s0 s) : Keeps s0 (State.wevBody p r s).2 := by
  unfold State.wevBody
  repeat' (first | with_reducible assumption | intro _ | with_reducible first | apply keeps_setW | apply keeps_evTake | apply keeps_ite | split | extract_lets)

theorem keeps_runWev {s0 : State} (s : State) (p : Fin 18) (r : IoFmt) (hk : Keeps s0 s) : Keeps s0 (State.runWev s p r) := by
  unfold State.runWev
  repeat' (first | with_reducible assumption | with_reducible first | apply keeps_ioOp | apply keeps_wevBody)

theorem keeps_eocBody {s0 : State} (p : Nat) (s : State) (hk : Keeps s0 s) : Keeps s0 (State.eocBody p s).2 := by
  unfold State.eocBody
  repeat' (first | with_reducible assumption | with_reducible first | apply keeps_endLogic | apply keeps_setPc)

theorem keeps_runEoc {s0 : State} (s : State) (p : Fin 18) (r : IoFmt) (hk : Keeps s0 s) : Keeps s0 (State.runEoc s p r) := by
  unfold State.runEoc
  repeat' (first | with_reducible assumption | with_reducible first | apply keeps_ioOp | apply keeps_eocBody)

theorem keeps_interrupt {s0 : State} (s : State) (n : Nat) (hk : Keeps s0 s) : Keeps s0 (State.interrupt s n) := by
  unfold State.interrupt
  repeat' (first | with_reducible assumption | with_reducible first | apply keeps_enterHandler | apply keeps_recordTrap | apply keeps_ite)

theorem keeps_uops {s0 : State} (s : State) (p : Nat) (e : Adlib) (out : Option Word) (t : Trail) (l5 : List Word) (hk : Keeps s0 s) : Keeps s0 (State.uops s p e out t l5).2 := by
  revert s p e out t
  induction l5 with
  | nil =>
    intros
    unfold State.uops
    repeat' (first | with_reducible assumption)
  | cons v0 t0 ih =>
    intros
    unfold State.uops
    repeat' (first | assumption | apply ih | intro _ | with_reducible first | apply keeps_accRead | apply keeps_accWrite | apply keeps_ite | split | extract_lets | (refine Keeps.of_snd (by assumption) ?_) | (refine Keeps.of_fst (by assumption) ?_) | (refine Keeps.of_third (by assumption) ?_))

theorem keeps_adlibBody {s0 : State} (p : Nat) (r : AdlibFmt) (s : State) (hk : Keeps s0 s) : Keeps s0 (State.adlibBody p r s).2 := by
  unfold State.adlibBody
  repeat' (first | with_reducible assumption | intro _ | with_reducible first | apply keeps_uops | apply keeps_setW | apply keeps_ite | split | extract_lets | (refine Keeps.of_snd (by assumption) ?_))

theorem keeps_runAdlib {s0 : State} (s : State) (p : Fin 18) (r : AdlibFmt) (hk : Keeps s0 s) : Keeps s0 (State.runAdlib s p r) := by
  unfold State.runAdlib
  repeat' (first | with_reducible assumption | with_reducible first | apply keeps_issue | apply keeps_adlibBody)

theorem keeps_dmaDesc {s0 : State} (s : State) (c : Nat) (hk : Keeps s0 s) : Keeps s0 (State.dmaDesc s c) := by
  unfold State.dmaDesc
  repeat' (first | with_reducible assumption | intro _ | with_reducible first | apply keeps_dmaError | apply keeps_ready | apply keeps_rdList | apply keeps_setDma | apply keeps_ite | split | extract_lets | (refine Keeps.of_snd (by assumption) ?_))

theorem keeps_dmaWord {s0 : State} (s : State) (c : Nat) (src : Nat) (dst : Nat) (hk : Keeps s0 s) : Keeps s0 (State.dmaWord s c src dst) := by
  unfold State.dmaWord
  repeat' (first | with_reducible assumption | intro _ | with_reducible first | apply keeps_setDma | apply keeps_fabIssue | apply keeps_dmaPut | apply keeps_locRead | apply keeps_dmaError | apply keeps_ite | split | extract_lets | (refine Keeps.of_snd (by assumption) ?_))

theorem keeps_dmaGo {s0 : State} (s : State) (c : Nat) (l2 : Nat) (hk : Keeps s0 s) : Keeps s0 (State.dmaGo s c l2) := by
  revert s c
  induction l2 with
  | zero =>
    intros
    unfold State.dmaGo
    repeat' (first | with_reducible assumption)
  | succ n0 ih =>
    intros
    unfold State.dmaGo
    repeat' (first | assumption | apply ih | with_reducible first | apply keeps_dmaWord | apply keeps_ite)

theorem keeps_dmaEnd {s0 : State} (s : State) (c : Nat) (hk : Keeps s0 s) : Keeps s0 (State.dmaEnd s c) := by
  unfold State.dmaEnd
  repeat' (first | with_reducible assumption | with_reducible first | apply keeps_callEvent | apply keeps_wr | apply keeps_setDma | apply keeps_ite)

theorem keeps_dmaDescriptor {s0 : State} (s : State) (c : Nat) (hk : Keeps s0 s) : Keeps s0 (State.dmaDescriptor s c) := by
  unfold State.dmaDescriptor
  repeat' (first | with_reducible assumption | with_reducible first | apply keeps_dmaDesc | apply keeps_dmaEnd | apply keeps_dmaGo | apply keeps_ite)

theorem keeps_setHost {s0 : State} (s : State) (f : HostSt → HostSt) (hk : Keeps s0 s) : Keeps s0 (State.setHost s f) := by
  unfold State.setHost
  repeat' (first | with_reducible assumption | apply keeps_ite | apply keeps_mk)

theorem keeps_hostEnd {s0 : State} (s : State) (r : HostReq) (hk : Keeps s0 s) : Keeps s0 (State.hostEnd s r) := by
  unfold State.hostEnd
  repeat' (first | with_reducible assumption | with_reducible first | apply keeps_setHost | apply keeps_emit | apply keeps_ite)

theorem keeps_hostPend {s0 : State} (s : State) (r : HostReq) (hk : Keeps s0 s) : Keeps s0 (State.hostPend s r) := by
  unfold State.hostPend
  repeat' (first | with_reducible assumption | with_reducible first | apply keeps_setHost)

theorem keeps_hostAtomic {s0 : State} (s : State) (r : HostReq) (a : Nat) (hk : Keeps s0 s) : Keeps s0 (State.hostAtomic s r a) := by
  unfold State.hostAtomic
  repeat' (first | with_reducible assumption | intro _ | with_reducible first | apply keeps_atomic | apply keeps_hostEnd | apply keeps_hostPend | apply keeps_ite | split | extract_lets | (refine Keeps.of_snd (by assumption) ?_))

theorem keeps_hostRead {s0 : State} (s : State) (id : Nat) (a : Nat) (n : Nat) (hk : Keeps s0 s) : Keeps s0 (State.hostRead s id a n).2 := by
  unfold State.hostRead
  repeat' (first | with_reducible assumption | intro _ | with_reducible first | apply keeps_inc | apply keeps_fabIssue | apply keeps_locRead | apply keeps_locNarrowRead | apply keeps_ite | split | extract_lets | (refine Keeps.of_snd (by assumption) ?_))

theorem keeps_hostWrite {s0 : State} (s : State) (id : Nat) (a : Nat) (n : Nat) (v : Word) (hk : Keeps s0 s) : Keeps s0 (State.hostWrite s id a n v).2 := by
  unfold State.hostWrite
  repeat' (first | with_reducible assumption | intro _ | with_reducible first | apply keeps_inc | apply keeps_fabIssue | apply keeps_locWrite | apply keeps_locNarrowWrite | apply keeps_ite | split | extract_lets | (refine Keeps.of_snd (by assumption) ?_))

theorem keeps_hostReads {s0 : State} (s : State) (id : Nat) (got : List Word) (bad : Bool) (l4 : List (Nat × Nat)) (hk : Keeps s0 s) : Keeps s0 (State.hostReads s id got bad l4) := by
  revert s id got bad
  induction l4 with
  | nil =>
    intros
    unfold State.hostReads
    repeat' (first | with_reducible assumption | intro _ | with_reducible first | apply keeps_hostEnd)
  | cons v0 t0 ih =>
    intros
    unfold State.hostReads
    repeat' (first | assumption | apply ih | intro _ | with_reducible first | apply keeps_hostEnd | apply keeps_hostRead | apply keeps_hostPend | apply keeps_ite | split | extract_lets | (refine Keeps.of_snd (by assumption) ?_))

theorem keeps_hostWrites {s0 : State} (s : State) (id : Nat) (ds : List Word) (l3 : List (Nat × Nat)) (hk : Keeps s0 s) : Keeps s0 (State.hostWrites s id ds l3) := by
  revert s id ds
  induction l3 with
  | nil =>
    intros
    unfold State.hostWrites
    repeat' (first | with_reducible assumption | intro _ | with_reducible first | apply keeps_hostEnd)
  | cons v0 t0 ih =>
    intros
    unfold State.hostWrites
    repeat' (first | assumption | apply ih | intro _ | with_reducible first | apply keeps_hostEnd | apply keeps_hostWrite | apply keeps_hostPend | apply keeps_ite | split | extract_lets | (refine Keeps.of_snd (by assumption) ?_))

theorem keeps_hostRun {s0 : State} (s : State) (r : HostReq) (hk : Keeps s0 s) : Keeps s0 (State.hostRun s r) := by
  unfold State.hostRun
  repeat' (first | with_reducible assumption | intro _ | with_reducible first | apply keeps_hostPend | apply keeps_hostReads | apply keeps_hostWrites | apply keeps_hostAtomic | apply keeps_ite | split)

theorem keeps_hostResume {s0 : State} (s : State) (hk : Keeps s0 s) : Keeps s0 (State.hostResume s) := by
  unfold State.hostResume
  repeat' (first | with_reducible assumption | intro _ | with_reducible first | apply keeps_each | apply keeps_setHost | apply keeps_hostRun)

theorem keeps_pcieRead {s0 : State} (s : State) (fn : Nat) (x : Nat) (n : Nat) (hk : Keeps s0 s) : Keeps s0 (State.pcieRead s fn x n) := by
  unfold State.pcieRead
  repeat' (first | with_reducible assumption | with_reducible first | apply keeps_hostRun | apply keeps_ite)

theorem keeps_pcieWrite {s0 : State} (s : State) (fn : Nat) (x : Nat) (bs : List Byte) (hk : Keeps s0 s) : Keeps s0 (State.pcieWrite s fn x bs) := by
  unfold State.pcieWrite
  repeat' (first | with_reducible assumption | with_reducible first | apply keeps_hostRun | apply keeps_ite)

theorem keeps_pcieReject {s0 : State} (s : State) (fn : Nat) (abort : Bool) (hk : Keeps s0 s) : Keeps s0 (State.pcieReject s fn abort) := by
  unfold State.pcieReject
  repeat' (first | with_reducible assumption | with_reducible first | apply keeps_emit | apply keeps_inc)

theorem keeps_pcieAtomic {s0 : State} (s : State) (fn : Nat) (x : Nat) (kind : Nat) (wide : Bool) (v : Word) (hk : Keeps s0 s) : Keeps s0 (State.pcieAtomic s fn x kind wide v) := by
  unfold State.pcieAtomic
  repeat' (first | with_reducible assumption | intro _ | with_reducible first | apply keeps_pcieReject | apply keeps_emit | apply keeps_hostRun | apply keeps_inc | apply keeps_fabIssue | apply keeps_ite | split)

theorem keeps_pcieUnsupported {s0 : State} (s : State) (fn : Nat) (hk : Keeps s0 s) : Keeps s0 (State.pcieUnsupported s fn) := by
  unfold State.pcieUnsupported
  repeat' (first | with_reducible assumption | with_reducible first | apply keeps_pcieReject | apply keeps_ite)

theorem keeps_msixAll {s0 : State} (s : State) (fn : Nat) (vs : List Nat) (hk : Keeps s0 s) : Keeps s0 (State.msixAll s fn vs) := by
  unfold State.msixAll
  repeat' (first | with_reducible assumption | intro _ | with_reducible first | apply keeps_each | apply keeps_msix)

theorem keeps_busMaster {s0 : State} (s : State) (fn : Nat) (on_ : Bool) (hk : Keeps s0 s) : Keeps s0 (State.busMaster s fn on_) := by
  unfold State.busMaster
  repeat' (first | with_reducible assumption | intro _ | with_reducible first | apply keeps_wr | apply keeps_setHost | apply keeps_each | apply keeps_emit | apply keeps_msixAll | apply keeps_setFn | apply keeps_drainAll | apply keeps_ite)

theorem keeps_msixMasks {s0 : State} (s : State) (fn : Nat) (en : Bool) (fmask : Bool) (mask : Nat) (hk : Keeps s0 s) : Keeps s0 (State.msixMasks s fn en fmask mask) := by
  unfold State.msixMasks
  repeat' (first | with_reducible assumption | with_reducible first | apply keeps_setFn | apply keeps_msixAll | apply keeps_ite)

theorem keeps_linkTrained {s0 : State} (s : State) (gen : Nat) (two : Bool) (hk : Keeps s0 s) : Keeps s0 (State.linkTrained s gen two) := by
  unfold State.linkTrained
  repeat' (first | with_reducible assumption | with_reducible first | apply keeps_event | apply keeps_wr | apply keeps_ite)

theorem keeps_loseFn {s0 : State} (s : State) (fn : Nat) (hk : Keeps s0 s) : Keeps s0 (State.loseFn s fn) := by
  unfold State.loseFn
  repeat' (first | with_reducible assumption | intro _ | with_reducible first | apply keeps_event | apply keeps_wr | apply keeps_setFn | apply keeps_setHost | apply keeps_setFab | apply keeps_each | apply keeps_drainAll | apply keeps_setNet | apply keeps_ite)

theorem keeps_fnLoss {s0 : State} (s : State) (down : Bool) (perst : Bool) (fn : Nat) (hk : Keeps s0 s) : Keeps s0 (State.fnLoss s down perst fn) := by
  unfold State.fnLoss
  repeat' (first | with_reducible assumption | with_reducible first | apply keeps_wr | apply keeps_loseFn | apply keeps_event | apply keeps_inc | apply keeps_ite)

theorem keeps_qspiOp {s0 : State} (s : State) (f : State → State) (hk : Keeps s0 s) (hf1 : ∀ t, Keeps s0 t → Keeps s0 (f t)) : Keeps s0 (State.qspiOp s f) := by
  unfold State.qspiOp
  repeat' (first | with_reducible assumption | apply hf1 | with_reducible first | apply keeps_inc | apply keeps_event | apply keeps_ite)

theorem keeps_qspiRead {s0 : State} (s : State) (w : Nat) (n : Nat) (hk : Keeps s0 s) : Keeps s0 (State.qspiRead s w n) := by
  unfold State.qspiRead
  repeat' (first | with_reducible assumption | with_reducible first | apply keeps_hostRun)

theorem keeps_qspiWrite {s0 : State} (s : State) (w : Nat) (n : Nat) (ds : List Word) (hk : Keeps s0 s) : Keeps s0 (State.qspiWrite s w n ds) := by
  unfold State.qspiWrite
  repeat' (first | with_reducible assumption | with_reducible first | apply keeps_hostRun | apply keeps_ite)

theorem keeps_qspiStatus {s0 : State} (s : State) (hk : Keeps s0 s) : Keeps s0 (State.qspiStatus s) := by
  unfold State.qspiStatus
  repeat' (first | with_reducible assumption | with_reducible first | apply keeps_emit | apply keeps_setHost | apply keeps_ite)

theorem keeps_qspiUnknown {s0 : State} (s : State) (code : BitVec 8) (hk : Keeps s0 s) : Keeps s0 (State.qspiUnknown s code) := by
  unfold State.qspiUnknown
  repeat' (first | with_reducible assumption | with_reducible first | apply keeps_inc | apply keeps_ite)

theorem keeps_parOp {s0 : State} (s : State) (f : State → State) (hk : Keeps s0 s) (hf1 : ∀ t, Keeps s0 t → Keeps s0 (f t)) : Keeps s0 (State.parOp s f) := by
  unfold State.parOp
  repeat' (first | with_reducible assumption | apply hf1 | apply keeps_ite)

theorem keeps_parPtr {s0 : State} (s : State) (hi : Bool) (v : BitVec 16) (hk : Keeps s0 s) : Keeps s0 (State.parPtr s hi v) := by
  unfold State.parPtr
  repeat' (first | with_reducible assumption | with_reducible first | apply keeps_inc | apply keeps_setHost | apply keeps_ite)

theorem keeps_parStatus {s0 : State} (s : State) (hk : Keeps s0 s) : Keeps s0 (State.parStatus s) := by
  unfold State.parStatus
  repeat' (first | with_reducible assumption | with_reducible first | apply keeps_emit | apply keeps_setHost)

theorem keeps_parStep {s0 : State} (s : State) (hk : Keeps s0 s) : Keeps s0 (State.parStep s) := by
  unfold State.parStep
  repeat' (first | with_reducible assumption | with_reducible first | apply keeps_setHost)

theorem keeps_parHighRead {s0 : State} (s : State) (hk : Keeps s0 s) : Keeps s0 (State.parHighRead s) := by
  unfold State.parHighRead
  repeat' (first | with_reducible assumption | with_reducible first | apply keeps_parStep | apply keeps_emit)

theorem keeps_parHighWrite {s0 : State} (s : State) (v : BitVec 16) (hk : Keeps s0 s) : Keeps s0 (State.parHighWrite s v) := by
  unfold State.parHighWrite
  repeat' (first | with_reducible assumption | intro _ | with_reducible first | apply keeps_parStep | apply keeps_inc | apply keeps_setHost | apply keeps_hostRun | apply keeps_ite | split)

theorem keeps_hotGood {s0 : State} (s : State) (hk : Keeps s0 s) : Keeps s0 (State.hotGood s) := by
  unfold State.hotGood
  repeat' (first | with_reducible assumption | with_reducible first | apply keeps_wr | apply keeps_ite)

theorem keeps_hotFault {s0 : State} (s : State) (hk : Keeps s0 s) : Keeps s0 (State.hotFault s) := by
  unfold State.hotFault
  repeat' (first | with_reducible assumption | with_reducible first | apply keeps_event | apply keeps_wr)

theorem keeps_lapSwap {s0 : State} (s : State) (hk : Keeps s0 s) : Keeps s0 (State.lapSwap s) := by
  unfold State.lapSwap
  repeat' (first | with_reducible assumption | intro _ | with_reducible first | apply keeps_wr | apply keeps_each | apply keeps_setRing)

theorem keeps_creditRefill {s0 : State} (s : State) (hk : Keeps s0 s) : Keeps s0 (State.creditRefill s) := by
  unfold State.creditRefill
  repeat' (first | with_reducible assumption | with_reducible first | apply keeps_setRing)

theorem keeps_splitApply {s0 : State} (s : State) (hk : Keeps s0 s) : Keeps s0 (State.splitApply s) := by
  unfold State.splitApply
  repeat' (first | with_reducible assumption | with_reducible first | apply keeps_showRingPending | apply keeps_setRing | apply keeps_commitRegs | apply keeps_ite)

theorem keeps_ringRecord {s0 : State} (s : State) (bad : Bool) (hk : Keeps s0 s) : Keeps s0 (State.ringRecord s bad) := by
  unfold State.ringRecord
  repeat' (first | with_reducible assumption | intro _ | with_reducible first | apply keeps_storeDevice | apply keeps_setRing | apply keeps_storeDrop | apply keeps_ite | split | extract_lets | (refine Keeps.of_snd (by assumption) ?_))

theorem keeps_ringBoundary {s0 : State} (s : State) (hk : Keeps s0 s) : Keeps s0 (State.ringBoundary s) := by
  unfold State.ringBoundary
  repeat' (first | with_reducible assumption | with_reducible first | apply keeps_splitApply | apply keeps_creditRefill | apply keeps_lapSwap | apply keeps_mrshBoundary | apply keeps_mrshApply | apply keeps_healBoundary | apply keeps_joinBoundary | apply keeps_applyCommits)

theorem keeps_memberBoundary {s0 : State} (s : State) (dep0 : Nat) (dep1 : Nat) (told0 : Bool) (told1 : Bool) (hk : Keeps s0 s) : Keeps s0 (State.memberBoundary s dep0 dep1 told0 told1) := by
  unfold State.memberBoundary
  repeat' (first | with_reducible assumption | with_reducible first | apply keeps_ringBoundary | apply keeps_timeBoundary | apply keeps_sendLap | apply keeps_delayRequest | apply keeps_stageBoundary | apply keeps_netBoundary | apply keeps_motBoundary | apply keeps_ite)

theorem keeps_joiningBoundary {s0 : State} (s : State) (hk : Keeps s0 s) : Keeps s0 (State.joiningBoundary s) := by
  unfold State.joiningBoundary
  repeat' (first | with_reducible assumption | with_reducible first | apply keeps_setRing | apply keeps_creditRefill | apply keeps_openLap | apply keeps_joinBoundary | apply keeps_applyCommits)

theorem keeps_lapBoundary {s0 : State} (s : State) (dep0 : Nat) (dep1 : Nat) (told0 : Bool) (told1 : Bool) (bad : Bool) (hk : Keeps s0 s) : Keeps s0 (State.lapBoundary s dep0 dep1 told0 told1 bad) := by
  unfold State.lapBoundary
  repeat' (first | with_reducible assumption | with_reducible first | apply keeps_ringRecord | apply keeps_memberBoundary | apply keeps_joiningBoundary | apply keeps_ite)

theorem keeps_delayInterval {s0 : State} (s : State) (sub0 : Nat) (sub1 : Nat) (hk : Keeps s0 s) : Keeps s0 (State.delayInterval s sub0 sub1) := by
  unfold State.delayInterval
  repeat' (first | with_reducible assumption | with_reducible first | apply keeps_delayRequest | apply keeps_setTime | apply keeps_ite)

theorem keeps_splitFire {s0 : State} (s : State) (n : Nat) (hk : Keeps s0 s) : Keeps s0 (State.splitFire s n) := by
  unfold State.splitFire
  repeat' (first | with_reducible assumption | with_reducible first | apply keeps_setRing | apply keeps_handSync | apply keeps_motFire | apply keeps_msix | apply keeps_callEvent | apply keeps_sideBand | apply keeps_ite)

theorem keeps_trigEvent {s0 : State} (s : State) (k : Nat) (hk : Keeps s0 s) : Keeps s0 (State.trigEvent s k) := by
  unfold State.trigEvent
  repeat' (first | with_reducible assumption | intro _ | with_reducible first | apply keeps_handTrig | apply keeps_each | apply keeps_engEvent | apply keeps_pairEvent | apply keeps_motFire | apply keeps_sideBand)

theorem keeps_trigDrive {s0 : State} (s : State) (n : Nat) (on_ : Bool) (hk : Keeps s0 s) : Keeps s0 (State.trigDrive s n on_) := by
  unfold State.trigDrive
  repeat' (first | with_reducible assumption | with_reducible first | apply keeps_setTrig | apply keeps_emit)

theorem keeps_trigNext {s0 : State} (s : State) (n : Nat) (t : Int) (hk : Keeps s0 s) : Keeps s0 (State.trigNext s n t) := by
  unfold State.trigNext
  repeat' (first | with_reducible assumption | with_reducible first | apply keeps_trigDrive | apply keeps_wr | apply keeps_setTrig | apply keeps_ite)

theorem keeps_trigFire {s0 : State} (s : State) (n : Nat) (hk : Keeps s0 s) : Keeps s0 (State.trigFire s n) := by
  unfold State.trigFire
  repeat' (first | with_reducible assumption | intro _ | with_reducible first | apply keeps_trigEvent | apply keeps_trigNext | apply keeps_ite | split)

theorem keeps_trigEnd {s0 : State} (s : State) (n : Nat) (hk : Keeps s0 s) : Keeps s0 (State.trigEnd s n) := by
  unfold State.trigEnd
  repeat' (first | with_reducible assumption | with_reducible first | apply keeps_trigDrive | apply keeps_ite)

theorem keeps_capEdge {s0 : State} (s : State) (n : Nat) (rising : Bool) (hk : Keeps s0 s) : Keeps s0 (State.capEdge s n rising) := by
  unfold State.capEdge
  repeat' (first | with_reducible assumption | with_reducible first | apply keeps_setField | apply keeps_motEdge | apply keeps_captureEdge)

theorem keeps_filtEdge {s0 : State} (s : State) (n : Nat) (b : Bool) (hk : Keeps s0 s) : Keeps s0 (State.filtEdge s n b) := by
  unfold State.filtEdge
  repeat' (first | with_reducible assumption | with_reducible first | apply keeps_filteredEdge | apply keeps_motEdge | apply keeps_ite)

theorem keeps_setPower {s0 : State} (s : State) (f : PowerSt → PowerSt) (hk : Keeps s0 s) : Keeps s0 (State.setPower s f) := by
  unfold State.setPower
  repeat' (first | with_reducible assumption | apply keeps_ite | apply keeps_mk)

theorem keeps_pfWarn {s0 : State} (s : State) (hk : Keeps s0 s) : Keeps s0 (State.pfWarn s) := by
  unfold State.pfWarn
  repeat' (first | with_reducible assumption | with_reducible first | apply keeps_event | apply keeps_wr | apply keeps_setPower | apply keeps_trip | apply keeps_ite | apply keeps_mk)

theorem keeps_vinBack {s0 : State} (s : State) (hk : Keeps s0 s) : Keeps s0 (State.vinBack s) := by
  unfold State.vinBack
  repeat' (first | with_reducible assumption | with_reducible first | apply keeps_event | apply keeps_wr | apply keeps_setPower | apply keeps_ite | apply keeps_mk)

theorem keeps_resumeAcc {s0 : State} (s : State) (hk : Keeps s0 s) : Keeps s0 (State.resumeAcc s) := by
  unfold State.resumeAcc
  repeat' (first | with_reducible assumption | intro _ | apply keeps_ite | split | (dsimp -zeta only) | apply keeps_mk)

theorem keeps_engGone {s0 : State} (s : State) (n : Nat) (hk : Keeps s0 s) : Keeps s0 (State.engGone s n) := by
  unfold State.engGone
  repeat' (first | with_reducible assumption | with_reducible first | apply keeps_wr | apply keeps_setEng | apply keeps_zeroMem)

theorem keeps_pairGone {s0 : State} (s : State) (p : Nat) (hk : Keeps s0 s) : Keeps s0 (State.pairGone s p) := by
  unfold State.pairGone
  repeat' (first | with_reducible assumption | with_reducible first | apply keeps_zeroMem | apply keeps_setPair | apply keeps_showOwn | apply keeps_setPst | apply keeps_wr | apply keeps_ite | apply keeps_mk)

theorem keeps_domDown {s0 : State} (s : State) (st : Nat) (code : Nat) (hk : Keeps s0 s) : Keeps s0 (State.domDown s st code) := by
  unfold State.domDown
  repeat' (first | with_reducible assumption | intro _ | with_reducible first | apply keeps_setDom | apply keeps_setEng | apply keeps_engGone | apply keeps_pairGone | apply keeps_each | apply keeps_calNone | apply keeps_setCal | apply keeps_drvOff | apply keeps_setReg | apply keeps_ite)

theorem keeps_domTo {s0 : State} (s : State) (st : Nat) (code : Nat) (hk : Keeps s0 s) : Keeps s0 (State.domTo s st code) := by
  unfold State.domTo
  repeat' (first | with_reducible assumption | with_reducible first | apply keeps_setDom | apply keeps_domDown | apply keeps_ite)

theorem keeps_domUp {s0 : State} (s : State) (code : Nat) (hk : Keeps s0 s) : Keeps s0 (State.domUp s code) := by
  unfold State.domUp
  repeat' (first | with_reducible assumption | intro _ | with_reducible first | apply keeps_wakeDom | apply keeps_setEng | apply keeps_each | apply keeps_showUnit | apply keeps_passRequest | apply keeps_hostResume | apply keeps_ite)

theorem keeps_bankInit {s0 : State} (s : State) (k : Nat) (hk : Keeps s0 s) : Keeps s0 (State.bankInit s k) := by
  unfold State.bankInit
  repeat' (first | with_reducible assumption | with_reducible first | apply keeps_hostResume | apply keeps_setBank | apply keeps_ite)

theorem keeps_opPwrDomain {s0 : State} (c : CmdRec) (s : State) (hk : Keeps s0 s) : Keeps s0 (opPwrDomain c s) := by
  unfold opPwrDomain
  repeat' (first | with_reducible assumption | intro _ | with_reducible first | apply keeps_badEnc | apply keeps_fail | apply keeps_done | apply keeps_each | apply keeps_domTo | apply keeps_ite)

theorem keeps_opPwrHoldup {s0 : State} (c : CmdRec) (s : State) (hk : Keeps s0 s) : Keeps s0 (opPwrHoldup c s) := by
  unfold opPwrHoldup
  repeat' (first | with_reducible assumption | with_reducible first | apply keeps_done | apply keeps_putCfg)

theorem keeps_opPwrStatus {s0 : State} (c : CmdRec) (s : State) (hk : Keeps s0 s) : Keeps s0 (opPwrStatus c s) := by
  unfold opPwrStatus
  repeat' (first | with_reducible assumption | with_reducible first | apply keeps_useFree | apply keeps_done)

theorem keeps_clockOver {s0 : State} (s : State) (hk : Keeps s0 s) : Keeps s0 (State.clockOver s) := by
  unfold State.clockOver
  repeat' (first | with_reducible assumption | with_reducible first | apply keeps_uncause | apply keeps_ite)

theorem keeps_clockFlag {s0 : State} (s : State) (i : Nat) (hk : Keeps s0 s) : Keeps s0 (State.clockFlag s i) := by
  unfold State.clockFlag
  repeat' (first | with_reducible assumption | with_reducible first | apply keeps_setPower | apply keeps_event | apply keeps_wr | apply keeps_trip | apply keeps_ite)

theorem keeps_clockGood {s0 : State} (s : State) (i : Nat) (hk : Keeps s0 s) : Keeps s0 (State.clockGood s i) := by
  unfold State.clockGood
  repeat' (first | with_reducible assumption | with_reducible first | apply keeps_setPower | apply keeps_wr | apply keeps_clockOver | apply keeps_ite)

theorem keeps_clockWindow {s0 : State} (s : State) (i : Nat) (dev : Int) (hk : Keeps s0 s) : Keeps s0 (State.clockWindow s i dev) := by
  unfold State.clockWindow
  repeat' (first | with_reducible assumption | with_reducible first | apply keeps_wrI | apply keeps_clockFlag | apply keeps_setPower | apply keeps_clockGood | apply keeps_ite)

theorem keeps_railOut {s0 : State} (s : State) (r : Nat) (mv : Nat) (hk : Keeps s0 s) : Keeps s0 (State.railOut s r mv) := by
  unfold State.railOut
  repeat' (first | with_reducible assumption | with_reducible first | apply keeps_setPower | apply keeps_wr | apply keeps_trip | apply keeps_ite)

theorem keeps_railIn {s0 : State} (s : State) (r : Nat) (hk : Keeps s0 s) : Keeps s0 (State.railIn s r) := by
  unfold State.railIn
  repeat' (first | with_reducible assumption | with_reducible first | apply keeps_setPower | apply keeps_wr | apply keeps_uncause | apply keeps_ite)

theorem keeps_tempSample {s0 : State} (s : State) (k : Nat) (t : Int) (hk : Keeps s0 s) : Keeps s0 (State.tempSample s k t) := by
  unfold State.tempSample
  repeat' (first | with_reducible assumption | with_reducible first | apply keeps_wrI | apply keeps_event | apply keeps_trip | apply keeps_setPower | apply keeps_uncause | apply keeps_ite)

theorem keeps_pllLock {s0 : State} (s : State) (hk : Keeps s0 s) : Keeps s0 (State.pllLock s) := by
  unfold State.pllLock
  repeat' (first | with_reducible assumption | with_reducible first | apply keeps_wr | apply keeps_setPower | apply keeps_ite)

theorem keeps_factoryRegs {s0 : State} (s : State) (hk : Keeps s0 s) : Keeps s0 (State.factoryRegs s) := by
  unfold State.factoryRegs
  repeat' (first | with_reducible assumption | with_reducible first | apply keeps_wr | apply keeps_setReg)

theorem keeps_abandonLoad {s0 : State} (s : State) (c : CmdRec) (hk : Keeps s0 s) : Keeps s0 (State.abandonLoad s c) := by
  unfold State.abandonLoad
  repeat' (first | with_reducible assumption | with_reducible first | apply keeps_putWord | apply keeps_ite)

theorem keeps_abandonLoads {s0 : State} (s : State) (hk : Keeps s0 s) : Keeps s0 (State.abandonLoads s) := by
  unfold State.abandonLoads
  repeat' (first | with_reducible assumption | intro _ | with_reducible first | apply keeps_each | apply keeps_abandonLoad)

theorem keeps_outside {s0 : State} (s : State) (t : State) (hk : Keeps s0 s) : Keeps s0 (State.outside s t) := by
  unfold State.outside
  repeat' (first | with_reducible assumption | apply keeps_ite | apply keeps_mk)

theorem keeps_seeAgain {s0 : State} (s : State) (t : State) (hk : Keeps s0 s) : Keeps s0 (State.seeAgain s t) := by
  unfold State.seeAgain
  repeat' (first | with_reducible assumption | with_reducible first | apply keeps_event | apply keeps_wr | apply keeps_trip | apply keeps_pfWarn | apply keeps_ite | apply keeps_mk)

theorem keeps_lockout {s0 : State} (s : State) (hk : Keeps s0 s) : Keeps s0 (State.lockout s) := by
  unfold State.lockout
  repeat' (first | with_reducible assumption | with_reducible first | apply keeps_emit | apply keeps_wr | apply keeps_setPower | apply keeps_abandonLoads)

theorem keeps_warmRegs {s0 : State} (s : State) (h : Keeps s0 s) : Keeps s0 s.warmRegs := by
  refine ⟨h.raw, h.pending, fun _ => ?_, h.mem⟩
  have aux : ∀ (l m : List (Nat × Word)), swf coldWord m = true →
      swf coldWord (l.foldl (fun m e => sset (coldWord e.1) m e.1 (warmWord e.1 e.2)) m) = true := by
    intro l
    induction l with
    | nil => intro m hm; exact hm
    | cons e t ih => intro m hm; exact ih _ (swf_sset coldWord m e.1 _ hm)
  exact aux s.regs [] rfl

theorem keeps_warmPair {s0 : State} (s : State) (p : Nat) (hk : Keeps s0 s) : Keeps s0 (State.warmPair s p) := by
  unfold State.warmPair
  repeat' (first | with_reducible assumption | with_reducible first | apply keeps_journalApply | apply keeps_safeActions | apply keeps_dropRets | apply keeps_setProc | apply keeps_setPair)

theorem keeps_warmDma {s0 : State} (s : State) (busy : List Nat) (hk : Keeps s0 s) : Keeps s0 (State.warmDma s busy) := by
  unfold State.warmDma
  repeat' (first | with_reducible assumption | intro _ | with_reducible first | apply keeps_setFab | apply keeps_each | apply keeps_setDma | apply keeps_wr)

theorem keeps_warmMot {s0 : State} (s : State) (n : Nat) (hk : Keeps s0 s) : Keeps s0 (State.warmMot s n) := by
  unfold State.warmMot
  repeat' (first | with_reducible assumption | with_reducible first | apply keeps_setMot)

theorem keeps_warmDrv {s0 : State} (s : State) (n : Nat) (hk : Keeps s0 s) : Keeps s0 (State.warmDrv s n) := by
  unfold State.warmDrv
  repeat' (first | with_reducible assumption | with_reducible first | apply keeps_setDrv | apply keeps_wr | apply keeps_drvForce)

theorem keeps_warmDown {s0 : State} (s : State) (hk : Keeps s0 s) : Keeps s0 (State.warmDown s) := by
  unfold State.warmDown
  repeat' (first | with_reducible assumption | intro _ | with_reducible first | apply keeps_each | apply keeps_engStop | apply keeps_handRestart | apply keeps_handOff | apply keeps_warmPair | apply keeps_pfDrop | apply keeps_ite)

theorem keeps_warmCore {s0 : State} (s : State) (hk : Keeps s0 s) : Keeps s0 (State.warmCore s) := by
  unfold State.warmCore
  repeat' (first | with_reducible assumption | with_reducible first | apply keeps_uncause | apply keeps_ite | apply keeps_mk)

theorem keeps_warmField {s0 : State} (s : State) (hk : Keeps s0 s) : Keeps s0 (State.warmField s) := by
  unfold State.warmField
  repeat' (first | with_reducible assumption | with_reducible first | apply keeps_setField | apply keeps_setRing | apply keeps_setFab | apply keeps_setNet | apply keeps_setGate | apply keeps_setMrsh | apply keeps_ite | apply keeps_mk)

theorem keeps_warmShow {s0 : State} (s : State) (t : State) (hk : Keeps s0 s) (hk1 : Keeps s0 t) : Keeps s0 (State.warmShow s t) := by
  unfold State.warmShow
  repeat' (first | with_reducible assumption | intro _ | with_reducible first | apply keeps_each | apply keeps_showLine | apply keeps_wr | apply keeps_setTime | apply keeps_showStamp | apply keeps_showCapture | apply keeps_showGate | apply keeps_showPool | apply keeps_showFab | apply keeps_ite)

theorem keeps_warmReset {s0 : State} (s : State) (cause : Nat) (hk : Keeps s0 s) : Keeps s0 (State.warmReset s cause) := by
  unfold State.warmReset
  repeat' (first | with_reducible assumption | intro _ | with_reducible first | apply keeps_warmCore | apply keeps_warmRegs | apply keeps_warmDown | apply keeps_abandonLoads | apply keeps_each | apply keeps_warmDma | apply keeps_warmField | apply keeps_wr | apply keeps_warmMot | apply keeps_warmDrv | apply keeps_warmShow | apply keeps_showOwn | apply keeps_setPower | apply keeps_ite)

theorem keeps_clearMem {s0 : State} (s : State) (a : Nat) (n : Nat) (hk : Keeps s0 s) : Keeps s0 (State.clearMem s a n) := by
  unfold State.clearMem
  repeat' (first | with_reducible assumption | with_reducible first | apply keeps_zeroMem | apply keeps_ite | apply keeps_mk)

theorem keeps_selfTest {s0 : State} (s : State) (bist : Word) (hk : Keeps s0 s) : Keeps s0 (State.selfTest s bist) := by
  unfold State.selfTest
  repeat' (first | with_reducible assumption | intro _ | with_reducible first | apply keeps_clearMem | apply keeps_setReg | apply keeps_wr | apply keeps_uncause | apply keeps_each | apply keeps_trip | apply keeps_event | apply keeps_ite)

theorem keeps_bootRun {s0 : State} (s : State) (k : Nat) (fallback : Nat) (hk : Keeps s0 s) : Keeps s0 (State.bootRun s k fallback) := by
  unfold State.bootRun
  repeat' (first | with_reducible assumption | with_reducible first | apply keeps_setReg | apply keeps_wr | apply keeps_setPower)

theorem keeps_boot {s0 : State} (s : State) (hk : Keeps s0 s) : Keeps s0 (State.boot s) := by
  unfold State.boot
  repeat' (first | with_reducible assumption | intro _ | with_reducible first | apply keeps_wr | apply keeps_setPower | apply keeps_bootRun | apply keeps_ite | split | extract_lets | (refine Keeps.of_snd (by assumption) ?_) | (dsimp -zeta only) | (dsimp -zeta +zetaDelta only))

theorem keeps_bookAbandon {s0 : State} (s : State) (cold : Bool) (i : Nat) (hk : Keeps s0 s) : Keeps s0 (State.bookAbandon s cold i) := by
  unfold State.bookAbandon
  repeat' (first | with_reducible assumption | with_reducible first | apply keeps_bookSet | apply keeps_ite)

theorem keeps_bookStart {s0 : State} (s : State) (cause : Nat) (hk : Keeps s0 s) : Keeps s0 (s.bookStart cause) := by
  unfold State.bookStart
  dsimp only
  have h1 := keeps_each s (bookPlaces.filter (fun i => !s.bookReadable i)) (fun i s => s.putWords (bookAddr i) (List.replicate 8 0)) hk
    (fun i t ht => keeps_putWords t _ _ ht)
  generalize s.each (bookPlaces.filter (fun i => !s.bookReadable i)) (fun i s => s.putWords (bookAddr i) (List.replicate 8 0)) = a at h1
  have h2 := keeps_each a bookPlaces (fun i s => s.bookAbandon (decide (cause ≤ 3)) i) h1 (fun i t ht => keeps_bookAbandon t _ _ ht)
  generalize a.each bookPlaces (fun i s => s.bookAbandon (decide (cause ≤ 3)) i) = b at h2
  exact keeps_bookInternal _ _ _ _ (keeps_mk h2)

theorem keeps_storeStart {s0 : State} (s : State) (hk : Keeps s0 s) : Keeps s0 (State.storeStart s) := by
  unfold State.storeStart
  repeat' (first | with_reducible assumption | intro _ | with_reducible first | apply keeps_each | apply keeps_storeShow | apply keeps_event | apply keeps_wr | apply keeps_ite | split | extract_lets | (refine Keeps.of_snd (by assumption) ?_) | (dsimp -zeta only) | (dsimp -zeta +zetaDelta only))

theorem keeps_deviceStart {s0 : State} (s : State) (hk : Keeps s0 s) : Keeps s0 (State.deviceStart s) := by
  unfold State.deviceStart
  repeat' (first | with_reducible assumption | intro _ | with_reducible first | apply keeps_each | apply keeps_wr | apply keeps_setReg | apply keeps_ite | split | (dsimp -zeta only) | apply keeps_mk)

theorem keeps_runsStart {s0 : State} (s : State) (hk : Keeps s0 s) : Keeps s0 (State.runsStart s) := by
  unfold State.runsStart
  repeat' (first | with_reducible assumption | intro _ | with_reducible first | apply keeps_each | apply keeps_busWrite)

theorem keeps_commitUnit {s0 : State} (s : State) (u : CommitUnit) (hu : ∀ t, Keeps s0 t → Keeps s0 (u.run t)) (hk : Keeps s0 s) :
    Keeps s0 (s.commitUnit u) := by
  unfold State.commitUnit
  split
  · exact keeps_ite (keeps_bookInternal _ _ _ _ (hu s hk)) (hu s hk)
  · exact hk
theorem keeps_unitsLow {s0 : State} : ∀ u ∈ unitsLow, ∀ t, Keeps s0 t → Keeps s0 (u.run t) := by
  unfold unitsLow
  simp only [List.forall_mem_append, List.forall_mem_map, List.forall_mem_cons, List.forall_mem_flatMap]
  exact ⟨⟨⟨⟨⟨⟨⟨fun t h => keeps_safeCommit t h, List.forall_mem_nil _⟩, fun i _ t h => keeps_queueCommit t i h⟩, fun i _ t h => keeps_trigCommit t i h⟩,
    fun t h => keeps_ringCommit t h, fun t h => keeps_splitCommit t h, fun t h => keeps_mrshCommit t h, List.forall_mem_nil _⟩,
    fun i _ t h => keeps_winCommit t i h⟩, fun t h => keeps_swCommit t h, List.forall_mem_nil _⟩,
    fun i _ => ⟨fun t h => keeps_macCommit t i h, fun t h => keeps_gateCommit t i h, List.forall_mem_nil _⟩⟩
theorem keeps_unitsHigh {s0 : State} : ∀ u ∈ unitsHigh, ∀ t, Keeps s0 t → Keeps s0 (u.run t) := by
  unfold unitsHigh
  simp only [List.forall_mem_append, List.forall_mem_map, List.forall_mem_cons, List.forall_mem_flatMap]
  exact ⟨⟨⟨⟨⟨⟨⟨fun i _ => ⟨fun t h => keeps_canCommit t i none h, fun t h => keeps_canFltCommit t i h, List.forall_mem_nil _⟩,
    fun i _ t h => keeps_lineCommit t i h⟩, fun i _ t h => keeps_dioCommit t i h⟩, fun i _ t h => keeps_handCommit t i h⟩,
    fun i _ t h => keeps_stgCommit t i h⟩, fun i _ t h => keeps_motCommit t i h⟩, fun i _ t h => keeps_drvCommit t i h⟩,
    fun t h => keeps_hostCommit t h, List.forall_mem_nil _⟩
theorem keeps_eachUnit {s0 : State} (s : State) (l : List CommitUnit) (hl : ∀ u ∈ l, ∀ t, Keeps s0 t → Keeps s0 (u.run t)) (hk : Keeps s0 s) :
    Keeps s0 (s.each l (fun u s => s.commitUnit u)) := by
  unfold State.each
  induction l generalizing s with
  | nil => exact hk
  | cons u t ih => exact ih _ (fun v hv => hl v (List.mem_cons_of_mem _ hv)) (keeps_commitUnit s u (hl u (List.mem_cons_self ..)) hk)
theorem keeps_runUnits {s0 : State} (s : State) (hk : Keeps s0 s) : Keeps s0 (s.each (unitsLow ++ unitsHigh) (fun u s => s.commitUnit u)) :=
  keeps_eachUnit s _ (List.forall_mem_append.mpr ⟨keeps_unitsLow, keeps_unitsHigh⟩) hk

theorem keeps_ringStart {s0 : State} (s : State) (hk : Keeps s0 s) : Keeps s0 (State.ringStart s) := by
  unfold State.ringStart
  repeat' (first | with_reducible assumption | intro _ | with_reducible first | apply keeps_wr | apply keeps_setReg | apply keeps_each | apply keeps_ringCfgNew | apply keeps_bookInternal | apply keeps_enterStart | apply keeps_ite | split)

theorem keeps_journalPut {s0 : State} (s : State) (p : Nat) (l : List Word) (hk : Keeps s0 s) : Keeps s0 (s.journalPut p l) := by
  fun_induction State.journalPut s p l with
  | case1 s o v t ih => exact ih (keeps_putWord _ _ _ hk)
  | case2 s l _ => exact hk

theorem keeps_journalTake {s0 : State} (s : State) (p : Nat) (k : Nat) (hk : Keeps s0 s) : Keeps s0 (State.journalTake s p k) := by
  unfold State.journalTake
  repeat' (first | with_reducible assumption | intro _ | with_reducible first | apply keeps_putWord | apply keeps_journalPut | apply keeps_ite | split)

theorem keeps_journalStart {s0 : State} (s : State) (p : Nat) (hk : Keeps s0 s) : Keeps s0 (State.journalStart s p) := by
  unfold State.journalStart
  repeat' (first | with_reducible assumption | with_reducible first | apply keeps_journalTake)

theorem keeps_startSteps {s0 : State} (s : State) (cause : Nat) (bist : Word) (hk : Keeps s0 s) : Keeps s0 (State.startSteps s cause bist) := by
  unfold State.startSteps
  repeat' (first | with_reducible assumption | with_reducible first | apply keeps_runUnits | apply keeps_selfTest | apply keeps_boot | apply keeps_storeStart | apply keeps_bookStart | apply keeps_deviceStart | apply keeps_each | apply keeps_runsStart | apply keeps_bookInternal | apply keeps_ringStart | apply keeps_journalStart | apply keeps_setPower | apply keeps_ite)

theorem keeps_bootCommand {s0 : State} (s : State) (ws : List Word) (inner : Option (List Byte)) (hk : Keeps s0 s) : Keeps s0 (State.bootCommand s ws inner) := by
  unfold State.bootCommand
  repeat' (first | with_reducible assumption | intro _ | with_reducible first | apply keeps_bookInternal | apply keeps_bookPut | apply keeps_showBook | apply keeps_setPower | apply keeps_startCmd | apply keeps_ite | split | (dsimp -zeta only) | apply keeps_mk)

theorem keeps_startEnd {s0 : State} (s : State) (cause : Nat) (bad : Bool) (hk : Keeps s0 s) : Keeps s0 (State.startEnd s cause bad) := by
  unfold State.startEnd
  repeat' (first | with_reducible assumption | intro _ | with_reducible first | apply keeps_each | apply keeps_newEpoch | apply keeps_setPower | apply keeps_wr | apply keeps_ite)

theorem keeps_startNext {s0 : State} (s : State) (cause : Nat) (bad : Bool) (hk : Keeps s0 s) : Keeps s0 (State.startNext s cause bad) := by
  unfold State.startNext
  repeat' (first | with_reducible assumption | intro _ | with_reducible first | apply keeps_startEnd | apply keeps_setPower | apply keeps_bootCommand | apply keeps_ite | split)

theorem keeps_startUp {s0 : State} (s : State) (bist : Word) (bad : Bool) (hk : Keeps s0 s) : Keeps s0 (State.startUp s bist bad) := by
  unfold State.startUp
  repeat' (first | with_reducible assumption | intro _ | with_reducible first | apply keeps_startNext | apply keeps_startSteps | apply keeps_ite | split)

theorem keeps_readyTimeout {s0 : State} (s : State) (hk : Keeps s0 s) : Keeps s0 (State.readyTimeout s) := by
  unfold State.readyTimeout
  repeat' (first | with_reducible assumption | with_reducible first | apply keeps_wr | apply keeps_ite | apply keeps_mk)

theorem keeps_opDiagBist {s0 : State} (env : Env) (c : CmdRec) (s : State) (hk : Keeps s0 s) : Keeps s0 (opDiagBist env c s) := by
  unfold opDiagBist
  repeat' (first | with_reducible assumption | with_reducible first | apply keeps_badEnc | apply keeps_badUnit | apply keeps_badParam | apply keeps_fail | apply keeps_again | apply keeps_uncause | apply keeps_done | apply keeps_ite)

theorem keeps_opDiagLoop {s0 : State} (env : Env) (c : CmdRec) (s : State) (hk : Keeps s0 s) : Keeps s0 (opDiagLoop env c s) := by
  unfold opDiagLoop
  repeat' (first | with_reducible assumption | with_reducible first | apply keeps_badUnit | apply keeps_badParam | apply keeps_fail | apply keeps_again | apply keeps_done | apply keeps_event | apply keeps_ite)

theorem keeps_flipBit {s0 : State} (s : State) (a : Nat) (b : Nat) (hk : Keeps s0 s) : Keeps s0 (State.flipBit s a b) := by
  unfold State.flipBit
  repeat' (first | with_reducible assumption | apply keeps_ite | apply keeps_mk)

theorem keeps_pairMismatch {s0 : State} (s : State) (p : Nat) (hk : Keeps s0 s) : Keeps s0 (State.pairMismatch s p) := by
  unfold State.pairMismatch
  repeat' (first | with_reducible assumption | with_reducible first | apply keeps_pairFault | apply keeps_haltCores | apply keeps_ite)

theorem keeps_injectKind {s0 : State} (s : State) (k : Nat) (pair : Nat) (eng : Nat) (seq : Nat) (hk : Keeps s0 s) : Keeps s0 (State.injectKind s k pair eng seq) := by
  unfold State.injectKind
  repeat' (first | with_reducible assumption | with_reducible first | apply keeps_pairMismatch | apply keeps_setPower | apply keeps_pairFault | apply keeps_event | apply keeps_inc | apply keeps_haltCores | apply keeps_engStop | apply keeps_ite | apply keeps_mk)

theorem keeps_opDiagInject {s0 : State} (c : CmdRec) (s : State) (hk : Keeps s0 s) : Keeps s0 (opDiagInject c s) := by
  unfold opDiagInject
  repeat' (first | with_reducible assumption | with_reducible first | apply keeps_fail | apply keeps_badEnc | apply keeps_done | apply keeps_injectKind | apply keeps_badParam | apply keeps_flipBit | apply keeps_ite)

theorem keeps_opDiagWdog {s0 : State} (c : CmdRec) (s : State) (hk : Keeps s0 s) : Keeps s0 (opDiagWdog c s) := by
  unfold opDiagWdog
  repeat' (first | with_reducible assumption | intro _ | with_reducible first | apply keeps_badParam | apply keeps_done | apply keeps_each | apply keeps_setEng | apply keeps_ite | split | (dsimp -zeta only) | apply keeps_mk)

theorem keeps_debugger {s0 : State} (s : State) (on : Bool) (hk : Keeps s0 s) : Keeps s0 (State.debugger s on) := by
  unfold State.debugger
  repeat' (first | with_reducible assumption | intro _ | with_reducible first | apply keeps_wr | apply keeps_each | apply keeps_setProc | apply keeps_ite)

theorem keeps_giveBuffer {s0 : State} (s : State) (seq : Nat) (env : Env) (hk : Keeps s0 s) : Keeps s0 (State.giveBuffer s seq env) := by
  unfold State.giveBuffer
  repeat' (first | with_reducible assumption | intro _ | with_reducible first | apply keeps_runCmd | apply keeps_opSysFwload | apply keeps_opStoreWrite | apply keeps_opRingSchedule | apply keeps_opRingJoin | apply keeps_opGateRoute | apply keeps_opStageLoad | apply keeps_opEngLoad | apply keeps_opEngStart | apply keeps_opMemCopy | apply keeps_ite | split)

theorem keeps_hostReadDone {s0 : State} (s : State) (what : Nat) (seq : Nat) (env : Env) (hk : Keeps s0 s) : Keeps s0 (State.hostReadDone s what seq env) := by
  unfold State.hostReadDone
  repeat' (first | with_reducible assumption | intro _ | with_reducible first | apply keeps_consume | apply keeps_giveBuffer | apply keeps_txRing | apply keeps_fetchRx | apply keeps_ite | split)

theorem keeps_bufferTimeout {s0 : State} (s : State) (seq : Nat) (hk : Keeps s0 s) : Keeps s0 (State.bufferTimeout s seq) := by
  unfold State.bufferTimeout
  repeat' (first | with_reducible assumption | intro _ | with_reducible first | apply keeps_giveBuffer | apply keeps_ite | split)

theorem keeps_hostReadLate {s0 : State} (s : State) (ring : Bool) (seq : Nat) (hk : Keeps s0 s) : Keeps s0 (State.hostReadLate s ring seq) := by
  unfold State.hostReadLate
  repeat' (first | with_reducible assumption | with_reducible first | apply keeps_txRing | apply keeps_bufferTimeout | apply keeps_ite)

end Sys2Proof.Machine
end

