-- ==== Sys2Proof/Laws/KeepsExecField.lean ====
section
/-! SUPPORT. What every operation keeps: the raw counter, the queue of commands, and the canonical forms of registers and memory; here for
the commands of the field, the ring, time and the command core. -/
namespace Sys2Proof.Machine
open Sys2Proof

/-- Every state that a command's meaning answers keeps the raw counter, the queue and the canonical forms. -/
def KeepsOut (s0 : State) (o : Out) : Prop := ∀ t, o = .next t → Keeps s0 t
theorem KeepsOut.of_next {s0 t : State} (h : Keeps s0 t) : KeepsOut s0 (.next t) := fun _ e => by cases e; exact h

theorem keeps_execJump (h : Fin 32) (cond : Fin 16) (addr : Fin 32) (z : Fin 4) (sel : Fin 4) (s : State) : KeepsOut s (execJump h cond addr z sel s) := by
  unfold execJump
  repeat' (first | with_reducible assumption | with_reducible exact Keeps.refl _ | with_reducible refine KeepsOut.of_next ?_ | with_reducible first | apply keeps_handTick | apply keeps_handJump)

theorem keeps_execWaitfor (h : Fin 32) (lvl : Bool) (src : Fin 4) (k : Fin 8) (z : Fin 32) (sel : Fin 4) (s : State) : KeepsOut s (execWaitfor h lvl src k z sel s) := by
  unfold execWaitfor
  repeat' (first | with_reducible assumption | with_reducible exact Keeps.refl _ | with_reducible refine KeepsOut.of_next ?_ | with_reducible first | apply keeps_handTick | apply keeps_handWait)

theorem keeps_execShift (h : Fin 32) (n1 : Fin 32) (dst : Fin 4) (src : Fin 4) (ien : Bool) (oen : Bool) (sel : Fin 4) (s : State) : KeepsOut s (execShift h n1 dst src ien oen sel s) := by
  unfold execShift
  repeat' (first | with_reducible assumption | with_reducible exact Keeps.refl _ | with_reducible refine KeepsOut.of_next ?_ | with_reducible first | apply keeps_handTick | apply keeps_handShift)

theorem keeps_execTake (h : Fin 32) (nb : Bool) (ife : Bool) (z : Fin 256) (sel : Fin 4) (s : State) : KeepsOut s (execTake h nb ife z sel s) := by
  unfold execTake
  repeat' (first | with_reducible assumption | with_reducible exact Keeps.refl _ | with_reducible refine KeepsOut.of_next ?_ | with_reducible first | apply keeps_handTick | apply keeps_handTake)

theorem keeps_execGive (h : Fin 32) (nb : Bool) (iff : Bool) (z : Fin 256) (sel : Fin 4) (s : State) : KeepsOut s (execGive h nb iff z sel s) := by
  unfold execGive
  repeat' (first | with_reducible assumption | with_reducible exact Keeps.refl _ | with_reducible refine KeepsOut.of_next ?_ | with_reducible first | apply keeps_handTick | apply keeps_handGive)

theorem keeps_execDrive (h : Fin 32) (pat : Fin 256) (z : Fin 8) (sel : Fin 4) (s : State) : KeepsOut s (execDrive h pat z sel s) := by
  unfold execDrive
  repeat' (first | with_reducible assumption | with_reducible exact Keeps.refl _ | with_reducible refine KeepsOut.of_next ?_ | intro _ | with_reducible first | apply keeps_handTick | apply keeps_slotsOut | apply keeps_ite | split | (dsimp -zeta only [HandRes.st]))

theorem keeps_execLdk (h : Fin 32) (dst : Fin 4) (imm : Fin 512) (sel : Fin 4) (s : State) : KeepsOut s (execLdk h dst imm sel s) := by
  unfold execLdk
  repeat' (first | with_reducible assumption | with_reducible exact Keeps.refl _ | with_reducible refine KeepsOut.of_next ?_ | intro _ | with_reducible first | apply keeps_handTick | apply keeps_wr | apply keeps_loadTsr | apply keeps_ite | split | (dsimp -zeta only [HandRes.st]))

theorem keeps_execMove (h : Fin 32) (dst : Fin 8) (src : Fin 8) (op : Fin 4) (z : Fin 8) (sel : Fin 4) (s : State) : KeepsOut s (execMove h dst src op z sel s) := by
  unfold execMove
  repeat' (first | with_reducible assumption | with_reducible exact Keeps.refl _ | with_reducible refine KeepsOut.of_next ?_ | with_reducible first | apply keeps_handTick | apply keeps_handMove)

theorem keeps_execSignal (h : Fin 32) (act : Fin 4) (k : Fin 8) (z : Fin 64) (sel : Fin 4) (s : State) : KeepsOut s (execSignal h act k z sel s) := by
  unfold execSignal
  repeat' (first | with_reducible assumption | with_reducible exact Keeps.refl _ | with_reducible refine KeepsOut.of_next ?_ | with_reducible first | apply keeps_handTick | apply keeps_handSignal)

theorem keeps_execHandCtlEnClear (id : Ident) (h : Fin 32) (s : State) : KeepsOut s (execHandCtlEnClear id h s) := by
  unfold execHandCtlEnClear
  repeat' (first | with_reducible assumption | with_reducible exact Keeps.refl _ | with_reducible refine KeepsOut.of_next ?_ | intro _ | with_reducible first | apply keeps_guardHand | apply keeps_handOff)

theorem keeps_execHandCtlEnSet (id : Ident) (h : Fin 32) (s : State) : KeepsOut s (execHandCtlEnSet id h s) := by
  unfold execHandCtlEnSet
  repeat' (first | with_reducible assumption | with_reducible exact Keeps.refl _ | with_reducible refine KeepsOut.of_next ?_ | intro _ | with_reducible first | apply keeps_guardHand | apply keeps_handOn)

theorem keeps_execHandCtlRestart (id : Ident) (h : Fin 32) (s : State) : KeepsOut s (execHandCtlRestart id h s) := by
  unfold execHandCtlRestart
  repeat' (first | with_reducible assumption | with_reducible exact Keeps.refl _ | with_reducible refine KeepsOut.of_next ?_ | intro _ | with_reducible first | apply keeps_guardHand | apply keeps_handRestart)

theorem keeps_execHandCtlFifoclr (id : Ident) (h : Fin 32) (s : State) : KeepsOut s (execHandCtlFifoclr id h s) := by
  unfold execHandCtlFifoclr
  repeat' (first | with_reducible assumption | with_reducible exact Keeps.refl _ | with_reducible refine KeepsOut.of_next ?_ | intro _ | with_reducible first | apply keeps_guardHand | apply keeps_handFifoClr)

theorem keeps_execHandCtlCommit (id : Ident) (h : Fin 32) (s : State) : KeepsOut s (execHandCtlCommit id h s) := by
  unfold execHandCtlCommit
  repeat' (first | with_reducible assumption | with_reducible exact Keeps.refl _ | with_reducible refine KeepsOut.of_next ?_ | intro _ | with_reducible first | apply keeps_guardHand | apply keeps_handCommit)

theorem keeps_execHandCtlArm (id : Ident) (h : Fin 32) (k : Fin 8) (s : State) : KeepsOut s (execHandCtlArm id h k s) := by
  unfold execHandCtlArm
  repeat' (first | with_reducible assumption | with_reducible exact Keeps.refl _ | with_reducible refine KeepsOut.of_next ?_ | intro _ | with_reducible first | apply keeps_guardHand | apply keeps_wr)

theorem keeps_execHandCtlCntclr (id : Ident) (h : Fin 32) (s : State) : KeepsOut s (execHandCtlCntclr id h s) := by
  unfold execHandCtlCntclr
  repeat' (first | with_reducible assumption | with_reducible exact Keeps.refl _ | with_reducible refine KeepsOut.of_next ?_ | intro _ | with_reducible first | apply keeps_guardHand | apply keeps_handClr)

theorem keeps_execHandTxfWrite (id : Ident) (h : Fin 32) (v : Word) (s : State) : KeepsOut s (execHandTxfWrite id h v s) := by
  unfold execHandTxfWrite
  repeat' (first | with_reducible assumption | with_reducible exact Keeps.refl _ | with_reducible refine KeepsOut.of_next ?_ | intro _ | with_reducible first | apply keeps_guardHand | apply keeps_handPush)

theorem keeps_execHandRxfRead (_id : Ident) (h : Fin 32) (s : State) : KeepsOut s (execHandRxfRead _id h s) := by
  unfold execHandRxfRead
  repeat' (first | with_reducible assumption | with_reducible exact Keeps.refl _ | with_reducible refine KeepsOut.of_next ?_ | intro _ | with_reducible first | apply keeps_guardUp | apply keeps_handPop)

theorem keeps_execHandImemWrite (id : Ident) (h : Fin 32) (i : Fin 32) (v : BitVec 16) (s : State) : KeepsOut s (execHandImemWrite id h i v s) := by
  unfold execHandImemWrite
  repeat' (first | with_reducible assumption | with_reducible exact Keeps.refl _ | with_reducible refine KeepsOut.of_next ?_ | intro _ | with_reducible first | apply keeps_guardHand | apply keeps_handWriteMem)

theorem keeps_execHandABTsrWrite (id : Ident) (h : Fin 32) (r : Fin 3) (v : Word) (s : State) : KeepsOut s (execHandABTsrWrite id h r v s) := by
  unfold execHandABTsrWrite
  repeat' (first | with_reducible assumption | with_reducible exact Keeps.refl _ | with_reducible refine KeepsOut.of_next ?_ | intro _ | with_reducible first | apply keeps_guardHand | apply keeps_handWriteMem)

theorem keeps_execLineCtlCommit (id : Ident) (n : Fin 48) (s : State) : KeepsOut s (execLineCtlCommit id n s) := by
  unfold execLineCtlCommit
  repeat' (first | with_reducible assumption | with_reducible exact Keeps.refl _ | with_reducible refine KeepsOut.of_next ?_ | intro _ | with_reducible first | apply keeps_guardBs | apply keeps_lineCommit)

theorem keeps_execLineCtlCalreq (id : Ident) (n : Fin 48) (s : State) : KeepsOut s (execLineCtlCalreq id n s) := by
  unfold execLineCtlCalreq
  repeat' (first | with_reducible assumption | with_reducible exact Keeps.refl _ | with_reducible refine KeepsOut.of_next ?_ | intro _ | with_reducible first | apply keeps_guardBs | apply keeps_passRequest)

theorem keeps_execLineCtlCntclr (id : Ident) (n : Fin 48) (s : State) : KeepsOut s (execLineCtlCntclr id n s) := by
  unfold execLineCtlCntclr
  repeat' (first | with_reducible assumption | with_reducible exact Keeps.refl _ | with_reducible refine KeepsOut.of_next ?_ | intro _ | with_reducible first | apply keeps_guardBs | apply keeps_lineClr)

theorem keeps_execPassRequestPeriod (u : Fin 128) (s : State) : KeepsOut s (execPassRequestPeriod u s) := by
  unfold execPassRequestPeriod
  repeat' (first | with_reducible assumption | with_reducible exact Keeps.refl _ | with_reducible refine KeepsOut.of_next ?_ | intro _ | with_reducible first | apply keeps_guardUp | apply keeps_passRequest | apply keeps_ite)

theorem keeps_execPassRequestTdelta (u : Fin 128) (s : State) : KeepsOut s (execPassRequestTdelta u s) := by
  unfold execPassRequestTdelta
  repeat' (first | with_reducible assumption | with_reducible exact Keeps.refl _ | with_reducible refine KeepsOut.of_next ?_ | intro _ | with_reducible first | apply keeps_guardUp | apply keeps_passRequest | apply keeps_ite)

theorem keeps_execCalibrationStep (u : Fin 128) (s : State) : KeepsOut s (execCalibrationStep u s) := by
  unfold execCalibrationStep
  repeat' (first | with_reducible assumption | with_reducible exact Keeps.refl _ | with_reducible refine KeepsOut.of_next ?_ | intro _ | with_reducible first | apply keeps_guardUp | apply keeps_calStep | apply keeps_ite)

theorem keeps_execStepDone (u : Fin 128) (trim : Word) (out : Bool) (agree : Bool) (s : State) : KeepsOut s (execStepDone u trim out agree s) := by
  unfold execStepDone
  repeat' (first | with_reducible assumption | with_reducible exact Keeps.refl _ | with_reducible refine KeepsOut.of_next ?_ | intro _ | with_reducible first | apply keeps_guardUp | apply keeps_stepDone)

theorem keeps_execForegroundEvent (u : Fin 128) (b : Bool) (s : State) : KeepsOut s (execForegroundEvent u b s) := by
  unfold execForegroundEvent
  repeat' (first | with_reducible assumption | with_reducible exact Keeps.refl _ | with_reducible refine KeepsOut.of_next ?_ | intro _ | with_reducible first | apply keeps_guardUp | apply keeps_padEdge | apply keeps_ite)

theorem keeps_execPassApply (u : Fin 128) (s : State) : KeepsOut s (execPassApply u s) := by
  unfold execPassApply
  repeat' (first | with_reducible assumption | with_reducible exact Keeps.refl _ | with_reducible refine KeepsOut.of_next ?_ | intro _ | with_reducible first | apply keeps_guardUp | apply keeps_passApply | apply keeps_ite)

theorem keeps_execStarvedInterval (u : Fin 128) (s : State) : KeepsOut s (execStarvedInterval u s) := by
  unfold execStarvedInterval
  repeat' (first | with_reducible assumption | with_reducible exact Keeps.refl _ | with_reducible refine KeepsOut.of_next ?_ | intro _ | with_reducible first | apply keeps_guardUp | apply keeps_event | apply keeps_inc | apply keeps_ite)

theorem keeps_execMaintenanceWindowEnd (u : Fin 128) (s : State) : KeepsOut s (execMaintenanceWindowEnd u s) := by
  unfold execMaintenanceWindowEnd
  repeat' (first | with_reducible assumption | with_reducible exact Keeps.refl _ | with_reducible refine KeepsOut.of_next ?_ | intro _ | with_reducible first | apply keeps_guardUp | apply keeps_windowEnd | apply keeps_ite | split)

theorem keeps_execDriverCurrentLimit (n : Fin 48) (s : State) : KeepsOut s (execDriverCurrentLimit n s) := by
  unfold execDriverCurrentLimit
  repeat' (first | with_reducible assumption | with_reducible exact Keeps.refl _ | with_reducible refine KeepsOut.of_next ?_ | intro _ | with_reducible first | apply keeps_guardUp | apply keeps_lineFault | apply keeps_ite)

theorem keeps_execQuadOvertemperature (q : Fin 12) (s : State) : KeepsOut s (execQuadOvertemperature q s) := by
  unfold execQuadOvertemperature
  repeat' (first | with_reducible assumption | with_reducible exact Keeps.refl _ | with_reducible refine KeepsOut.of_next ?_ | intro _ | with_reducible first | apply keeps_guardUp | apply keeps_quadHot)

theorem keeps_execQuadTemperatureRecovery (q : Fin 12) (s : State) : KeepsOut s (execQuadTemperatureRecovery q s) := by
  unfold execQuadTemperatureRecovery
  repeat' (first | with_reducible assumption | with_reducible exact Keeps.refl _ | with_reducible refine KeepsOut.of_next ?_ | intro _ | with_reducible first | apply keeps_guardUp | apply keeps_quadHot)

theorem keeps_execCommonModeFault (n : Fin 48) (out : Bool) (lvl : Bool) (s : State) : KeepsOut s (execCommonModeFault n out lvl s) := by
  unfold execCommonModeFault
  repeat' (first | with_reducible assumption | with_reducible exact Keeps.refl _ | with_reducible refine KeepsOut.of_next ?_ | intro _ | with_reducible first | apply keeps_guardUp | apply keeps_commonMode)

theorem keeps_execDominantTimeout (n : Fin 48) (s : State) : KeepsOut s (execDominantTimeout n s) := by
  unfold execDominantTimeout
  repeat' (first | with_reducible assumption | with_reducible exact Keeps.refl _ | with_reducible refine KeepsOut.of_next ?_ | intro _ | with_reducible first | apply keeps_guardUp | apply keeps_lineFault | apply keeps_ite)

theorem keeps_execDioCtlCommit (id : Ident) (k : Fin 8) (s : State) : KeepsOut s (execDioCtlCommit id k s) := by
  unfold execDioCtlCommit
  repeat' (first | with_reducible assumption | with_reducible exact Keeps.refl _ | with_reducible refine KeepsOut.of_next ?_ | intro _ | with_reducible first | apply keeps_guardBs | apply keeps_dioCommit)

theorem keeps_execDioCtlCntclr (id : Ident) (s : State) : KeepsOut s (execDioCtlCntclr id s) := by
  unfold execDioCtlCntclr
  repeat' (first | with_reducible assumption | with_reducible exact Keeps.refl _ | with_reducible refine KeepsOut.of_next ?_ | with_reducible first | apply keeps_guardBs | apply keeps_dioClr)

theorem keeps_execDioStampRead (_id : Ident) (n : Fin 64) (s : State) : KeepsOut s (execDioStampRead _id n s) := by
  unfold execDioStampRead
  repeat' (first | with_reducible assumption | with_reducible exact Keeps.refl _ | with_reducible refine KeepsOut.of_next ?_ | intro _ | with_reducible first | apply keeps_guardUp | apply keeps_stampRead)

theorem keeps_execOutputShort (n : Fin 64) (s : State) : KeepsOut s (execOutputShort n s) := by
  unfold execOutputShort
  repeat' (first | with_reducible assumption | with_reducible exact Keeps.refl _ | with_reducible refine KeepsOut.of_next ?_ | intro _ | with_reducible first | apply keeps_guardUp | apply keeps_event | apply keeps_wr | apply keeps_ite)

theorem keeps_execOctetOvercurrent (k : Fin 8) (s : State) : KeepsOut s (execOctetOvercurrent k s) := by
  unfold execOctetOvercurrent
  repeat' (first | with_reducible assumption | with_reducible exact Keeps.refl _ | with_reducible refine KeepsOut.of_next ?_ | intro _ | with_reducible first | apply keeps_guardUp | apply keeps_event | apply keeps_wr)

theorem keeps_execTotalOvercurrent (s : State) : KeepsOut s (execTotalOvercurrent s) := by
  unfold execTotalOvercurrent
  repeat' (first | with_reducible assumption | with_reducible exact Keeps.refl _ | with_reducible refine KeepsOut.of_next ?_ | intro _ | with_reducible first | apply keeps_guardUp | apply keeps_event | apply keeps_wr)

theorem keeps_execOpenLoad (n : Fin 64) (s : State) : KeepsOut s (execOpenLoad n s) := by
  unfold execOpenLoad
  repeat' (first | with_reducible assumption | with_reducible exact Keeps.refl _ | with_reducible refine KeepsOut.of_next ?_ | intro _ | with_reducible first | apply keeps_guardUp | apply keeps_event | apply keeps_wr | apply keeps_ite)

theorem keeps_execOpenLoadClear (n : Fin 64) (s : State) : KeepsOut s (execOpenLoadClear n s) := by
  unfold execOpenLoadClear
  repeat' (first | with_reducible assumption | with_reducible exact Keeps.refl _ | with_reducible refine KeepsOut.of_next ?_ | intro _ | with_reducible first | apply keeps_guardUp | apply keeps_wr)

theorem keeps_execVfldLow (s : State) : KeepsOut s (execVfldLow s) := by
  unfold execVfldLow
  repeat' (first | with_reducible assumption | with_reducible exact Keeps.refl _ | with_reducible refine KeepsOut.of_next ?_ | intro _ | with_reducible first | apply keeps_guardUp | apply keeps_event | apply keeps_wr)

theorem keeps_execVfldRecovery (s : State) : KeepsOut s (execVfldRecovery s) := by
  unfold execVfldRecovery
  repeat' (first | with_reducible assumption | with_reducible exact Keeps.refl _ | with_reducible refine KeepsOut.of_next ?_ | intro _ | with_reducible first | apply keeps_guardUp | apply keeps_wr)

theorem keeps_execLineCalTimeLimit (seq : Nat) (s : State) : KeepsOut s (execLineCalTimeLimit seq s) := by
  unfold execLineCalTimeLimit
  repeat' (first | with_reducible assumption | with_reducible exact Keeps.refl _ | with_reducible refine KeepsOut.of_next ?_ | intro _ | with_reducible first | apply keeps_guardUp | apply keeps_calLimit)

theorem keeps_execLineScopeTimeout (seq : Nat) (s : State) : KeepsOut s (execLineScopeTimeout seq s) := by
  unfold execLineScopeTimeout
  repeat' (first | with_reducible assumption | with_reducible exact Keeps.refl _ | with_reducible refine KeepsOut.of_next ?_ | intro _ | with_reducible first | apply keeps_guardUp | apply keeps_scopeLimit)

theorem keeps_execLineMode (seq : Nat) (_env : Env) (s : State) : KeepsOut s (execLineMode seq _env s) := by
  unfold execLineMode
  repeat' (first | with_reducible assumption | with_reducible exact Keeps.refl _ | with_reducible refine KeepsOut.of_next ?_ | with_reducible first | apply keeps_runCmd | apply keeps_opLineMode)

theorem keeps_execLineCal (seq : Nat) (_env : Env) (s : State) : KeepsOut s (execLineCal seq _env s) := by
  unfold execLineCal
  repeat' (first | with_reducible assumption | with_reducible exact Keeps.refl _ | with_reducible refine KeepsOut.of_next ?_ | with_reducible first | apply keeps_runCmd | apply keeps_opLineCal)

theorem keeps_execLineScope (seq : Nat) (env : Env) (s : State) : KeepsOut s (execLineScope seq env s) := by
  unfold execLineScope
  repeat' (first | with_reducible assumption | with_reducible exact Keeps.refl _ | with_reducible refine KeepsOut.of_next ?_ | with_reducible first | apply keeps_runCmd | apply keeps_opLineScope)

theorem keeps_execLineEcho (seq : Nat) (env : Env) (s : State) : KeepsOut s (execLineEcho seq env s) := by
  unfold execLineEcho
  repeat' (first | with_reducible assumption | with_reducible exact Keeps.refl _ | with_reducible refine KeepsOut.of_next ?_ | with_reducible first | apply keeps_runCmd | apply keeps_opLineEcho)

theorem keeps_execLineMaint (seq : Nat) (_env : Env) (s : State) : KeepsOut s (execLineMaint seq _env s) := by
  unfold execLineMaint
  repeat' (first | with_reducible assumption | with_reducible exact Keeps.refl _ | with_reducible refine KeepsOut.of_next ?_ | with_reducible first | apply keeps_runCmd | apply keeps_opLineMaint)

theorem keeps_execLineTelem (seq : Nat) (env : Env) (s : State) : KeepsOut s (execLineTelem seq env s) := by
  unfold execLineTelem
  repeat' (first | with_reducible assumption | with_reducible exact Keeps.refl _ | with_reducible refine KeepsOut.of_next ?_ | with_reducible first | apply keeps_runCmd | apply keeps_opLineTelem)

theorem keeps_execDioMode (seq : Nat) (_env : Env) (s : State) : KeepsOut s (execDioMode seq _env s) := by
  unfold execDioMode
  repeat' (first | with_reducible assumption | with_reducible exact Keeps.refl _ | with_reducible refine KeepsOut.of_next ?_ | with_reducible first | apply keeps_runCmd | apply keeps_opDioMode)

theorem keeps_execDioFilter (seq : Nat) (_env : Env) (s : State) : KeepsOut s (execDioFilter seq _env s) := by
  unfold execDioFilter
  repeat' (first | with_reducible assumption | with_reducible exact Keeps.refl _ | with_reducible refine KeepsOut.of_next ?_ | with_reducible first | apply keeps_runCmd | apply keeps_opDioFilter)

theorem keeps_execDioSet (seq : Nat) (_env : Env) (s : State) : KeepsOut s (execDioSet seq _env s) := by
  unfold execDioSet
  repeat' (first | with_reducible assumption | with_reducible exact Keeps.refl _ | with_reducible refine KeepsOut.of_next ?_ | with_reducible first | apply keeps_runCmd | apply keeps_opDioSet)

theorem keeps_execDioStatus (seq : Nat) (_env : Env) (s : State) : KeepsOut s (execDioStatus seq _env s) := by
  unfold execDioStatus
  repeat' (first | with_reducible assumption | with_reducible exact Keeps.refl _ | with_reducible refine KeepsOut.of_next ?_ | with_reducible first | apply keeps_runCmd | apply keeps_opDioStatus)

theorem keeps_execCanCtlCommit (id : Ident) (n : Fin 16) (s : State) : KeepsOut s (execCanCtlCommit id n s) := by
  unfold execCanCtlCommit
  repeat' (first | with_reducible assumption | with_reducible exact Keeps.refl _ | with_reducible refine KeepsOut.of_next ?_ | intro _ | with_reducible first | apply keeps_canGuard | apply keeps_canCommit)

theorem keeps_execCanCtlFltcommit (id : Ident) (n : Fin 16) (s : State) : KeepsOut s (execCanCtlFltcommit id n s) := by
  unfold execCanCtlFltcommit
  repeat' (first | with_reducible assumption | with_reducible exact Keeps.refl _ | with_reducible refine KeepsOut.of_next ?_ | intro _ | with_reducible first | apply keeps_canGuard | apply keeps_canFltCommit)

theorem keeps_execCanCtlRecover (id : Ident) (n : Fin 16) (s : State) : KeepsOut s (execCanCtlRecover id n s) := by
  unfold execCanCtlRecover
  repeat' (first | with_reducible assumption | with_reducible exact Keeps.refl _ | with_reducible refine KeepsOut.of_next ?_ | intro _ | with_reducible first | apply keeps_canGuard | apply keeps_canRecover)

theorem keeps_execCanCtlCntclr (id : Ident) (n : Fin 16) (s : State) : KeepsOut s (execCanCtlCntclr id n s) := by
  unfold execCanCtlCntclr
  repeat' (first | with_reducible assumption | with_reducible exact Keeps.refl _ | with_reducible refine KeepsOut.of_next ?_ | intro _ | with_reducible first | apply keeps_canGuard | apply keeps_canCntClr)

theorem keeps_execCommitAtBusIdle (n : Fin 16) (s : State) : KeepsOut s (execCommitAtBusIdle n s) := by
  unfold execCommitAtBusIdle
  repeat' (first | with_reducible assumption | with_reducible exact Keeps.refl _ | with_reducible refine KeepsOut.of_next ?_ | intro _ | with_reducible first | apply keeps_guardUp | apply keeps_canApply | apply keeps_ite)

theorem keeps_execCanTxw (_id : Ident) (n : Fin 16) (v : Word) (s : State) : KeepsOut s (execCanTxw _id n v s) := by
  unfold execCanTxw
  repeat' (first | with_reducible assumption | with_reducible exact Keeps.refl _ | with_reducible refine KeepsOut.of_next ?_ | intro _ | with_reducible first | apply keeps_guardUp | apply keeps_canTxw)

theorem keeps_execCanCancel (_id : Ident) (n : Fin 16) (tag : Fin 256) (s : State) : KeepsOut s (execCanCancel _id n tag s) := by
  unfold execCanCancel
  repeat' (first | with_reducible assumption | with_reducible exact Keeps.refl _ | with_reducible refine KeepsOut.of_next ?_ | intro _ | with_reducible first | apply keeps_guardUp | apply keeps_canCancel)

theorem keeps_execCanTxevRead (_id : Ident) (n : Fin 16) (s : State) : KeepsOut s (execCanTxevRead _id n s) := by
  unfold execCanTxevRead
  repeat' (first | with_reducible assumption | with_reducible exact Keeps.refl _ | with_reducible refine KeepsOut.of_next ?_ | intro _ | with_reducible first | apply keeps_guardUp | apply keeps_txevRead)

theorem keeps_execBusIntegration (n : Fin 16) (s : State) : KeepsOut s (execBusIntegration n s) := by
  unfold execBusIntegration
  repeat' (first | with_reducible assumption | with_reducible exact Keeps.refl _ | with_reducible refine KeepsOut.of_next ?_ | intro _ | with_reducible first | apply keeps_guardUp | apply keeps_wr | apply keeps_ite)

theorem keeps_execCanFrameReceived (n : Fin 16) (w0 : Word) (w1 : Word) (data : List Word) (ago : Nat) (s : State) : KeepsOut s (execCanFrameReceived n w0 w1 data ago s) := by
  unfold execCanFrameReceived
  repeat' (first | with_reducible assumption | with_reducible exact Keeps.refl _ | with_reducible refine KeepsOut.of_next ?_ | intro _ | with_reducible first | apply keeps_guardUp | apply keeps_canFrame)

theorem keeps_execTransmitEvent (n : Fin 16) (won : Bool) (s : State) : KeepsOut s (execTransmitEvent n won s) := by
  unfold execTransmitEvent
  repeat' (first | with_reducible assumption | with_reducible exact Keeps.refl _ | with_reducible refine KeepsOut.of_next ?_ | intro _ | with_reducible first | apply keeps_guardUp | apply keeps_canTx)

theorem keeps_execCanTransmitStart (n : Fin 16) (delay : Nat) (s : State) : KeepsOut s (execCanTransmitStart n delay s) := by
  unfold execCanTransmitStart
  repeat' (first | with_reducible assumption | with_reducible exact Keeps.refl _ | with_reducible refine KeepsOut.of_next ?_ | intro _ | with_reducible first | apply keeps_guardUp | apply keeps_canStart)

theorem keeps_execCanBusError (n : Fin 16) (tec : Fin 256) (rec_ : Fin 256) (s : State) : KeepsOut s (execCanBusError n tec rec_ s) := by
  unfold execCanBusError
  repeat' (first | with_reducible assumption | with_reducible exact Keeps.refl _ | with_reducible refine KeepsOut.of_next ?_ | intro _ | with_reducible first | apply keeps_guardUp | apply keeps_canBusError)

theorem keeps_execCanDetectDwell (n : Fin 16) (s : State) : KeepsOut s (execCanDetectDwell n s) := by
  unfold execCanDetectDwell
  repeat' (first | with_reducible assumption | with_reducible exact Keeps.refl _ | with_reducible refine KeepsOut.of_next ?_ | intro _ | with_reducible first | apply keeps_guardUp | apply keeps_canDwell)

theorem keeps_execErrorStateChange (n : Fin 16) (st : Fin 2) (tec : Fin 256) (rec_ : Fin 256) (s : State) : KeepsOut s (execErrorStateChange n st tec rec_ s) := by
  unfold execErrorStateChange
  repeat' (first | with_reducible assumption | with_reducible exact Keeps.refl _ | with_reducible refine KeepsOut.of_next ?_ | intro _ | with_reducible first | apply keeps_guardUp | apply keeps_canErrors)

theorem keeps_execBusOff (n : Fin 16) (s : State) : KeepsOut s (execBusOff n s) := by
  unfold execBusOff
  repeat' (first | with_reducible assumption | with_reducible exact Keeps.refl _ | with_reducible refine KeepsOut.of_next ?_ | intro _ | with_reducible first | apply keeps_guardUp | apply keeps_canBusOff)

theorem keeps_execBusOffRecoveryEnd (n : Fin 16) (s : State) : KeepsOut s (execBusOffRecoveryEnd n s) := by
  unfold execBusOffRecoveryEnd
  repeat' (first | with_reducible assumption | with_reducible exact Keeps.refl _ | with_reducible refine KeepsOut.of_next ?_ | intro _ | with_reducible first | apply keeps_guardUp | apply keeps_canRecovered)

theorem keeps_execCanMode (seq : Nat) (_env : Env) (s : State) : KeepsOut s (execCanMode seq _env s) := by
  unfold execCanMode
  repeat' (first | with_reducible assumption | with_reducible exact Keeps.refl _ | with_reducible refine KeepsOut.of_next ?_ | with_reducible first | apply keeps_runCmd | apply keeps_opCanMode)

theorem keeps_execCanTiming (seq : Nat) (_env : Env) (s : State) : KeepsOut s (execCanTiming seq _env s) := by
  unfold execCanTiming
  repeat' (first | with_reducible assumption | with_reducible exact Keeps.refl _ | with_reducible refine KeepsOut.of_next ?_ | with_reducible first | apply keeps_runCmd | apply keeps_opCanTiming)

theorem keeps_execCanDetect (seq : Nat) (_env : Env) (s : State) : KeepsOut s (execCanDetect seq _env s) := by
  unfold execCanDetect
  repeat' (first | with_reducible assumption | with_reducible exact Keeps.refl _ | with_reducible refine KeepsOut.of_next ?_ | with_reducible first | apply keeps_runCmd | apply keeps_opCanDetect)

theorem keeps_execCanFilter (seq : Nat) (_env : Env) (s : State) : KeepsOut s (execCanFilter seq _env s) := by
  unfold execCanFilter
  repeat' (first | with_reducible assumption | with_reducible exact Keeps.refl _ | with_reducible refine KeepsOut.of_next ?_ | with_reducible first | apply keeps_runCmd | apply keeps_opCanFilter)

theorem keeps_execCanPair (seq : Nat) (_env : Env) (s : State) : KeepsOut s (execCanPair seq _env s) := by
  unfold execCanPair
  repeat' (first | with_reducible assumption | with_reducible exact Keeps.refl _ | with_reducible refine KeepsOut.of_next ?_ | with_reducible first | apply keeps_runCmd | apply keeps_opCanPair)

theorem keeps_execCanRecover (seq : Nat) (_env : Env) (s : State) : KeepsOut s (execCanRecover seq _env s) := by
  unfold execCanRecover
  repeat' (first | with_reducible assumption | with_reducible exact Keeps.refl _ | with_reducible refine KeepsOut.of_next ?_ | with_reducible first | apply keeps_runCmd | apply keeps_opCanRecover)

theorem keeps_execCanStatus (seq : Nat) (_env : Env) (s : State) : KeepsOut s (execCanStatus seq _env s) := by
  unfold execCanStatus
  repeat' (first | with_reducible assumption | with_reducible exact Keeps.refl _ | with_reducible refine KeepsOut.of_next ?_ | with_reducible first | apply keeps_runCmd | apply keeps_opCanStatus)

theorem keeps_execMarshalMissedLap (s : State) : KeepsOut s (execMarshalMissedLap s) := by
  unfold execMarshalMissedLap
  repeat' (first | with_reducible assumption | with_reducible exact Keeps.refl _ | with_reducible refine KeepsOut.of_next ?_ | with_reducible first | apply keeps_mrshMiss | apply keeps_ite)

theorem keeps_execDesynchronise (s : State) : KeepsOut s (execDesynchronise s) := by
  unfold execDesynchronise
  repeat' (first | with_reducible assumption | with_reducible exact Keeps.refl _ | with_reducible refine KeepsOut.of_next ?_ | with_reducible first | apply keeps_desync | apply keeps_ite)

theorem keeps_execDesyncIdleEnd (s : State) : KeepsOut s (execDesyncIdleEnd s) := by
  unfold execDesyncIdleEnd
  repeat' (first | with_reducible assumption | with_reducible exact Keeps.refl _ | with_reducible refine KeepsOut.of_next ?_ | intro _ | with_reducible first | apply keeps_listenAgain | apply keeps_ite | split)

theorem keeps_execMrshConfig (seq : Nat) (s : State) : KeepsOut s (execMrshConfig seq s) := by
  unfold execMrshConfig
  repeat' (first | with_reducible assumption | with_reducible exact Keeps.refl _ | with_reducible refine KeepsOut.of_next ?_ | with_reducible first | apply keeps_runCmd | apply keeps_opMrshConfig)

theorem keeps_execMrshMode (seq : Nat) (s : State) : KeepsOut s (execMrshMode seq s) := by
  unfold execMrshMode
  repeat' (first | with_reducible assumption | with_reducible exact Keeps.refl _ | with_reducible refine KeepsOut.of_next ?_ | with_reducible first | apply keeps_runCmd | apply keeps_opMrshMode)

theorem keeps_execMrshStatus (seq : Nat) (s : State) : KeepsOut s (execMrshStatus seq s) := by
  unfold execMrshStatus
  repeat' (first | with_reducible assumption | with_reducible exact Keeps.refl _ | with_reducible refine KeepsOut.of_next ?_ | with_reducible first | apply keeps_runCmd | apply keeps_opMrshStatus)

theorem keeps_execMrshClear (seq : Nat) (s : State) : KeepsOut s (execMrshClear seq s) := by
  unfold execMrshClear
  repeat' (first | with_reducible assumption | with_reducible exact Keeps.refl _ | with_reducible refine KeepsOut.of_next ?_ | with_reducible first | apply keeps_runCmd | apply keeps_opMrshClear)

theorem keeps_execRingCtlCommit (id : Ident) (s : State) : KeepsOut s (execRingCtlCommit id s) := by
  unfold execRingCtlCommit
  repeat' (first | with_reducible assumption | with_reducible exact Keeps.refl _ | with_reducible refine KeepsOut.of_next ?_ | with_reducible first | apply keeps_guardBs | apply keeps_ringCommit)

theorem keeps_execRingCtlSplitcommit (id : Ident) (s : State) : KeepsOut s (execRingCtlSplitcommit id s) := by
  unfold execRingCtlSplitcommit
  repeat' (first | with_reducible assumption | with_reducible exact Keeps.refl _ | with_reducible refine KeepsOut.of_next ?_ | with_reducible first | apply keeps_guardBs | apply keeps_splitCommit)

theorem keeps_execRingCtlCntclr (id : Ident) (s : State) : KeepsOut s (execRingCtlCntclr id s) := by
  unfold execRingCtlCntclr
  repeat' (first | with_reducible assumption | with_reducible exact Keeps.refl _ | with_reducible refine KeepsOut.of_next ?_ | with_reducible first | apply keeps_guardBs | apply keeps_ringCntClr)

theorem keeps_execRingPubcommit (v : Word) (s : State) : KeepsOut s (execRingPubcommit v s) := by
  unfold execRingPubcommit
  repeat' (first | with_reducible assumption | with_reducible exact Keeps.refl _ | with_reducible refine KeepsOut.of_next ?_ | intro _ | with_reducible first | apply keeps_guardUp | apply keeps_pubCommit)

theorem keeps_execRingConfig (seq : Nat) (s : State) : KeepsOut s (execRingConfig seq s) := by
  unfold execRingConfig
  repeat' (first | with_reducible assumption | with_reducible exact Keeps.refl _ | with_reducible refine KeepsOut.of_next ?_ | with_reducible first | apply keeps_runCmd | apply keeps_opRingConfig)

theorem keeps_execRingSchedule (seq : Nat) (env : Env) (s : State) : KeepsOut s (execRingSchedule seq env s) := by
  unfold execRingSchedule
  repeat' (first | with_reducible assumption | with_reducible exact Keeps.refl _ | with_reducible refine KeepsOut.of_next ?_ | with_reducible first | apply keeps_runCmd | apply keeps_opRingSchedule)

theorem keeps_execRingCommit (seq : Nat) (s : State) : KeepsOut s (execRingCommit seq s) := by
  unfold execRingCommit
  repeat' (first | with_reducible assumption | with_reducible exact Keeps.refl _ | with_reducible refine KeepsOut.of_next ?_ | with_reducible first | apply keeps_runCmd | apply keeps_opRingCommit)

theorem keeps_execRingJoin (seq : Nat) (env : Env) (s : State) : KeepsOut s (execRingJoin seq env s) := by
  unfold execRingJoin
  repeat' (first | with_reducible assumption | with_reducible exact Keeps.refl _ | with_reducible refine KeepsOut.of_next ?_ | with_reducible first | apply keeps_runCmd | apply keeps_opRingJoin)

theorem keeps_execRingSplit (seq : Nat) (s : State) : KeepsOut s (execRingSplit seq s) := by
  unfold execRingSplit
  repeat' (first | with_reducible assumption | with_reducible exact Keeps.refl _ | with_reducible refine KeepsOut.of_next ?_ | with_reducible first | apply keeps_runCmd | apply keeps_opRingSplit)

theorem keeps_execRingCredits (seq : Nat) (s : State) : KeepsOut s (execRingCredits seq s) := by
  unfold execRingCredits
  repeat' (first | with_reducible assumption | with_reducible exact Keeps.refl _ | with_reducible refine KeepsOut.of_next ?_ | with_reducible first | apply keeps_runCmd | apply keeps_opRingCredits)

theorem keeps_execRingStatus (seq : Nat) (s : State) : KeepsOut s (execRingStatus seq s) := by
  unfold execRingStatus
  repeat' (first | with_reducible assumption | with_reducible exact Keeps.refl _ | with_reducible refine KeepsOut.of_next ?_ | with_reducible first | apply keeps_runCmd | apply keeps_opRingStatus)

theorem keeps_execScheduledWindow (d : Fin 2) (n : Fin 8) (subtick : Fin 32) (s : State) : KeepsOut s (execScheduledWindow d n subtick s) := by
  unfold execScheduledWindow
  repeat' (first | with_reducible assumption | with_reducible exact Keeps.refl _ | with_reducible refine KeepsOut.of_next ?_ | with_reducible first | apply keeps_window | apply keeps_ite)

theorem keeps_execOpenWindowInsertion (d : Fin 2) (subtick : Fin 32) (s : State) : KeepsOut s (execOpenWindowInsertion d subtick s) := by
  unfold execOpenWindowInsertion
  repeat' (first | with_reducible assumption | with_reducible exact Keeps.refl _ | with_reducible refine KeepsOut.of_next ?_ | with_reducible first | apply keeps_openInsert | apply keeps_ite)

theorem keeps_execTransitBufferRelease (d : Fin 2) (s : State) : KeepsOut s (execTransitBufferRelease d s) := by
  unfold execTransitBufferRelease
  repeat' (first | with_reducible assumption | with_reducible exact Keeps.refl _ | with_reducible refine KeepsOut.of_next ?_ | with_reducible first | apply keeps_releaseTransit | apply keeps_ite)

theorem keeps_execProcessFrame (p : Fin 2) (f : RFrame) (subtick : Fin 32) (s : State) : KeepsOut s (execProcessFrame p f subtick s) := by
  unfold execProcessFrame
  repeat' (first | with_reducible assumption | with_reducible exact Keeps.refl _ | with_reducible refine KeepsOut.of_next ?_ | intro _ | with_reducible first | apply keeps_arrive | apply keeps_process | apply keeps_watch | apply keeps_ite | split | extract_lets | (refine Keeps.of_snd (by assumption) ?_))

theorem keeps_execJoinRequest (p : Fin 2) (f : RFrame) (s : State) : KeepsOut s (execJoinRequest p f s) := by
  unfold execJoinRequest
  repeat' (first | with_reducible assumption | with_reducible exact Keeps.refl _ | with_reducible refine KeepsOut.of_next ?_ | intro _ | with_reducible first | apply keeps_arriveJoin | apply keeps_joinRequest | apply keeps_ite)

theorem keeps_execJoinGrant (p : Fin 2) (f : RFrame) (s : State) : KeepsOut s (execJoinGrant p f s) := by
  unfold execJoinGrant
  repeat' (first | with_reducible assumption | with_reducible exact Keeps.refl _ | with_reducible refine KeepsOut.of_next ?_ | intro _ | with_reducible first | apply keeps_arriveJoin | apply keeps_joinGranted | apply keeps_ite)

theorem keeps_execJoinRefuse (p : Fin 2) (f : RFrame) (s : State) : KeepsOut s (execJoinRefuse p f s) := by
  unfold execJoinRefuse
  repeat' (first | with_reducible assumption | with_reducible exact Keeps.refl _ | with_reducible refine KeepsOut.of_next ?_ | intro _ | with_reducible first | apply keeps_arriveJoin | apply keeps_joinFail | apply keeps_ite)

theorem keeps_execJoinBusy (p : Fin 2) (f : RFrame) (s : State) : KeepsOut s (execJoinBusy p f s) := by
  unfold execJoinBusy
  repeat' (first | with_reducible assumption | with_reducible exact Keeps.refl _ | with_reducible refine KeepsOut.of_next ?_ | intro _ | with_reducible first | apply keeps_arriveJoin | apply keeps_joinBusy | apply keeps_ite)

theorem keeps_execJoinNoAnswer (s : State) : KeepsOut s (execJoinNoAnswer s) := by
  unfold execJoinNoAnswer
  repeat' (first | with_reducible assumption | with_reducible exact Keeps.refl _ | with_reducible refine KeepsOut.of_next ?_ | with_reducible first | apply keeps_joinSilent | apply keeps_ite)

theorem keeps_execCloseNotice (p : Fin 2) (f : RFrame) (s : State) : KeepsOut s (execCloseNotice p f s) := by
  unfold execCloseNotice
  repeat' (first | with_reducible assumption | with_reducible exact Keeps.refl _ | with_reducible refine KeepsOut.of_next ?_ | intro _ | with_reducible first | apply keeps_arriveJoin | apply keeps_closeNotice | apply keeps_ite)

theorem keeps_execLeaveRequest (p : Fin 2) (f : RFrame) (s : State) : KeepsOut s (execLeaveRequest p f s) := by
  unfold execLeaveRequest
  repeat' (first | with_reducible assumption | with_reducible exact Keeps.refl _ | with_reducible refine KeepsOut.of_next ?_ | intro _ | with_reducible first | apply keeps_arriveJoin | apply keeps_sendJoin | apply keeps_leaveRequest | apply keeps_ite)

theorem keeps_execLeaveNotice (p : Fin 2) (f : RFrame) (s : State) : KeepsOut s (execLeaveNotice p f s) := by
  unfold execLeaveNotice
  repeat' (first | with_reducible assumption | with_reducible exact Keeps.refl _ | with_reducible refine KeepsOut.of_next ?_ | intro _ | with_reducible first | apply keeps_arriveJoin | apply keeps_leaveNotice | apply keeps_ite)

theorem keeps_execRingLeave (seq : Nat) (s : State) : KeepsOut s (execRingLeave seq s) := by
  unfold execRingLeave
  repeat' (first | with_reducible assumption | with_reducible exact Keeps.refl _ | with_reducible refine KeepsOut.of_next ?_ | with_reducible first | apply keeps_runCmd | apply keeps_opRingLeave)

theorem keeps_execBlockLock (p : Fin 2) (member : Bool) (s : State) : KeepsOut s (execBlockLock p member s) := by
  unfold execBlockLock
  repeat' (first | with_reducible assumption | with_reducible exact Keeps.refl _ | with_reducible refine KeepsOut.of_next ?_ | with_reducible first | apply keeps_blockLock | apply keeps_ite)

theorem keeps_execPortFailure (p : Fin 2) (remote : Bool) (s : State) : KeepsOut s (execPortFailure p remote s) := by
  unfold execPortFailure
  repeat' (first | with_reducible assumption | with_reducible exact Keeps.refl _ | with_reducible refine KeepsOut.of_next ?_ | with_reducible first | apply keeps_setHeal | apply keeps_portFail | apply keeps_ite)

theorem keeps_execWrap (p : Fin 2) (s : State) : KeepsOut s (execWrap p s) := by
  unfold execWrap
  repeat' (first | with_reducible assumption | with_reducible exact Keeps.refl _ | with_reducible refine KeepsOut.of_next ?_ | with_reducible first | apply keeps_wrapPort | apply keeps_ite)

theorem keeps_execWrapMarker (p : Fin 2) (wp : Fin 2) (station : Fin 4096) (s : State) : KeepsOut s (execWrapMarker p wp station s) := by
  unfold execWrapMarker
  repeat' (first | with_reducible assumption | with_reducible exact Keeps.refl _ | with_reducible refine KeepsOut.of_next ?_ | intro _ | with_reducible first | apply keeps_marker | apply keeps_holdMarker | apply keeps_wrapEnter | apply keeps_ite)

theorem keeps_execReplayMarker (p : Fin 2) (station : Fin 4096) (s : State) : KeepsOut s (execReplayMarker p station s) := by
  unfold execReplayMarker
  repeat' (first | with_reducible assumption | with_reducible exact Keeps.refl _ | with_reducible refine KeepsOut.of_next ?_ | intro _ | with_reducible first | apply keeps_marker | apply keeps_holdMarker | apply keeps_ite)

theorem keeps_execUnwrapNotice (p : Fin 2) (wp : Fin 2) (station : Fin 4096) (s : State) : KeepsOut s (execUnwrapNotice p wp station s) := by
  unfold execUnwrapNotice
  repeat' (first | with_reducible assumption | with_reducible exact Keeps.refl _ | with_reducible refine KeepsOut.of_next ?_ | intro _ | with_reducible first | apply keeps_marker | apply keeps_setHeal | apply keeps_healLast | apply keeps_ite)

theorem keeps_execPortReady (s : State) : KeepsOut s (execPortReady s) := by
  unfold execPortReady
  repeat' (first | with_reducible assumption | with_reducible exact Keeps.refl _ | with_reducible refine KeepsOut.of_next ?_ | with_reducible first | apply keeps_emit | apply keeps_setLapU | apply keeps_wr | apply keeps_ite)

theorem keeps_execUnwrapProposal (v : Fin 65536) (s : State) : KeepsOut s (execUnwrapProposal v s) := by
  unfold execUnwrapProposal
  repeat' (first | with_reducible assumption | with_reducible exact Keeps.refl _ | with_reducible refine KeepsOut.of_next ?_ | with_reducible first | apply keeps_emit | apply keeps_setLapU | apply keeps_wr | apply keeps_ite)

theorem keeps_execAccept (v : Fin 65536) (s : State) : KeepsOut s (execAccept v s) := by
  unfold execAccept
  repeat' (first | with_reducible assumption | with_reducible exact Keeps.refl _ | with_reducible refine KeepsOut.of_next ?_ | intro _ | with_reducible first | apply keeps_emit | apply keeps_wr | apply keeps_ite | split)

theorem keeps_execConfirm (v : Fin 65536) (s : State) : KeepsOut s (execConfirm v s) := by
  unfold execConfirm
  repeat' (first | with_reducible assumption | with_reducible exact Keeps.refl _ | with_reducible refine KeepsOut.of_next ?_ | intro _ | with_reducible first | apply keeps_wr | apply keeps_ite | split)

theorem keeps_execMarkerReplay (s : State) : KeepsOut s (execMarkerReplay s) := by
  unfold execMarkerReplay
  repeat' (first | with_reducible assumption | with_reducible exact Keeps.refl _ | with_reducible refine KeepsOut.of_next ?_ | intro _ | with_reducible first | apply keeps_markerReplay | apply keeps_popReplay | apply keeps_ite | split)

theorem keeps_execRequestReplay (s : State) : KeepsOut s (execRequestReplay s) := by
  unfold execRequestReplay
  repeat' (first | with_reducible assumption | with_reducible exact Keeps.refl _ | with_reducible refine KeepsOut.of_next ?_ | intro _ | with_reducible first | apply keeps_requestReplay | apply keeps_popReplay | apply keeps_ite | split)

theorem keeps_execReplayRequest (p : Fin 2) (f : RFrame) (s : State) : KeepsOut s (execReplayRequest p f s) := by
  unfold execReplayRequest
  repeat' (first | with_reducible assumption | with_reducible exact Keeps.refl _ | with_reducible refine KeepsOut.of_next ?_ | intro _ | with_reducible first | apply keeps_arrive | apply keeps_queueRequest | apply keeps_ite | split | extract_lets | (refine Keeps.of_snd (by assumption) ?_))

theorem keeps_execReplayStart (p : Fin 2) (f : RFrame) (s : State) : KeepsOut s (execReplayStart p f s) := by
  unfold execReplayStart
  repeat' (first | with_reducible assumption | with_reducible exact Keeps.refl _ | with_reducible refine KeepsOut.of_next ?_ | intro _ | with_reducible first | apply keeps_arrive | apply keeps_replayStart | apply keeps_ite | split | extract_lets | (refine Keeps.of_snd (by assumption) ?_))

theorem keeps_execReplayEnd (p : Fin 2) (f : RFrame) (s : State) : KeepsOut s (execReplayEnd p f s) := by
  unfold execReplayEnd
  repeat' (first | with_reducible assumption | with_reducible exact Keeps.refl _ | with_reducible refine KeepsOut.of_next ?_ | intro _ | with_reducible first | apply keeps_arrive | apply keeps_replayEnd | apply keeps_ite | split | extract_lets | (refine Keeps.of_snd (by assumption) ?_))

theorem keeps_execFenceNotice (p : Fin 2) (f : RFrame) (s : State) : KeepsOut s (execFenceNotice p f s) := by
  unfold execFenceNotice
  repeat' (first | with_reducible assumption | with_reducible exact Keeps.refl _ | with_reducible refine KeepsOut.of_next ?_ | intro _ | with_reducible first | apply keeps_arrive | apply keeps_healLast | apply keeps_event | apply keeps_ite | split | extract_lets | (refine Keeps.of_snd (by assumption) ?_))

theorem keeps_execHoldTimeout (ring : Fin 256) (station : Fin 4096) (s : State) : KeepsOut s (execHoldTimeout ring station s) := by
  unfold execHoldTimeout
  repeat' (first | with_reducible assumption | with_reducible exact Keeps.refl _ | with_reducible refine KeepsOut.of_next ?_ | with_reducible first | apply keeps_holdTimeout | apply keeps_ite)

theorem keeps_execRecoverTimeout (ring : Fin 256) (station : Fin 4096) (s : State) : KeepsOut s (execRecoverTimeout ring station s) := by
  unfold execRecoverTimeout
  repeat' (first | with_reducible assumption | with_reducible exact Keeps.refl _ | with_reducible refine KeepsOut.of_next ?_ | with_reducible first | apply keeps_recoverTimeout | apply keeps_ite)

theorem keeps_execRingHeal (seq : Nat) (s : State) : KeepsOut s (execRingHeal seq s) := by
  unfold execRingHeal
  repeat' (first | with_reducible assumption | with_reducible exact Keeps.refl _ | with_reducible refine KeepsOut.of_next ?_ | with_reducible first | apply keeps_runCmd | apply keeps_opRingHeal)

theorem keeps_execFabFenceclr (seq : Nat) (s : State) : KeepsOut s (execFabFenceclr seq s) := by
  unfold execFabFenceclr
  repeat' (first | with_reducible assumption | with_reducible exact Keeps.refl _ | with_reducible refine KeepsOut.of_next ?_ | with_reducible first | apply keeps_runCmd | apply keeps_opFabFenceclr)

theorem keeps_execDelayMarkerReceivedRequest (p : Fin 2) (n : Fin 64) (turn : Nat) (s : State) : KeepsOut s (execDelayMarkerReceivedRequest p n turn s) := by
  unfold execDelayMarkerReceivedRequest
  repeat' (first | with_reducible assumption | with_reducible exact Keeps.refl _ | with_reducible refine KeepsOut.of_next ?_ | with_reducible first | apply keeps_emit | apply keeps_ite)

theorem keeps_execDelayMarkerResponse (p : Fin 2) (n : Fin 64) (turn : Fin 65536) (subtick : Fin 32) (s : State) : KeepsOut s (execDelayMarkerResponse p n turn subtick s) := by
  unfold execDelayMarkerResponse
  repeat' (first | with_reducible assumption | with_reducible exact Keeps.refl _ | with_reducible refine KeepsOut.of_next ?_ | intro _ | with_reducible first | apply keeps_linkSample | apply keeps_setLink | apply keeps_ite | split)

theorem keeps_execLapFrame (p : Fin 2) (f : RFrame) (subtick : Fin 32) (res : Nat) (s : State) : KeepsOut s (execLapFrame p f subtick res s) := by
  unfold execLapFrame
  repeat' (first | with_reducible assumption | with_reducible exact Keeps.refl _ | with_reducible refine KeepsOut.of_next ?_ | with_reducible first | apply keeps_lapFrame | apply keeps_ite)

theorem keeps_execServoUpdate (s : State) : KeepsOut s (execServoUpdate s) := by
  unfold execServoUpdate
  repeat' (first | with_reducible assumption | with_reducible exact Keeps.refl _ | with_reducible refine KeepsOut.of_next ?_ | with_reducible first | apply keeps_servo | apply keeps_ite)

theorem keeps_execStartClaim (p : Fin 2) (f : RFrame) (s : State) : KeepsOut s (execStartClaim p f s) := by
  unfold execStartClaim
  repeat' (first | with_reducible assumption | with_reducible exact Keeps.refl _ | with_reducible refine KeepsOut.of_next ?_ | intro _ | with_reducible first | apply keeps_arrive | apply keeps_claimTaken | apply keeps_ite | split | extract_lets | (refine Keeps.of_snd (by assumption) ?_))

theorem keeps_execListenTime (s : State) : KeepsOut s (execListenTime s) := by
  unfold execListenTime
  repeat' (first | with_reducible assumption | with_reducible exact Keeps.refl _ | with_reducible refine KeepsOut.of_next ?_ | intro _ | with_reducible first | apply keeps_sendClaim | apply keeps_ite | split)

theorem keeps_execSettleTime (s : State) : KeepsOut s (execSettleTime s) := by
  unfold execSettleTime
  repeat' (first | with_reducible assumption | with_reducible exact Keeps.refl _ | with_reducible refine KeepsOut.of_next ?_ | intro _ | with_reducible first | apply keeps_settle | apply keeps_ite | split)

theorem keeps_execEightMissedLaps (s : State) : KeepsOut s (execEightMissedLaps s) := by
  unfold execEightMissedLaps
  repeat' (first | with_reducible assumption | with_reducible exact Keeps.refl _ | with_reducible refine KeepsOut.of_next ?_ | with_reducible first | apply keeps_eightMissed | apply keeps_ite)

theorem keeps_execTakeover (dep0 : Nat) (dep1 : Nat) (s : State) : KeepsOut s (execTakeover dep0 dep1 s) := by
  unfold execTakeover
  repeat' (first | with_reducible assumption | with_reducible exact Keeps.refl _ | with_reducible refine KeepsOut.of_next ?_ | with_reducible first | apply keeps_takeover | apply keeps_ite)

theorem keeps_execForerunnerReferenceFrame (f : RFrame) (subtick : Fin 32) (s : State) : KeepsOut s (execForerunnerReferenceFrame f subtick s) := by
  unfold execForerunnerReferenceFrame
  repeat' (first | with_reducible assumption | with_reducible exact Keeps.refl _ | with_reducible refine KeepsOut.of_next ?_ | with_reducible first | apply keeps_inc | apply keeps_setRing | apply keeps_forerunner | apply keeps_ite)

theorem keeps_execTimeSnapctlCap (s : State) : KeepsOut s (execTimeSnapctlCap s) := by
  unfold execTimeSnapctlCap
  repeat' (first | with_reducible assumption | with_reducible exact Keeps.refl _ | with_reducible refine KeepsOut.of_next ?_ | with_reducible first | apply keeps_guardUp | apply keeps_snapshot)

theorem keeps_execTimeSnapctlCntclr (s : State) : KeepsOut s (execTimeSnapctlCntclr s) := by
  unfold execTimeSnapctlCntclr
  repeat' (first | with_reducible assumption | with_reducible exact Keeps.refl _ | with_reducible refine KeepsOut.of_next ?_ | with_reducible first | apply keeps_guardUp | apply keeps_timeCntClr)

theorem keeps_execTimeTrigCommit (n : Fin 8) (s : State) : KeepsOut s (execTimeTrigCommit n s) := by
  unfold execTimeTrigCommit
  repeat' (first | with_reducible assumption | with_reducible exact Keeps.refl _ | with_reducible refine KeepsOut.of_next ?_ | intro _ | with_reducible first | apply keeps_guardUp | apply keeps_trigCommit)

theorem keeps_execTimeCaptAuxRead (n : Fin 8) (s : State) : KeepsOut s (execTimeCaptAuxRead n s) := by
  unfold execTimeCaptAuxRead
  repeat' (first | with_reducible assumption | with_reducible exact Keeps.refl _ | with_reducible refine KeepsOut.of_next ?_ | intro _ | with_reducible first | apply keeps_guardUp | apply keeps_popCapture)

theorem keeps_execTimeTsqAuxRead (q : Fin 6) (s : State) : KeepsOut s (execTimeTsqAuxRead q s) := by
  unfold execTimeTsqAuxRead
  repeat' (first | with_reducible assumption | with_reducible exact Keeps.refl _ | with_reducible refine KeepsOut.of_next ?_ | intro _ | with_reducible first | apply keeps_guardUp | apply keeps_popStamp)

theorem keeps_execPtpMessage (m : Fin 4) (src : Nat) (offset : Option Word) (s : State) : KeepsOut s (execPtpMessage m src offset s) := by
  unfold execPtpMessage
  repeat' (first | with_reducible assumption | with_reducible exact Keeps.refl _ | with_reducible refine KeepsOut.of_next ?_ | with_reducible first | apply keeps_ptpMessage | apply keeps_ite)

theorem keeps_execTimeStarter (seq : Nat) (s : State) : KeepsOut s (execTimeStarter seq s) := by
  unfold execTimeStarter
  repeat' (first | with_reducible assumption | with_reducible exact Keeps.refl _ | with_reducible refine KeepsOut.of_next ?_ | with_reducible first | apply keeps_runCmd | apply keeps_opTimeStarter)

theorem keeps_execTimeSet (seq : Nat) (s : State) : KeepsOut s (execTimeSet seq s) := by
  unfold execTimeSet
  repeat' (first | with_reducible assumption | with_reducible exact Keeps.refl _ | with_reducible refine KeepsOut.of_next ?_ | with_reducible first | apply keeps_runCmd | apply keeps_opTimeSet)

theorem keeps_execTimeAsym (seq : Nat) (s : State) : KeepsOut s (execTimeAsym seq s) := by
  unfold execTimeAsym
  repeat' (first | with_reducible assumption | with_reducible exact Keeps.refl _ | with_reducible refine KeepsOut.of_next ?_ | with_reducible first | apply keeps_runCmd | apply keeps_opTimeAsym)

theorem keeps_execTimeTrig (seq : Nat) (s : State) : KeepsOut s (execTimeTrig seq s) := by
  unfold execTimeTrig
  repeat' (first | with_reducible assumption | with_reducible exact Keeps.refl _ | with_reducible refine KeepsOut.of_next ?_ | with_reducible first | apply keeps_runCmd | apply keeps_opTimeTrig)

theorem keeps_execTimeCapt (seq : Nat) (s : State) : KeepsOut s (execTimeCapt seq s) := by
  unfold execTimeCapt
  repeat' (first | with_reducible assumption | with_reducible exact Keeps.refl _ | with_reducible refine KeepsOut.of_next ?_ | with_reducible first | apply keeps_runCmd | apply keeps_opTimeCapt)

theorem keeps_execTimeUtc (seq : Nat) (s : State) : KeepsOut s (execTimeUtc seq s) := by
  unfold execTimeUtc
  repeat' (first | with_reducible assumption | with_reducible exact Keeps.refl _ | with_reducible refine KeepsOut.of_next ?_ | with_reducible first | apply keeps_runCmd | apply keeps_opTimeUtc)

theorem keeps_execTimePtp (seq : Nat) (s : State) : KeepsOut s (execTimePtp seq s) := by
  unfold execTimePtp
  repeat' (first | with_reducible assumption | with_reducible exact Keeps.refl _ | with_reducible refine KeepsOut.of_next ?_ | with_reducible first | apply keeps_runCmd | apply keeps_opTimePtp)

theorem keeps_execTimeStatus (seq : Nat) (s : State) : KeepsOut s (execTimeStatus seq s) := by
  unfold execTimeStatus
  repeat' (first | with_reducible assumption | with_reducible exact Keeps.refl _ | with_reducible refine KeepsOut.of_next ?_ | with_reducible first | apply keeps_runCmd | apply keeps_opTimeStatus)

theorem keeps_execMrshCtlCommit (id : Ident) (s : State) : KeepsOut s (execMrshCtlCommit id s) := by
  unfold execMrshCtlCommit
  repeat' (first | with_reducible assumption | with_reducible exact Keeps.refl _ | with_reducible refine KeepsOut.of_next ?_ | with_reducible first | apply keeps_guardBs | apply keeps_mrshCommit)

theorem keeps_execMrshCtlRejoin (id : Ident) (s : State) : KeepsOut s (execMrshCtlRejoin id s) := by
  unfold execMrshCtlRejoin
  repeat' (first | with_reducible assumption | with_reducible exact Keeps.refl _ | with_reducible refine KeepsOut.of_next ?_ | with_reducible first | apply keeps_guardBs | apply keeps_leaveOut)

theorem keeps_execMrshWlogRead (s : State) : KeepsOut s (execMrshWlogRead s) := by
  unfold execMrshWlogRead
  repeat' (first | with_reducible assumption | with_reducible exact Keeps.refl _ | with_reducible refine KeepsOut.of_next ?_ | with_reducible first | apply keeps_guardUp | apply keeps_popWlog)

theorem keeps_execStoreRead (seq : Nat) (env : Env) (s : State) : KeepsOut s (execStoreRead seq env s) := by
  unfold execStoreRead
  repeat' (first | with_reducible assumption | with_reducible exact Keeps.refl _ | with_reducible refine KeepsOut.of_next ?_ | with_reducible first | apply keeps_runCmd | apply keeps_opStoreRead)

theorem keeps_execStoreWrite (seq : Nat) (env : Env) (s : State) : KeepsOut s (execStoreWrite seq env s) := by
  unfold execStoreWrite
  repeat' (first | with_reducible assumption | with_reducible exact Keeps.refl _ | with_reducible refine KeepsOut.of_next ?_ | with_reducible first | apply keeps_runCmd | apply keeps_opStoreWrite)

theorem keeps_execStoreList (seq : Nat) (env : Env) (s : State) : KeepsOut s (execStoreList seq env s) := by
  unfold execStoreList
  repeat' (first | with_reducible assumption | with_reducible exact Keeps.refl _ | with_reducible refine KeepsOut.of_next ?_ | with_reducible first | apply keeps_runCmd | apply keeps_opStoreList)

theorem keeps_execStoreErase (seq : Nat) (env : Env) (s : State) : KeepsOut s (execStoreErase seq env s) := by
  unfold execStoreErase
  repeat' (first | with_reducible assumption | with_reducible exact Keeps.refl _ | with_reducible refine KeepsOut.of_next ?_ | with_reducible first | apply keeps_runCmd | apply keeps_opStoreErase)

theorem keeps_execStoreStatus (seq : Nat) (env : Env) (s : State) : KeepsOut s (execStoreStatus seq env s) := by
  unfold execStoreStatus
  repeat' (first | with_reducible assumption | with_reducible exact Keeps.refl _ | with_reducible refine KeepsOut.of_next ?_ | with_reducible first | apply keeps_runCmd | apply keeps_opStoreStatus)

theorem keeps_execStoreFactory (seq : Nat) (env : Env) (s : State) : KeepsOut s (execStoreFactory seq env s) := by
  unfold execStoreFactory
  repeat' (first | with_reducible assumption | with_reducible exact Keeps.refl _ | with_reducible refine KeepsOut.of_next ?_ | with_reducible first | apply keeps_runCmd | apply keeps_opStoreFactory)

theorem keeps_execSlotConsumption (env : Env) (s : State) : KeepsOut s (execSlotConsumption env s) := by
  unfold execSlotConsumption
  repeat' (first | with_reducible assumption | with_reducible exact Keeps.refl _ | with_reducible refine KeepsOut.of_next ?_ | with_reducible first | apply keeps_consume | apply keeps_ite)

theorem keeps_execCommandStart (seq : Nat) (env : Env) (s : State) : KeepsOut s (execCommandStart seq env s) := by
  unfold execCommandStart
  repeat' (first | with_reducible assumption | with_reducible exact Keeps.refl _ | with_reducible refine KeepsOut.of_next ?_ | split | intro _ | with_reducible first | apply keeps_startCmd)

theorem keeps_execCommandEnd (seq : Nat) (env : Env) (s : State) : KeepsOut s (execCommandEnd seq env s) := by
  unfold execCommandEnd
  repeat' (first | with_reducible assumption | with_reducible exact Keeps.refl _ | with_reducible refine KeepsOut.of_next ?_ | split | intro _ | with_reducible first | apply keeps_endCmd)

theorem keeps_execCompletionInterrupt (q : Fin 8) (s : State) : KeepsOut s (execCompletionInterrupt q s) := by
  unfold execCompletionInterrupt
  repeat' (first | with_reducible assumption | with_reducible exact Keeps.refl _ | with_reducible refine KeepsOut.of_next ?_ | with_reducible first | apply keeps_signalQueue | apply keeps_setQueue | apply keeps_ite)

theorem keeps_execCommandWatchdog (seq : Nat) (s : State) : KeepsOut s (execCommandWatchdog seq s) := by
  unfold execCommandWatchdog
  repeat' (first | with_reducible assumption | with_reducible exact Keeps.refl _ | with_reducible refine KeepsOut.of_next ?_ | split | intro _ | with_reducible first | apply keeps_fin)

theorem keeps_execCoreHeartbeat (s : State) : KeepsOut s (execCoreHeartbeat s) := by
  unfold execCoreHeartbeat
  repeat' (first | with_reducible assumption | with_reducible exact Keeps.refl _ | with_reducible refine KeepsOut.of_next ?_ | apply keeps_ite | apply keeps_mk)

theorem keeps_execEpochRecordRetry (env : Env) (s : State) : KeepsOut s (execEpochRecordRetry env s) := by
  unfold execEpochRecordRetry
  repeat' (first | with_reducible assumption | with_reducible exact Keeps.refl _ | with_reducible refine KeepsOut.of_next ?_ | intro _ | with_reducible first | apply keeps_each | apply keeps_newEpoch | apply keeps_ite | split)

theorem keeps_execCmdQctlReset (id : Ident) (q : Fin 8) (env : Env) (s : State) : KeepsOut s (execCmdQctlReset id q env s) := by
  unfold execCmdQctlReset
  repeat' (first | with_reducible assumption | with_reducible exact Keeps.refl _ | with_reducible refine KeepsOut.of_next ?_ | intro _ | with_reducible first | apply keeps_guardBs | apply keeps_queueReset)

theorem keeps_execCmdQctlCommit (id : Ident) (q : Fin 8) (s : State) : KeepsOut s (execCmdQctlCommit id q s) := by
  unfold execCmdQctlCommit
  repeat' (first | with_reducible assumption | with_reducible exact Keeps.refl _ | with_reducible refine KeepsOut.of_next ?_ | intro _ | with_reducible first | apply keeps_guardBs | apply keeps_queueCommit)

theorem keeps_execCmdQctlEnable (id : Ident) (q : Fin 8) (env : Env) (s : State) : KeepsOut s (execCmdQctlEnable id q env s) := by
  unfold execCmdQctlEnable
  repeat' (first | with_reducible assumption | with_reducible exact Keeps.refl _ | with_reducible refine KeepsOut.of_next ?_ | intro _ | with_reducible first | apply keeps_guardBs | apply keeps_queueEnable)

theorem keeps_execCmdQctlDisable (id : Ident) (q : Fin 8) (s : State) : KeepsOut s (execCmdQctlDisable id q s) := by
  unfold execCmdQctlDisable
  repeat' (first | with_reducible assumption | with_reducible exact Keeps.refl _ | with_reducible refine KeepsOut.of_next ?_ | intro _ | with_reducible first | apply keeps_guardBs | apply keeps_queueDisable)

theorem keeps_execDoorbellProcessing (c : Fin 16) (s : State) : KeepsOut s (execDoorbellProcessing c s) := by
  unfold execDoorbellProcessing
  repeat' (first | with_reducible assumption | with_reducible exact Keeps.refl _ | with_reducible refine KeepsOut.of_next ?_ | with_reducible first | apply keeps_bell | apply keeps_ackChannel | apply keeps_ite)

theorem keeps_execCallDoorbellWrite (id : Ident) (c : Fin 64) (v : Word) (s : State) : KeepsOut s (execCallDoorbellWrite id c v s) := by
  unfold execCallDoorbellWrite
  repeat' (first | with_reducible assumption | with_reducible exact Keeps.refl _ | with_reducible refine KeepsOut.of_next ?_ | with_reducible first | apply keeps_writeDoorbell | apply keeps_ite)

theorem keeps_execCallMessageWrite (id : Ident) (c : Fin 64) (w : Fin 16) (v : Word) (s : State) : KeepsOut s (execCallMessageWrite id c w v s) := by
  unfold execCallMessageWrite
  repeat' (first | with_reducible assumption | with_reducible exact Keeps.refl _ | with_reducible refine KeepsOut.of_next ?_ | with_reducible first | apply keeps_writeMessage | apply keeps_ite)

theorem keeps_execCallAckWrite (id : Ident) (c : Fin 64) (v : Word) (s : State) : KeepsOut s (execCallAckWrite id c v s) := by
  unfold execCallAckWrite
  repeat' (first | with_reducible assumption | with_reducible exact Keeps.refl _ | with_reducible refine KeepsOut.of_next ?_ | with_reducible first | apply keeps_writeAck | apply keeps_ite)

theorem keeps_execCallEvclr (id : Ident) (c : Fin 64) (s : State) : KeepsOut s (execCallEvclr id c s) := by
  unfold execCallEvclr
  repeat' (first | with_reducible assumption | with_reducible exact Keeps.refl _ | with_reducible refine KeepsOut.of_next ?_ | with_reducible first | apply keeps_writeAck | apply keeps_ite)

theorem keeps_execCallBindWrite (id : Ident) (c : Fin 64) (v : Word) (s : State) : KeepsOut s (execCallBindWrite id c v s) := by
  unfold execCallBindWrite
  repeat' (first | with_reducible assumption | with_reducible exact Keeps.refl _ | with_reducible refine KeepsOut.of_next ?_ | intro _ | with_reducible first | apply keeps_guardBs | apply keeps_writeBind)

theorem keeps_execCallLock (id : Ident) (s : State) : KeepsOut s (execCallLock id s) := by
  unfold execCallLock
  repeat' (first | with_reducible assumption | with_reducible exact Keeps.refl _ | with_reducible refine KeepsOut.of_next ?_ | intro _ | with_reducible first | apply keeps_guardBs | apply keeps_wr)

theorem keeps_execCallErrInfoClear (_id : Ident) (s : State) : KeepsOut s (execCallErrInfoClear _id s) := by
  unfold execCallErrInfoClear
  repeat' (first | with_reducible assumption | with_reducible exact Keeps.refl _ | with_reducible refine KeepsOut.of_next ?_ | with_reducible first | apply keeps_clearCallErr | apply keeps_ite)

theorem keeps_execCallCntEvdropClear (_id : Ident) (s : State) : KeepsOut s (execCallCntEvdropClear _id s) := by
  unfold execCallCntEvdropClear
  repeat' (first | with_reducible assumption | with_reducible exact Keeps.refl _ | with_reducible refine KeepsOut.of_next ?_ | with_reducible first | apply keeps_wr | apply keeps_ite)

theorem keeps_execBankWake (k : Fin 64) (s : State) : KeepsOut s (execBankWake k s) := by
  unfold execBankWake
  repeat' (first | with_reducible assumption | with_reducible exact Keeps.refl _ | with_reducible refine KeepsOut.of_next ?_ | with_reducible first | apply keeps_bankWake | apply keeps_ite)

theorem keeps_execCorrectableWriteBack (s : State) : KeepsOut s (execCorrectableWriteBack s) := by
  unfold execCorrectableWriteBack
  repeat' (first | with_reducible assumption | with_reducible exact Keeps.refl _ | with_reducible refine KeepsOut.of_next ?_ | intro _ | with_reducible first | apply keeps_inc | apply keeps_freshCode | apply keeps_ite | split | (dsimp -zeta only) | apply keeps_mk)

theorem keeps_execRemap (s : State) : KeepsOut s (execRemap s) := by
  unfold execRemap
  repeat' (first | with_reducible assumption | with_reducible exact Keeps.refl _ | with_reducible refine KeepsOut.of_next ?_ | intro _ | with_reducible first | apply keeps_event | apply keeps_remapWord | apply keeps_ite | split | (dsimp -zeta only) | apply keeps_mk)

theorem keeps_execRemapTableRecord (env : Env) (s : State) : KeepsOut s (execRemapTableRecord env s) := by
  unfold execRemapTableRecord
  repeat' (first | with_reducible assumption | with_reducible exact Keeps.refl _ | with_reducible refine KeepsOut.of_next ?_ | intro _ | with_reducible first | apply keeps_storeDevice | apply keeps_bookInternal | apply keeps_ite | split | extract_lets | (refine Keeps.of_snd (by assumption) ?_) | (dsimp -zeta only) | (dsimp -zeta +zetaDelta only) | apply keeps_mk)

theorem keeps_execScrubStep (r : Fin 4) (s : State) : KeepsOut s (execScrubStep r s) := by
  unfold execScrubStep
  repeat' (first | with_reducible assumption | with_reducible exact Keeps.refl _ | with_reducible refine KeepsOut.of_next ?_ | with_reducible first | apply keeps_scrubStep | apply keeps_ite)

theorem keeps_execMemCtlCntclr (id : Ident) (s : State) : KeepsOut s (execMemCtlCntclr id s) := by
  unfold execMemCtlCntclr
  repeat' (first | with_reducible assumption | with_reducible exact Keeps.refl _ | with_reducible refine KeepsOut.of_next ?_ | with_reducible first | apply keeps_guardBs | apply keeps_memCntClr)

theorem keeps_execMemCtlLogclr (id : Ident) (s : State) : KeepsOut s (execMemCtlLogclr id s) := by
  unfold execMemCtlLogclr
  repeat' (first | with_reducible assumption | with_reducible exact Keeps.refl _ | with_reducible refine KeepsOut.of_next ?_ | with_reducible first | apply keeps_guardBs | apply keeps_memLogClr)

theorem keeps_execMemPower (seq : Nat) (_env : Env) (s : State) : KeepsOut s (execMemPower seq _env s) := by
  unfold execMemPower
  repeat' (first | with_reducible assumption | with_reducible exact Keeps.refl _ | with_reducible refine KeepsOut.of_next ?_ | with_reducible first | apply keeps_runCmd | apply keeps_opMemPower)

theorem keeps_execMemScrub (seq : Nat) (_env : Env) (s : State) : KeepsOut s (execMemScrub seq _env s) := by
  unfold execMemScrub
  repeat' (first | with_reducible assumption | with_reducible exact Keeps.refl _ | with_reducible refine KeepsOut.of_next ?_ | with_reducible first | apply keeps_runCmd | apply keeps_opMemScrub)

theorem keeps_execMemRemap (seq : Nat) (_env : Env) (s : State) : KeepsOut s (execMemRemap seq _env s) := by
  unfold execMemRemap
  repeat' (first | with_reducible assumption | with_reducible exact Keeps.refl _ | with_reducible refine KeepsOut.of_next ?_ | with_reducible first | apply keeps_runCmd | apply keeps_opMemRemap)

theorem keeps_execMemCopy (seq : Nat) (env : Env) (s : State) : KeepsOut s (execMemCopy seq env s) := by
  unfold execMemCopy
  repeat' (first | with_reducible assumption | with_reducible exact Keeps.refl _ | with_reducible refine KeepsOut.of_next ?_ | with_reducible first | apply keeps_runCmd | apply keeps_opMemCopy)

theorem keeps_execMemStatus (seq : Nat) (_env : Env) (s : State) : KeepsOut s (execMemStatus seq _env s) := by
  unfold execMemStatus
  repeat' (first | with_reducible assumption | with_reducible exact Keeps.refl _ | with_reducible refine KeepsOut.of_next ?_ | with_reducible first | apply keeps_runCmd | apply keeps_opMemStatus)

theorem keeps_execSysNop (seq : Nat) (_env : Env) (s : State) : KeepsOut s (execSysNop seq _env s) := by
  unfold execSysNop
  repeat' (first | with_reducible assumption | with_reducible exact Keeps.refl _ | with_reducible refine KeepsOut.of_next ?_ | with_reducible first | apply keeps_runCmd | apply keeps_opSysNop)

theorem keeps_execSysIdent (seq : Nat) (_env : Env) (s : State) : KeepsOut s (execSysIdent seq _env s) := by
  unfold execSysIdent
  repeat' (first | with_reducible assumption | with_reducible exact Keeps.refl _ | with_reducible refine KeepsOut.of_next ?_ | with_reducible first | apply keeps_runCmd | apply keeps_opSysIdent)

end Sys2Proof.Machine
end

