-- ==== Sys2Proof/Laws/KeepsExecStage.lean ====
section
/-! SUPPORT. What every operation keeps: the raw counter, the queue of commands, and the canonical forms of registers and memory; here for
the commands of the network, motion, the stage and the fabric. -/
namespace Sys2Proof.Machine
open Sys2Proof

theorem keeps_execSysReset (seq : Nat) (_env : Env) (s : State) : KeepsOut s (execSysReset seq _env s) := by
  unfold execSysReset
  repeat' (first | with_reducible assumption | with_reducible exact Keeps.refl _ | with_reducible refine KeepsOut.of_next ?_ | with_reducible first | apply keeps_runCmd | apply keeps_opSysReset)

theorem keeps_execSysStatus (seq : Nat) (_env : Env) (s : State) : KeepsOut s (execSysStatus seq _env s) := by
  unfold execSysStatus
  repeat' (first | with_reducible assumption | with_reducible exact Keeps.refl _ | with_reducible refine KeepsOut.of_next ?_ | with_reducible first | apply keeps_runCmd | apply keeps_opSysStatus)

theorem keeps_execSysFwload (seq : Nat) (env : Env) (s : State) : KeepsOut s (execSysFwload seq env s) := by
  unfold execSysFwload
  repeat' (first | with_reducible assumption | with_reducible exact Keeps.refl _ | with_reducible refine KeepsOut.of_next ?_ | with_reducible first | apply keeps_runCmd | apply keeps_opSysFwload)

theorem keeps_execSysFwselect (seq : Nat) (_env : Env) (s : State) : KeepsOut s (execSysFwselect seq _env s) := by
  unfold execSysFwselect
  repeat' (first | with_reducible assumption | with_reducible exact Keeps.refl _ | with_reducible refine KeepsOut.of_next ?_ | with_reducible first | apply keeps_runCmd | apply keeps_opSysFwselect)

theorem keeps_execBookHead (seq : Nat) (_env : Env) (s : State) : KeepsOut s (execBookHead seq _env s) := by
  unfold execBookHead
  repeat' (first | with_reducible assumption | with_reducible exact Keeps.refl _ | with_reducible refine KeepsOut.of_next ?_ | with_reducible first | apply keeps_runCmd | apply keeps_opBookHead)

theorem keeps_execBookRead (seq : Nat) (_env : Env) (s : State) : KeepsOut s (execBookRead seq _env s) := by
  unfold execBookRead
  repeat' (first | with_reducible assumption | with_reducible exact Keeps.refl _ | with_reducible refine KeepsOut.of_next ?_ | with_reducible first | apply keeps_runCmd | apply keeps_opBookRead)

theorem keeps_execBookFind (seq : Nat) (_env : Env) (s : State) : KeepsOut s (execBookFind seq _env s) := by
  unfold execBookFind
  repeat' (first | with_reducible assumption | with_reducible exact Keeps.refl _ | with_reducible refine KeepsOut.of_next ?_ | with_reducible first | apply keeps_runCmd | apply keeps_opBookFind)

theorem keeps_execBookMark (seq : Nat) (_env : Env) (s : State) : KeepsOut s (execBookMark seq _env s) := by
  unfold execBookMark
  repeat' (first | with_reducible assumption | with_reducible exact Keeps.refl _ | with_reducible refine KeepsOut.of_next ?_ | with_reducible first | apply keeps_runCmd | apply keeps_opBookMark)

theorem keeps_execHostConfig (seq : Nat) (_env : Env) (s : State) : KeepsOut s (execHostConfig seq _env s) := by
  unfold execHostConfig
  repeat' (first | with_reducible assumption | with_reducible exact Keeps.refl _ | with_reducible refine KeepsOut.of_next ?_ | with_reducible first | apply keeps_runCmd | apply keeps_opHostConfig)

theorem keeps_execHostUnfence (seq : Nat) (_env : Env) (s : State) : KeepsOut s (execHostUnfence seq _env s) := by
  unfold execHostUnfence
  repeat' (first | with_reducible assumption | with_reducible exact Keeps.refl _ | with_reducible refine KeepsOut.of_next ?_ | with_reducible first | apply keeps_runCmd | apply keeps_opHostUnfence)

theorem keeps_execHostStatus (seq : Nat) (_env : Env) (s : State) : KeepsOut s (execHostStatus seq _env s) := by
  unfold execHostStatus
  repeat' (first | with_reducible assumption | with_reducible exact Keeps.refl _ | with_reducible refine KeepsOut.of_next ?_ | with_reducible first | apply keeps_runCmd | apply keeps_opHostStatus)

theorem keeps_execSafeTable (seq : Nat) (_env : Env) (s : State) : KeepsOut s (execSafeTable seq _env s) := by
  unfold execSafeTable
  repeat' (first | with_reducible assumption | with_reducible exact Keeps.refl _ | with_reducible refine KeepsOut.of_next ?_ | with_reducible first | apply keeps_runCmd | apply keeps_opSafeTable)

theorem keeps_execSafeRelease (seq : Nat) (_env : Env) (s : State) : KeepsOut s (execSafeRelease seq _env s) := by
  unfold execSafeRelease
  repeat' (first | with_reducible assumption | with_reducible exact Keeps.refl _ | with_reducible refine KeepsOut.of_next ?_ | with_reducible first | apply keeps_runCmd | apply keeps_opSafeRelease)

theorem keeps_execSafeStatus (seq : Nat) (_env : Env) (s : State) : KeepsOut s (execSafeStatus seq _env s) := by
  unfold execSafeStatus
  repeat' (first | with_reducible assumption | with_reducible exact Keeps.refl _ | with_reducible refine KeepsOut.of_next ?_ | with_reducible first | apply keeps_runCmd | apply keeps_opSafeStatus)

theorem keeps_execSafeTrip (_id : Ident) (s : State) : KeepsOut s (execSafeTrip _id s) := by
  unfold execSafeTrip
  repeat' (first | with_reducible assumption | with_reducible exact Keeps.refl _ | with_reducible refine KeepsOut.of_next ?_ | with_reducible first | apply keeps_trip | apply keeps_ite)

theorem keeps_execSafeCtlCommit (id : Ident) (s : State) : KeepsOut s (execSafeCtlCommit id s) := by
  unfold execSafeCtlCommit
  repeat' (first | with_reducible assumption | with_reducible exact Keeps.refl _ | with_reducible refine KeepsOut.of_next ?_ | with_reducible first | apply keeps_guardBs | apply keeps_safeCommit)

theorem keeps_execSafeLockTable (id : Ident) (s : State) : KeepsOut s (execSafeLockTable id s) := by
  unfold execSafeLockTable
  repeat' (first | with_reducible assumption | with_reducible exact Keeps.refl _ | with_reducible refine KeepsOut.of_next ?_ | intro _ | with_reducible first | apply keeps_guardBs | apply keeps_wr)

theorem keeps_execSafeLockInj (id : Ident) (s : State) : KeepsOut s (execSafeLockInj id s) := by
  unfold execSafeLockInj
  repeat' (first | with_reducible assumption | with_reducible exact Keeps.refl _ | with_reducible refine KeepsOut.of_next ?_ | intro _ | with_reducible first | apply keeps_guardBs | apply keeps_wr)

theorem keeps_execSafeLockDbg (id : Ident) (s : State) : KeepsOut s (execSafeLockDbg id s) := by
  unfold execSafeLockDbg
  repeat' (first | with_reducible assumption | with_reducible exact Keeps.refl _ | with_reducible refine KeepsOut.of_next ?_ | with_reducible first | apply keeps_guardBs | apply keeps_lockDbg)

theorem keeps_execEthernetFrameReceived (m : Fin 4) (fcs : Bool) (bs : List Byte) (s : State) : KeepsOut s (execEthernetFrameReceived m fcs bs s) := by
  unfold execEthernetFrameReceived
  repeat' (first | with_reducible assumption | with_reducible exact Keeps.refl _ | with_reducible refine KeepsOut.of_next ?_ | intro _ | with_reducible first | apply keeps_guardUp | apply keeps_ethIn)

theorem keeps_execTierLinkFrame (m : Fin 4) (fcs : Bool) (bs : List Byte) (s : State) : KeepsOut s (execTierLinkFrame m fcs bs s) := by
  unfold execTierLinkFrame
  repeat' (first | with_reducible assumption | with_reducible exact Keeps.refl _ | with_reducible refine KeepsOut.of_next ?_ | intro _ | with_reducible first | apply keeps_guardUp | apply keeps_tierIn)

theorem keeps_execPauseFrame (m : Fin 4) (fcs : Bool) (quanta : Fin 65536) (s : State) : KeepsOut s (execPauseFrame m fcs quanta s) := by
  unfold execPauseFrame
  repeat' (first | with_reducible assumption | with_reducible exact Keeps.refl _ | with_reducible refine KeepsOut.of_next ?_ | intro _ | with_reducible first | apply keeps_guardUp | apply keeps_pauseIn)

theorem keeps_execPauseEnd (m : Fin 4) (s : State) : KeepsOut s (execPauseEnd m s) := by
  unfold execPauseEnd
  repeat' (first | with_reducible assumption | with_reducible exact Keeps.refl _ | with_reducible refine KeepsOut.of_next ?_ | intro _ | with_reducible first | apply keeps_guardUp | apply keeps_wr | apply keeps_ite)

theorem keeps_execEgressFrameStart (m : Fin 4) (subtick : Fin 32) (s : State) : KeepsOut s (execEgressFrameStart m subtick s) := by
  unfold execEgressFrameStart
  repeat' (first | with_reducible assumption | with_reducible exact Keeps.refl _ | with_reducible refine KeepsOut.of_next ?_ | intro _ | with_reducible first | apply keeps_guardUp | apply keeps_egressStart)

theorem keeps_execGateControlListInterval (m : Fin 4) (s : State) : KeepsOut s (execGateControlListInterval m s) := by
  unfold execGateControlListInterval
  repeat' (first | with_reducible assumption | with_reducible exact Keeps.refl _ | with_reducible refine KeepsOut.of_next ?_ | intro _ | with_reducible first | apply keeps_guardUp | apply keeps_gateTick)

theorem keeps_execLinkDown (m : Fin 4) (s : State) : KeepsOut s (execLinkDown m s) := by
  unfold execLinkDown
  repeat' (first | with_reducible assumption | with_reducible exact Keeps.refl _ | with_reducible refine KeepsOut.of_next ?_ | intro _ | with_reducible first | apply keeps_guardUp | apply keeps_linkDown | apply keeps_ite)

theorem keeps_execLinkUp (m : Fin 4) (neg : Fin 3) (s : State) : KeepsOut s (execLinkUp m neg s) := by
  unfold execLinkUp
  repeat' (first | with_reducible assumption | with_reducible exact Keeps.refl _ | with_reducible refine KeepsOut.of_next ?_ | intro _ | with_reducible first | apply keeps_guardUp | apply keeps_linkUp)

theorem keeps_execLearnedEntryAging (i : Fin 8192) (s : State) : KeepsOut s (execLearnedEntryAging i s) := by
  unfold execLearnedEntryAging
  repeat' (first | with_reducible assumption | with_reducible exact Keeps.refl _ | with_reducible refine KeepsOut.of_next ?_ | intro _ | with_reducible first | apply keeps_guardUp | apply keeps_ageEntry)

theorem keeps_execPlcaDuplicateNode (m : Fin 4) (s : State) : KeepsOut s (execPlcaDuplicateNode m s) := by
  unfold execPlcaDuplicateNode
  repeat' (first | with_reducible assumption | with_reducible exact Keeps.refl _ | with_reducible refine KeepsOut.of_next ?_ | intro _ | with_reducible first | apply keeps_guardUp | apply keeps_setMac | apply keeps_wr | apply keeps_ite)

theorem keeps_execMacCtlCommit (id : Ident) (m : Fin 4) (s : State) : KeepsOut s (execMacCtlCommit id m s) := by
  unfold execMacCtlCommit
  repeat' (first | with_reducible assumption | with_reducible exact Keeps.refl _ | with_reducible refine KeepsOut.of_next ?_ | intro _ | with_reducible first | apply keeps_macGuard | apply keeps_macCommit)

theorem keeps_execMacCtlGcommit (id : Ident) (m : Fin 4) (s : State) : KeepsOut s (execMacCtlGcommit id m s) := by
  unfold execMacCtlGcommit
  repeat' (first | with_reducible assumption | with_reducible exact Keeps.refl _ | with_reducible refine KeepsOut.of_next ?_ | intro _ | with_reducible first | apply keeps_macGuard | apply keeps_gateCommit)

theorem keeps_execMacCtlCntclr (id : Ident) (m : Fin 4) (s : State) : KeepsOut s (execMacCtlCntclr id m s) := by
  unfold execMacCtlCntclr
  repeat' (first | with_reducible assumption | with_reducible exact Keeps.refl _ | with_reducible refine KeepsOut.of_next ?_ | intro _ | with_reducible first | apply keeps_macGuard | apply keeps_macCntClr)

theorem keeps_execSwCtlCommit (id : Ident) (s : State) : KeepsOut s (execSwCtlCommit id s) := by
  unfold execSwCtlCommit
  repeat' (first | with_reducible assumption | with_reducible exact Keeps.refl _ | with_reducible refine KeepsOut.of_next ?_ | with_reducible first | apply keeps_guardBs | apply keeps_swCommit)

theorem keeps_execSwCtlCntclr (id : Ident) (s : State) : KeepsOut s (execSwCtlCntclr id s) := by
  unfold execSwCtlCntclr
  repeat' (first | with_reducible assumption | with_reducible exact Keeps.refl _ | with_reducible refine KeepsOut.of_next ?_ | with_reducible first | apply keeps_guardBs | apply keeps_swCntClr)

theorem keeps_execSwHtxIndexWrite (_id : Ident) (v : Fin 4096) (env : Env) (s : State) : KeepsOut s (execSwHtxIndexWrite _id v env s) := by
  unfold execSwHtxIndexWrite
  repeat' (first | with_reducible assumption | with_reducible exact Keeps.refl _ | with_reducible refine KeepsOut.of_next ?_ | intro _ | with_reducible first | apply keeps_guardUp | apply keeps_htxWrite)

theorem keeps_execSwHrxIndexWrite (_id : Ident) (v : Fin 4096) (env : Env) (s : State) : KeepsOut s (execSwHrxIndexWrite _id v env s) := by
  unfold execSwHrxIndexWrite
  repeat' (first | with_reducible assumption | with_reducible exact Keeps.refl _ | with_reducible refine KeepsOut.of_next ?_ | intro _ | with_reducible first | apply keeps_guardUp | apply keeps_hrxWrite)

theorem keeps_execNetPort (seq : Nat) (s : State) : KeepsOut s (execNetPort seq s) := by
  unfold execNetPort
  repeat' (first | with_reducible assumption | with_reducible exact Keeps.refl _ | with_reducible refine KeepsOut.of_next ?_ | with_reducible first | apply keeps_runCmd | apply keeps_opNetPort)

theorem keeps_execNetQueue (seq : Nat) (s : State) : KeepsOut s (execNetQueue seq s) := by
  unfold execNetQueue
  repeat' (first | with_reducible assumption | with_reducible exact Keeps.refl _ | with_reducible refine KeepsOut.of_next ?_ | with_reducible first | apply keeps_runCmd | apply keeps_opNetQueue)

theorem keeps_execNetGates (seq : Nat) (s : State) : KeepsOut s (execNetGates seq s) := by
  unfold execNetGates
  repeat' (first | with_reducible assumption | with_reducible exact Keeps.refl _ | with_reducible refine KeepsOut.of_next ?_ | with_reducible first | apply keeps_runCmd | apply keeps_opNetGates)

theorem keeps_execNetVlan (seq : Nat) (s : State) : KeepsOut s (execNetVlan seq s) := by
  unfold execNetVlan
  repeat' (first | with_reducible assumption | with_reducible exact Keeps.refl _ | with_reducible refine KeepsOut.of_next ?_ | with_reducible first | apply keeps_runCmd | apply keeps_opNetVlan)

theorem keeps_execNetFdb (seq : Nat) (s : State) : KeepsOut s (execNetFdb seq s) := by
  unfold execNetFdb
  repeat' (first | with_reducible assumption | with_reducible exact Keeps.refl _ | with_reducible refine KeepsOut.of_next ?_ | with_reducible first | apply keeps_runCmd | apply keeps_opNetFdb)

theorem keeps_execNetLimits (seq : Nat) (s : State) : KeepsOut s (execNetLimits seq s) := by
  unfold execNetLimits
  repeat' (first | with_reducible assumption | with_reducible exact Keeps.refl _ | with_reducible refine KeepsOut.of_next ?_ | with_reducible first | apply keeps_runCmd | apply keeps_opNetLimits)

theorem keeps_execNetMirror (seq : Nat) (s : State) : KeepsOut s (execNetMirror seq s) := by
  unfold execNetMirror
  repeat' (first | with_reducible assumption | with_reducible exact Keeps.refl _ | with_reducible refine KeepsOut.of_next ?_ | with_reducible first | apply keeps_runCmd | apply keeps_opNetMirror)

theorem keeps_execNetStatus (seq : Nat) (s : State) : KeepsOut s (execNetStatus seq s) := by
  unfold execNetStatus
  repeat' (first | with_reducible assumption | with_reducible exact Keeps.refl _ | with_reducible refine KeepsOut.of_next ?_ | with_reducible first | apply keeps_runCmd | apply keeps_opNetStatus)

theorem keeps_execStepTimerExpiry (n : Fin 8) (s : State) : KeepsOut s (execStepTimerExpiry n s) := by
  unfold execStepTimerExpiry
  repeat' (first | with_reducible assumption | with_reducible exact Keeps.refl _ | with_reducible refine KeepsOut.of_next ?_ | intro _ | with_reducible first | apply keeps_guardUp | apply keeps_motExpire)

theorem keeps_execLimitSwitch (n : Fin 8) (up : Bool) (s : State) : KeepsOut s (execLimitSwitch n up s) := by
  unfold execLimitSwitch
  repeat' (first | with_reducible assumption | with_reducible exact Keeps.refl _ | with_reducible refine KeepsOut.of_next ?_ | intro _ | with_reducible first | apply keeps_guardUp | apply keeps_limitSwitch)

theorem keeps_execHomeSwitch (n : Fin 8) (s : State) : KeepsOut s (execHomeSwitch n s) := by
  unfold execHomeSwitch
  repeat' (first | with_reducible assumption | with_reducible exact Keeps.refl _ | with_reducible refine KeepsOut.of_next ?_ | intro _ | with_reducible first | apply keeps_guardUp | apply keeps_homeSwitch)

theorem keeps_execIndexEdge (n : Fin 8) (s : State) : KeepsOut s (execIndexEdge n s) := by
  unfold execIndexEdge
  repeat' (first | with_reducible assumption | with_reducible exact Keeps.refl _ | with_reducible refine KeepsOut.of_next ?_ | intro _ | with_reducible first | apply keeps_guardUp | apply keeps_indexEdge)

theorem keeps_execHomingSet (n : Fin 8) (s : State) : KeepsOut s (execHomingSet n s) := by
  unfold execHomingSet
  repeat' (first | with_reducible assumption | with_reducible exact Keeps.refl _ | with_reducible refine KeepsOut.of_next ?_ | intro _ | with_reducible first | apply keeps_guardUp | apply keeps_homingSet)

theorem keeps_execSearchLimit (n : Fin 8) (s : State) : KeepsOut s (execSearchLimit n s) := by
  unfold execSearchLimit
  repeat' (first | with_reducible assumption | with_reducible exact Keeps.refl _ | with_reducible refine KeepsOut.of_next ?_ | intro _ | with_reducible first | apply keeps_guardUp | apply keeps_searchLimit)

theorem keeps_execMotCtlCommit (id : Ident) (n : Fin 8) (s : State) : KeepsOut s (execMotCtlCommit id n s) := by
  unfold execMotCtlCommit
  repeat' (first | with_reducible assumption | with_reducible exact Keeps.refl _ | with_reducible refine KeepsOut.of_next ?_ | intro _ | with_reducible first | apply keeps_motGuard | apply keeps_motCommit)

theorem keeps_execMotCtlStop (id : Ident) (n : Fin 8) (s : State) : KeepsOut s (execMotCtlStop id n s) := by
  unfold execMotCtlStop
  repeat' (first | with_reducible assumption | with_reducible exact Keeps.refl _ | with_reducible refine KeepsOut.of_next ?_ | intro _ | with_reducible first | apply keeps_motGuard | apply keeps_motHalt)

theorem keeps_execMotCtlCntclr (id : Ident) (n : Fin 8) (s : State) : KeepsOut s (execMotCtlCntclr id n s) := by
  unfold execMotCtlCntclr
  repeat' (first | with_reducible assumption | with_reducible exact Keeps.refl _ | with_reducible refine KeepsOut.of_next ?_ | intro _ | with_reducible first | apply keeps_motGuard | apply keeps_motCntClr)

theorem keeps_execMotTgtWrite (_id : Ident) (n : Fin 8) (v : Word) (s : State) : KeepsOut s (execMotTgtWrite _id n v s) := by
  unfold execMotTgtWrite
  repeat' (first | with_reducible assumption | with_reducible exact Keeps.refl _ | with_reducible refine KeepsOut.of_next ?_ | intro _ | with_reducible first | apply keeps_guardUp | apply keeps_motTgt)

theorem keeps_execMotLattWrite (_id : Ident) (n : Fin 8) (v : Word) (s : State) : KeepsOut s (execMotLattWrite _id n v s) := by
  unfold execMotLattWrite
  repeat' (first | with_reducible assumption | with_reducible exact Keeps.refl _ | with_reducible refine KeepsOut.of_next ?_ | intro _ | with_reducible first | apply keeps_guardUp | apply keeps_motLatt)

theorem keeps_execMotLatrawHiRead (_id : Ident) (n : Fin 8) (s : State) : KeepsOut s (execMotLatrawHiRead _id n s) := by
  unfold execMotLatrawHiRead
  repeat' (first | with_reducible assumption | with_reducible exact Keeps.refl _ | with_reducible refine KeepsOut.of_next ?_ | intro _ | with_reducible first | apply keeps_guardUp | apply keeps_motLatRead)

theorem keeps_execMotConfig (seq : Nat) (s : State) : KeepsOut s (execMotConfig seq s) := by
  unfold execMotConfig
  repeat' (first | with_reducible assumption | with_reducible exact Keeps.refl _ | with_reducible refine KeepsOut.of_next ?_ | with_reducible first | apply keeps_runCmd | apply keeps_opMotConfig)

theorem keeps_execMotMove (seq : Nat) (s : State) : KeepsOut s (execMotMove seq s) := by
  unfold execMotMove
  repeat' (first | with_reducible assumption | with_reducible exact Keeps.refl _ | with_reducible refine KeepsOut.of_next ?_ | with_reducible first | apply keeps_runCmd | apply keeps_opMotMove)

theorem keeps_execMotVelocity (seq : Nat) (s : State) : KeepsOut s (execMotVelocity seq s) := by
  unfold execMotVelocity
  repeat' (first | with_reducible assumption | with_reducible exact Keeps.refl _ | with_reducible refine KeepsOut.of_next ?_ | with_reducible first | apply keeps_runCmd | apply keeps_opMotVelocity)

theorem keeps_execMotStop (seq : Nat) (s : State) : KeepsOut s (execMotStop seq s) := by
  unfold execMotStop
  repeat' (first | with_reducible assumption | with_reducible exact Keeps.refl _ | with_reducible refine KeepsOut.of_next ?_ | with_reducible first | apply keeps_runCmd | apply keeps_opMotStop)

theorem keeps_execMotHome (seq : Nat) (s : State) : KeepsOut s (execMotHome seq s) := by
  unfold execMotHome
  repeat' (first | with_reducible assumption | with_reducible exact Keeps.refl _ | with_reducible refine KeepsOut.of_next ?_ | with_reducible first | apply keeps_runCmd | apply keeps_opMotHome)

theorem keeps_execMotLatch (seq : Nat) (s : State) : KeepsOut s (execMotLatch seq s) := by
  unfold execMotLatch
  repeat' (first | with_reducible assumption | with_reducible exact Keeps.refl _ | with_reducible refine KeepsOut.of_next ?_ | with_reducible first | apply keeps_runCmd | apply keeps_opMotLatch)

theorem keeps_execMotStatus (seq : Nat) (s : State) : KeepsOut s (execMotStatus seq s) := by
  unfold execMotStatus
  repeat' (first | with_reducible assumption | with_reducible exact Keeps.refl _ | with_reducible refine KeepsOut.of_next ?_ | with_reducible first | apply keeps_runCmd | apply keeps_opMotStatus)

theorem keeps_execDriveFault (b : Fin 8) (k : Fin 4) (s : State) : KeepsOut s (execDriveFault b k s) := by
  unfold execDriveFault
  repeat' (first | with_reducible assumption | with_reducible exact Keeps.refl _ | with_reducible refine KeepsOut.of_next ?_ | with_reducible first | apply keeps_drvFault | apply keeps_ite)

theorem keeps_execDriveTemperatureWarning (b : Fin 8) (hot : Bool) (s : State) : KeepsOut s (execDriveTemperatureWarning b hot s) := by
  unfold execDriveTemperatureWarning
  repeat' (first | with_reducible assumption | with_reducible exact Keeps.refl _ | with_reducible refine KeepsOut.of_next ?_ | with_reducible first | apply keeps_wr | apply keeps_ite)

theorem keeps_execCoilMeasurementDone (b : Fin 8) (r : Nat) (l : Nat) (s : State) : KeepsOut s (execCoilMeasurementDone b r l s) := by
  unfold execCoilMeasurementDone
  repeat' (first | with_reducible assumption | with_reducible exact Keeps.refl _ | with_reducible refine KeepsOut.of_next ?_ | with_reducible first | apply keeps_drvMeasured | apply keeps_ite)

theorem keeps_execPullInTimeEnd (b : Fin 8) (rise : Fin 65536) (dip : Fin 65536) (s : State) : KeepsOut s (execPullInTimeEnd b rise dip s) := by
  unfold execPullInTimeEnd
  repeat' (first | with_reducible assumption | with_reducible exact Keeps.refl _ | with_reducible refine KeepsOut.of_next ?_ | with_reducible first | apply keeps_drvHold | apply keeps_ite)

theorem keeps_execHoldDelayExpiry (k : Fin 4) (s : State) : KeepsOut s (execHoldDelayExpiry k s) := by
  unfold execHoldDelayExpiry
  repeat' (first | with_reducible assumption | with_reducible exact Keeps.refl _ | with_reducible refine KeepsOut.of_next ?_ | with_reducible first | apply keeps_holdDelay | apply keeps_ite)

theorem keeps_execDrvCtlEn (_id : Ident) (b : Fin 8) (on : Bool) (s : State) : KeepsOut s (execDrvCtlEn _id b on s) := by
  unfold execDrvCtlEn
  repeat' (first | with_reducible assumption | with_reducible exact Keeps.refl _ | with_reducible refine KeepsOut.of_next ?_ | intro _ | with_reducible first | apply keeps_drvGuard | apply keeps_drvEnable)

theorem keeps_execDrvCtlCommit (_id : Ident) (b : Fin 8) (s : State) : KeepsOut s (execDrvCtlCommit _id b s) := by
  unfold execDrvCtlCommit
  repeat' (first | with_reducible assumption | with_reducible exact Keeps.refl _ | with_reducible refine KeepsOut.of_next ?_ | intro _ | with_reducible first | apply keeps_drvGuard | apply keeps_drvCommit)

theorem keeps_execDrvCtlClear (_id : Ident) (b : Fin 8) (s : State) : KeepsOut s (execDrvCtlClear _id b s) := by
  unfold execDrvCtlClear
  repeat' (first | with_reducible assumption | with_reducible exact Keeps.refl _ | with_reducible refine KeepsOut.of_next ?_ | intro _ | with_reducible first | apply keeps_drvGuard | apply keeps_drvClear)

theorem keeps_execDrvCtlCntclr (_id : Ident) (b : Fin 8) (s : State) : KeepsOut s (execDrvCtlCntclr _id b s) := by
  unfold execDrvCtlCntclr
  repeat' (first | with_reducible assumption | with_reducible exact Keeps.refl _ | with_reducible refine KeepsOut.of_next ?_ | intro _ | with_reducible first | apply keeps_drvGuard | apply keeps_drvCntClr)

theorem keeps_execDrvConfig (seq : Nat) (s : State) : KeepsOut s (execDrvConfig seq s) := by
  unfold execDrvConfig
  repeat' (first | with_reducible assumption | with_reducible exact Keeps.refl _ | with_reducible refine KeepsOut.of_next ?_ | intro _ | with_reducible first | apply keeps_runCmd | apply keeps_drvOnly | apply keeps_opDrvConfig)

theorem keeps_execDrvEnable (seq : Nat) (s : State) : KeepsOut s (execDrvEnable seq s) := by
  unfold execDrvEnable
  repeat' (first | with_reducible assumption | with_reducible exact Keeps.refl _ | with_reducible refine KeepsOut.of_next ?_ | intro _ | with_reducible first | apply keeps_runCmd | apply keeps_drvOnly | apply keeps_opDrvEnable)

theorem keeps_execDrvCoil (seq : Nat) (s : State) : KeepsOut s (execDrvCoil seq s) := by
  unfold execDrvCoil
  repeat' (first | with_reducible assumption | with_reducible exact Keeps.refl _ | with_reducible refine KeepsOut.of_next ?_ | intro _ | with_reducible first | apply keeps_runCmd | apply keeps_drvOnly | apply keeps_opDrvCoil)

theorem keeps_execDrvClear (seq : Nat) (s : State) : KeepsOut s (execDrvClear seq s) := by
  unfold execDrvClear
  repeat' (first | with_reducible assumption | with_reducible exact Keeps.refl _ | with_reducible refine KeepsOut.of_next ?_ | intro _ | with_reducible first | apply keeps_runCmd | apply keeps_drvOnly | apply keeps_opDrvClear)

theorem keeps_execDrvStatus (seq : Nat) (s : State) : KeepsOut s (execDrvStatus seq s) := by
  unfold execDrvStatus
  repeat' (first | with_reducible assumption | with_reducible exact Keeps.refl _ | with_reducible refine KeepsOut.of_next ?_ | intro _ | with_reducible first | apply keeps_runCmd | apply keeps_drvOnly | apply keeps_opDrvStatus)

theorem keeps_execEngLoad (seq : Nat) (env : Env) (s : State) : KeepsOut s (execEngLoad seq env s) := by
  unfold execEngLoad
  repeat' (first | with_reducible assumption | with_reducible exact Keeps.refl _ | with_reducible refine KeepsOut.of_next ?_ | with_reducible first | apply keeps_runCmd | apply keeps_opEngLoad)

theorem keeps_execEngStart (seq : Nat) (env : Env) (s : State) : KeepsOut s (execEngStart seq env s) := by
  unfold execEngStart
  repeat' (first | with_reducible assumption | with_reducible exact Keeps.refl _ | with_reducible refine KeepsOut.of_next ?_ | with_reducible first | apply keeps_runCmd | apply keeps_opEngStart)

theorem keeps_execEngStop (seq : Nat) (s : State) : KeepsOut s (execEngStop seq s) := by
  unfold execEngStop
  repeat' (first | with_reducible assumption | with_reducible exact Keeps.refl _ | with_reducible refine KeepsOut.of_next ?_ | with_reducible first | apply keeps_runCmd | apply keeps_opEngStop)

theorem keeps_execEngMatrix (seq : Nat) (s : State) : KeepsOut s (execEngMatrix seq s) := by
  unfold execEngMatrix
  repeat' (first | with_reducible assumption | with_reducible exact Keeps.refl _ | with_reducible refine KeepsOut.of_next ?_ | with_reducible first | apply keeps_runCmd | apply keeps_opEngMatrix)

theorem keeps_execEngHands (seq : Nat) (s : State) : KeepsOut s (execEngHands seq s) := by
  unfold execEngHands
  repeat' (first | with_reducible assumption | with_reducible exact Keeps.refl _ | with_reducible refine KeepsOut.of_next ?_ | with_reducible first | apply keeps_runCmd | apply keeps_opEngHands)

theorem keeps_execEngAdlib (seq : Nat) (s : State) : KeepsOut s (execEngAdlib seq s) := by
  unfold execEngAdlib
  repeat' (first | with_reducible assumption | with_reducible exact Keeps.refl _ | with_reducible refine KeepsOut.of_next ?_ | with_reducible first | apply keeps_runCmd | apply keeps_opEngAdlib)

theorem keeps_execEngAdliblock (seq : Nat) (s : State) : KeepsOut s (execEngAdliblock seq s) := by
  unfold execEngAdliblock
  repeat' (first | with_reducible assumption | with_reducible exact Keeps.refl _ | with_reducible refine KeepsOut.of_next ?_ | with_reducible first | apply keeps_runCmd | apply keeps_opEngAdliblock)

theorem keeps_execEngStatus (seq : Nat) (s : State) : KeepsOut s (execEngStatus seq s) := by
  unfold execEngStatus
  repeat' (first | with_reducible assumption | with_reducible exact Keeps.refl _ | with_reducible refine KeepsOut.of_next ?_ | with_reducible first | apply keeps_runCmd | apply keeps_opEngStatus)

theorem keeps_execEngineTimer (n : Fin 16) (s : State) : KeepsOut s (execEngineTimer n s) := by
  unfold execEngineTimer
  repeat' (first | with_reducible assumption | with_reducible exact Keeps.refl _ | with_reducible refine KeepsOut.of_next ?_ | intro _ | with_reducible first | apply keeps_guardUp | apply keeps_engTimer)

theorem keeps_execEngineWatchdog (n : Fin 16) (s : State) : KeepsOut s (execEngineWatchdog n s) := by
  unfold execEngineWatchdog
  repeat' (first | with_reducible assumption | with_reducible exact Keeps.refl _ | with_reducible refine KeepsOut.of_next ?_ | intro _ | with_reducible first | apply keeps_guardUp | apply keeps_engWatchdog)

theorem keeps_execEngSync (id : Ident) (_n : Fin 16) (mask : Word) (s : State) : KeepsOut s (execEngSync id _n mask s) := by
  unfold execEngSync
  repeat' (first | with_reducible assumption | with_reducible exact Keeps.refl _ | with_reducible refine KeepsOut.of_next ?_ | intro _ | with_reducible first | apply keeps_guardUp | apply keeps_engSync)

theorem keeps_execEngWdkick (_id : Ident) (n : Fin 16) (s : State) : KeepsOut s (execEngWdkick _id n s) := by
  unfold execEngWdkick
  repeat' (first | with_reducible assumption | with_reducible exact Keeps.refl _ | with_reducible refine KeepsOut.of_next ?_ | intro _ | with_reducible first | apply keeps_guardUp | apply keeps_wdKick)

theorem keeps_execEngGtx (_id : Ident) (n : Fin 16) (v : Word) (s : State) : KeepsOut s (execEngGtx _id n v s) := by
  unfold execEngGtx
  repeat' (first | with_reducible assumption | with_reducible exact Keeps.refl _ | with_reducible refine KeepsOut.of_next ?_ | intro _ | with_reducible first | apply keeps_guardUp | apply keeps_engGtx)

theorem keeps_execEngEvtClear (_id : Ident) (n : Fin 16) (v : Word) (s : State) : KeepsOut s (execEngEvtClear _id n v s) := by
  unfold execEngEvtClear
  repeat' (first | with_reducible assumption | with_reducible exact Keeps.refl _ | with_reducible refine KeepsOut.of_next ?_ | intro _ | with_reducible first | apply keeps_guardUp | apply keeps_evtClear)

theorem keeps_execEngCntclr (_id : Ident) (n : Fin 16) (s : State) : KeepsOut s (execEngCntclr _id n s) := by
  unfold execEngCntclr
  repeat' (first | with_reducible assumption | with_reducible exact Keeps.refl _ | with_reducible refine KeepsOut.of_next ?_ | intro _ | with_reducible first | apply keeps_guardUp | apply keeps_engCntClr)

theorem keeps_execMessageEntersGate (src : Fin 17) (s : State) : KeepsOut s (execMessageEntersGate src s) := by
  unfold execMessageEntersGate
  repeat' (first | with_reducible assumption | with_reducible exact Keeps.refl _ | with_reducible refine KeepsOut.of_next ?_ | intro _ | with_reducible first | apply keeps_guardUp | apply keeps_gateEnter)

theorem keeps_execRateEntrySend (i : Fin 1024) (s : State) : KeepsOut s (execRateEntrySend i s) := by
  unfold execRateEntrySend
  repeat' (first | with_reducible assumption | with_reducible exact Keeps.refl _ | with_reducible refine KeepsOut.of_next ?_ | intro _ | with_reducible first | apply keeps_guardUp | apply keeps_rateSend)

theorem keeps_execGateWaitLimit (n : Fin 64) (s : State) : KeepsOut s (execGateWaitLimit n s) := by
  unfold execGateWaitLimit
  repeat' (first | with_reducible assumption | with_reducible exact Keeps.refl _ | with_reducible refine KeepsOut.of_next ?_ | intro _ | with_reducible first | apply keeps_guardUp | apply keeps_txLimit)

theorem keeps_execGateAnswerLimit (n : Fin 64) (s : State) : KeepsOut s (execGateAnswerLimit n s) := by
  unfold execGateAnswerLimit
  repeat' (first | with_reducible assumption | with_reducible exact Keeps.refl _ | with_reducible refine KeepsOut.of_next ?_ | intro _ | with_reducible first | apply keeps_guardUp | apply keeps_txLimit)

theorem keeps_execGateCtlLogclr (id : Ident) (s : State) : KeepsOut s (execGateCtlLogclr id s) := by
  unfold execGateCtlLogclr
  repeat' (first | with_reducible assumption | with_reducible exact Keeps.refl _ | with_reducible refine KeepsOut.of_next ?_ | with_reducible first | apply keeps_guardBs | apply keeps_gateLogClr)

theorem keeps_execGateCtlCntclr (id : Ident) (s : State) : KeepsOut s (execGateCtlCntclr id s) := by
  unfold execGateCtlCntclr
  repeat' (first | with_reducible assumption | with_reducible exact Keeps.refl _ | with_reducible refine KeepsOut.of_next ?_ | with_reducible first | apply keeps_guardBs | apply keeps_gateCntClr)

theorem keeps_execGateRoute (seq : Nat) (env : Env) (s : State) : KeepsOut s (execGateRoute seq env s) := by
  unfold execGateRoute
  repeat' (first | with_reducible assumption | with_reducible exact Keeps.refl _ | with_reducible refine KeepsOut.of_next ?_ | with_reducible first | apply keeps_runCmd | apply keeps_opGateRoute)

theorem keeps_execGateRate (seq : Nat) (s : State) : KeepsOut s (execGateRate seq s) := by
  unfold execGateRate
  repeat' (first | with_reducible assumption | with_reducible exact Keeps.refl _ | with_reducible refine KeepsOut.of_next ?_ | with_reducible first | apply keeps_runCmd | apply keeps_opGateRate)

theorem keeps_execGateCache (seq : Nat) (s : State) : KeepsOut s (execGateCache seq s) := by
  unfold execGateCache
  repeat' (first | with_reducible assumption | with_reducible exact Keeps.refl _ | with_reducible refine KeepsOut.of_next ?_ | with_reducible first | apply keeps_runCmd | apply keeps_opGateCache)

theorem keeps_execGateStatus (seq : Nat) (s : State) : KeepsOut s (execGateStatus seq s) := by
  unfold execGateStatus
  repeat' (first | with_reducible assumption | with_reducible exact Keeps.refl _ | with_reducible refine KeepsOut.of_next ?_ | with_reducible first | apply keeps_runCmd | apply keeps_opGateStatus)

theorem keeps_execSysDecerrInfoClear (_id : Ident) (s : State) : KeepsOut s (execSysDecerrInfoClear _id s) := by
  unfold execSysDecerrInfoClear
  repeat' (first | with_reducible assumption | with_reducible exact Keeps.refl _ | with_reducible refine KeepsOut.of_next ?_ | with_reducible first | apply keeps_guardUp | apply keeps_clearDecErr)

theorem keeps_execSysLinkerrClear (_id : Ident) (s : State) : KeepsOut s (execSysLinkerrClear _id s) := by
  unfold execSysLinkerrClear
  repeat' (first | with_reducible assumption | with_reducible exact Keeps.refl _ | with_reducible refine KeepsOut.of_next ?_ | with_reducible first | apply keeps_guardUp | apply keeps_clearLinkErr)

theorem keeps_execViewIdtWrite (id : Ident) (i : Fin 64) (v : Word) (s : State) : KeepsOut s (execViewIdtWrite id i v s) := by
  unfold execViewIdtWrite
  repeat' (first | with_reducible assumption | with_reducible exact Keeps.refl _ | with_reducible refine KeepsOut.of_next ?_ | intro _ | with_reducible first | apply keeps_guardBs | apply keeps_writeIdt)

theorem keeps_execViewLock (id : Ident) (s : State) : KeepsOut s (execViewLock id s) := by
  unfold execViewLock
  repeat' (first | with_reducible assumption | with_reducible exact Keeps.refl _ | with_reducible refine KeepsOut.of_next ?_ | intro _ | with_reducible first | apply keeps_guardBs | apply keeps_wr)

theorem keeps_execViewFaultInfoClear (id : Ident) (s : State) : KeepsOut s (execViewFaultInfoClear id s) := by
  unfold execViewFaultInfoClear
  repeat' (first | with_reducible assumption | with_reducible exact Keeps.refl _ | with_reducible refine KeepsOut.of_next ?_ | with_reducible first | apply keeps_guardBs | apply keeps_clearViewFault)

theorem keeps_execHostCtlCommit (id : Ident) (s : State) : KeepsOut s (execHostCtlCommit id s) := by
  unfold execHostCtlCommit
  repeat' (first | with_reducible assumption | with_reducible exact Keeps.refl _ | with_reducible refine KeepsOut.of_next ?_ | with_reducible first | apply keeps_guardBs | apply keeps_hostCommit)

theorem keeps_execHostCtlCntclr (id : Ident) (s : State) : KeepsOut s (execHostCtlCntclr id s) := by
  unfold execHostCtlCntclr
  repeat' (first | with_reducible assumption | with_reducible exact Keeps.refl _ | with_reducible refine KeepsOut.of_next ?_ | with_reducible first | apply keeps_guardBs | apply keeps_hostCntClr)

theorem keeps_execHostFenceClear (id : Ident) (fn : Fin 2) (s : State) : KeepsOut s (execHostFenceClear id fn s) := by
  unfold execHostFenceClear
  repeat' (first | with_reducible assumption | with_reducible exact Keeps.refl _ | with_reducible refine KeepsOut.of_next ?_ | intro _ | with_reducible first | apply keeps_guardBs | apply keeps_wr)

theorem keeps_execFabCtlWincommit (id : Ident) (w : Fin 16) (s : State) : KeepsOut s (execFabCtlWincommit id w s) := by
  unfold execFabCtlWincommit
  repeat' (first | with_reducible assumption | with_reducible exact Keeps.refl _ | with_reducible refine KeepsOut.of_next ?_ | intro _ | with_reducible first | apply keeps_guardBs | apply keeps_winCommit)

theorem keeps_execFabCtlCntclr (id : Ident) (s : State) : KeepsOut s (execFabCtlCntclr id s) := by
  unfold execFabCtlCntclr
  repeat' (first | with_reducible assumption | with_reducible exact Keeps.refl _ | with_reducible refine KeepsOut.of_next ?_ | with_reducible first | apply keeps_guardBs | apply keeps_fabCntClr)

theorem keeps_execMemDmaStart (id : Ident) (c : Fin 8) (s : State) : KeepsOut s (execMemDmaStart id c s) := by
  unfold execMemDmaStart
  repeat' (first | with_reducible assumption | with_reducible exact Keeps.refl _ | with_reducible refine KeepsOut.of_next ?_ | intro _ | with_reducible first | apply keeps_guardUp | apply keeps_decErr | apply keeps_dmaStart | apply keeps_ite)

theorem keeps_execMemDmaAbort (id : Ident) (c : Fin 8) (s : State) : KeepsOut s (execMemDmaAbort id c s) := by
  unfold execMemDmaAbort
  repeat' (first | with_reducible assumption | with_reducible exact Keeps.refl _ | with_reducible refine KeepsOut.of_next ?_ | intro _ | with_reducible first | apply keeps_guardUp | apply keeps_decErr | apply keeps_dmaError | apply keeps_ite)

theorem keeps_execOutputHold (p : Fin 2) (s : State) : KeepsOut s (execOutputHold p s) := by
  unfold execOutputHold
  repeat' (first | with_reducible assumption | with_reducible exact Keeps.refl _ | with_reducible refine KeepsOut.of_next ?_ | intro _ | with_reducible first | apply keeps_guardUp | apply keeps_outputHold)

theorem keeps_execWriteOutputs (p : Fin 2) (s : State) : KeepsOut s (execWriteOutputs p s) := by
  unfold execWriteOutputs
  repeat' (first | with_reducible assumption | with_reducible exact Keeps.refl _ | with_reducible refine KeepsOut.of_next ?_ | intro _ | with_reducible first | apply keeps_guardUp | apply keeps_writeOutputs)

theorem keeps_execRetainedJournalApply (p : Fin 2) (s : State) : KeepsOut s (execRetainedJournalApply p s) := by
  unfold execRetainedJournalApply
  repeat' (first | with_reducible assumption | with_reducible exact Keeps.refl _ | with_reducible refine KeepsOut.of_next ?_ | intro _ | with_reducible first | apply keeps_guardUp | apply keeps_journalApply)

theorem keeps_execCycleWatchdog (p : Fin 2) (s : State) : KeepsOut s (execCycleWatchdog p s) := by
  unfold execCycleWatchdog
  repeat' (first | with_reducible assumption | with_reducible exact Keeps.refl _ | with_reducible refine KeepsOut.of_next ?_ | intro _ | with_reducible first | apply keeps_guardUp | apply keeps_cycleWdog)

theorem keeps_execDbgCtlHalt0 (id : Ident) (s : State) : KeepsOut s (execDbgCtlHalt0 id s) := by
  unfold execDbgCtlHalt0
  repeat' (first | with_reducible assumption | with_reducible exact Keeps.refl _ | with_reducible refine KeepsOut.of_next ?_ | intro _ | with_reducible first | apply keeps_guardBs | apply keeps_debugHalt)

theorem keeps_execDbgCtlHalt1 (id : Ident) (s : State) : KeepsOut s (execDbgCtlHalt1 id s) := by
  unfold execDbgCtlHalt1
  repeat' (first | with_reducible assumption | with_reducible exact Keeps.refl _ | with_reducible refine KeepsOut.of_next ?_ | intro _ | with_reducible first | apply keeps_guardBs | apply keeps_debugHalt)

theorem keeps_execStgCtlCommit (id : Ident) (p : Fin 2) (s : State) : KeepsOut s (execStgCtlCommit id p s) := by
  unfold execStgCtlCommit
  repeat' (first | with_reducible assumption | with_reducible exact Keeps.refl _ | with_reducible refine KeepsOut.of_next ?_ | intro _ | with_reducible first | apply keeps_guardBs | apply keeps_stgCommit)

theorem keeps_execStgCtlCntclr (id : Ident) (s : State) : KeepsOut s (execStgCtlCntclr id s) := by
  unfold execStgCtlCntclr
  repeat' (first | with_reducible assumption | with_reducible exact Keeps.refl _ | with_reducible refine KeepsOut.of_next ?_ | with_reducible first | apply keeps_guardBs | apply keeps_stgCntClr)

theorem keeps_execStageLoad (seq : Nat) (env : Env) (s : State) : KeepsOut s (execStageLoad seq env s) := by
  unfold execStageLoad
  repeat' (first | with_reducible assumption | with_reducible exact Keeps.refl _ | with_reducible refine KeepsOut.of_next ?_ | with_reducible first | apply keeps_runCmd | apply keeps_opStageLoad)

theorem keeps_execStageVerify (seq : Nat) (_env : Env) (s : State) : KeepsOut s (execStageVerify seq _env s) := by
  unfold execStageVerify
  repeat' (first | with_reducible assumption | with_reducible exact Keeps.refl _ | with_reducible refine KeepsOut.of_next ?_ | with_reducible first | apply keeps_runCmd | apply keeps_opStageVerify)

theorem keeps_execStageArm (seq : Nat) (_env : Env) (s : State) : KeepsOut s (execStageArm seq _env s) := by
  unfold execStageArm
  repeat' (first | with_reducible assumption | with_reducible exact Keeps.refl _ | with_reducible refine KeepsOut.of_next ?_ | with_reducible first | apply keeps_runCmd | apply keeps_opStageArm)

theorem keeps_execStageCue (seq : Nat) (_env : Env) (s : State) : KeepsOut s (execStageCue seq _env s) := by
  unfold execStageCue
  repeat' (first | with_reducible assumption | with_reducible exact Keeps.refl _ | with_reducible refine KeepsOut.of_next ?_ | with_reducible first | apply keeps_runCmd | apply keeps_opStageCue)

theorem keeps_execStageDisarm (seq : Nat) (_env : Env) (s : State) : KeepsOut s (execStageDisarm seq _env s) := by
  unfold execStageDisarm
  repeat' (first | with_reducible assumption | with_reducible exact Keeps.refl _ | with_reducible refine KeepsOut.of_next ?_ | with_reducible first | apply keeps_runCmd | apply keeps_opStageDisarm)

theorem keeps_execStageMode (seq : Nat) (_env : Env) (s : State) : KeepsOut s (execStageMode seq _env s) := by
  unfold execStageMode
  repeat' (first | with_reducible assumption | with_reducible exact Keeps.refl _ | with_reducible refine KeepsOut.of_next ?_ | with_reducible first | apply keeps_runCmd | apply keeps_opStageMode)

theorem keeps_execStageRestart (seq : Nat) (env : Env) (s : State) : KeepsOut s (execStageRestart seq env s) := by
  unfold execStageRestart
  repeat' (first | with_reducible assumption | with_reducible exact Keeps.refl _ | with_reducible refine KeepsOut.of_next ?_ | with_reducible first | apply keeps_runCmd | apply keeps_opStageRestart)

theorem keeps_execStageCycle (seq : Nat) (_env : Env) (s : State) : KeepsOut s (execStageCycle seq _env s) := by
  unfold execStageCycle
  repeat' (first | with_reducible assumption | with_reducible exact Keeps.refl _ | with_reducible refine KeepsOut.of_next ?_ | with_reducible first | apply keeps_runCmd | apply keeps_opStageCycle)

theorem keeps_execStageStatus (seq : Nat) (_env : Env) (s : State) : KeepsOut s (execStageStatus seq _env s) := by
  unfold execStageStatus
  repeat' (first | with_reducible assumption | with_reducible exact Keeps.refl _ | with_reducible refine KeepsOut.of_next ?_ | with_reducible first | apply keeps_runCmd | apply keeps_opStageStatus)

theorem keeps_execRegisterWrite (id : Ident) (a : Fin 268435456) (whole : Bool) (v : Word) (s : State) : KeepsOut s (execRegisterWrite id a whole v s) := by
  unfold execRegisterWrite
  repeat' (first | with_reducible assumption | with_reducible exact Keeps.refl _ | with_reducible refine KeepsOut.of_next ?_ | intro _ | with_reducible first | apply keeps_guardUp | apply keeps_registerWrite)

theorem keeps_execInboundBufferDrain (s : State) : KeepsOut s (execInboundBufferDrain s) := by
  unfold execInboundBufferDrain
  repeat' (first | with_reducible assumption | with_reducible exact Keeps.refl _ | with_reducible refine KeepsOut.of_next ?_ | with_reducible first | apply keeps_guardUp | apply keeps_drainOne)

theorem keeps_execWrite (p : Fin 2) (f : RFrame) (s : State) : KeepsOut s (execWrite p f s) := by
  unfold execWrite
  repeat' (first | with_reducible assumption | with_reducible exact Keeps.refl _ | with_reducible refine KeepsOut.of_next ?_ | with_reducible first | apply keeps_inRequest | apply keeps_ite)

theorem keeps_execReadRequest (p : Fin 2) (f : RFrame) (s : State) : KeepsOut s (execReadRequest p f s) := by
  unfold execReadRequest
  repeat' (first | with_reducible assumption | with_reducible exact Keeps.refl _ | with_reducible refine KeepsOut.of_next ?_ | with_reducible first | apply keeps_inRequest | apply keeps_ite)

theorem keeps_execAtomic (p : Fin 2) (f : RFrame) (s : State) : KeepsOut s (execAtomic p f s) := by
  unfold execAtomic
  repeat' (first | with_reducible assumption | with_reducible exact Keeps.refl _ | with_reducible refine KeepsOut.of_next ?_ | with_reducible first | apply keeps_inRequest | apply keeps_ite)

theorem keeps_execMessage (p : Fin 2) (f : RFrame) (s : State) : KeepsOut s (execMessage p f s) := by
  unfold execMessage
  repeat' (first | with_reducible assumption | with_reducible exact Keeps.refl _ | with_reducible refine KeepsOut.of_next ?_ | with_reducible first | apply keeps_inMessage | apply keeps_ite)

theorem keeps_execSideBand (p : Fin 2) (f : RFrame) (s : State) : KeepsOut s (execSideBand p f s) := by
  unfold execSideBand
  repeat' (first | with_reducible assumption | with_reducible exact Keeps.refl _ | with_reducible refine KeepsOut.of_next ?_ | with_reducible first | apply keeps_inMessage | apply keeps_ite)

theorem keeps_execFabricGrant (s : State) : KeepsOut s (execFabricGrant s) := by
  unfold execFabricGrant
  repeat' (first | with_reducible assumption | with_reducible exact Keeps.refl _ | with_reducible refine KeepsOut.of_next ?_ | with_reducible first | apply keeps_guardUp | apply keeps_fabGrant)

theorem keeps_execCompletion (p : Fin 2) (f : RFrame) (s : State) : KeepsOut s (execCompletion p f s) := by
  unfold execCompletion
  repeat' (first | with_reducible assumption | with_reducible exact Keeps.refl _ | with_reducible refine KeepsOut.of_next ?_ | intro _ | with_reducible first | apply keeps_arriveSeq | apply keeps_completion | apply keeps_ite)

theorem keeps_execTagTimeout (t : Fin 64) (s : State) : KeepsOut s (execTagTimeout t s) := by
  unfold execTagTimeout
  repeat' (first | with_reducible assumption | with_reducible exact Keeps.refl _ | with_reducible refine KeepsOut.of_next ?_ | intro _ | with_reducible first | apply keeps_guardUp | apply keeps_tagTimeout)

theorem keeps_execPrefetchAge (w : Fin 16) (s : State) : KeepsOut s (execPrefetchAge w s) := by
  unfold execPrefetchAge
  repeat' (first | with_reducible assumption | with_reducible exact Keeps.refl _ | with_reducible refine KeepsOut.of_next ?_ | intro _ | with_reducible first | apply keeps_guardUp | apply keeps_pfAge)

theorem keeps_execFabWindow (seq : Nat) (_env : Env) (s : State) : KeepsOut s (execFabWindow seq _env s) := by
  unfold execFabWindow
  repeat' (first | with_reducible assumption | with_reducible exact Keeps.refl _ | with_reducible refine KeepsOut.of_next ?_ | with_reducible first | apply keeps_runCmd | apply keeps_opFabWindow)

theorem keeps_execFabLogread (seq : Nat) (_env : Env) (s : State) : KeepsOut s (execFabLogread seq _env s) := by
  unfold execFabLogread
  repeat' (first | with_reducible assumption | with_reducible exact Keeps.refl _ | with_reducible refine KeepsOut.of_next ?_ | with_reducible first | apply keeps_runCmd | apply keeps_opFabLogread)

theorem keeps_execFabLogclr (seq : Nat) (_env : Env) (s : State) : KeepsOut s (execFabLogclr seq _env s) := by
  unfold execFabLogclr
  repeat' (first | with_reducible assumption | with_reducible exact Keeps.refl _ | with_reducible refine KeepsOut.of_next ?_ | with_reducible first | apply keeps_runCmd | apply keeps_opFabLogclr)

theorem keeps_execAdd (p : Fin 18) (r : RFmt) (s : State) : KeepsOut s (execAdd p r s) := by
  unfold execAdd
  repeat' (first | with_reducible assumption | with_reducible exact Keeps.refl _ | with_reducible refine KeepsOut.of_next ?_ | with_reducible first | apply keeps_intR)

theorem keeps_execSub (p : Fin 18) (r : RFmt) (s : State) : KeepsOut s (execSub p r s) := by
  unfold execSub
  repeat' (first | with_reducible assumption | with_reducible exact Keeps.refl _ | with_reducible refine KeepsOut.of_next ?_ | with_reducible first | apply keeps_intR)

theorem keeps_execAnd (p : Fin 18) (r : RFmt) (s : State) : KeepsOut s (execAnd p r s) := by
  unfold execAnd
  repeat' (first | with_reducible assumption | with_reducible exact Keeps.refl _ | with_reducible refine KeepsOut.of_next ?_ | with_reducible first | apply keeps_intR)

theorem keeps_execOr (p : Fin 18) (r : RFmt) (s : State) : KeepsOut s (execOr p r s) := by
  unfold execOr
  repeat' (first | with_reducible assumption | with_reducible exact Keeps.refl _ | with_reducible refine KeepsOut.of_next ?_ | with_reducible first | apply keeps_intR)

theorem keeps_execXor (p : Fin 18) (r : RFmt) (s : State) : KeepsOut s (execXor p r s) := by
  unfold execXor
  repeat' (first | with_reducible assumption | with_reducible exact Keeps.refl _ | with_reducible refine KeepsOut.of_next ?_ | with_reducible first | apply keeps_intR)

theorem keeps_execNor (p : Fin 18) (r : RFmt) (s : State) : KeepsOut s (execNor p r s) := by
  unfold execNor
  repeat' (first | with_reducible assumption | with_reducible exact Keeps.refl _ | with_reducible refine KeepsOut.of_next ?_ | with_reducible first | apply keeps_intR)

theorem keeps_execAndn (p : Fin 18) (r : RFmt) (s : State) : KeepsOut s (execAndn p r s) := by
  unfold execAndn
  repeat' (first | with_reducible assumption | with_reducible exact Keeps.refl _ | with_reducible refine KeepsOut.of_next ?_ | with_reducible first | apply keeps_intR)

theorem keeps_execCplt (p : Fin 18) (r : RFmt) (s : State) : KeepsOut s (execCplt p r s) := by
  unfold execCplt
  repeat' (first | with_reducible assumption | with_reducible exact Keeps.refl _ | with_reducible refine KeepsOut.of_next ?_ | with_reducible first | apply keeps_intR)

theorem keeps_execCpltu (p : Fin 18) (r : RFmt) (s : State) : KeepsOut s (execCpltu p r s) := by
  unfold execCpltu
  repeat' (first | with_reducible assumption | with_reducible exact Keeps.refl _ | with_reducible refine KeepsOut.of_next ?_ | with_reducible first | apply keeps_intR)

theorem keeps_execCpeq (p : Fin 18) (r : RFmt) (s : State) : KeepsOut s (execCpeq p r s) := by
  unfold execCpeq
  repeat' (first | with_reducible assumption | with_reducible exact Keeps.refl _ | with_reducible refine KeepsOut.of_next ?_ | with_reducible first | apply keeps_intR)

theorem keeps_execShl (p : Fin 18) (r : RFmt) (s : State) : KeepsOut s (execShl p r s) := by
  unfold execShl
  repeat' (first | with_reducible assumption | with_reducible exact Keeps.refl _ | with_reducible refine KeepsOut.of_next ?_ | with_reducible first | apply keeps_intR)

theorem keeps_execShr (p : Fin 18) (r : RFmt) (s : State) : KeepsOut s (execShr p r s) := by
  unfold execShr
  repeat' (first | with_reducible assumption | with_reducible exact Keeps.refl _ | with_reducible refine KeepsOut.of_next ?_ | with_reducible first | apply keeps_intR)

theorem keeps_execShra (p : Fin 18) (r : RFmt) (s : State) : KeepsOut s (execShra p r s) := by
  unfold execShra
  repeat' (first | with_reducible assumption | with_reducible exact Keeps.refl _ | with_reducible refine KeepsOut.of_next ?_ | with_reducible first | apply keeps_intR)

theorem keeps_execShlK (p : Fin 18) (r : RFmt) (s : State) : KeepsOut s (execShlK p r s) := by
  unfold execShlK
  repeat' (first | with_reducible assumption | with_reducible exact Keeps.refl _ | with_reducible refine KeepsOut.of_next ?_ | with_reducible first | apply keeps_shiftK)

theorem keeps_execShrK (p : Fin 18) (r : RFmt) (s : State) : KeepsOut s (execShrK p r s) := by
  unfold execShrK
  repeat' (first | with_reducible assumption | with_reducible exact Keeps.refl _ | with_reducible refine KeepsOut.of_next ?_ | with_reducible first | apply keeps_shiftK)

theorem keeps_execShraK (p : Fin 18) (r : RFmt) (s : State) : KeepsOut s (execShraK p r s) := by
  unfold execShraK
  repeat' (first | with_reducible assumption | with_reducible exact Keeps.refl _ | with_reducible refine KeepsOut.of_next ?_ | with_reducible first | apply keeps_shiftK)

theorem keeps_execClz (p : Fin 18) (r : RFmt) (s : State) : KeepsOut s (execClz p r s) := by
  unfold execClz
  repeat' (first | with_reducible assumption | with_reducible exact Keeps.refl _ | with_reducible refine KeepsOut.of_next ?_ | with_reducible first | apply keeps_intR1)

theorem keeps_execMin (p : Fin 18) (r : RFmt) (s : State) : KeepsOut s (execMin p r s) := by
  unfold execMin
  repeat' (first | with_reducible assumption | with_reducible exact Keeps.refl _ | with_reducible refine KeepsOut.of_next ?_ | with_reducible first | apply keeps_intR)

theorem keeps_execMax (p : Fin 18) (r : RFmt) (s : State) : KeepsOut s (execMax p r s) := by
  unfold execMax
  repeat' (first | with_reducible assumption | with_reducible exact Keeps.refl _ | with_reducible refine KeepsOut.of_next ?_ | with_reducible first | apply keeps_intR)

theorem keeps_execMinu (p : Fin 18) (r : RFmt) (s : State) : KeepsOut s (execMinu p r s) := by
  unfold execMinu
  repeat' (first | with_reducible assumption | with_reducible exact Keeps.refl _ | with_reducible refine KeepsOut.of_next ?_ | with_reducible first | apply keeps_intR)

theorem keeps_execMaxu (p : Fin 18) (r : RFmt) (s : State) : KeepsOut s (execMaxu p r s) := by
  unfold execMaxu
  repeat' (first | with_reducible assumption | with_reducible exact Keeps.refl _ | with_reducible refine KeepsOut.of_next ?_ | with_reducible first | apply keeps_intR)

theorem keeps_execMul (p : Fin 18) (r : RFmt) (s : State) : KeepsOut s (execMul p r s) := by
  unfold execMul
  repeat' (first | with_reducible assumption | with_reducible exact Keeps.refl _ | with_reducible refine KeepsOut.of_next ?_ | with_reducible first | apply keeps_intR)

theorem keeps_execMulh (p : Fin 18) (r : RFmt) (s : State) : KeepsOut s (execMulh p r s) := by
  unfold execMulh
  repeat' (first | with_reducible assumption | with_reducible exact Keeps.refl _ | with_reducible refine KeepsOut.of_next ?_ | with_reducible first | apply keeps_intR)

theorem keeps_execMulhu (p : Fin 18) (r : RFmt) (s : State) : KeepsOut s (execMulhu p r s) := by
  unfold execMulhu
  repeat' (first | with_reducible assumption | with_reducible exact Keeps.refl _ | with_reducible refine KeepsOut.of_next ?_ | with_reducible first | apply keeps_intR)

theorem keeps_execDiv (p : Fin 18) (r : RFmt) (s : State) : KeepsOut s (execDiv p r s) := by
  unfold execDiv
  repeat' (first | with_reducible assumption | with_reducible exact Keeps.refl _ | with_reducible refine KeepsOut.of_next ?_ | with_reducible first | apply keeps_intR)

theorem keeps_execDivu (p : Fin 18) (r : RFmt) (s : State) : KeepsOut s (execDivu p r s) := by
  unfold execDivu
  repeat' (first | with_reducible assumption | with_reducible exact Keeps.refl _ | with_reducible refine KeepsOut.of_next ?_ | with_reducible first | apply keeps_intR)

theorem keeps_execRem (p : Fin 18) (r : RFmt) (s : State) : KeepsOut s (execRem p r s) := by
  unfold execRem
  repeat' (first | with_reducible assumption | with_reducible exact Keeps.refl _ | with_reducible refine KeepsOut.of_next ?_ | with_reducible first | apply keeps_intR)

theorem keeps_execRemu (p : Fin 18) (r : RFmt) (s : State) : KeepsOut s (execRemu p r s) := by
  unfold execRemu
  repeat' (first | with_reducible assumption | with_reducible exact Keeps.refl _ | with_reducible refine KeepsOut.of_next ?_ | with_reducible first | apply keeps_intR)

theorem keeps_execFadd (p : Fin 18) (r : RFmt) (s : State) : KeepsOut s (execFadd p r s) := by
  unfold execFadd
  repeat' (first | with_reducible assumption | with_reducible exact Keeps.refl _ | with_reducible refine KeepsOut.of_next ?_ | with_reducible first | apply keeps_intR)

theorem keeps_execFsub (p : Fin 18) (r : RFmt) (s : State) : KeepsOut s (execFsub p r s) := by
  unfold execFsub
  repeat' (first | with_reducible assumption | with_reducible exact Keeps.refl _ | with_reducible refine KeepsOut.of_next ?_ | with_reducible first | apply keeps_intR)

theorem keeps_execFmul (p : Fin 18) (r : RFmt) (s : State) : KeepsOut s (execFmul p r s) := by
  unfold execFmul
  repeat' (first | with_reducible assumption | with_reducible exact Keeps.refl _ | with_reducible refine KeepsOut.of_next ?_ | with_reducible first | apply keeps_intR)

theorem keeps_execFdiv (p : Fin 18) (r : RFmt) (s : State) : KeepsOut s (execFdiv p r s) := by
  unfold execFdiv
  repeat' (first | with_reducible assumption | with_reducible exact Keeps.refl _ | with_reducible refine KeepsOut.of_next ?_ | with_reducible first | apply keeps_intR)

theorem keeps_execFsqrt (p : Fin 18) (r : RFmt) (s : State) : KeepsOut s (execFsqrt p r s) := by
  unfold execFsqrt
  repeat' (first | with_reducible assumption | with_reducible exact Keeps.refl _ | with_reducible refine KeepsOut.of_next ?_ | with_reducible first | apply keeps_intR1)

theorem keeps_execFmin (p : Fin 18) (r : RFmt) (s : State) : KeepsOut s (execFmin p r s) := by
  unfold execFmin
  repeat' (first | with_reducible assumption | with_reducible exact Keeps.refl _ | with_reducible refine KeepsOut.of_next ?_ | with_reducible first | apply keeps_fPick)

theorem keeps_execFmax (p : Fin 18) (r : RFmt) (s : State) : KeepsOut s (execFmax p r s) := by
  unfold execFmax
  repeat' (first | with_reducible assumption | with_reducible exact Keeps.refl _ | with_reducible refine KeepsOut.of_next ?_ | with_reducible first | apply keeps_fPick)

theorem keeps_execFeq (p : Fin 18) (r : RFmt) (s : State) : KeepsOut s (execFeq p r s) := by
  unfold execFeq
  repeat' (first | with_reducible assumption | with_reducible exact Keeps.refl _ | with_reducible refine KeepsOut.of_next ?_ | with_reducible first | apply keeps_intR)

theorem keeps_execFlt (p : Fin 18) (r : RFmt) (s : State) : KeepsOut s (execFlt p r s) := by
  unfold execFlt
  repeat' (first | with_reducible assumption | with_reducible exact Keeps.refl _ | with_reducible refine KeepsOut.of_next ?_ | with_reducible first | apply keeps_intR)

theorem keeps_execFle (p : Fin 18) (r : RFmt) (s : State) : KeepsOut s (execFle p r s) := by
  unfold execFle
  repeat' (first | with_reducible assumption | with_reducible exact Keeps.refl _ | with_reducible refine KeepsOut.of_next ?_ | with_reducible first | apply keeps_intR)

theorem keeps_execItof (p : Fin 18) (r : RFmt) (s : State) : KeepsOut s (execItof p r s) := by
  unfold execItof
  repeat' (first | with_reducible assumption | with_reducible exact Keeps.refl _ | with_reducible refine KeepsOut.of_next ?_ | with_reducible first | apply keeps_intR1)

theorem keeps_execFtoi (p : Fin 18) (r : RFmt) (s : State) : KeepsOut s (execFtoi p r s) := by
  unfold execFtoi
  repeat' (first | with_reducible assumption | with_reducible exact Keeps.refl _ | with_reducible refine KeepsOut.of_next ?_ | with_reducible first | apply keeps_intR1)

theorem keeps_execFtoiz (p : Fin 18) (r : RFmt) (s : State) : KeepsOut s (execFtoiz p r s) := by
  unfold execFtoiz
  repeat' (first | with_reducible assumption | with_reducible exact Keeps.refl _ | with_reducible refine KeepsOut.of_next ?_ | with_reducible first | apply keeps_intR1)

theorem keeps_execAddK (p : Fin 18) (r : IFmt) (s : State) : KeepsOut s (execAddK p r s) := by
  unfold execAddK
  repeat' (first | with_reducible assumption | with_reducible exact Keeps.refl _ | with_reducible refine KeepsOut.of_next ?_ | with_reducible first | apply keeps_intI)

theorem keeps_execAndK (p : Fin 18) (r : IFmt) (s : State) : KeepsOut s (execAndK p r s) := by
  unfold execAndK
  repeat' (first | with_reducible assumption | with_reducible exact Keeps.refl _ | with_reducible refine KeepsOut.of_next ?_ | with_reducible first | apply keeps_intI)

theorem keeps_execOrK (p : Fin 18) (r : IFmt) (s : State) : KeepsOut s (execOrK p r s) := by
  unfold execOrK
  repeat' (first | with_reducible assumption | with_reducible exact Keeps.refl _ | with_reducible refine KeepsOut.of_next ?_ | with_reducible first | apply keeps_intI)

theorem keeps_execXorK (p : Fin 18) (r : IFmt) (s : State) : KeepsOut s (execXorK p r s) := by
  unfold execXorK
  repeat' (first | with_reducible assumption | with_reducible exact Keeps.refl _ | with_reducible refine KeepsOut.of_next ?_ | with_reducible first | apply keeps_intI)

theorem keeps_execCpltK (p : Fin 18) (r : IFmt) (s : State) : KeepsOut s (execCpltK p r s) := by
  unfold execCpltK
  repeat' (first | with_reducible assumption | with_reducible exact Keeps.refl _ | with_reducible refine KeepsOut.of_next ?_ | with_reducible first | apply keeps_intI)

theorem keeps_execCpltuK (p : Fin 18) (r : IFmt) (s : State) : KeepsOut s (execCpltuK p r s) := by
  unfold execCpltuK
  repeat' (first | with_reducible assumption | with_reducible exact Keeps.refl _ | with_reducible refine KeepsOut.of_next ?_ | with_reducible first | apply keeps_intI)

theorem keeps_execLdhi (p : Fin 18) (r : IFmt) (s : State) : KeepsOut s (execLdhi p r s) := by
  unfold execLdhi
  repeat' (first | with_reducible assumption | with_reducible exact Keeps.refl _ | with_reducible refine KeepsOut.of_next ?_ | with_reducible first | apply keeps_intI)

theorem keeps_execBperm (p : Fin 18) (r : IFmt) (s : State) : KeepsOut s (execBperm p r s) := by
  unfold execBperm
  repeat' (first | with_reducible assumption | with_reducible exact Keeps.refl _ | with_reducible refine KeepsOut.of_next ?_ | with_reducible first | apply keeps_runBperm)

theorem keeps_execBfx (p : Fin 18) (r : FieldFmt) (s : State) : KeepsOut s (execBfx p r s) := by
  unfold execBfx
  repeat' (first | with_reducible assumption | with_reducible exact Keeps.refl _ | with_reducible refine KeepsOut.of_next ?_ | with_reducible first | apply keeps_runBfx)

theorem keeps_execBfi (p : Fin 18) (r : FieldFmt) (s : State) : KeepsOut s (execBfi p r s) := by
  unfold execBfi
  repeat' (first | with_reducible assumption | with_reducible exact Keeps.refl _ | with_reducible refine KeepsOut.of_next ?_ | with_reducible first | apply keeps_runBfi)

theorem keeps_execBrEq (p : Fin 18) (r : BFmt) (s : State) : KeepsOut s (execBrEq p r s) := by
  unfold execBrEq
  repeat' (first | with_reducible assumption | with_reducible exact Keeps.refl _ | with_reducible refine KeepsOut.of_next ?_ | with_reducible first | apply keeps_branch)

theorem keeps_execBrNe (p : Fin 18) (r : BFmt) (s : State) : KeepsOut s (execBrNe p r s) := by
  unfold execBrNe
  repeat' (first | with_reducible assumption | with_reducible exact Keeps.refl _ | with_reducible refine KeepsOut.of_next ?_ | with_reducible first | apply keeps_branch)

theorem keeps_execBrLt (p : Fin 18) (r : BFmt) (s : State) : KeepsOut s (execBrLt p r s) := by
  unfold execBrLt
  repeat' (first | with_reducible assumption | with_reducible exact Keeps.refl _ | with_reducible refine KeepsOut.of_next ?_ | with_reducible first | apply keeps_branch)

theorem keeps_execBrGe (p : Fin 18) (r : BFmt) (s : State) : KeepsOut s (execBrGe p r s) := by
  unfold execBrGe
  repeat' (first | with_reducible assumption | with_reducible exact Keeps.refl _ | with_reducible refine KeepsOut.of_next ?_ | with_reducible first | apply keeps_branch)

end Sys2Proof.Machine
end

