-- ==== Sys2Proof/Laws/KeepsExecIsa.lean ====
section
/-! SUPPORT. What every operation keeps: the raw counter, the queue of commands, and the canonical forms of registers and memory; here for
the instructions, the host, power, start-up and reset commands, and an empty queue. -/
namespace Sys2Proof.Machine
open Sys2Proof

theorem keeps_execBrLtu (p : Fin 18) (r : BFmt) (s : State) : KeepsOut s (execBrLtu p r s) := by
  unfold execBrLtu
  repeat' (first | with_reducible assumption | with_reducible exact Keeps.refl _ | with_reducible refine KeepsOut.of_next ?_ | with_reducible first | apply keeps_branch)

theorem keeps_execBrGeu (p : Fin 18) (r : BFmt) (s : State) : KeepsOut s (execBrGeu p r s) := by
  unfold execBrGeu
  repeat' (first | with_reducible assumption | with_reducible exact Keeps.refl _ | with_reducible refine KeepsOut.of_next ?_ | with_reducible first | apply keeps_branch)

theorem keeps_execBrAny (p : Fin 18) (r : BFmt) (s : State) : KeepsOut s (execBrAny p r s) := by
  unfold execBrAny
  repeat' (first | with_reducible assumption | with_reducible exact Keeps.refl _ | with_reducible refine KeepsOut.of_next ?_ | with_reducible first | apply keeps_branch)

theorem keeps_execBrNone (p : Fin 18) (r : BFmt) (s : State) : KeepsOut s (execBrNone p r s) := by
  unfold execBrNone
  repeat' (first | with_reducible assumption | with_reducible exact Keeps.refl _ | with_reducible refine KeepsOut.of_next ?_ | with_reducible first | apply keeps_branch)

theorem keeps_execJmp (p : Fin 18) (off : BitVec 26) (s : State) : KeepsOut s (execJmp p off s) := by
  unfold execJmp
  repeat' (first | with_reducible assumption | with_reducible exact Keeps.refl _ | with_reducible refine KeepsOut.of_next ?_ | with_reducible first | apply keeps_jumpJ)

theorem keeps_execCall (p : Fin 18) (off : BitVec 26) (s : State) : KeepsOut s (execCall p off s) := by
  unfold execCall
  repeat' (first | with_reducible assumption | with_reducible exact Keeps.refl _ | with_reducible refine KeepsOut.of_next ?_ | with_reducible first | apply keeps_jumpJ)

theorem keeps_execJmpr (p : Fin 18) (r : RFmt) (s : State) : KeepsOut s (execJmpr p r s) := by
  unfold execJmpr
  repeat' (first | with_reducible assumption | with_reducible exact Keeps.refl _ | with_reducible refine KeepsOut.of_next ?_ | with_reducible first | apply keeps_jumpR)

theorem keeps_execCallr (p : Fin 18) (r : RFmt) (s : State) : KeepsOut s (execCallr p r s) := by
  unfold execCallr
  repeat' (first | with_reducible assumption | with_reducible exact Keeps.refl _ | with_reducible refine KeepsOut.of_next ?_ | with_reducible first | apply keeps_jumpR)

theorem keeps_execLdB (p : Fin 18) (r : IFmt) (s : State) : KeepsOut s (execLdB p r s) := by
  unfold execLdB
  repeat' (first | with_reducible assumption | with_reducible exact Keeps.refl _ | with_reducible refine KeepsOut.of_next ?_ | with_reducible first | apply keeps_load)

theorem keeps_execLdBu (p : Fin 18) (r : IFmt) (s : State) : KeepsOut s (execLdBu p r s) := by
  unfold execLdBu
  repeat' (first | with_reducible assumption | with_reducible exact Keeps.refl _ | with_reducible refine KeepsOut.of_next ?_ | with_reducible first | apply keeps_load)

theorem keeps_execLdH (p : Fin 18) (r : IFmt) (s : State) : KeepsOut s (execLdH p r s) := by
  unfold execLdH
  repeat' (first | with_reducible assumption | with_reducible exact Keeps.refl _ | with_reducible refine KeepsOut.of_next ?_ | with_reducible first | apply keeps_load)

theorem keeps_execLdHu (p : Fin 18) (r : IFmt) (s : State) : KeepsOut s (execLdHu p r s) := by
  unfold execLdHu
  repeat' (first | with_reducible assumption | with_reducible exact Keeps.refl _ | with_reducible refine KeepsOut.of_next ?_ | with_reducible first | apply keeps_load)

theorem keeps_execLdW (p : Fin 18) (r : IFmt) (s : State) : KeepsOut s (execLdW p r s) := by
  unfold execLdW
  repeat' (first | with_reducible assumption | with_reducible exact Keeps.refl _ | with_reducible refine KeepsOut.of_next ?_ | with_reducible first | apply keeps_load)

theorem keeps_execStB (p : Fin 18) (r : IFmt) (s : State) : KeepsOut s (execStB p r s) := by
  unfold execStB
  repeat' (first | with_reducible assumption | with_reducible exact Keeps.refl _ | with_reducible refine KeepsOut.of_next ?_ | with_reducible first | apply keeps_store)

theorem keeps_execStH (p : Fin 18) (r : IFmt) (s : State) : KeepsOut s (execStH p r s) := by
  unfold execStH
  repeat' (first | with_reducible assumption | with_reducible exact Keeps.refl _ | with_reducible refine KeepsOut.of_next ?_ | with_reducible first | apply keeps_store)

theorem keeps_execStW (p : Fin 18) (r : IFmt) (s : State) : KeepsOut s (execStW p r s) := by
  unfold execStW
  repeat' (first | with_reducible assumption | with_reducible exact Keeps.refl _ | with_reducible refine KeepsOut.of_next ?_ | with_reducible first | apply keeps_store)

theorem keeps_execAmadd (p : Fin 18) (r : RFmt) (s : State) : KeepsOut s (execAmadd p r s) := by
  unfold execAmadd
  repeat' (first | with_reducible assumption | with_reducible exact Keeps.refl _ | with_reducible refine KeepsOut.of_next ?_ | with_reducible first | apply keeps_atomicOp)

theorem keeps_execAmswap (p : Fin 18) (r : RFmt) (s : State) : KeepsOut s (execAmswap p r s) := by
  unfold execAmswap
  repeat' (first | with_reducible assumption | with_reducible exact Keeps.refl _ | with_reducible refine KeepsOut.of_next ?_ | with_reducible first | apply keeps_atomicOp)

theorem keeps_execMovs (p : Fin 18) (r : StrFmt) (s : State) : KeepsOut s (execMovs p r s) := by
  unfold execMovs
  repeat' (first | with_reducible assumption | with_reducible exact Keeps.refl _ | with_reducible refine KeepsOut.of_next ?_ | with_reducible first | apply keeps_string)

theorem keeps_execFills (p : Fin 18) (r : StrFmt) (s : State) : KeepsOut s (execFills p r s) := by
  unfold execFills
  repeat' (first | with_reducible assumption | with_reducible exact Keeps.refl _ | with_reducible refine KeepsOut.of_next ?_ | with_reducible first | apply keeps_string)

theorem keeps_execCmps (p : Fin 18) (r : StrFmt) (s : State) : KeepsOut s (execCmps p r s) := by
  unfold execCmps
  repeat' (first | with_reducible assumption | with_reducible exact Keeps.refl _ | with_reducible refine KeepsOut.of_next ?_ | with_reducible first | apply keeps_string)

theorem keeps_execRep (p : Fin 18) (r : StrFmt) (s : State) : KeepsOut s (execRep p r s) := by
  unfold execRep
  repeat' (first | with_reducible assumption | with_reducible exact Keeps.refl _ | with_reducible refine KeepsOut.of_next ?_ | with_reducible first | apply keeps_runRep)

theorem keeps_execTrap (p : Fin 18) (r : RFmt) (s : State) : KeepsOut s (execTrap p r s) := by
  unfold execTrap
  repeat' (first | with_reducible assumption | with_reducible exact Keeps.refl _ | with_reducible refine KeepsOut.of_next ?_ | with_reducible first | apply keeps_runTrap)

theorem keeps_execBrk (p : Fin 18) (r : RFmt) (s : State) : KeepsOut s (execBrk p r s) := by
  unfold execBrk
  repeat' (first | with_reducible assumption | with_reducible exact Keeps.refl _ | with_reducible refine KeepsOut.of_next ?_ | with_reducible first | apply keeps_runBrk)

theorem keeps_execTret (p : Fin 18) (r : RFmt) (s : State) : KeepsOut s (execTret p r s) := by
  unfold execTret
  repeat' (first | with_reducible assumption | with_reducible exact Keeps.refl _ | with_reducible refine KeepsOut.of_next ?_ | with_reducible first | apply keeps_runTret)

theorem keeps_execRds (p : Fin 18) (r : RFmt) (s : State) : KeepsOut s (execRds p r s) := by
  unfold execRds
  repeat' (first | with_reducible assumption | with_reducible exact Keeps.refl _ | with_reducible refine KeepsOut.of_next ?_ | with_reducible first | apply keeps_runRds)

theorem keeps_execWrs (p : Fin 18) (r : RFmt) (s : State) : KeepsOut s (execWrs p r s) := by
  unfold execWrs
  repeat' (first | with_reducible assumption | with_reducible exact Keeps.refl _ | with_reducible refine KeepsOut.of_next ?_ | with_reducible first | apply keeps_runWrs)

theorem keeps_execDrain (p : Fin 18) (r : RFmt) (s : State) : KeepsOut s (execDrain p r s) := by
  unfold execDrain
  repeat' (first | with_reducible assumption | with_reducible exact Keeps.refl _ | with_reducible refine KeepsOut.of_next ?_ | with_reducible first | apply keeps_runDrain)

theorem keeps_execTget (p : Fin 18) (r : RFmt) (s : State) : KeepsOut s (execTget p r s) := by
  unfold execTget
  repeat' (first | with_reducible assumption | with_reducible exact Keeps.refl _ | with_reducible refine KeepsOut.of_next ?_ | with_reducible first | apply keeps_runTget)

theorem keeps_execPush (p : Fin 18) (r : IoFmt) (s : State) : KeepsOut s (execPush p r s) := by
  unfold execPush
  repeat' (first | with_reducible assumption | with_reducible exact Keeps.refl _ | with_reducible refine KeepsOut.of_next ?_ | with_reducible first | apply keeps_runPush)

theorem keeps_execPop (p : Fin 18) (r : IoFmt) (s : State) : KeepsOut s (execPop p r s) := by
  unfold execPop
  repeat' (first | with_reducible assumption | with_reducible exact Keeps.refl _ | with_reducible refine KeepsOut.of_next ?_ | with_reducible first | apply keeps_runPop)

theorem keeps_execHctl (p : Fin 18) (r : IoFmt) (s : State) : KeepsOut s (execHctl p r s) := by
  unfold execHctl
  repeat' (first | with_reducible assumption | with_reducible exact Keeps.refl _ | with_reducible refine KeepsOut.of_next ?_ | with_reducible first | apply keeps_runHctl)

theorem keeps_execHsync (p : Fin 18) (r : IoFmt) (s : State) : KeepsOut s (execHsync p r s) := by
  unfold execHsync
  repeat' (first | with_reducible assumption | with_reducible exact Keeps.refl _ | with_reducible refine KeepsOut.of_next ?_ | with_reducible first | apply keeps_runHsync)

theorem keeps_execWev (p : Fin 18) (r : IoFmt) (s : State) : KeepsOut s (execWev p r s) := by
  unfold execWev
  repeat' (first | with_reducible assumption | with_reducible exact Keeps.refl _ | with_reducible refine KeepsOut.of_next ?_ | with_reducible first | apply keeps_runWev)

theorem keeps_execWevEoc (p : Fin 18) (r : IoFmt) (s : State) : KeepsOut s (execWevEoc p r s) := by
  unfold execWevEoc
  repeat' (first | with_reducible assumption | with_reducible exact Keeps.refl _ | with_reducible refine KeepsOut.of_next ?_ | with_reducible first | apply keeps_runEoc)

theorem keeps_execInterruptEntry (n : Fin 16) (s : State) : KeepsOut s (execInterruptEntry n s) := by
  unfold execInterruptEntry
  repeat' (first | with_reducible assumption | with_reducible exact Keeps.refl _ | with_reducible refine KeepsOut.of_next ?_ | intro _ | with_reducible first | apply keeps_guardUp | apply keeps_interrupt)

theorem keeps_execAdLib (p : Fin 18) (r : AdlibFmt) (s : State) : KeepsOut s (execAdLib p r s) := by
  unfold execAdLib
  repeat' (first | with_reducible assumption | with_reducible exact Keeps.refl _ | with_reducible refine KeepsOut.of_next ?_ | with_reducible first | apply keeps_runAdlib)

theorem keeps_execDmaDescriptorEnd (c : Fin 8) (s : State) : KeepsOut s (execDmaDescriptorEnd c s) := by
  unfold execDmaDescriptorEnd
  repeat' (first | with_reducible assumption | with_reducible exact Keeps.refl _ | with_reducible refine KeepsOut.of_next ?_ | intro _ | with_reducible first | apply keeps_guardUp | apply keeps_dmaDescriptor)

theorem keeps_execPcieMemoryRead (fn : Fin 2) (x : Fin 536870912) (n : Fin 4097) (s : State) : KeepsOut s (execPcieMemoryRead fn x n s) := by
  unfold execPcieMemoryRead
  repeat' (first | with_reducible assumption | with_reducible exact Keeps.refl _ | with_reducible refine KeepsOut.of_next ?_ | with_reducible first | apply keeps_pcieRead)

theorem keeps_execPcieMemoryWrite (fn : Fin 2) (x : Fin 536870912) (bs : List Byte) (s : State) : KeepsOut s (execPcieMemoryWrite fn x bs s) := by
  unfold execPcieMemoryWrite
  repeat' (first | with_reducible assumption | with_reducible exact Keeps.refl _ | with_reducible refine KeepsOut.of_next ?_ | with_reducible first | apply keeps_pcieWrite)

theorem keeps_execPcieAtomicop (fn : Fin 2) (x : Fin 536870912) (kind : Fin 3) (wide : Bool) (v : Word) (s : State) : KeepsOut s (execPcieAtomicop fn x kind wide v s) := by
  unfold execPcieAtomicop
  repeat' (first | with_reducible assumption | with_reducible exact Keeps.refl _ | with_reducible refine KeepsOut.of_next ?_ | with_reducible first | apply keeps_pcieAtomic)

theorem keeps_execPcieUnsupportedRequest (fn : Fin 2) (s : State) : KeepsOut s (execPcieUnsupportedRequest fn s) := by
  unfold execPcieUnsupportedRequest
  repeat' (first | with_reducible assumption | with_reducible exact Keeps.refl _ | with_reducible refine KeepsOut.of_next ?_ | with_reducible first | apply keeps_pcieUnsupported)

theorem keeps_execBusMasterEnable (fn : Fin 2) (on_ : Bool) (s : State) : KeepsOut s (execBusMasterEnable fn on_ s) := by
  unfold execBusMasterEnable
  repeat' (first | with_reducible assumption | with_reducible exact Keeps.refl _ | with_reducible refine KeepsOut.of_next ?_ | with_reducible first | apply keeps_busMaster)

theorem keeps_execMsixMaskChange (fn : Fin 2) (en : Bool) (fmask : Bool) (mask : BitVec 64) (s : State) : KeepsOut s (execMsixMaskChange fn en fmask mask s) := by
  unfold execMsixMaskChange
  repeat' (first | with_reducible assumption | with_reducible exact Keeps.refl _ | with_reducible refine KeepsOut.of_next ?_ | with_reducible first | apply keeps_msixMasks)

theorem keeps_execPcieLinkUp (gen : Fin 5) (two : Bool) (s : State) : KeepsOut s (execPcieLinkUp gen two s) := by
  unfold execPcieLinkUp
  repeat' (first | with_reducible assumption | with_reducible exact Keeps.refl _ | with_reducible refine KeepsOut.of_next ?_ | with_reducible first | apply keeps_linkTrained)

theorem keeps_execFunctionLoss (down : Bool) (perst : Bool) (fn : Fin 2) (s : State) : KeepsOut s (execFunctionLoss down perst fn s) := by
  unfold execFunctionLoss
  repeat' (first | with_reducible assumption | with_reducible exact Keeps.refl _ | with_reducible refine KeepsOut.of_next ?_ | with_reducible first | apply keeps_fnLoss)

theorem keeps_execQspiRead (w : Fin 1073741824) (n : Fin 64) (s : State) : KeepsOut s (execQspiRead w n s) := by
  unfold execQspiRead
  repeat' (first | with_reducible assumption | with_reducible exact Keeps.refl _ | with_reducible refine KeepsOut.of_next ?_ | intro _ | with_reducible first | apply keeps_qspiOp | apply keeps_qspiRead)

theorem keeps_execQspiQuadRead (w : Fin 1073741824) (n : Fin 64) (s : State) : KeepsOut s (execQspiQuadRead w n s) := by
  unfold execQspiQuadRead
  repeat' (first | with_reducible assumption | with_reducible exact Keeps.refl _ | with_reducible refine KeepsOut.of_next ?_ | intro _ | with_reducible first | apply keeps_qspiOp | apply keeps_qspiRead)

theorem keeps_execQspiWrite (w : Fin 1073741824) (n : Fin 64) (ds : List Word) (s : State) : KeepsOut s (execQspiWrite w n ds s) := by
  unfold execQspiWrite
  repeat' (first | with_reducible assumption | with_reducible exact Keeps.refl _ | with_reducible refine KeepsOut.of_next ?_ | intro _ | with_reducible first | apply keeps_qspiOp | apply keeps_qspiWrite)

theorem keeps_execQspiQuadWrite (w : Fin 1073741824) (n : Fin 64) (ds : List Word) (s : State) : KeepsOut s (execQspiQuadWrite w n ds s) := by
  unfold execQspiQuadWrite
  repeat' (first | with_reducible assumption | with_reducible exact Keeps.refl _ | with_reducible refine KeepsOut.of_next ?_ | intro _ | with_reducible first | apply keeps_qspiOp | apply keeps_qspiWrite)

theorem keeps_execQspiStatus (s : State) : KeepsOut s (execQspiStatus s) := by
  unfold execQspiStatus
  repeat' (first | with_reducible assumption | with_reducible exact Keeps.refl _ | with_reducible refine KeepsOut.of_next ?_ | with_reducible first | apply keeps_qspiStatus)

theorem keeps_execQspiUnknownInstruction (code : BitVec 8) (s : State) : KeepsOut s (execQspiUnknownInstruction code s) := by
  unfold execQspiUnknownInstruction
  repeat' (first | with_reducible assumption | with_reducible exact Keeps.refl _ | with_reducible refine KeepsOut.of_next ?_ | with_reducible first | apply keeps_qspiUnknown)

theorem keeps_execParPointerWrite (hi : Bool) (v : BitVec 16) (s : State) : KeepsOut s (execParPointerWrite hi v s) := by
  unfold execParPointerWrite
  repeat' (first | with_reducible assumption | with_reducible exact Keeps.refl _ | with_reducible refine KeepsOut.of_next ?_ | intro _ | with_reducible first | apply keeps_parOp | apply keeps_parPtr)

theorem keeps_execParControlWrite (v : BitVec 16) (s : State) : KeepsOut s (execParControlWrite v s) := by
  unfold execParControlWrite
  repeat' (first | with_reducible assumption | with_reducible exact Keeps.refl _ | with_reducible refine KeepsOut.of_next ?_ | intro _ | with_reducible first | apply keeps_parOp | apply keeps_setHost)

theorem keeps_execParStatusRead (s : State) : KeepsOut s (execParStatusRead s) := by
  unfold execParStatusRead
  repeat' (first | with_reducible assumption | with_reducible exact Keeps.refl _ | with_reducible refine KeepsOut.of_next ?_ | with_reducible first | apply keeps_parOp | apply keeps_parStatus)

theorem keeps_execParDataLowRead (s : State) : KeepsOut s (execParDataLowRead s) := by
  unfold execParDataLowRead
  repeat' (first | with_reducible assumption | with_reducible exact Keeps.refl _ | with_reducible refine KeepsOut.of_next ?_ | intro _ | with_reducible first | apply keeps_parOp | apply keeps_hostRun)

theorem keeps_execParDataHighRead (s : State) : KeepsOut s (execParDataHighRead s) := by
  unfold execParDataHighRead
  repeat' (first | with_reducible assumption | with_reducible exact Keeps.refl _ | with_reducible refine KeepsOut.of_next ?_ | with_reducible first | apply keeps_parOp | apply keeps_parHighRead)

theorem keeps_execParDataLowWrite (v : BitVec 16) (s : State) : KeepsOut s (execParDataLowWrite v s) := by
  unfold execParDataLowWrite
  repeat' (first | with_reducible assumption | with_reducible exact Keeps.refl _ | with_reducible refine KeepsOut.of_next ?_ | intro _ | with_reducible first | apply keeps_parOp | apply keeps_setHost)

theorem keeps_execParDataHighWrite (v : BitVec 16) (s : State) : KeepsOut s (execParDataHighWrite v s) := by
  unfold execParDataHighWrite
  repeat' (first | with_reducible assumption | with_reducible exact Keeps.refl _ | with_reducible refine KeepsOut.of_next ?_ | intro _ | with_reducible first | apply keeps_parOp | apply keeps_parHighWrite)

theorem keeps_execHotSwapGood (s : State) : KeepsOut s (execHotSwapGood s) := by
  unfold execHotSwapGood
  repeat' (first | with_reducible assumption | with_reducible exact Keeps.refl _ | with_reducible refine KeepsOut.of_next ?_ | with_reducible first | apply keeps_hotGood)

theorem keeps_execHotSwapFault (s : State) : KeepsOut s (execHotSwapFault s) := by
  unfold execHotSwapFault
  repeat' (first | with_reducible assumption | with_reducible exact Keeps.refl _ | with_reducible refine KeepsOut.of_next ?_ | with_reducible first | apply keeps_hotFault)

theorem keeps_execLapBoundary (dep0 : Fin 1024) (dep1 : Fin 1024) (told0 : Bool) (told1 : Bool) (bad : Bool) (s : State) : KeepsOut s (execLapBoundary dep0 dep1 told0 told1 bad s) := by
  unfold execLapBoundary
  repeat' (first | with_reducible assumption | with_reducible exact Keeps.refl _ | with_reducible refine KeepsOut.of_next ?_ | with_reducible first | apply keeps_lapBoundary)

theorem keeps_execDelayRequestInterval (sub0 : Fin 32) (sub1 : Fin 32) (s : State) : KeepsOut s (execDelayRequestInterval sub0 sub1 s) := by
  unfold execDelayRequestInterval
  repeat' (first | with_reducible assumption | with_reducible exact Keeps.refl _ | with_reducible refine KeepsOut.of_next ?_ | intro _ | with_reducible first | apply keeps_guardUp | apply keeps_delayInterval)

theorem keeps_execSplitPointFire (n : Fin 16) (s : State) : KeepsOut s (execSplitPointFire n s) := by
  unfold execSplitPointFire
  repeat' (first | with_reducible assumption | with_reducible exact Keeps.refl _ | with_reducible refine KeepsOut.of_next ?_ | intro _ | with_reducible first | apply keeps_guardUp | apply keeps_splitFire)

theorem keeps_execTriggerFire (n : Fin 8) (s : State) : KeepsOut s (execTriggerFire n s) := by
  unfold execTriggerFire
  repeat' (first | with_reducible assumption | with_reducible exact Keeps.refl _ | with_reducible refine KeepsOut.of_next ?_ | intro _ | with_reducible first | apply keeps_guardUp | apply keeps_trigFire)

theorem keeps_execTriggerPulseEnd (n : Fin 8) (s : State) : KeepsOut s (execTriggerPulseEnd n s) := by
  unfold execTriggerPulseEnd
  repeat' (first | with_reducible assumption | with_reducible exact Keeps.refl _ | with_reducible refine KeepsOut.of_next ?_ | intro _ | with_reducible first | apply keeps_guardUp | apply keeps_trigEnd)

theorem keeps_execCaptureEdge (n : Fin 8) (rising : Bool) (s : State) : KeepsOut s (execCaptureEdge n rising s) := by
  unfold execCaptureEdge
  repeat' (first | with_reducible assumption | with_reducible exact Keeps.refl _ | with_reducible refine KeepsOut.of_next ?_ | intro _ | with_reducible first | apply keeps_guardUp | apply keeps_capEdge)

theorem keeps_execFilteredEdge (n : Fin 64) (b : Bool) (s : State) : KeepsOut s (execFilteredEdge n b s) := by
  unfold execFilteredEdge
  repeat' (first | with_reducible assumption | with_reducible exact Keeps.refl _ | with_reducible refine KeepsOut.of_next ?_ | intro _ | with_reducible first | apply keeps_guardUp | apply keeps_filtEdge)

theorem keeps_execPowerFailWarning (s : State) : KeepsOut s (execPowerFailWarning s) := by
  unfold execPowerFailWarning
  repeat' (first | with_reducible assumption | with_reducible exact Keeps.refl _ | with_reducible refine KeepsOut.of_next ?_ | intro _ | with_reducible first | apply keeps_guardUp | apply keeps_pfWarn | apply keeps_ite)

theorem keeps_execVinRecovery (s : State) : KeepsOut s (execVinRecovery s) := by
  unfold execVinRecovery
  repeat' (first | with_reducible assumption | with_reducible exact Keeps.refl _ | with_reducible refine KeepsOut.of_next ?_ | intro _ | with_reducible first | apply keeps_guardUp | apply keeps_vinBack | apply keeps_ite)

theorem keeps_execConsumptionResume (s : State) : KeepsOut s (execConsumptionResume s) := by
  unfold execConsumptionResume
  repeat' (first | with_reducible assumption | with_reducible exact Keeps.refl _ | with_reducible refine KeepsOut.of_next ?_ | with_reducible first | apply keeps_guardUp | apply keeps_resumeAcc)

theorem keeps_execDomainWake (code : Fin 64) (s : State) : KeepsOut s (execDomainWake code s) := by
  unfold execDomainWake
  repeat' (first | with_reducible assumption | with_reducible exact Keeps.refl _ | with_reducible refine KeepsOut.of_next ?_ | intro _ | with_reducible first | apply keeps_guardUp | apply keeps_domUp)

theorem keeps_execBankInitDone (k : Fin 64) (s : State) : KeepsOut s (execBankInitDone k s) := by
  unfold execBankInitDone
  repeat' (first | with_reducible assumption | with_reducible exact Keeps.refl _ | with_reducible refine KeepsOut.of_next ?_ | intro _ | with_reducible first | apply keeps_guardUp | apply keeps_bankInit)

theorem keeps_execPwrDomain (seq : Nat) (_env : Env) (s : State) : KeepsOut s (execPwrDomain seq _env s) := by
  unfold execPwrDomain
  repeat' (first | with_reducible assumption | with_reducible exact Keeps.refl _ | with_reducible refine KeepsOut.of_next ?_ | with_reducible first | apply keeps_runCmd | apply keeps_opPwrDomain)

theorem keeps_execPwrHoldup (seq : Nat) (_env : Env) (s : State) : KeepsOut s (execPwrHoldup seq _env s) := by
  unfold execPwrHoldup
  repeat' (first | with_reducible assumption | with_reducible exact Keeps.refl _ | with_reducible refine KeepsOut.of_next ?_ | with_reducible first | apply keeps_runCmd | apply keeps_opPwrHoldup)

theorem keeps_execPwrStatus (seq : Nat) (_env : Env) (s : State) : KeepsOut s (execPwrStatus seq _env s) := by
  unfold execPwrStatus
  repeat' (first | with_reducible assumption | with_reducible exact Keeps.refl _ | with_reducible refine KeepsOut.of_next ?_ | with_reducible first | apply keeps_runCmd | apply keeps_opPwrStatus)

theorem keeps_execClockMonitorWindow (i : Fin 8) (dev : BitVec 16) (s : State) : KeepsOut s (execClockMonitorWindow i dev s) := by
  unfold execClockMonitorWindow
  repeat' (first | with_reducible assumption | with_reducible exact Keeps.refl _ | with_reducible refine KeepsOut.of_next ?_ | intro _ | with_reducible first | apply keeps_guardUp | apply keeps_clockWindow)

theorem keeps_execReferenceLoss (lost : Bool) (s : State) : KeepsOut s (execReferenceLoss lost s) := by
  unfold execReferenceLoss
  repeat' (first | with_reducible assumption | with_reducible exact Keeps.refl _ | with_reducible refine KeepsOut.of_next ?_ | intro _ | with_reducible first | apply keeps_guardUp | apply keeps_clockFlag | apply keeps_clockGood | apply keeps_ite)

theorem keeps_execRailOutOfWindow (r : Fin 7) (mv : Fin 65536) (s : State) : KeepsOut s (execRailOutOfWindow r mv s) := by
  unfold execRailOutOfWindow
  repeat' (first | with_reducible assumption | with_reducible exact Keeps.refl _ | with_reducible refine KeepsOut.of_next ?_ | intro _ | with_reducible first | apply keeps_guardUp | apply keeps_railOut)

theorem keeps_execRailBackInWindow (r : Fin 7) (s : State) : KeepsOut s (execRailBackInWindow r s) := by
  unfold execRailBackInWindow
  repeat' (first | with_reducible assumption | with_reducible exact Keeps.refl _ | with_reducible refine KeepsOut.of_next ?_ | intro _ | with_reducible first | apply keeps_guardUp | apply keeps_railIn)

theorem keeps_execTemperatureMonitor (k : Fin 6) (t : BitVec 16) (s : State) : KeepsOut s (execTemperatureMonitor k t s) := by
  unfold execTemperatureMonitor
  repeat' (first | with_reducible assumption | with_reducible exact Keeps.refl _ | with_reducible refine KeepsOut.of_next ?_ | intro _ | with_reducible first | apply keeps_guardUp | apply keeps_tempSample)

theorem keeps_execPllLock (s : State) : KeepsOut s (execPllLock s) := by
  unfold execPllLock
  repeat' (first | with_reducible assumption | with_reducible exact Keeps.refl _ | with_reducible refine KeepsOut.of_next ?_ | with_reducible first | apply keeps_pllLock)

theorem keeps_execUndervoltageLockout (s : State) : KeepsOut s (execUndervoltageLockout s) := by
  unfold execUndervoltageLockout
  repeat' (first | with_reducible assumption | with_reducible exact Keeps.refl _ | with_reducible refine KeepsOut.of_next ?_ | with_reducible first | apply keeps_lockout | apply keeps_ite)

theorem keeps_execWarmReset (s : State) : KeepsOut s (execWarmReset s) := by
  unfold execWarmReset
  repeat' (first | with_reducible assumption | with_reducible exact Keeps.refl _ | with_reducible refine KeepsOut.of_next ?_ | intro _ | with_reducible first | apply keeps_warmReset | apply keeps_ite | split)

theorem keeps_execStartUp (bist : Word) (bad : Bool) (s : State) : KeepsOut s (execStartUp bist bad s) := by
  unfold execStartUp
  repeat' (first | with_reducible assumption | with_reducible exact Keeps.refl _ | with_reducible refine KeepsOut.of_next ?_ | with_reducible first | apply keeps_startUp)

theorem keeps_execReadyTimeout (s : State) : KeepsOut s (execReadyTimeout s) := by
  unfold execReadyTimeout
  repeat' (first | with_reducible assumption | with_reducible exact Keeps.refl _ | with_reducible refine KeepsOut.of_next ?_ | with_reducible first | apply keeps_readyTimeout)

theorem keeps_execDiagBist (seq : Nat) (env : Env) (s : State) : KeepsOut s (execDiagBist seq env s) := by
  unfold execDiagBist
  repeat' (first | with_reducible assumption | with_reducible exact Keeps.refl _ | with_reducible refine KeepsOut.of_next ?_ | with_reducible first | apply keeps_runCmd | apply keeps_opDiagBist)

theorem keeps_execDiagLoop (seq : Nat) (env : Env) (s : State) : KeepsOut s (execDiagLoop seq env s) := by
  unfold execDiagLoop
  repeat' (first | with_reducible assumption | with_reducible exact Keeps.refl _ | with_reducible refine KeepsOut.of_next ?_ | with_reducible first | apply keeps_runCmd | apply keeps_opDiagLoop)

theorem keeps_execDiagInject (seq : Nat) (_env : Env) (s : State) : KeepsOut s (execDiagInject seq _env s) := by
  unfold execDiagInject
  repeat' (first | with_reducible assumption | with_reducible exact Keeps.refl _ | with_reducible refine KeepsOut.of_next ?_ | with_reducible first | apply keeps_runCmd | apply keeps_opDiagInject)

theorem keeps_execDiagWdog (seq : Nat) (_env : Env) (s : State) : KeepsOut s (execDiagWdog seq _env s) := by
  unfold execDiagWdog
  repeat' (first | with_reducible assumption | with_reducible exact Keeps.refl _ | with_reducible refine KeepsOut.of_next ?_ | with_reducible first | apply keeps_runCmd | apply keeps_opDiagWdog)

theorem keeps_execLockstepMismatch (who : Fin 3) (s : State) : KeepsOut s (execLockstepMismatch who s) := by
  unfold execLockstepMismatch
  repeat' (first | with_reducible assumption | with_reducible exact Keeps.refl _ | with_reducible refine KeepsOut.of_next ?_ | intro _ | with_reducible first | apply keeps_guardUp | apply keeps_pairMismatch | apply keeps_coreFault | apply keeps_ite)

theorem keeps_execDebuggerAttach (on : Bool) (s : State) : KeepsOut s (execDebuggerAttach on s) := by
  unfold execDebuggerAttach
  repeat' (first | with_reducible assumption | with_reducible exact Keeps.refl _ | with_reducible refine KeepsOut.of_next ?_ | intro _ | with_reducible first | apply keeps_guardUp | apply keeps_debugger)

theorem keeps_execHostReadCompletion (what : Fin 4) (seq : Nat) (env : Env) (s : State) : KeepsOut s (execHostReadCompletion what seq env s) := by
  unfold execHostReadCompletion
  repeat' (first | with_reducible assumption | with_reducible exact Keeps.refl _ | with_reducible refine KeepsOut.of_next ?_ | intro _ | with_reducible first | apply keeps_guardUp | apply keeps_hostReadDone)

theorem keeps_execHostReadTimeout (ring : Bool) (seq : Nat) (s : State) : KeepsOut s (execHostReadTimeout ring seq s) := by
  unfold execHostReadTimeout
  repeat' (first | with_reducible assumption | with_reducible exact Keeps.refl _ | with_reducible refine KeepsOut.of_next ?_ | intro _ | with_reducible first | apply keeps_guardUp | apply keeps_hostReadLate)

/-- The registers that a cold reset loads are loaded into a state that already meets the canonical forms. -/
theorem keeps_factoryRegs_wr {s0 : State} (s : State) (cause : Nat) (hk : Keeps s0 s) : Keeps s0 ((s.factoryRegs).wr F.SYS_RSTCAUSE_cause cause) :=
  keeps_wr _ _ _ (keeps_factoryRegs s hk)

/-- What the start of a power-on or cold reset leaves: a raw counter of zero, the queue, registers and memory in canonical form. -/
theorem coldBase_facts (s : State) (cause : Nat) :
    (s.coldBase cause).raw = 0 ∧ (s.coldBase cause).pending = s.pending ∧ Registers.wf (s.coldBase cause).regs = true ∧
    (Memory.wf s.mem = true → Memory.wf (s.coldBase cause).mem = true) := by
  unfold State.coldBase
  extract_lets m x y z
  have h := keeps_factoryRegs_wr z cause (Keeps.refl z)
  exact ⟨h.raw, h.pending, h.regs rfl, fun hm => h.mem (swf_filter _ _ _ hm)⟩

/-- A cold reset changes only what its start leaves, by the updates that keep the canonical forms. -/
theorem keeps_coldReset (s : State) (cause : Nat) : Keeps (s.coldBase cause) (s.coldReset cause) := by
  unfold State.coldReset
  extract_lets x y z v
  refine keeps_seeAgain _ _ (keeps_wr _ _ _ (keeps_wr _ _ _ ?_))
  exact keeps_ite (keeps_wr _ _ _ (keeps_wr _ _ _ (keeps_setReg _ _ _ (keeps_outside _ _ (Keeps.refl _)))))
    (keeps_wr _ _ _ (keeps_setReg _ _ _ (keeps_outside _ _ (Keeps.refl _))))

/-- COLD_RESET keeps the queue and the canonical forms; where the raw counter changes it is zero. -/
theorem coldReset_facts (pin : Bool) (s t : State) (h : execColdReset pin s = .next t) :
    t.pending = s.pending ∧ (t.raw = s.raw ∨ t.raw = 0) ∧ (Registers.wf s.regs = true → Registers.wf t.regs = true) ∧
    (Memory.wf s.mem = true → Memory.wf t.mem = true) := by
  unfold execColdReset at h
  split at h
  · obtain ⟨rfl⟩ := h
    have a := keeps_abandonLoads s (Keeps.refl s)
    have b := coldBase_facts s.abandonLoads (if pin then 2 else 3)
    have c := keeps_coldReset s.abandonLoads (if pin then 2 else 3)
    exact ⟨c.pending.trans (b.2.1.trans a.pending), .inr (c.raw.trans b.1), fun _ => c.regs b.2.2.1, fun hm => c.mem (b.2.2.2 (a.mem hm))⟩
  · obtain ⟨rfl⟩ := h
    exact ⟨rfl, .inl rfl, id, id⟩

/-- POWER_ON_RESET keeps the queue and the canonical forms; where the raw counter changes it is zero. -/
theorem powerOnReset_facts (cmos : Bool) (s t : State) (h : execPowerOnReset cmos s = .next t) :
    t.pending = s.pending ∧ (t.raw = s.raw ∨ t.raw = 0) ∧ (Registers.wf s.regs = true → Registers.wf t.regs = true) ∧
    (Memory.wf s.mem = true → Memory.wf t.mem = true) := by
  unfold execPowerOnReset at h
  obtain ⟨rfl⟩ := h
  split
  · exact ⟨rfl, .inl rfl, id, id⟩
  · have b := coldBase_facts s 1
    have c := keeps_wr (s.coldBase 1) F.CLK_STAT_refcmos (if cmos then 1 else 0) (Keeps.refl _)
    exact ⟨c.pending.trans b.2.1, .inr (c.raw.trans b.1), fun _ => c.regs b.2.2.1, fun hm => c.mem (b.2.2.2 hm)⟩

theorem keeps_holdTick {s0 : State} (s : State) (p : Nat) (hk : Keeps s0 s) : Keeps s0 (s.holdTick p) := by
  unfold State.holdTick
  exact keeps_ite (keeps_wr _ _ _ (keeps_wr _ _ _ hk)) hk

/-- An empty queue: the raw counter counts, and nothing else leaves the canonical forms. -/
theorem idle_facts (s : State) :
    s.idle.pending = s.pending ∧ (s.idle.raw = s.raw ∨ s.idle.raw = (s.raw + 1) % 2 ^ 64) ∧
    (Registers.wf s.regs = true → Registers.wf s.idle.regs = true) ∧ (Memory.wf s.mem = true → Memory.wf s.idle.mem = true) := by
  unfold State.idle
  split
  · have c := keeps_holdTick _ 1 (keeps_holdTick _ 0 (Keeps.refl s.tick))
    exact ⟨c.pending, .inr c.raw, c.regs, c.mem⟩
  · exact ⟨rfl, .inl rfl, id, id⟩

end Sys2Proof.Machine
end

