-- ==== Sys2Proof/Laws/Run.lean ====
section
/-! SUPPORT. What the shared frames of the commands do, each said once: the step of an opcode, the issue of an instruction, and the guards of the
register rows. -/
namespace Sys2Proof.Machine
open Sys2Proof

theorem State.Due.seq_eq {s : State} {op seq : Nat} {c : CmdRec} (h : s.Due op seq c) : c.seq = seq := by
  have h1 := List.find?_some h.1
  simpa using h1

/-- The step of an opcode runs once, on the command it is due for. -/
theorem runCmd_due {s : State} {op seq : Nat} {c : CmdRec} (h : s.Due op seq c) (body : CmdRec → State → State) :
    s.runCmd op seq body = body c (s.begun seq) := by
  obtain ⟨h1, h2, h3, h4, h5, h6, h7⟩ := h
  simp [State.runCmd, h1, h2, h3, h4, h5, h6, h7, State.begun]

/-- A command that is not there, or whose step has been taken, is left alone. -/
theorem runCmd_idle {s : State} {op seq : Nat} (h : ∀ c, ¬ s.Due op seq c) (body : CmdRec → State → State) : s.runCmd op seq body = s := by
  unfold State.runCmd
  cases hc : s.findCmd seq with
  | none => rfl
  | some c =>
    have hn := h c
    unfold State.Due at hn
    simp only [hc, true_and] at hn
    refine if_neg (fun k => hn ⟨k.1, k.2.1, k.2.2.1, ?_, k.2.2.2.2.1, k.2.2.2.2.2⟩)
    simpa [Option.isNone_iff_eq_none] using k.2.2.2.1

/-- An instruction that stands at the PC with legal fields is executed and retired. -/
theorem issue_runs {s t : State} {p : Nat} {w : Word} (h : s.Issues p w t) (body : State → Res × State) :
    s.issue p w true body = State.retire p (body t) := by
  obtain ⟨h1, h2, h3⟩ := h
  simp [State.issue, h1, h2, h3]

/-- An instruction with a reserved value in a field raises ILLEGAL (R239). -/
theorem issue_illegal {s t : State} {p : Nat} {w : Word} (h : s.Issues p w t) (body : State → Res × State) :
    s.issue p w false body = t.takeTrap p 1 w := by
  obtain ⟨h1, h2, h3⟩ := h
  simp [State.issue, h1, h2, h3]

theorem getD_updAt {α : Type} (l : List α) (i j : Nat) (f : α → α) (d : α) :
    (updAt l i f).getD j d = if i = j ∧ j < l.length then f (l.getD j d) else l.getD j d := by
  induction l generalizing i j with
  | nil => simp [updAt]
  | cons x t ih =>
    cases i with
    | zero => cases j <;> simp [updAt]
    | succ i => cases j with
      | zero => simp [updAt]
      | succ j => simpa [updAt] using ih i j

/-- A write of a general register leaves every PC as it was. -/
theorem pcOf_setW (s : State) (p i q : Nat) (v : Word) : (s.setW p i v).pcOf q = s.pcOf q := by
  unfold State.setW State.pcOf State.proc
  split
  · rfl
  · unfold State.setProc
    simp only
    rw [getD_updAt]
    split <;> rfl

/-- An instruction that writes wd and goes on. -/
theorem retire_putNext (t : State) (p wd : Nat) (v : Word) : State.retire p (.next, t.setW p wd v) = t.putNext p wd v := by
  unfold State.retire State.putNext
  simp only [pcOf_setW]

theorem guardUp_up {s : State} (h : s.alive = true) (f : State → State) : s.guardUp f = f s := by simp [State.guardUp, h]
theorem guardUp_down {s : State} (h : s.alive = false) (f : State → State) : s.guardUp f = s := by simp [State.guardUp, h]
theorem guardBs_ok {s : State} {id : Ident} (h : s.Backs id) (a : Nat) (f : State → State) : s.guardBs id a f = f s := by
  simp [State.guardBs, h.1, h.2]
theorem guardBs_refused {s : State} {id : Ident} (h : s.alive = true) (hb : s.backstage id = false) (a : Nat) (f : State → State) :
    s.guardBs id a f = s.viewFault id a true false := by simp [State.guardBs, h, hb]
theorem canGuard_ok {s : State} {id : Ident} (h : s.Backs id) (n : Nat) (f : State → State) : s.canGuard id n f = f s := guardBs_ok h _ _
theorem macGuard_ok {s : State} {id : Ident} (h : s.Backs id) (m : Nat) (f : State → State) : s.macGuard id m f = f s := guardBs_ok h _ _
theorem motGuard_ok {s : State} {id : Ident} (h : s.Backs id) (n : Nat) (f : State → State) : s.motGuard id n f = f s := guardBs_ok h _ _
/-- A write by any identity but another engine reaches a stagehand (R22, R270). -/
theorem guardHand_ok {s : State} {id : Ident} {h : Nat} (hr : s.Reaches id h) (a : Nat) (f : State → State) : s.guardHand id h a f = f s := by
  simp [State.guardHand, hr.1, hr.2]

end Sys2Proof.Machine
end

