-- ==== Sys2Proof/Laws/State.lean ====
section
/-! SUPPORT. One lemma per field per update of State: each named update leaves every field but its own as it was. -/
namespace Sys2Proof.Machine
open Sys2Proof

variable (s : State)

@[simp] theorem setReg_shadow (a : Nat) (v : Word) : (s.setReg a v).shadow = s.shadow := rfl
@[simp] theorem setReg_mem (a : Nat) (v : Word) : (s.setReg a v).mem = s.mem := rfl
@[simp] theorem setReg_raw (a : Nat) (v : Word) : (s.setReg a v).raw = s.raw := rfl
@[simp] theorem setReg_cmd (a : Nat) (v : Word) : (s.setReg a v).cmd = s.cmd := rfl
@[simp] theorem setReg_memu (a : Nat) (v : Word) : (s.setReg a v).memu = s.memu := rfl
@[simp] theorem setReg_host (a : Nat) (v : Word) : (s.setReg a v).host = s.host := rfl
@[simp] theorem setReg_power (a : Nat) (v : Word) : (s.setReg a v).power = s.power := rfl
@[simp] theorem setReg_ring (a : Nat) (v : Word) : (s.setReg a v).ring = s.ring := rfl
@[simp] theorem setReg_time (a : Nat) (v : Word) : (s.setReg a v).time = s.time := rfl
@[simp] theorem setReg_mrsh (a : Nat) (v : Word) : (s.setReg a v).mrsh = s.mrsh := rfl
@[simp] theorem setReg_heal (a : Nat) (v : Word) : (s.setReg a v).heal = s.heal := rfl
@[simp] theorem setReg_fab (a : Nat) (v : Word) : (s.setReg a v).fab = s.fab := rfl
@[simp] theorem setReg_gate (a : Nat) (v : Word) : (s.setReg a v).gate = s.gate := rfl
@[simp] theorem setReg_pairs (a : Nat) (v : Word) : (s.setReg a v).pairs = s.pairs := rfl
@[simp] theorem setReg_procs (a : Nat) (v : Word) : (s.setReg a v).procs = s.procs := rfl
@[simp] theorem setReg_engs (a : Nat) (v : Word) : (s.setReg a v).engs = s.engs := rfl
@[simp] theorem setReg_hands (a : Nat) (v : Word) : (s.setReg a v).hands = s.hands := rfl
@[simp] theorem setReg_adlib (a : Nat) (v : Word) : (s.setReg a v).adlib = s.adlib := rfl
@[simp] theorem setReg_lib (a : Nat) (v : Word) : (s.setReg a v).lib = s.lib := rfl
@[simp] theorem setReg_lines (a : Nat) (v : Word) : (s.setReg a v).lines = s.lines := rfl
@[simp] theorem setReg_field (a : Nat) (v : Word) : (s.setReg a v).field = s.field := rfl
@[simp] theorem setReg_cans (a : Nat) (v : Word) : (s.setReg a v).cans = s.cans := rfl
@[simp] theorem setReg_net (a : Nat) (v : Word) : (s.setReg a v).net = s.net := rfl
@[simp] theorem setReg_mots (a : Nat) (v : Word) : (s.setReg a v).mots = s.mots := rfl
@[simp] theorem setReg_drvs (a : Nat) (v : Word) : (s.setReg a v).drvs = s.drvs := rfl
@[simp] theorem setReg_out (a : Nat) (v : Word) : (s.setReg a v).out = s.out := rfl
@[simp] theorem setReg_free (a : Nat) (v : Word) : (s.setReg a v).free = s.free := rfl
@[simp] theorem setReg_pending (a : Nat) (v : Word) : (s.setReg a v).pending = s.pending := rfl

@[simp] theorem wr_shadow (f : Fld) (v : Nat) : (s.wr f v).shadow = s.shadow := rfl
@[simp] theorem wr_mem (f : Fld) (v : Nat) : (s.wr f v).mem = s.mem := rfl
@[simp] theorem wr_raw (f : Fld) (v : Nat) : (s.wr f v).raw = s.raw := rfl
@[simp] theorem wr_cmd (f : Fld) (v : Nat) : (s.wr f v).cmd = s.cmd := rfl
@[simp] theorem wr_memu (f : Fld) (v : Nat) : (s.wr f v).memu = s.memu := rfl
@[simp] theorem wr_host (f : Fld) (v : Nat) : (s.wr f v).host = s.host := rfl
@[simp] theorem wr_power (f : Fld) (v : Nat) : (s.wr f v).power = s.power := rfl
@[simp] theorem wr_ring (f : Fld) (v : Nat) : (s.wr f v).ring = s.ring := rfl
@[simp] theorem wr_time (f : Fld) (v : Nat) : (s.wr f v).time = s.time := rfl
@[simp] theorem wr_mrsh (f : Fld) (v : Nat) : (s.wr f v).mrsh = s.mrsh := rfl
@[simp] theorem wr_heal (f : Fld) (v : Nat) : (s.wr f v).heal = s.heal := rfl
@[simp] theorem wr_fab (f : Fld) (v : Nat) : (s.wr f v).fab = s.fab := rfl
@[simp] theorem wr_gate (f : Fld) (v : Nat) : (s.wr f v).gate = s.gate := rfl
@[simp] theorem wr_pairs (f : Fld) (v : Nat) : (s.wr f v).pairs = s.pairs := rfl
@[simp] theorem wr_procs (f : Fld) (v : Nat) : (s.wr f v).procs = s.procs := rfl
@[simp] theorem wr_engs (f : Fld) (v : Nat) : (s.wr f v).engs = s.engs := rfl
@[simp] theorem wr_hands (f : Fld) (v : Nat) : (s.wr f v).hands = s.hands := rfl
@[simp] theorem wr_adlib (f : Fld) (v : Nat) : (s.wr f v).adlib = s.adlib := rfl
@[simp] theorem wr_lib (f : Fld) (v : Nat) : (s.wr f v).lib = s.lib := rfl
@[simp] theorem wr_lines (f : Fld) (v : Nat) : (s.wr f v).lines = s.lines := rfl
@[simp] theorem wr_field (f : Fld) (v : Nat) : (s.wr f v).field = s.field := rfl
@[simp] theorem wr_cans (f : Fld) (v : Nat) : (s.wr f v).cans = s.cans := rfl
@[simp] theorem wr_net (f : Fld) (v : Nat) : (s.wr f v).net = s.net := rfl
@[simp] theorem wr_mots (f : Fld) (v : Nat) : (s.wr f v).mots = s.mots := rfl
@[simp] theorem wr_drvs (f : Fld) (v : Nat) : (s.wr f v).drvs = s.drvs := rfl
@[simp] theorem wr_out (f : Fld) (v : Nat) : (s.wr f v).out = s.out := rfl
@[simp] theorem wr_free (f : Fld) (v : Nat) : (s.wr f v).free = s.free := rfl
@[simp] theorem wr_pending (f : Fld) (v : Nat) : (s.wr f v).pending = s.pending := rfl

@[simp] theorem setShadow_regs (a : Nat) (v : Word) : (s.setShadow a v).regs = s.regs := rfl
@[simp] theorem setShadow_mem (a : Nat) (v : Word) : (s.setShadow a v).mem = s.mem := rfl
@[simp] theorem setShadow_raw (a : Nat) (v : Word) : (s.setShadow a v).raw = s.raw := rfl
@[simp] theorem setShadow_cmd (a : Nat) (v : Word) : (s.setShadow a v).cmd = s.cmd := rfl
@[simp] theorem setShadow_memu (a : Nat) (v : Word) : (s.setShadow a v).memu = s.memu := rfl
@[simp] theorem setShadow_host (a : Nat) (v : Word) : (s.setShadow a v).host = s.host := rfl
@[simp] theorem setShadow_power (a : Nat) (v : Word) : (s.setShadow a v).power = s.power := rfl
@[simp] theorem setShadow_ring (a : Nat) (v : Word) : (s.setShadow a v).ring = s.ring := rfl
@[simp] theorem setShadow_time (a : Nat) (v : Word) : (s.setShadow a v).time = s.time := rfl
@[simp] theorem setShadow_mrsh (a : Nat) (v : Word) : (s.setShadow a v).mrsh = s.mrsh := rfl
@[simp] theorem setShadow_heal (a : Nat) (v : Word) : (s.setShadow a v).heal = s.heal := rfl
@[simp] theorem setShadow_fab (a : Nat) (v : Word) : (s.setShadow a v).fab = s.fab := rfl
@[simp] theorem setShadow_gate (a : Nat) (v : Word) : (s.setShadow a v).gate = s.gate := rfl
@[simp] theorem setShadow_pairs (a : Nat) (v : Word) : (s.setShadow a v).pairs = s.pairs := rfl
@[simp] theorem setShadow_procs (a : Nat) (v : Word) : (s.setShadow a v).procs = s.procs := rfl
@[simp] theorem setShadow_engs (a : Nat) (v : Word) : (s.setShadow a v).engs = s.engs := rfl
@[simp] theorem setShadow_hands (a : Nat) (v : Word) : (s.setShadow a v).hands = s.hands := rfl
@[simp] theorem setShadow_adlib (a : Nat) (v : Word) : (s.setShadow a v).adlib = s.adlib := rfl
@[simp] theorem setShadow_lib (a : Nat) (v : Word) : (s.setShadow a v).lib = s.lib := rfl
@[simp] theorem setShadow_lines (a : Nat) (v : Word) : (s.setShadow a v).lines = s.lines := rfl
@[simp] theorem setShadow_field (a : Nat) (v : Word) : (s.setShadow a v).field = s.field := rfl
@[simp] theorem setShadow_cans (a : Nat) (v : Word) : (s.setShadow a v).cans = s.cans := rfl
@[simp] theorem setShadow_net (a : Nat) (v : Word) : (s.setShadow a v).net = s.net := rfl
@[simp] theorem setShadow_mots (a : Nat) (v : Word) : (s.setShadow a v).mots = s.mots := rfl
@[simp] theorem setShadow_drvs (a : Nat) (v : Word) : (s.setShadow a v).drvs = s.drvs := rfl
@[simp] theorem setShadow_out (a : Nat) (v : Word) : (s.setShadow a v).out = s.out := rfl
@[simp] theorem setShadow_free (a : Nat) (v : Word) : (s.setShadow a v).free = s.free := rfl
@[simp] theorem setShadow_pending (a : Nat) (v : Word) : (s.setShadow a v).pending = s.pending := rfl

@[simp] theorem dropShadow_regs (l : List Nat) : (s.dropShadow l).regs = s.regs := rfl
@[simp] theorem dropShadow_mem (l : List Nat) : (s.dropShadow l).mem = s.mem := rfl
@[simp] theorem dropShadow_raw (l : List Nat) : (s.dropShadow l).raw = s.raw := rfl
@[simp] theorem dropShadow_cmd (l : List Nat) : (s.dropShadow l).cmd = s.cmd := rfl
@[simp] theorem dropShadow_memu (l : List Nat) : (s.dropShadow l).memu = s.memu := rfl
@[simp] theorem dropShadow_host (l : List Nat) : (s.dropShadow l).host = s.host := rfl
@[simp] theorem dropShadow_power (l : List Nat) : (s.dropShadow l).power = s.power := rfl
@[simp] theorem dropShadow_ring (l : List Nat) : (s.dropShadow l).ring = s.ring := rfl
@[simp] theorem dropShadow_time (l : List Nat) : (s.dropShadow l).time = s.time := rfl
@[simp] theorem dropShadow_mrsh (l : List Nat) : (s.dropShadow l).mrsh = s.mrsh := rfl
@[simp] theorem dropShadow_heal (l : List Nat) : (s.dropShadow l).heal = s.heal := rfl
@[simp] theorem dropShadow_fab (l : List Nat) : (s.dropShadow l).fab = s.fab := rfl
@[simp] theorem dropShadow_gate (l : List Nat) : (s.dropShadow l).gate = s.gate := rfl
@[simp] theorem dropShadow_pairs (l : List Nat) : (s.dropShadow l).pairs = s.pairs := rfl
@[simp] theorem dropShadow_procs (l : List Nat) : (s.dropShadow l).procs = s.procs := rfl
@[simp] theorem dropShadow_engs (l : List Nat) : (s.dropShadow l).engs = s.engs := rfl
@[simp] theorem dropShadow_hands (l : List Nat) : (s.dropShadow l).hands = s.hands := rfl
@[simp] theorem dropShadow_adlib (l : List Nat) : (s.dropShadow l).adlib = s.adlib := rfl
@[simp] theorem dropShadow_lib (l : List Nat) : (s.dropShadow l).lib = s.lib := rfl
@[simp] theorem dropShadow_lines (l : List Nat) : (s.dropShadow l).lines = s.lines := rfl
@[simp] theorem dropShadow_field (l : List Nat) : (s.dropShadow l).field = s.field := rfl
@[simp] theorem dropShadow_cans (l : List Nat) : (s.dropShadow l).cans = s.cans := rfl
@[simp] theorem dropShadow_net (l : List Nat) : (s.dropShadow l).net = s.net := rfl
@[simp] theorem dropShadow_mots (l : List Nat) : (s.dropShadow l).mots = s.mots := rfl
@[simp] theorem dropShadow_drvs (l : List Nat) : (s.dropShadow l).drvs = s.drvs := rfl
@[simp] theorem dropShadow_out (l : List Nat) : (s.dropShadow l).out = s.out := rfl
@[simp] theorem dropShadow_free (l : List Nat) : (s.dropShadow l).free = s.free := rfl
@[simp] theorem dropShadow_pending (l : List Nat) : (s.dropShadow l).pending = s.pending := rfl

@[simp] theorem setByte_regs (a : Nat) (b : Byte) : (s.setByte a b).regs = s.regs := rfl
@[simp] theorem setByte_shadow (a : Nat) (b : Byte) : (s.setByte a b).shadow = s.shadow := rfl
@[simp] theorem setByte_raw (a : Nat) (b : Byte) : (s.setByte a b).raw = s.raw := rfl
@[simp] theorem setByte_cmd (a : Nat) (b : Byte) : (s.setByte a b).cmd = s.cmd := rfl
@[simp] theorem setByte_memu (a : Nat) (b : Byte) : (s.setByte a b).memu = s.memu := rfl
@[simp] theorem setByte_host (a : Nat) (b : Byte) : (s.setByte a b).host = s.host := rfl
@[simp] theorem setByte_power (a : Nat) (b : Byte) : (s.setByte a b).power = s.power := rfl
@[simp] theorem setByte_ring (a : Nat) (b : Byte) : (s.setByte a b).ring = s.ring := rfl
@[simp] theorem setByte_time (a : Nat) (b : Byte) : (s.setByte a b).time = s.time := rfl
@[simp] theorem setByte_mrsh (a : Nat) (b : Byte) : (s.setByte a b).mrsh = s.mrsh := rfl
@[simp] theorem setByte_heal (a : Nat) (b : Byte) : (s.setByte a b).heal = s.heal := rfl
@[simp] theorem setByte_fab (a : Nat) (b : Byte) : (s.setByte a b).fab = s.fab := rfl
@[simp] theorem setByte_gate (a : Nat) (b : Byte) : (s.setByte a b).gate = s.gate := rfl
@[simp] theorem setByte_pairs (a : Nat) (b : Byte) : (s.setByte a b).pairs = s.pairs := rfl
@[simp] theorem setByte_procs (a : Nat) (b : Byte) : (s.setByte a b).procs = s.procs := rfl
@[simp] theorem setByte_engs (a : Nat) (b : Byte) : (s.setByte a b).engs = s.engs := rfl
@[simp] theorem setByte_hands (a : Nat) (b : Byte) : (s.setByte a b).hands = s.hands := rfl
@[simp] theorem setByte_adlib (a : Nat) (b : Byte) : (s.setByte a b).adlib = s.adlib := rfl
@[simp] theorem setByte_lib (a : Nat) (b : Byte) : (s.setByte a b).lib = s.lib := rfl
@[simp] theorem setByte_lines (a : Nat) (b : Byte) : (s.setByte a b).lines = s.lines := rfl
@[simp] theorem setByte_field (a : Nat) (b : Byte) : (s.setByte a b).field = s.field := rfl
@[simp] theorem setByte_cans (a : Nat) (b : Byte) : (s.setByte a b).cans = s.cans := rfl
@[simp] theorem setByte_net (a : Nat) (b : Byte) : (s.setByte a b).net = s.net := rfl
@[simp] theorem setByte_mots (a : Nat) (b : Byte) : (s.setByte a b).mots = s.mots := rfl
@[simp] theorem setByte_drvs (a : Nat) (b : Byte) : (s.setByte a b).drvs = s.drvs := rfl
@[simp] theorem setByte_out (a : Nat) (b : Byte) : (s.setByte a b).out = s.out := rfl
@[simp] theorem setByte_free (a : Nat) (b : Byte) : (s.setByte a b).free = s.free := rfl
@[simp] theorem setByte_pending (a : Nat) (b : Byte) : (s.setByte a b).pending = s.pending := rfl

@[simp] theorem zeroMem_regs (a n : Nat) : (s.zeroMem a n).regs = s.regs := rfl
@[simp] theorem zeroMem_shadow (a n : Nat) : (s.zeroMem a n).shadow = s.shadow := rfl
@[simp] theorem zeroMem_raw (a n : Nat) : (s.zeroMem a n).raw = s.raw := rfl
@[simp] theorem zeroMem_cmd (a n : Nat) : (s.zeroMem a n).cmd = s.cmd := rfl
@[simp] theorem zeroMem_memu (a n : Nat) : (s.zeroMem a n).memu = s.memu := rfl
@[simp] theorem zeroMem_host (a n : Nat) : (s.zeroMem a n).host = s.host := rfl
@[simp] theorem zeroMem_power (a n : Nat) : (s.zeroMem a n).power = s.power := rfl
@[simp] theorem zeroMem_ring (a n : Nat) : (s.zeroMem a n).ring = s.ring := rfl
@[simp] theorem zeroMem_time (a n : Nat) : (s.zeroMem a n).time = s.time := rfl
@[simp] theorem zeroMem_mrsh (a n : Nat) : (s.zeroMem a n).mrsh = s.mrsh := rfl
@[simp] theorem zeroMem_heal (a n : Nat) : (s.zeroMem a n).heal = s.heal := rfl
@[simp] theorem zeroMem_fab (a n : Nat) : (s.zeroMem a n).fab = s.fab := rfl
@[simp] theorem zeroMem_gate (a n : Nat) : (s.zeroMem a n).gate = s.gate := rfl
@[simp] theorem zeroMem_pairs (a n : Nat) : (s.zeroMem a n).pairs = s.pairs := rfl
@[simp] theorem zeroMem_procs (a n : Nat) : (s.zeroMem a n).procs = s.procs := rfl
@[simp] theorem zeroMem_engs (a n : Nat) : (s.zeroMem a n).engs = s.engs := rfl
@[simp] theorem zeroMem_hands (a n : Nat) : (s.zeroMem a n).hands = s.hands := rfl
@[simp] theorem zeroMem_adlib (a n : Nat) : (s.zeroMem a n).adlib = s.adlib := rfl
@[simp] theorem zeroMem_lib (a n : Nat) : (s.zeroMem a n).lib = s.lib := rfl
@[simp] theorem zeroMem_lines (a n : Nat) : (s.zeroMem a n).lines = s.lines := rfl
@[simp] theorem zeroMem_field (a n : Nat) : (s.zeroMem a n).field = s.field := rfl
@[simp] theorem zeroMem_cans (a n : Nat) : (s.zeroMem a n).cans = s.cans := rfl
@[simp] theorem zeroMem_net (a n : Nat) : (s.zeroMem a n).net = s.net := rfl
@[simp] theorem zeroMem_mots (a n : Nat) : (s.zeroMem a n).mots = s.mots := rfl
@[simp] theorem zeroMem_drvs (a n : Nat) : (s.zeroMem a n).drvs = s.drvs := rfl
@[simp] theorem zeroMem_out (a n : Nat) : (s.zeroMem a n).out = s.out := rfl
@[simp] theorem zeroMem_free (a n : Nat) : (s.zeroMem a n).free = s.free := rfl
@[simp] theorem zeroMem_pending (a n : Nat) : (s.zeroMem a n).pending = s.pending := rfl

@[simp] theorem tick_regs : (s.tick).regs = s.regs := rfl
@[simp] theorem tick_shadow : (s.tick).shadow = s.shadow := rfl
@[simp] theorem tick_mem : (s.tick).mem = s.mem := rfl
@[simp] theorem tick_cmd : (s.tick).cmd = s.cmd := rfl
@[simp] theorem tick_memu : (s.tick).memu = s.memu := rfl
@[simp] theorem tick_host : (s.tick).host = s.host := rfl
@[simp] theorem tick_power : (s.tick).power = s.power := rfl
@[simp] theorem tick_ring : (s.tick).ring = s.ring := rfl
@[simp] theorem tick_time : (s.tick).time = s.time := rfl
@[simp] theorem tick_mrsh : (s.tick).mrsh = s.mrsh := rfl
@[simp] theorem tick_heal : (s.tick).heal = s.heal := rfl
@[simp] theorem tick_fab : (s.tick).fab = s.fab := rfl
@[simp] theorem tick_gate : (s.tick).gate = s.gate := rfl
@[simp] theorem tick_pairs : (s.tick).pairs = s.pairs := rfl
@[simp] theorem tick_procs : (s.tick).procs = s.procs := rfl
@[simp] theorem tick_engs : (s.tick).engs = s.engs := rfl
@[simp] theorem tick_hands : (s.tick).hands = s.hands := rfl
@[simp] theorem tick_adlib : (s.tick).adlib = s.adlib := rfl
@[simp] theorem tick_lib : (s.tick).lib = s.lib := rfl
@[simp] theorem tick_lines : (s.tick).lines = s.lines := rfl
@[simp] theorem tick_field : (s.tick).field = s.field := rfl
@[simp] theorem tick_cans : (s.tick).cans = s.cans := rfl
@[simp] theorem tick_net : (s.tick).net = s.net := rfl
@[simp] theorem tick_mots : (s.tick).mots = s.mots := rfl
@[simp] theorem tick_drvs : (s.tick).drvs = s.drvs := rfl
@[simp] theorem tick_out : (s.tick).out = s.out := rfl
@[simp] theorem tick_free : (s.tick).free = s.free := rfl
@[simp] theorem tick_pending : (s.tick).pending = s.pending := rfl

@[simp] theorem emit_regs (e : Emit) : (s.emit e).regs = s.regs := rfl
@[simp] theorem emit_shadow (e : Emit) : (s.emit e).shadow = s.shadow := rfl
@[simp] theorem emit_mem (e : Emit) : (s.emit e).mem = s.mem := rfl
@[simp] theorem emit_raw (e : Emit) : (s.emit e).raw = s.raw := rfl
@[simp] theorem emit_cmd (e : Emit) : (s.emit e).cmd = s.cmd := rfl
@[simp] theorem emit_memu (e : Emit) : (s.emit e).memu = s.memu := rfl
@[simp] theorem emit_host (e : Emit) : (s.emit e).host = s.host := rfl
@[simp] theorem emit_power (e : Emit) : (s.emit e).power = s.power := rfl
@[simp] theorem emit_ring (e : Emit) : (s.emit e).ring = s.ring := rfl
@[simp] theorem emit_time (e : Emit) : (s.emit e).time = s.time := rfl
@[simp] theorem emit_mrsh (e : Emit) : (s.emit e).mrsh = s.mrsh := rfl
@[simp] theorem emit_heal (e : Emit) : (s.emit e).heal = s.heal := rfl
@[simp] theorem emit_fab (e : Emit) : (s.emit e).fab = s.fab := rfl
@[simp] theorem emit_gate (e : Emit) : (s.emit e).gate = s.gate := rfl
@[simp] theorem emit_pairs (e : Emit) : (s.emit e).pairs = s.pairs := rfl
@[simp] theorem emit_procs (e : Emit) : (s.emit e).procs = s.procs := rfl
@[simp] theorem emit_engs (e : Emit) : (s.emit e).engs = s.engs := rfl
@[simp] theorem emit_hands (e : Emit) : (s.emit e).hands = s.hands := rfl
@[simp] theorem emit_adlib (e : Emit) : (s.emit e).adlib = s.adlib := rfl
@[simp] theorem emit_lib (e : Emit) : (s.emit e).lib = s.lib := rfl
@[simp] theorem emit_lines (e : Emit) : (s.emit e).lines = s.lines := rfl
@[simp] theorem emit_field (e : Emit) : (s.emit e).field = s.field := rfl
@[simp] theorem emit_cans (e : Emit) : (s.emit e).cans = s.cans := rfl
@[simp] theorem emit_net (e : Emit) : (s.emit e).net = s.net := rfl
@[simp] theorem emit_mots (e : Emit) : (s.emit e).mots = s.mots := rfl
@[simp] theorem emit_drvs (e : Emit) : (s.emit e).drvs = s.drvs := rfl
@[simp] theorem emit_free (e : Emit) : (s.emit e).free = s.free := rfl
@[simp] theorem emit_pending (e : Emit) : (s.emit e).pending = s.pending := rfl

@[simp] theorem useFree_regs : (s.useFree).regs = s.regs := rfl
@[simp] theorem useFree_shadow : (s.useFree).shadow = s.shadow := rfl
@[simp] theorem useFree_mem : (s.useFree).mem = s.mem := rfl
@[simp] theorem useFree_raw : (s.useFree).raw = s.raw := rfl
@[simp] theorem useFree_cmd : (s.useFree).cmd = s.cmd := rfl
@[simp] theorem useFree_memu : (s.useFree).memu = s.memu := rfl
@[simp] theorem useFree_host : (s.useFree).host = s.host := rfl
@[simp] theorem useFree_power : (s.useFree).power = s.power := rfl
@[simp] theorem useFree_ring : (s.useFree).ring = s.ring := rfl
@[simp] theorem useFree_time : (s.useFree).time = s.time := rfl
@[simp] theorem useFree_mrsh : (s.useFree).mrsh = s.mrsh := rfl
@[simp] theorem useFree_heal : (s.useFree).heal = s.heal := rfl
@[simp] theorem useFree_fab : (s.useFree).fab = s.fab := rfl
@[simp] theorem useFree_gate : (s.useFree).gate = s.gate := rfl
@[simp] theorem useFree_pairs : (s.useFree).pairs = s.pairs := rfl
@[simp] theorem useFree_procs : (s.useFree).procs = s.procs := rfl
@[simp] theorem useFree_engs : (s.useFree).engs = s.engs := rfl
@[simp] theorem useFree_hands : (s.useFree).hands = s.hands := rfl
@[simp] theorem useFree_adlib : (s.useFree).adlib = s.adlib := rfl
@[simp] theorem useFree_lib : (s.useFree).lib = s.lib := rfl
@[simp] theorem useFree_lines : (s.useFree).lines = s.lines := rfl
@[simp] theorem useFree_field : (s.useFree).field = s.field := rfl
@[simp] theorem useFree_cans : (s.useFree).cans = s.cans := rfl
@[simp] theorem useFree_net : (s.useFree).net = s.net := rfl
@[simp] theorem useFree_mots : (s.useFree).mots = s.mots := rfl
@[simp] theorem useFree_drvs : (s.useFree).drvs = s.drvs := rfl
@[simp] theorem useFree_out : (s.useFree).out = s.out := rfl
@[simp] theorem useFree_pending : (s.useFree).pending = s.pending := rfl

@[simp] theorem withQueue_regs (q : List Instr) : (s.withQueue q).regs = s.regs := rfl
@[simp] theorem withQueue_shadow (q : List Instr) : (s.withQueue q).shadow = s.shadow := rfl
@[simp] theorem withQueue_mem (q : List Instr) : (s.withQueue q).mem = s.mem := rfl
@[simp] theorem withQueue_raw (q : List Instr) : (s.withQueue q).raw = s.raw := rfl
@[simp] theorem withQueue_cmd (q : List Instr) : (s.withQueue q).cmd = s.cmd := rfl
@[simp] theorem withQueue_memu (q : List Instr) : (s.withQueue q).memu = s.memu := rfl
@[simp] theorem withQueue_host (q : List Instr) : (s.withQueue q).host = s.host := rfl
@[simp] theorem withQueue_power (q : List Instr) : (s.withQueue q).power = s.power := rfl
@[simp] theorem withQueue_ring (q : List Instr) : (s.withQueue q).ring = s.ring := rfl
@[simp] theorem withQueue_time (q : List Instr) : (s.withQueue q).time = s.time := rfl
@[simp] theorem withQueue_mrsh (q : List Instr) : (s.withQueue q).mrsh = s.mrsh := rfl
@[simp] theorem withQueue_heal (q : List Instr) : (s.withQueue q).heal = s.heal := rfl
@[simp] theorem withQueue_fab (q : List Instr) : (s.withQueue q).fab = s.fab := rfl
@[simp] theorem withQueue_gate (q : List Instr) : (s.withQueue q).gate = s.gate := rfl
@[simp] theorem withQueue_pairs (q : List Instr) : (s.withQueue q).pairs = s.pairs := rfl
@[simp] theorem withQueue_procs (q : List Instr) : (s.withQueue q).procs = s.procs := rfl
@[simp] theorem withQueue_engs (q : List Instr) : (s.withQueue q).engs = s.engs := rfl
@[simp] theorem withQueue_hands (q : List Instr) : (s.withQueue q).hands = s.hands := rfl
@[simp] theorem withQueue_adlib (q : List Instr) : (s.withQueue q).adlib = s.adlib := rfl
@[simp] theorem withQueue_lib (q : List Instr) : (s.withQueue q).lib = s.lib := rfl
@[simp] theorem withQueue_lines (q : List Instr) : (s.withQueue q).lines = s.lines := rfl
@[simp] theorem withQueue_field (q : List Instr) : (s.withQueue q).field = s.field := rfl
@[simp] theorem withQueue_cans (q : List Instr) : (s.withQueue q).cans = s.cans := rfl
@[simp] theorem withQueue_net (q : List Instr) : (s.withQueue q).net = s.net := rfl
@[simp] theorem withQueue_mots (q : List Instr) : (s.withQueue q).mots = s.mots := rfl
@[simp] theorem withQueue_drvs (q : List Instr) : (s.withQueue q).drvs = s.drvs := rfl
@[simp] theorem withQueue_out (q : List Instr) : (s.withQueue q).out = s.out := rfl
@[simp] theorem withQueue_free (q : List Instr) : (s.withQueue q).free = s.free := rfl

@[simp] theorem setQueue_regs (q : Nat) (f : QueueSt → QueueSt) : (s.setQueue q f).regs = s.regs := rfl
@[simp] theorem setQueue_shadow (q : Nat) (f : QueueSt → QueueSt) : (s.setQueue q f).shadow = s.shadow := rfl
@[simp] theorem setQueue_mem (q : Nat) (f : QueueSt → QueueSt) : (s.setQueue q f).mem = s.mem := rfl
@[simp] theorem setQueue_raw (q : Nat) (f : QueueSt → QueueSt) : (s.setQueue q f).raw = s.raw := rfl
@[simp] theorem setQueue_memu (q : Nat) (f : QueueSt → QueueSt) : (s.setQueue q f).memu = s.memu := rfl
@[simp] theorem setQueue_host (q : Nat) (f : QueueSt → QueueSt) : (s.setQueue q f).host = s.host := rfl
@[simp] theorem setQueue_power (q : Nat) (f : QueueSt → QueueSt) : (s.setQueue q f).power = s.power := rfl
@[simp] theorem setQueue_ring (q : Nat) (f : QueueSt → QueueSt) : (s.setQueue q f).ring = s.ring := rfl
@[simp] theorem setQueue_time (q : Nat) (f : QueueSt → QueueSt) : (s.setQueue q f).time = s.time := rfl
@[simp] theorem setQueue_mrsh (q : Nat) (f : QueueSt → QueueSt) : (s.setQueue q f).mrsh = s.mrsh := rfl
@[simp] theorem setQueue_heal (q : Nat) (f : QueueSt → QueueSt) : (s.setQueue q f).heal = s.heal := rfl
@[simp] theorem setQueue_fab (q : Nat) (f : QueueSt → QueueSt) : (s.setQueue q f).fab = s.fab := rfl
@[simp] theorem setQueue_gate (q : Nat) (f : QueueSt → QueueSt) : (s.setQueue q f).gate = s.gate := rfl
@[simp] theorem setQueue_pairs (q : Nat) (f : QueueSt → QueueSt) : (s.setQueue q f).pairs = s.pairs := rfl
@[simp] theorem setQueue_procs (q : Nat) (f : QueueSt → QueueSt) : (s.setQueue q f).procs = s.procs := rfl
@[simp] theorem setQueue_engs (q : Nat) (f : QueueSt → QueueSt) : (s.setQueue q f).engs = s.engs := rfl
@[simp] theorem setQueue_hands (q : Nat) (f : QueueSt → QueueSt) : (s.setQueue q f).hands = s.hands := rfl
@[simp] theorem setQueue_adlib (q : Nat) (f : QueueSt → QueueSt) : (s.setQueue q f).adlib = s.adlib := rfl
@[simp] theorem setQueue_lib (q : Nat) (f : QueueSt → QueueSt) : (s.setQueue q f).lib = s.lib := rfl
@[simp] theorem setQueue_lines (q : Nat) (f : QueueSt → QueueSt) : (s.setQueue q f).lines = s.lines := rfl
@[simp] theorem setQueue_field (q : Nat) (f : QueueSt → QueueSt) : (s.setQueue q f).field = s.field := rfl
@[simp] theorem setQueue_cans (q : Nat) (f : QueueSt → QueueSt) : (s.setQueue q f).cans = s.cans := rfl
@[simp] theorem setQueue_net (q : Nat) (f : QueueSt → QueueSt) : (s.setQueue q f).net = s.net := rfl
@[simp] theorem setQueue_mots (q : Nat) (f : QueueSt → QueueSt) : (s.setQueue q f).mots = s.mots := rfl
@[simp] theorem setQueue_drvs (q : Nat) (f : QueueSt → QueueSt) : (s.setQueue q f).drvs = s.drvs := rfl
@[simp] theorem setQueue_out (q : Nat) (f : QueueSt → QueueSt) : (s.setQueue q f).out = s.out := rfl
@[simp] theorem setQueue_free (q : Nat) (f : QueueSt → QueueSt) : (s.setQueue q f).free = s.free := rfl
@[simp] theorem setQueue_pending (q : Nat) (f : QueueSt → QueueSt) : (s.setQueue q f).pending = s.pending := rfl

@[simp] theorem setDma_regs (c : Nat) (f : DmaSt → DmaSt) : (s.setDma c f).regs = s.regs := rfl
@[simp] theorem setDma_shadow (c : Nat) (f : DmaSt → DmaSt) : (s.setDma c f).shadow = s.shadow := rfl
@[simp] theorem setDma_mem (c : Nat) (f : DmaSt → DmaSt) : (s.setDma c f).mem = s.mem := rfl
@[simp] theorem setDma_raw (c : Nat) (f : DmaSt → DmaSt) : (s.setDma c f).raw = s.raw := rfl
@[simp] theorem setDma_cmd (c : Nat) (f : DmaSt → DmaSt) : (s.setDma c f).cmd = s.cmd := rfl
@[simp] theorem setDma_host (c : Nat) (f : DmaSt → DmaSt) : (s.setDma c f).host = s.host := rfl
@[simp] theorem setDma_power (c : Nat) (f : DmaSt → DmaSt) : (s.setDma c f).power = s.power := rfl
@[simp] theorem setDma_ring (c : Nat) (f : DmaSt → DmaSt) : (s.setDma c f).ring = s.ring := rfl
@[simp] theorem setDma_time (c : Nat) (f : DmaSt → DmaSt) : (s.setDma c f).time = s.time := rfl
@[simp] theorem setDma_mrsh (c : Nat) (f : DmaSt → DmaSt) : (s.setDma c f).mrsh = s.mrsh := rfl
@[simp] theorem setDma_heal (c : Nat) (f : DmaSt → DmaSt) : (s.setDma c f).heal = s.heal := rfl
@[simp] theorem setDma_fab (c : Nat) (f : DmaSt → DmaSt) : (s.setDma c f).fab = s.fab := rfl
@[simp] theorem setDma_gate (c : Nat) (f : DmaSt → DmaSt) : (s.setDma c f).gate = s.gate := rfl
@[simp] theorem setDma_pairs (c : Nat) (f : DmaSt → DmaSt) : (s.setDma c f).pairs = s.pairs := rfl
@[simp] theorem setDma_procs (c : Nat) (f : DmaSt → DmaSt) : (s.setDma c f).procs = s.procs := rfl
@[simp] theorem setDma_engs (c : Nat) (f : DmaSt → DmaSt) : (s.setDma c f).engs = s.engs := rfl
@[simp] theorem setDma_hands (c : Nat) (f : DmaSt → DmaSt) : (s.setDma c f).hands = s.hands := rfl
@[simp] theorem setDma_adlib (c : Nat) (f : DmaSt → DmaSt) : (s.setDma c f).adlib = s.adlib := rfl
@[simp] theorem setDma_lib (c : Nat) (f : DmaSt → DmaSt) : (s.setDma c f).lib = s.lib := rfl
@[simp] theorem setDma_lines (c : Nat) (f : DmaSt → DmaSt) : (s.setDma c f).lines = s.lines := rfl
@[simp] theorem setDma_field (c : Nat) (f : DmaSt → DmaSt) : (s.setDma c f).field = s.field := rfl
@[simp] theorem setDma_cans (c : Nat) (f : DmaSt → DmaSt) : (s.setDma c f).cans = s.cans := rfl
@[simp] theorem setDma_net (c : Nat) (f : DmaSt → DmaSt) : (s.setDma c f).net = s.net := rfl
@[simp] theorem setDma_mots (c : Nat) (f : DmaSt → DmaSt) : (s.setDma c f).mots = s.mots := rfl
@[simp] theorem setDma_drvs (c : Nat) (f : DmaSt → DmaSt) : (s.setDma c f).drvs = s.drvs := rfl
@[simp] theorem setDma_out (c : Nat) (f : DmaSt → DmaSt) : (s.setDma c f).out = s.out := rfl
@[simp] theorem setDma_free (c : Nat) (f : DmaSt → DmaSt) : (s.setDma c f).free = s.free := rfl
@[simp] theorem setDma_pending (c : Nat) (f : DmaSt → DmaSt) : (s.setDma c f).pending = s.pending := rfl

@[simp] theorem setHost_regs (f : HostSt → HostSt) : (s.setHost f).regs = s.regs := rfl
@[simp] theorem setHost_shadow (f : HostSt → HostSt) : (s.setHost f).shadow = s.shadow := rfl
@[simp] theorem setHost_mem (f : HostSt → HostSt) : (s.setHost f).mem = s.mem := rfl
@[simp] theorem setHost_raw (f : HostSt → HostSt) : (s.setHost f).raw = s.raw := rfl
@[simp] theorem setHost_cmd (f : HostSt → HostSt) : (s.setHost f).cmd = s.cmd := rfl
@[simp] theorem setHost_memu (f : HostSt → HostSt) : (s.setHost f).memu = s.memu := rfl
@[simp] theorem setHost_power (f : HostSt → HostSt) : (s.setHost f).power = s.power := rfl
@[simp] theorem setHost_ring (f : HostSt → HostSt) : (s.setHost f).ring = s.ring := rfl
@[simp] theorem setHost_time (f : HostSt → HostSt) : (s.setHost f).time = s.time := rfl
@[simp] theorem setHost_mrsh (f : HostSt → HostSt) : (s.setHost f).mrsh = s.mrsh := rfl
@[simp] theorem setHost_heal (f : HostSt → HostSt) : (s.setHost f).heal = s.heal := rfl
@[simp] theorem setHost_fab (f : HostSt → HostSt) : (s.setHost f).fab = s.fab := rfl
@[simp] theorem setHost_gate (f : HostSt → HostSt) : (s.setHost f).gate = s.gate := rfl
@[simp] theorem setHost_pairs (f : HostSt → HostSt) : (s.setHost f).pairs = s.pairs := rfl
@[simp] theorem setHost_procs (f : HostSt → HostSt) : (s.setHost f).procs = s.procs := rfl
@[simp] theorem setHost_engs (f : HostSt → HostSt) : (s.setHost f).engs = s.engs := rfl
@[simp] theorem setHost_hands (f : HostSt → HostSt) : (s.setHost f).hands = s.hands := rfl
@[simp] theorem setHost_adlib (f : HostSt → HostSt) : (s.setHost f).adlib = s.adlib := rfl
@[simp] theorem setHost_lib (f : HostSt → HostSt) : (s.setHost f).lib = s.lib := rfl
@[simp] theorem setHost_lines (f : HostSt → HostSt) : (s.setHost f).lines = s.lines := rfl
@[simp] theorem setHost_field (f : HostSt → HostSt) : (s.setHost f).field = s.field := rfl
@[simp] theorem setHost_cans (f : HostSt → HostSt) : (s.setHost f).cans = s.cans := rfl
@[simp] theorem setHost_net (f : HostSt → HostSt) : (s.setHost f).net = s.net := rfl
@[simp] theorem setHost_mots (f : HostSt → HostSt) : (s.setHost f).mots = s.mots := rfl
@[simp] theorem setHost_drvs (f : HostSt → HostSt) : (s.setHost f).drvs = s.drvs := rfl
@[simp] theorem setHost_out (f : HostSt → HostSt) : (s.setHost f).out = s.out := rfl
@[simp] theorem setHost_free (f : HostSt → HostSt) : (s.setHost f).free = s.free := rfl
@[simp] theorem setHost_pending (f : HostSt → HostSt) : (s.setHost f).pending = s.pending := rfl

@[simp] theorem setFn_regs (n : Nat) (f : FnSt → FnSt) : (s.setFn n f).regs = s.regs := rfl
@[simp] theorem setFn_shadow (n : Nat) (f : FnSt → FnSt) : (s.setFn n f).shadow = s.shadow := rfl
@[simp] theorem setFn_mem (n : Nat) (f : FnSt → FnSt) : (s.setFn n f).mem = s.mem := rfl
@[simp] theorem setFn_raw (n : Nat) (f : FnSt → FnSt) : (s.setFn n f).raw = s.raw := rfl
@[simp] theorem setFn_cmd (n : Nat) (f : FnSt → FnSt) : (s.setFn n f).cmd = s.cmd := rfl
@[simp] theorem setFn_memu (n : Nat) (f : FnSt → FnSt) : (s.setFn n f).memu = s.memu := rfl
@[simp] theorem setFn_power (n : Nat) (f : FnSt → FnSt) : (s.setFn n f).power = s.power := rfl
@[simp] theorem setFn_ring (n : Nat) (f : FnSt → FnSt) : (s.setFn n f).ring = s.ring := rfl
@[simp] theorem setFn_time (n : Nat) (f : FnSt → FnSt) : (s.setFn n f).time = s.time := rfl
@[simp] theorem setFn_mrsh (n : Nat) (f : FnSt → FnSt) : (s.setFn n f).mrsh = s.mrsh := rfl
@[simp] theorem setFn_heal (n : Nat) (f : FnSt → FnSt) : (s.setFn n f).heal = s.heal := rfl
@[simp] theorem setFn_fab (n : Nat) (f : FnSt → FnSt) : (s.setFn n f).fab = s.fab := rfl
@[simp] theorem setFn_gate (n : Nat) (f : FnSt → FnSt) : (s.setFn n f).gate = s.gate := rfl
@[simp] theorem setFn_pairs (n : Nat) (f : FnSt → FnSt) : (s.setFn n f).pairs = s.pairs := rfl
@[simp] theorem setFn_procs (n : Nat) (f : FnSt → FnSt) : (s.setFn n f).procs = s.procs := rfl
@[simp] theorem setFn_engs (n : Nat) (f : FnSt → FnSt) : (s.setFn n f).engs = s.engs := rfl
@[simp] theorem setFn_hands (n : Nat) (f : FnSt → FnSt) : (s.setFn n f).hands = s.hands := rfl
@[simp] theorem setFn_adlib (n : Nat) (f : FnSt → FnSt) : (s.setFn n f).adlib = s.adlib := rfl
@[simp] theorem setFn_lib (n : Nat) (f : FnSt → FnSt) : (s.setFn n f).lib = s.lib := rfl
@[simp] theorem setFn_lines (n : Nat) (f : FnSt → FnSt) : (s.setFn n f).lines = s.lines := rfl
@[simp] theorem setFn_field (n : Nat) (f : FnSt → FnSt) : (s.setFn n f).field = s.field := rfl
@[simp] theorem setFn_cans (n : Nat) (f : FnSt → FnSt) : (s.setFn n f).cans = s.cans := rfl
@[simp] theorem setFn_net (n : Nat) (f : FnSt → FnSt) : (s.setFn n f).net = s.net := rfl
@[simp] theorem setFn_mots (n : Nat) (f : FnSt → FnSt) : (s.setFn n f).mots = s.mots := rfl
@[simp] theorem setFn_drvs (n : Nat) (f : FnSt → FnSt) : (s.setFn n f).drvs = s.drvs := rfl
@[simp] theorem setFn_out (n : Nat) (f : FnSt → FnSt) : (s.setFn n f).out = s.out := rfl
@[simp] theorem setFn_free (n : Nat) (f : FnSt → FnSt) : (s.setFn n f).free = s.free := rfl
@[simp] theorem setFn_pending (n : Nat) (f : FnSt → FnSt) : (s.setFn n f).pending = s.pending := rfl

@[simp] theorem setPower_regs (f : PowerSt → PowerSt) : (s.setPower f).regs = s.regs := rfl
@[simp] theorem setPower_shadow (f : PowerSt → PowerSt) : (s.setPower f).shadow = s.shadow := rfl
@[simp] theorem setPower_mem (f : PowerSt → PowerSt) : (s.setPower f).mem = s.mem := rfl
@[simp] theorem setPower_raw (f : PowerSt → PowerSt) : (s.setPower f).raw = s.raw := rfl
@[simp] theorem setPower_cmd (f : PowerSt → PowerSt) : (s.setPower f).cmd = s.cmd := rfl
@[simp] theorem setPower_memu (f : PowerSt → PowerSt) : (s.setPower f).memu = s.memu := rfl
@[simp] theorem setPower_host (f : PowerSt → PowerSt) : (s.setPower f).host = s.host := rfl
@[simp] theorem setPower_ring (f : PowerSt → PowerSt) : (s.setPower f).ring = s.ring := rfl
@[simp] theorem setPower_time (f : PowerSt → PowerSt) : (s.setPower f).time = s.time := rfl
@[simp] theorem setPower_mrsh (f : PowerSt → PowerSt) : (s.setPower f).mrsh = s.mrsh := rfl
@[simp] theorem setPower_heal (f : PowerSt → PowerSt) : (s.setPower f).heal = s.heal := rfl
@[simp] theorem setPower_fab (f : PowerSt → PowerSt) : (s.setPower f).fab = s.fab := rfl
@[simp] theorem setPower_gate (f : PowerSt → PowerSt) : (s.setPower f).gate = s.gate := rfl
@[simp] theorem setPower_pairs (f : PowerSt → PowerSt) : (s.setPower f).pairs = s.pairs := rfl
@[simp] theorem setPower_procs (f : PowerSt → PowerSt) : (s.setPower f).procs = s.procs := rfl
@[simp] theorem setPower_engs (f : PowerSt → PowerSt) : (s.setPower f).engs = s.engs := rfl
@[simp] theorem setPower_hands (f : PowerSt → PowerSt) : (s.setPower f).hands = s.hands := rfl
@[simp] theorem setPower_adlib (f : PowerSt → PowerSt) : (s.setPower f).adlib = s.adlib := rfl
@[simp] theorem setPower_lib (f : PowerSt → PowerSt) : (s.setPower f).lib = s.lib := rfl
@[simp] theorem setPower_lines (f : PowerSt → PowerSt) : (s.setPower f).lines = s.lines := rfl
@[simp] theorem setPower_field (f : PowerSt → PowerSt) : (s.setPower f).field = s.field := rfl
@[simp] theorem setPower_cans (f : PowerSt → PowerSt) : (s.setPower f).cans = s.cans := rfl
@[simp] theorem setPower_net (f : PowerSt → PowerSt) : (s.setPower f).net = s.net := rfl
@[simp] theorem setPower_mots (f : PowerSt → PowerSt) : (s.setPower f).mots = s.mots := rfl
@[simp] theorem setPower_drvs (f : PowerSt → PowerSt) : (s.setPower f).drvs = s.drvs := rfl
@[simp] theorem setPower_out (f : PowerSt → PowerSt) : (s.setPower f).out = s.out := rfl
@[simp] theorem setPower_free (f : PowerSt → PowerSt) : (s.setPower f).free = s.free := rfl
@[simp] theorem setPower_pending (f : PowerSt → PowerSt) : (s.setPower f).pending = s.pending := rfl

@[simp] theorem setRing_regs (f : RingSt → RingSt) : (s.setRing f).regs = s.regs := rfl
@[simp] theorem setRing_shadow (f : RingSt → RingSt) : (s.setRing f).shadow = s.shadow := rfl
@[simp] theorem setRing_mem (f : RingSt → RingSt) : (s.setRing f).mem = s.mem := rfl
@[simp] theorem setRing_raw (f : RingSt → RingSt) : (s.setRing f).raw = s.raw := rfl
@[simp] theorem setRing_cmd (f : RingSt → RingSt) : (s.setRing f).cmd = s.cmd := rfl
@[simp] theorem setRing_memu (f : RingSt → RingSt) : (s.setRing f).memu = s.memu := rfl
@[simp] theorem setRing_host (f : RingSt → RingSt) : (s.setRing f).host = s.host := rfl
@[simp] theorem setRing_power (f : RingSt → RingSt) : (s.setRing f).power = s.power := rfl
@[simp] theorem setRing_time (f : RingSt → RingSt) : (s.setRing f).time = s.time := rfl
@[simp] theorem setRing_mrsh (f : RingSt → RingSt) : (s.setRing f).mrsh = s.mrsh := rfl
@[simp] theorem setRing_heal (f : RingSt → RingSt) : (s.setRing f).heal = s.heal := rfl
@[simp] theorem setRing_fab (f : RingSt → RingSt) : (s.setRing f).fab = s.fab := rfl
@[simp] theorem setRing_gate (f : RingSt → RingSt) : (s.setRing f).gate = s.gate := rfl
@[simp] theorem setRing_pairs (f : RingSt → RingSt) : (s.setRing f).pairs = s.pairs := rfl
@[simp] theorem setRing_procs (f : RingSt → RingSt) : (s.setRing f).procs = s.procs := rfl
@[simp] theorem setRing_engs (f : RingSt → RingSt) : (s.setRing f).engs = s.engs := rfl
@[simp] theorem setRing_hands (f : RingSt → RingSt) : (s.setRing f).hands = s.hands := rfl
@[simp] theorem setRing_adlib (f : RingSt → RingSt) : (s.setRing f).adlib = s.adlib := rfl
@[simp] theorem setRing_lib (f : RingSt → RingSt) : (s.setRing f).lib = s.lib := rfl
@[simp] theorem setRing_lines (f : RingSt → RingSt) : (s.setRing f).lines = s.lines := rfl
@[simp] theorem setRing_field (f : RingSt → RingSt) : (s.setRing f).field = s.field := rfl
@[simp] theorem setRing_cans (f : RingSt → RingSt) : (s.setRing f).cans = s.cans := rfl
@[simp] theorem setRing_net (f : RingSt → RingSt) : (s.setRing f).net = s.net := rfl
@[simp] theorem setRing_mots (f : RingSt → RingSt) : (s.setRing f).mots = s.mots := rfl
@[simp] theorem setRing_drvs (f : RingSt → RingSt) : (s.setRing f).drvs = s.drvs := rfl
@[simp] theorem setRing_out (f : RingSt → RingSt) : (s.setRing f).out = s.out := rfl
@[simp] theorem setRing_free (f : RingSt → RingSt) : (s.setRing f).free = s.free := rfl
@[simp] theorem setRing_pending (f : RingSt → RingSt) : (s.setRing f).pending = s.pending := rfl

@[simp] theorem setTime_regs (f : TimeSt → TimeSt) : (s.setTime f).regs = s.regs := rfl
@[simp] theorem setTime_shadow (f : TimeSt → TimeSt) : (s.setTime f).shadow = s.shadow := rfl
@[simp] theorem setTime_mem (f : TimeSt → TimeSt) : (s.setTime f).mem = s.mem := rfl
@[simp] theorem setTime_raw (f : TimeSt → TimeSt) : (s.setTime f).raw = s.raw := rfl
@[simp] theorem setTime_cmd (f : TimeSt → TimeSt) : (s.setTime f).cmd = s.cmd := rfl
@[simp] theorem setTime_memu (f : TimeSt → TimeSt) : (s.setTime f).memu = s.memu := rfl
@[simp] theorem setTime_host (f : TimeSt → TimeSt) : (s.setTime f).host = s.host := rfl
@[simp] theorem setTime_power (f : TimeSt → TimeSt) : (s.setTime f).power = s.power := rfl
@[simp] theorem setTime_ring (f : TimeSt → TimeSt) : (s.setTime f).ring = s.ring := rfl
@[simp] theorem setTime_mrsh (f : TimeSt → TimeSt) : (s.setTime f).mrsh = s.mrsh := rfl
@[simp] theorem setTime_heal (f : TimeSt → TimeSt) : (s.setTime f).heal = s.heal := rfl
@[simp] theorem setTime_fab (f : TimeSt → TimeSt) : (s.setTime f).fab = s.fab := rfl
@[simp] theorem setTime_gate (f : TimeSt → TimeSt) : (s.setTime f).gate = s.gate := rfl
@[simp] theorem setTime_pairs (f : TimeSt → TimeSt) : (s.setTime f).pairs = s.pairs := rfl
@[simp] theorem setTime_procs (f : TimeSt → TimeSt) : (s.setTime f).procs = s.procs := rfl
@[simp] theorem setTime_engs (f : TimeSt → TimeSt) : (s.setTime f).engs = s.engs := rfl
@[simp] theorem setTime_hands (f : TimeSt → TimeSt) : (s.setTime f).hands = s.hands := rfl
@[simp] theorem setTime_adlib (f : TimeSt → TimeSt) : (s.setTime f).adlib = s.adlib := rfl
@[simp] theorem setTime_lib (f : TimeSt → TimeSt) : (s.setTime f).lib = s.lib := rfl
@[simp] theorem setTime_lines (f : TimeSt → TimeSt) : (s.setTime f).lines = s.lines := rfl
@[simp] theorem setTime_field (f : TimeSt → TimeSt) : (s.setTime f).field = s.field := rfl
@[simp] theorem setTime_cans (f : TimeSt → TimeSt) : (s.setTime f).cans = s.cans := rfl
@[simp] theorem setTime_net (f : TimeSt → TimeSt) : (s.setTime f).net = s.net := rfl
@[simp] theorem setTime_mots (f : TimeSt → TimeSt) : (s.setTime f).mots = s.mots := rfl
@[simp] theorem setTime_drvs (f : TimeSt → TimeSt) : (s.setTime f).drvs = s.drvs := rfl
@[simp] theorem setTime_out (f : TimeSt → TimeSt) : (s.setTime f).out = s.out := rfl
@[simp] theorem setTime_free (f : TimeSt → TimeSt) : (s.setTime f).free = s.free := rfl
@[simp] theorem setTime_pending (f : TimeSt → TimeSt) : (s.setTime f).pending = s.pending := rfl

@[simp] theorem setMrsh_regs (f : MrshSt → MrshSt) : (s.setMrsh f).regs = s.regs := rfl
@[simp] theorem setMrsh_shadow (f : MrshSt → MrshSt) : (s.setMrsh f).shadow = s.shadow := rfl
@[simp] theorem setMrsh_mem (f : MrshSt → MrshSt) : (s.setMrsh f).mem = s.mem := rfl
@[simp] theorem setMrsh_raw (f : MrshSt → MrshSt) : (s.setMrsh f).raw = s.raw := rfl
@[simp] theorem setMrsh_cmd (f : MrshSt → MrshSt) : (s.setMrsh f).cmd = s.cmd := rfl
@[simp] theorem setMrsh_memu (f : MrshSt → MrshSt) : (s.setMrsh f).memu = s.memu := rfl
@[simp] theorem setMrsh_host (f : MrshSt → MrshSt) : (s.setMrsh f).host = s.host := rfl
@[simp] theorem setMrsh_power (f : MrshSt → MrshSt) : (s.setMrsh f).power = s.power := rfl
@[simp] theorem setMrsh_ring (f : MrshSt → MrshSt) : (s.setMrsh f).ring = s.ring := rfl
@[simp] theorem setMrsh_time (f : MrshSt → MrshSt) : (s.setMrsh f).time = s.time := rfl
@[simp] theorem setMrsh_heal (f : MrshSt → MrshSt) : (s.setMrsh f).heal = s.heal := rfl
@[simp] theorem setMrsh_fab (f : MrshSt → MrshSt) : (s.setMrsh f).fab = s.fab := rfl
@[simp] theorem setMrsh_gate (f : MrshSt → MrshSt) : (s.setMrsh f).gate = s.gate := rfl
@[simp] theorem setMrsh_pairs (f : MrshSt → MrshSt) : (s.setMrsh f).pairs = s.pairs := rfl
@[simp] theorem setMrsh_procs (f : MrshSt → MrshSt) : (s.setMrsh f).procs = s.procs := rfl
@[simp] theorem setMrsh_engs (f : MrshSt → MrshSt) : (s.setMrsh f).engs = s.engs := rfl
@[simp] theorem setMrsh_hands (f : MrshSt → MrshSt) : (s.setMrsh f).hands = s.hands := rfl
@[simp] theorem setMrsh_adlib (f : MrshSt → MrshSt) : (s.setMrsh f).adlib = s.adlib := rfl
@[simp] theorem setMrsh_lib (f : MrshSt → MrshSt) : (s.setMrsh f).lib = s.lib := rfl
@[simp] theorem setMrsh_lines (f : MrshSt → MrshSt) : (s.setMrsh f).lines = s.lines := rfl
@[simp] theorem setMrsh_field (f : MrshSt → MrshSt) : (s.setMrsh f).field = s.field := rfl
@[simp] theorem setMrsh_cans (f : MrshSt → MrshSt) : (s.setMrsh f).cans = s.cans := rfl
@[simp] theorem setMrsh_net (f : MrshSt → MrshSt) : (s.setMrsh f).net = s.net := rfl
@[simp] theorem setMrsh_mots (f : MrshSt → MrshSt) : (s.setMrsh f).mots = s.mots := rfl
@[simp] theorem setMrsh_drvs (f : MrshSt → MrshSt) : (s.setMrsh f).drvs = s.drvs := rfl
@[simp] theorem setMrsh_out (f : MrshSt → MrshSt) : (s.setMrsh f).out = s.out := rfl
@[simp] theorem setMrsh_free (f : MrshSt → MrshSt) : (s.setMrsh f).free = s.free := rfl
@[simp] theorem setMrsh_pending (f : MrshSt → MrshSt) : (s.setMrsh f).pending = s.pending := rfl

@[simp] theorem setHeal_regs (f : HealSt → HealSt) : (s.setHeal f).regs = s.regs := rfl
@[simp] theorem setHeal_shadow (f : HealSt → HealSt) : (s.setHeal f).shadow = s.shadow := rfl
@[simp] theorem setHeal_mem (f : HealSt → HealSt) : (s.setHeal f).mem = s.mem := rfl
@[simp] theorem setHeal_raw (f : HealSt → HealSt) : (s.setHeal f).raw = s.raw := rfl
@[simp] theorem setHeal_cmd (f : HealSt → HealSt) : (s.setHeal f).cmd = s.cmd := rfl
@[simp] theorem setHeal_memu (f : HealSt → HealSt) : (s.setHeal f).memu = s.memu := rfl
@[simp] theorem setHeal_host (f : HealSt → HealSt) : (s.setHeal f).host = s.host := rfl
@[simp] theorem setHeal_power (f : HealSt → HealSt) : (s.setHeal f).power = s.power := rfl
@[simp] theorem setHeal_ring (f : HealSt → HealSt) : (s.setHeal f).ring = s.ring := rfl
@[simp] theorem setHeal_time (f : HealSt → HealSt) : (s.setHeal f).time = s.time := rfl
@[simp] theorem setHeal_mrsh (f : HealSt → HealSt) : (s.setHeal f).mrsh = s.mrsh := rfl
@[simp] theorem setHeal_fab (f : HealSt → HealSt) : (s.setHeal f).fab = s.fab := rfl
@[simp] theorem setHeal_gate (f : HealSt → HealSt) : (s.setHeal f).gate = s.gate := rfl
@[simp] theorem setHeal_pairs (f : HealSt → HealSt) : (s.setHeal f).pairs = s.pairs := rfl
@[simp] theorem setHeal_procs (f : HealSt → HealSt) : (s.setHeal f).procs = s.procs := rfl
@[simp] theorem setHeal_engs (f : HealSt → HealSt) : (s.setHeal f).engs = s.engs := rfl
@[simp] theorem setHeal_hands (f : HealSt → HealSt) : (s.setHeal f).hands = s.hands := rfl
@[simp] theorem setHeal_adlib (f : HealSt → HealSt) : (s.setHeal f).adlib = s.adlib := rfl
@[simp] theorem setHeal_lib (f : HealSt → HealSt) : (s.setHeal f).lib = s.lib := rfl
@[simp] theorem setHeal_lines (f : HealSt → HealSt) : (s.setHeal f).lines = s.lines := rfl
@[simp] theorem setHeal_field (f : HealSt → HealSt) : (s.setHeal f).field = s.field := rfl
@[simp] theorem setHeal_cans (f : HealSt → HealSt) : (s.setHeal f).cans = s.cans := rfl
@[simp] theorem setHeal_net (f : HealSt → HealSt) : (s.setHeal f).net = s.net := rfl
@[simp] theorem setHeal_mots (f : HealSt → HealSt) : (s.setHeal f).mots = s.mots := rfl
@[simp] theorem setHeal_drvs (f : HealSt → HealSt) : (s.setHeal f).drvs = s.drvs := rfl
@[simp] theorem setHeal_out (f : HealSt → HealSt) : (s.setHeal f).out = s.out := rfl
@[simp] theorem setHeal_free (f : HealSt → HealSt) : (s.setHeal f).free = s.free := rfl
@[simp] theorem setHeal_pending (f : HealSt → HealSt) : (s.setHeal f).pending = s.pending := rfl

@[simp] theorem setFab_regs (f : FabSt → FabSt) : (s.setFab f).regs = s.regs := rfl
@[simp] theorem setFab_shadow (f : FabSt → FabSt) : (s.setFab f).shadow = s.shadow := rfl
@[simp] theorem setFab_mem (f : FabSt → FabSt) : (s.setFab f).mem = s.mem := rfl
@[simp] theorem setFab_raw (f : FabSt → FabSt) : (s.setFab f).raw = s.raw := rfl
@[simp] theorem setFab_cmd (f : FabSt → FabSt) : (s.setFab f).cmd = s.cmd := rfl
@[simp] theorem setFab_memu (f : FabSt → FabSt) : (s.setFab f).memu = s.memu := rfl
@[simp] theorem setFab_host (f : FabSt → FabSt) : (s.setFab f).host = s.host := rfl
@[simp] theorem setFab_power (f : FabSt → FabSt) : (s.setFab f).power = s.power := rfl
@[simp] theorem setFab_ring (f : FabSt → FabSt) : (s.setFab f).ring = s.ring := rfl
@[simp] theorem setFab_time (f : FabSt → FabSt) : (s.setFab f).time = s.time := rfl
@[simp] theorem setFab_mrsh (f : FabSt → FabSt) : (s.setFab f).mrsh = s.mrsh := rfl
@[simp] theorem setFab_heal (f : FabSt → FabSt) : (s.setFab f).heal = s.heal := rfl
@[simp] theorem setFab_gate (f : FabSt → FabSt) : (s.setFab f).gate = s.gate := rfl
@[simp] theorem setFab_pairs (f : FabSt → FabSt) : (s.setFab f).pairs = s.pairs := rfl
@[simp] theorem setFab_procs (f : FabSt → FabSt) : (s.setFab f).procs = s.procs := rfl
@[simp] theorem setFab_engs (f : FabSt → FabSt) : (s.setFab f).engs = s.engs := rfl
@[simp] theorem setFab_hands (f : FabSt → FabSt) : (s.setFab f).hands = s.hands := rfl
@[simp] theorem setFab_adlib (f : FabSt → FabSt) : (s.setFab f).adlib = s.adlib := rfl
@[simp] theorem setFab_lib (f : FabSt → FabSt) : (s.setFab f).lib = s.lib := rfl
@[simp] theorem setFab_lines (f : FabSt → FabSt) : (s.setFab f).lines = s.lines := rfl
@[simp] theorem setFab_field (f : FabSt → FabSt) : (s.setFab f).field = s.field := rfl
@[simp] theorem setFab_cans (f : FabSt → FabSt) : (s.setFab f).cans = s.cans := rfl
@[simp] theorem setFab_net (f : FabSt → FabSt) : (s.setFab f).net = s.net := rfl
@[simp] theorem setFab_mots (f : FabSt → FabSt) : (s.setFab f).mots = s.mots := rfl
@[simp] theorem setFab_drvs (f : FabSt → FabSt) : (s.setFab f).drvs = s.drvs := rfl
@[simp] theorem setFab_out (f : FabSt → FabSt) : (s.setFab f).out = s.out := rfl
@[simp] theorem setFab_free (f : FabSt → FabSt) : (s.setFab f).free = s.free := rfl
@[simp] theorem setFab_pending (f : FabSt → FabSt) : (s.setFab f).pending = s.pending := rfl

@[simp] theorem setGate_regs (f : GateSt → GateSt) : (s.setGate f).regs = s.regs := rfl
@[simp] theorem setGate_shadow (f : GateSt → GateSt) : (s.setGate f).shadow = s.shadow := rfl
@[simp] theorem setGate_mem (f : GateSt → GateSt) : (s.setGate f).mem = s.mem := rfl
@[simp] theorem setGate_raw (f : GateSt → GateSt) : (s.setGate f).raw = s.raw := rfl
@[simp] theorem setGate_cmd (f : GateSt → GateSt) : (s.setGate f).cmd = s.cmd := rfl
@[simp] theorem setGate_memu (f : GateSt → GateSt) : (s.setGate f).memu = s.memu := rfl
@[simp] theorem setGate_host (f : GateSt → GateSt) : (s.setGate f).host = s.host := rfl
@[simp] theorem setGate_power (f : GateSt → GateSt) : (s.setGate f).power = s.power := rfl
@[simp] theorem setGate_ring (f : GateSt → GateSt) : (s.setGate f).ring = s.ring := rfl
@[simp] theorem setGate_time (f : GateSt → GateSt) : (s.setGate f).time = s.time := rfl
@[simp] theorem setGate_mrsh (f : GateSt → GateSt) : (s.setGate f).mrsh = s.mrsh := rfl
@[simp] theorem setGate_heal (f : GateSt → GateSt) : (s.setGate f).heal = s.heal := rfl
@[simp] theorem setGate_fab (f : GateSt → GateSt) : (s.setGate f).fab = s.fab := rfl
@[simp] theorem setGate_pairs (f : GateSt → GateSt) : (s.setGate f).pairs = s.pairs := rfl
@[simp] theorem setGate_procs (f : GateSt → GateSt) : (s.setGate f).procs = s.procs := rfl
@[simp] theorem setGate_engs (f : GateSt → GateSt) : (s.setGate f).engs = s.engs := rfl
@[simp] theorem setGate_hands (f : GateSt → GateSt) : (s.setGate f).hands = s.hands := rfl
@[simp] theorem setGate_adlib (f : GateSt → GateSt) : (s.setGate f).adlib = s.adlib := rfl
@[simp] theorem setGate_lib (f : GateSt → GateSt) : (s.setGate f).lib = s.lib := rfl
@[simp] theorem setGate_lines (f : GateSt → GateSt) : (s.setGate f).lines = s.lines := rfl
@[simp] theorem setGate_field (f : GateSt → GateSt) : (s.setGate f).field = s.field := rfl
@[simp] theorem setGate_cans (f : GateSt → GateSt) : (s.setGate f).cans = s.cans := rfl
@[simp] theorem setGate_net (f : GateSt → GateSt) : (s.setGate f).net = s.net := rfl
@[simp] theorem setGate_mots (f : GateSt → GateSt) : (s.setGate f).mots = s.mots := rfl
@[simp] theorem setGate_drvs (f : GateSt → GateSt) : (s.setGate f).drvs = s.drvs := rfl
@[simp] theorem setGate_out (f : GateSt → GateSt) : (s.setGate f).out = s.out := rfl
@[simp] theorem setGate_free (f : GateSt → GateSt) : (s.setGate f).free = s.free := rfl
@[simp] theorem setGate_pending (f : GateSt → GateSt) : (s.setGate f).pending = s.pending := rfl

@[simp] theorem setPair_regs (p : Nat) (f : PairSt → PairSt) : (s.setPair p f).regs = s.regs := rfl
@[simp] theorem setPair_shadow (p : Nat) (f : PairSt → PairSt) : (s.setPair p f).shadow = s.shadow := rfl
@[simp] theorem setPair_mem (p : Nat) (f : PairSt → PairSt) : (s.setPair p f).mem = s.mem := rfl
@[simp] theorem setPair_raw (p : Nat) (f : PairSt → PairSt) : (s.setPair p f).raw = s.raw := rfl
@[simp] theorem setPair_cmd (p : Nat) (f : PairSt → PairSt) : (s.setPair p f).cmd = s.cmd := rfl
@[simp] theorem setPair_memu (p : Nat) (f : PairSt → PairSt) : (s.setPair p f).memu = s.memu := rfl
@[simp] theorem setPair_host (p : Nat) (f : PairSt → PairSt) : (s.setPair p f).host = s.host := rfl
@[simp] theorem setPair_power (p : Nat) (f : PairSt → PairSt) : (s.setPair p f).power = s.power := rfl
@[simp] theorem setPair_ring (p : Nat) (f : PairSt → PairSt) : (s.setPair p f).ring = s.ring := rfl
@[simp] theorem setPair_time (p : Nat) (f : PairSt → PairSt) : (s.setPair p f).time = s.time := rfl
@[simp] theorem setPair_mrsh (p : Nat) (f : PairSt → PairSt) : (s.setPair p f).mrsh = s.mrsh := rfl
@[simp] theorem setPair_heal (p : Nat) (f : PairSt → PairSt) : (s.setPair p f).heal = s.heal := rfl
@[simp] theorem setPair_fab (p : Nat) (f : PairSt → PairSt) : (s.setPair p f).fab = s.fab := rfl
@[simp] theorem setPair_gate (p : Nat) (f : PairSt → PairSt) : (s.setPair p f).gate = s.gate := rfl
@[simp] theorem setPair_procs (p : Nat) (f : PairSt → PairSt) : (s.setPair p f).procs = s.procs := rfl
@[simp] theorem setPair_engs (p : Nat) (f : PairSt → PairSt) : (s.setPair p f).engs = s.engs := rfl
@[simp] theorem setPair_hands (p : Nat) (f : PairSt → PairSt) : (s.setPair p f).hands = s.hands := rfl
@[simp] theorem setPair_adlib (p : Nat) (f : PairSt → PairSt) : (s.setPair p f).adlib = s.adlib := rfl
@[simp] theorem setPair_lib (p : Nat) (f : PairSt → PairSt) : (s.setPair p f).lib = s.lib := rfl
@[simp] theorem setPair_lines (p : Nat) (f : PairSt → PairSt) : (s.setPair p f).lines = s.lines := rfl
@[simp] theorem setPair_field (p : Nat) (f : PairSt → PairSt) : (s.setPair p f).field = s.field := rfl
@[simp] theorem setPair_cans (p : Nat) (f : PairSt → PairSt) : (s.setPair p f).cans = s.cans := rfl
@[simp] theorem setPair_net (p : Nat) (f : PairSt → PairSt) : (s.setPair p f).net = s.net := rfl
@[simp] theorem setPair_mots (p : Nat) (f : PairSt → PairSt) : (s.setPair p f).mots = s.mots := rfl
@[simp] theorem setPair_drvs (p : Nat) (f : PairSt → PairSt) : (s.setPair p f).drvs = s.drvs := rfl
@[simp] theorem setPair_out (p : Nat) (f : PairSt → PairSt) : (s.setPair p f).out = s.out := rfl
@[simp] theorem setPair_free (p : Nat) (f : PairSt → PairSt) : (s.setPair p f).free = s.free := rfl
@[simp] theorem setPair_pending (p : Nat) (f : PairSt → PairSt) : (s.setPair p f).pending = s.pending := rfl

@[simp] theorem setProc_regs (p : Nat) (f : Proc → Proc) : (s.setProc p f).regs = s.regs := rfl
@[simp] theorem setProc_shadow (p : Nat) (f : Proc → Proc) : (s.setProc p f).shadow = s.shadow := rfl
@[simp] theorem setProc_mem (p : Nat) (f : Proc → Proc) : (s.setProc p f).mem = s.mem := rfl
@[simp] theorem setProc_raw (p : Nat) (f : Proc → Proc) : (s.setProc p f).raw = s.raw := rfl
@[simp] theorem setProc_cmd (p : Nat) (f : Proc → Proc) : (s.setProc p f).cmd = s.cmd := rfl
@[simp] theorem setProc_memu (p : Nat) (f : Proc → Proc) : (s.setProc p f).memu = s.memu := rfl
@[simp] theorem setProc_host (p : Nat) (f : Proc → Proc) : (s.setProc p f).host = s.host := rfl
@[simp] theorem setProc_power (p : Nat) (f : Proc → Proc) : (s.setProc p f).power = s.power := rfl
@[simp] theorem setProc_ring (p : Nat) (f : Proc → Proc) : (s.setProc p f).ring = s.ring := rfl
@[simp] theorem setProc_time (p : Nat) (f : Proc → Proc) : (s.setProc p f).time = s.time := rfl
@[simp] theorem setProc_mrsh (p : Nat) (f : Proc → Proc) : (s.setProc p f).mrsh = s.mrsh := rfl
@[simp] theorem setProc_heal (p : Nat) (f : Proc → Proc) : (s.setProc p f).heal = s.heal := rfl
@[simp] theorem setProc_fab (p : Nat) (f : Proc → Proc) : (s.setProc p f).fab = s.fab := rfl
@[simp] theorem setProc_gate (p : Nat) (f : Proc → Proc) : (s.setProc p f).gate = s.gate := rfl
@[simp] theorem setProc_pairs (p : Nat) (f : Proc → Proc) : (s.setProc p f).pairs = s.pairs := rfl
@[simp] theorem setProc_engs (p : Nat) (f : Proc → Proc) : (s.setProc p f).engs = s.engs := rfl
@[simp] theorem setProc_hands (p : Nat) (f : Proc → Proc) : (s.setProc p f).hands = s.hands := rfl
@[simp] theorem setProc_adlib (p : Nat) (f : Proc → Proc) : (s.setProc p f).adlib = s.adlib := rfl
@[simp] theorem setProc_lib (p : Nat) (f : Proc → Proc) : (s.setProc p f).lib = s.lib := rfl
@[simp] theorem setProc_lines (p : Nat) (f : Proc → Proc) : (s.setProc p f).lines = s.lines := rfl
@[simp] theorem setProc_field (p : Nat) (f : Proc → Proc) : (s.setProc p f).field = s.field := rfl
@[simp] theorem setProc_cans (p : Nat) (f : Proc → Proc) : (s.setProc p f).cans = s.cans := rfl
@[simp] theorem setProc_net (p : Nat) (f : Proc → Proc) : (s.setProc p f).net = s.net := rfl
@[simp] theorem setProc_mots (p : Nat) (f : Proc → Proc) : (s.setProc p f).mots = s.mots := rfl
@[simp] theorem setProc_drvs (p : Nat) (f : Proc → Proc) : (s.setProc p f).drvs = s.drvs := rfl
@[simp] theorem setProc_out (p : Nat) (f : Proc → Proc) : (s.setProc p f).out = s.out := rfl
@[simp] theorem setProc_free (p : Nat) (f : Proc → Proc) : (s.setProc p f).free = s.free := rfl
@[simp] theorem setProc_pending (p : Nat) (f : Proc → Proc) : (s.setProc p f).pending = s.pending := rfl

@[simp] theorem setEng_regs (n : Nat) (f : EngSt → EngSt) : (s.setEng n f).regs = s.regs := rfl
@[simp] theorem setEng_shadow (n : Nat) (f : EngSt → EngSt) : (s.setEng n f).shadow = s.shadow := rfl
@[simp] theorem setEng_mem (n : Nat) (f : EngSt → EngSt) : (s.setEng n f).mem = s.mem := rfl
@[simp] theorem setEng_raw (n : Nat) (f : EngSt → EngSt) : (s.setEng n f).raw = s.raw := rfl
@[simp] theorem setEng_cmd (n : Nat) (f : EngSt → EngSt) : (s.setEng n f).cmd = s.cmd := rfl
@[simp] theorem setEng_memu (n : Nat) (f : EngSt → EngSt) : (s.setEng n f).memu = s.memu := rfl
@[simp] theorem setEng_host (n : Nat) (f : EngSt → EngSt) : (s.setEng n f).host = s.host := rfl
@[simp] theorem setEng_power (n : Nat) (f : EngSt → EngSt) : (s.setEng n f).power = s.power := rfl
@[simp] theorem setEng_ring (n : Nat) (f : EngSt → EngSt) : (s.setEng n f).ring = s.ring := rfl
@[simp] theorem setEng_time (n : Nat) (f : EngSt → EngSt) : (s.setEng n f).time = s.time := rfl
@[simp] theorem setEng_mrsh (n : Nat) (f : EngSt → EngSt) : (s.setEng n f).mrsh = s.mrsh := rfl
@[simp] theorem setEng_heal (n : Nat) (f : EngSt → EngSt) : (s.setEng n f).heal = s.heal := rfl
@[simp] theorem setEng_fab (n : Nat) (f : EngSt → EngSt) : (s.setEng n f).fab = s.fab := rfl
@[simp] theorem setEng_gate (n : Nat) (f : EngSt → EngSt) : (s.setEng n f).gate = s.gate := rfl
@[simp] theorem setEng_pairs (n : Nat) (f : EngSt → EngSt) : (s.setEng n f).pairs = s.pairs := rfl
@[simp] theorem setEng_procs (n : Nat) (f : EngSt → EngSt) : (s.setEng n f).procs = s.procs := rfl
@[simp] theorem setEng_hands (n : Nat) (f : EngSt → EngSt) : (s.setEng n f).hands = s.hands := rfl
@[simp] theorem setEng_adlib (n : Nat) (f : EngSt → EngSt) : (s.setEng n f).adlib = s.adlib := rfl
@[simp] theorem setEng_lib (n : Nat) (f : EngSt → EngSt) : (s.setEng n f).lib = s.lib := rfl
@[simp] theorem setEng_lines (n : Nat) (f : EngSt → EngSt) : (s.setEng n f).lines = s.lines := rfl
@[simp] theorem setEng_field (n : Nat) (f : EngSt → EngSt) : (s.setEng n f).field = s.field := rfl
@[simp] theorem setEng_cans (n : Nat) (f : EngSt → EngSt) : (s.setEng n f).cans = s.cans := rfl
@[simp] theorem setEng_net (n : Nat) (f : EngSt → EngSt) : (s.setEng n f).net = s.net := rfl
@[simp] theorem setEng_mots (n : Nat) (f : EngSt → EngSt) : (s.setEng n f).mots = s.mots := rfl
@[simp] theorem setEng_drvs (n : Nat) (f : EngSt → EngSt) : (s.setEng n f).drvs = s.drvs := rfl
@[simp] theorem setEng_out (n : Nat) (f : EngSt → EngSt) : (s.setEng n f).out = s.out := rfl
@[simp] theorem setEng_free (n : Nat) (f : EngSt → EngSt) : (s.setEng n f).free = s.free := rfl
@[simp] theorem setEng_pending (n : Nat) (f : EngSt → EngSt) : (s.setEng n f).pending = s.pending := rfl

@[simp] theorem setHand_regs (h : Nat) (f : HandSt → HandSt) : (s.setHand h f).regs = s.regs := rfl
@[simp] theorem setHand_shadow (h : Nat) (f : HandSt → HandSt) : (s.setHand h f).shadow = s.shadow := rfl
@[simp] theorem setHand_mem (h : Nat) (f : HandSt → HandSt) : (s.setHand h f).mem = s.mem := rfl
@[simp] theorem setHand_raw (h : Nat) (f : HandSt → HandSt) : (s.setHand h f).raw = s.raw := rfl
@[simp] theorem setHand_cmd (h : Nat) (f : HandSt → HandSt) : (s.setHand h f).cmd = s.cmd := rfl
@[simp] theorem setHand_memu (h : Nat) (f : HandSt → HandSt) : (s.setHand h f).memu = s.memu := rfl
@[simp] theorem setHand_host (h : Nat) (f : HandSt → HandSt) : (s.setHand h f).host = s.host := rfl
@[simp] theorem setHand_power (h : Nat) (f : HandSt → HandSt) : (s.setHand h f).power = s.power := rfl
@[simp] theorem setHand_ring (h : Nat) (f : HandSt → HandSt) : (s.setHand h f).ring = s.ring := rfl
@[simp] theorem setHand_time (h : Nat) (f : HandSt → HandSt) : (s.setHand h f).time = s.time := rfl
@[simp] theorem setHand_mrsh (h : Nat) (f : HandSt → HandSt) : (s.setHand h f).mrsh = s.mrsh := rfl
@[simp] theorem setHand_heal (h : Nat) (f : HandSt → HandSt) : (s.setHand h f).heal = s.heal := rfl
@[simp] theorem setHand_fab (h : Nat) (f : HandSt → HandSt) : (s.setHand h f).fab = s.fab := rfl
@[simp] theorem setHand_gate (h : Nat) (f : HandSt → HandSt) : (s.setHand h f).gate = s.gate := rfl
@[simp] theorem setHand_pairs (h : Nat) (f : HandSt → HandSt) : (s.setHand h f).pairs = s.pairs := rfl
@[simp] theorem setHand_procs (h : Nat) (f : HandSt → HandSt) : (s.setHand h f).procs = s.procs := rfl
@[simp] theorem setHand_engs (h : Nat) (f : HandSt → HandSt) : (s.setHand h f).engs = s.engs := rfl
@[simp] theorem setHand_adlib (h : Nat) (f : HandSt → HandSt) : (s.setHand h f).adlib = s.adlib := rfl
@[simp] theorem setHand_lib (h : Nat) (f : HandSt → HandSt) : (s.setHand h f).lib = s.lib := rfl
@[simp] theorem setHand_lines (h : Nat) (f : HandSt → HandSt) : (s.setHand h f).lines = s.lines := rfl
@[simp] theorem setHand_field (h : Nat) (f : HandSt → HandSt) : (s.setHand h f).field = s.field := rfl
@[simp] theorem setHand_cans (h : Nat) (f : HandSt → HandSt) : (s.setHand h f).cans = s.cans := rfl
@[simp] theorem setHand_net (h : Nat) (f : HandSt → HandSt) : (s.setHand h f).net = s.net := rfl
@[simp] theorem setHand_mots (h : Nat) (f : HandSt → HandSt) : (s.setHand h f).mots = s.mots := rfl
@[simp] theorem setHand_drvs (h : Nat) (f : HandSt → HandSt) : (s.setHand h f).drvs = s.drvs := rfl
@[simp] theorem setHand_out (h : Nat) (f : HandSt → HandSt) : (s.setHand h f).out = s.out := rfl
@[simp] theorem setHand_free (h : Nat) (f : HandSt → HandSt) : (s.setHand h f).free = s.free := rfl
@[simp] theorem setHand_pending (h : Nat) (f : HandSt → HandSt) : (s.setHand h f).pending = s.pending := rfl

@[simp] theorem setLine_regs (n : Nat) (f : LineSt → LineSt) : (s.setLine n f).regs = s.regs := rfl
@[simp] theorem setLine_shadow (n : Nat) (f : LineSt → LineSt) : (s.setLine n f).shadow = s.shadow := rfl
@[simp] theorem setLine_mem (n : Nat) (f : LineSt → LineSt) : (s.setLine n f).mem = s.mem := rfl
@[simp] theorem setLine_raw (n : Nat) (f : LineSt → LineSt) : (s.setLine n f).raw = s.raw := rfl
@[simp] theorem setLine_cmd (n : Nat) (f : LineSt → LineSt) : (s.setLine n f).cmd = s.cmd := rfl
@[simp] theorem setLine_memu (n : Nat) (f : LineSt → LineSt) : (s.setLine n f).memu = s.memu := rfl
@[simp] theorem setLine_host (n : Nat) (f : LineSt → LineSt) : (s.setLine n f).host = s.host := rfl
@[simp] theorem setLine_power (n : Nat) (f : LineSt → LineSt) : (s.setLine n f).power = s.power := rfl
@[simp] theorem setLine_ring (n : Nat) (f : LineSt → LineSt) : (s.setLine n f).ring = s.ring := rfl
@[simp] theorem setLine_time (n : Nat) (f : LineSt → LineSt) : (s.setLine n f).time = s.time := rfl
@[simp] theorem setLine_mrsh (n : Nat) (f : LineSt → LineSt) : (s.setLine n f).mrsh = s.mrsh := rfl
@[simp] theorem setLine_heal (n : Nat) (f : LineSt → LineSt) : (s.setLine n f).heal = s.heal := rfl
@[simp] theorem setLine_fab (n : Nat) (f : LineSt → LineSt) : (s.setLine n f).fab = s.fab := rfl
@[simp] theorem setLine_gate (n : Nat) (f : LineSt → LineSt) : (s.setLine n f).gate = s.gate := rfl
@[simp] theorem setLine_pairs (n : Nat) (f : LineSt → LineSt) : (s.setLine n f).pairs = s.pairs := rfl
@[simp] theorem setLine_procs (n : Nat) (f : LineSt → LineSt) : (s.setLine n f).procs = s.procs := rfl
@[simp] theorem setLine_engs (n : Nat) (f : LineSt → LineSt) : (s.setLine n f).engs = s.engs := rfl
@[simp] theorem setLine_hands (n : Nat) (f : LineSt → LineSt) : (s.setLine n f).hands = s.hands := rfl
@[simp] theorem setLine_adlib (n : Nat) (f : LineSt → LineSt) : (s.setLine n f).adlib = s.adlib := rfl
@[simp] theorem setLine_lib (n : Nat) (f : LineSt → LineSt) : (s.setLine n f).lib = s.lib := rfl
@[simp] theorem setLine_field (n : Nat) (f : LineSt → LineSt) : (s.setLine n f).field = s.field := rfl
@[simp] theorem setLine_cans (n : Nat) (f : LineSt → LineSt) : (s.setLine n f).cans = s.cans := rfl
@[simp] theorem setLine_net (n : Nat) (f : LineSt → LineSt) : (s.setLine n f).net = s.net := rfl
@[simp] theorem setLine_mots (n : Nat) (f : LineSt → LineSt) : (s.setLine n f).mots = s.mots := rfl
@[simp] theorem setLine_drvs (n : Nat) (f : LineSt → LineSt) : (s.setLine n f).drvs = s.drvs := rfl
@[simp] theorem setLine_out (n : Nat) (f : LineSt → LineSt) : (s.setLine n f).out = s.out := rfl
@[simp] theorem setLine_free (n : Nat) (f : LineSt → LineSt) : (s.setLine n f).free = s.free := rfl
@[simp] theorem setLine_pending (n : Nat) (f : LineSt → LineSt) : (s.setLine n f).pending = s.pending := rfl

@[simp] theorem setField_regs (f : FieldSt → FieldSt) : (s.setField f).regs = s.regs := rfl
@[simp] theorem setField_shadow (f : FieldSt → FieldSt) : (s.setField f).shadow = s.shadow := rfl
@[simp] theorem setField_mem (f : FieldSt → FieldSt) : (s.setField f).mem = s.mem := rfl
@[simp] theorem setField_raw (f : FieldSt → FieldSt) : (s.setField f).raw = s.raw := rfl
@[simp] theorem setField_cmd (f : FieldSt → FieldSt) : (s.setField f).cmd = s.cmd := rfl
@[simp] theorem setField_memu (f : FieldSt → FieldSt) : (s.setField f).memu = s.memu := rfl
@[simp] theorem setField_host (f : FieldSt → FieldSt) : (s.setField f).host = s.host := rfl
@[simp] theorem setField_power (f : FieldSt → FieldSt) : (s.setField f).power = s.power := rfl
@[simp] theorem setField_ring (f : FieldSt → FieldSt) : (s.setField f).ring = s.ring := rfl
@[simp] theorem setField_time (f : FieldSt → FieldSt) : (s.setField f).time = s.time := rfl
@[simp] theorem setField_mrsh (f : FieldSt → FieldSt) : (s.setField f).mrsh = s.mrsh := rfl
@[simp] theorem setField_heal (f : FieldSt → FieldSt) : (s.setField f).heal = s.heal := rfl
@[simp] theorem setField_fab (f : FieldSt → FieldSt) : (s.setField f).fab = s.fab := rfl
@[simp] theorem setField_gate (f : FieldSt → FieldSt) : (s.setField f).gate = s.gate := rfl
@[simp] theorem setField_pairs (f : FieldSt → FieldSt) : (s.setField f).pairs = s.pairs := rfl
@[simp] theorem setField_procs (f : FieldSt → FieldSt) : (s.setField f).procs = s.procs := rfl
@[simp] theorem setField_engs (f : FieldSt → FieldSt) : (s.setField f).engs = s.engs := rfl
@[simp] theorem setField_hands (f : FieldSt → FieldSt) : (s.setField f).hands = s.hands := rfl
@[simp] theorem setField_adlib (f : FieldSt → FieldSt) : (s.setField f).adlib = s.adlib := rfl
@[simp] theorem setField_lib (f : FieldSt → FieldSt) : (s.setField f).lib = s.lib := rfl
@[simp] theorem setField_lines (f : FieldSt → FieldSt) : (s.setField f).lines = s.lines := rfl
@[simp] theorem setField_cans (f : FieldSt → FieldSt) : (s.setField f).cans = s.cans := rfl
@[simp] theorem setField_net (f : FieldSt → FieldSt) : (s.setField f).net = s.net := rfl
@[simp] theorem setField_mots (f : FieldSt → FieldSt) : (s.setField f).mots = s.mots := rfl
@[simp] theorem setField_drvs (f : FieldSt → FieldSt) : (s.setField f).drvs = s.drvs := rfl
@[simp] theorem setField_out (f : FieldSt → FieldSt) : (s.setField f).out = s.out := rfl
@[simp] theorem setField_free (f : FieldSt → FieldSt) : (s.setField f).free = s.free := rfl
@[simp] theorem setField_pending (f : FieldSt → FieldSt) : (s.setField f).pending = s.pending := rfl

@[simp] theorem setCan_regs (n : Nat) (f : CanSt → CanSt) : (s.setCan n f).regs = s.regs := rfl
@[simp] theorem setCan_shadow (n : Nat) (f : CanSt → CanSt) : (s.setCan n f).shadow = s.shadow := rfl
@[simp] theorem setCan_mem (n : Nat) (f : CanSt → CanSt) : (s.setCan n f).mem = s.mem := rfl
@[simp] theorem setCan_raw (n : Nat) (f : CanSt → CanSt) : (s.setCan n f).raw = s.raw := rfl
@[simp] theorem setCan_cmd (n : Nat) (f : CanSt → CanSt) : (s.setCan n f).cmd = s.cmd := rfl
@[simp] theorem setCan_memu (n : Nat) (f : CanSt → CanSt) : (s.setCan n f).memu = s.memu := rfl
@[simp] theorem setCan_host (n : Nat) (f : CanSt → CanSt) : (s.setCan n f).host = s.host := rfl
@[simp] theorem setCan_power (n : Nat) (f : CanSt → CanSt) : (s.setCan n f).power = s.power := rfl
@[simp] theorem setCan_ring (n : Nat) (f : CanSt → CanSt) : (s.setCan n f).ring = s.ring := rfl
@[simp] theorem setCan_time (n : Nat) (f : CanSt → CanSt) : (s.setCan n f).time = s.time := rfl
@[simp] theorem setCan_mrsh (n : Nat) (f : CanSt → CanSt) : (s.setCan n f).mrsh = s.mrsh := rfl
@[simp] theorem setCan_heal (n : Nat) (f : CanSt → CanSt) : (s.setCan n f).heal = s.heal := rfl
@[simp] theorem setCan_fab (n : Nat) (f : CanSt → CanSt) : (s.setCan n f).fab = s.fab := rfl
@[simp] theorem setCan_gate (n : Nat) (f : CanSt → CanSt) : (s.setCan n f).gate = s.gate := rfl
@[simp] theorem setCan_pairs (n : Nat) (f : CanSt → CanSt) : (s.setCan n f).pairs = s.pairs := rfl
@[simp] theorem setCan_procs (n : Nat) (f : CanSt → CanSt) : (s.setCan n f).procs = s.procs := rfl
@[simp] theorem setCan_engs (n : Nat) (f : CanSt → CanSt) : (s.setCan n f).engs = s.engs := rfl
@[simp] theorem setCan_hands (n : Nat) (f : CanSt → CanSt) : (s.setCan n f).hands = s.hands := rfl
@[simp] theorem setCan_adlib (n : Nat) (f : CanSt → CanSt) : (s.setCan n f).adlib = s.adlib := rfl
@[simp] theorem setCan_lib (n : Nat) (f : CanSt → CanSt) : (s.setCan n f).lib = s.lib := rfl
@[simp] theorem setCan_lines (n : Nat) (f : CanSt → CanSt) : (s.setCan n f).lines = s.lines := rfl
@[simp] theorem setCan_field (n : Nat) (f : CanSt → CanSt) : (s.setCan n f).field = s.field := rfl
@[simp] theorem setCan_net (n : Nat) (f : CanSt → CanSt) : (s.setCan n f).net = s.net := rfl
@[simp] theorem setCan_mots (n : Nat) (f : CanSt → CanSt) : (s.setCan n f).mots = s.mots := rfl
@[simp] theorem setCan_drvs (n : Nat) (f : CanSt → CanSt) : (s.setCan n f).drvs = s.drvs := rfl
@[simp] theorem setCan_out (n : Nat) (f : CanSt → CanSt) : (s.setCan n f).out = s.out := rfl
@[simp] theorem setCan_free (n : Nat) (f : CanSt → CanSt) : (s.setCan n f).free = s.free := rfl
@[simp] theorem setCan_pending (n : Nat) (f : CanSt → CanSt) : (s.setCan n f).pending = s.pending := rfl

@[simp] theorem setNet_regs (f : NetSt → NetSt) : (s.setNet f).regs = s.regs := rfl
@[simp] theorem setNet_shadow (f : NetSt → NetSt) : (s.setNet f).shadow = s.shadow := rfl
@[simp] theorem setNet_mem (f : NetSt → NetSt) : (s.setNet f).mem = s.mem := rfl
@[simp] theorem setNet_raw (f : NetSt → NetSt) : (s.setNet f).raw = s.raw := rfl
@[simp] theorem setNet_cmd (f : NetSt → NetSt) : (s.setNet f).cmd = s.cmd := rfl
@[simp] theorem setNet_memu (f : NetSt → NetSt) : (s.setNet f).memu = s.memu := rfl
@[simp] theorem setNet_host (f : NetSt → NetSt) : (s.setNet f).host = s.host := rfl
@[simp] theorem setNet_power (f : NetSt → NetSt) : (s.setNet f).power = s.power := rfl
@[simp] theorem setNet_ring (f : NetSt → NetSt) : (s.setNet f).ring = s.ring := rfl
@[simp] theorem setNet_time (f : NetSt → NetSt) : (s.setNet f).time = s.time := rfl
@[simp] theorem setNet_mrsh (f : NetSt → NetSt) : (s.setNet f).mrsh = s.mrsh := rfl
@[simp] theorem setNet_heal (f : NetSt → NetSt) : (s.setNet f).heal = s.heal := rfl
@[simp] theorem setNet_fab (f : NetSt → NetSt) : (s.setNet f).fab = s.fab := rfl
@[simp] theorem setNet_gate (f : NetSt → NetSt) : (s.setNet f).gate = s.gate := rfl
@[simp] theorem setNet_pairs (f : NetSt → NetSt) : (s.setNet f).pairs = s.pairs := rfl
@[simp] theorem setNet_procs (f : NetSt → NetSt) : (s.setNet f).procs = s.procs := rfl
@[simp] theorem setNet_engs (f : NetSt → NetSt) : (s.setNet f).engs = s.engs := rfl
@[simp] theorem setNet_hands (f : NetSt → NetSt) : (s.setNet f).hands = s.hands := rfl
@[simp] theorem setNet_adlib (f : NetSt → NetSt) : (s.setNet f).adlib = s.adlib := rfl
@[simp] theorem setNet_lib (f : NetSt → NetSt) : (s.setNet f).lib = s.lib := rfl
@[simp] theorem setNet_lines (f : NetSt → NetSt) : (s.setNet f).lines = s.lines := rfl
@[simp] theorem setNet_field (f : NetSt → NetSt) : (s.setNet f).field = s.field := rfl
@[simp] theorem setNet_cans (f : NetSt → NetSt) : (s.setNet f).cans = s.cans := rfl
@[simp] theorem setNet_mots (f : NetSt → NetSt) : (s.setNet f).mots = s.mots := rfl
@[simp] theorem setNet_drvs (f : NetSt → NetSt) : (s.setNet f).drvs = s.drvs := rfl
@[simp] theorem setNet_out (f : NetSt → NetSt) : (s.setNet f).out = s.out := rfl
@[simp] theorem setNet_free (f : NetSt → NetSt) : (s.setNet f).free = s.free := rfl
@[simp] theorem setNet_pending (f : NetSt → NetSt) : (s.setNet f).pending = s.pending := rfl

@[simp] theorem setMot_regs (n : Nat) (f : MotSt → MotSt) : (s.setMot n f).regs = s.regs := rfl
@[simp] theorem setMot_shadow (n : Nat) (f : MotSt → MotSt) : (s.setMot n f).shadow = s.shadow := rfl
@[simp] theorem setMot_mem (n : Nat) (f : MotSt → MotSt) : (s.setMot n f).mem = s.mem := rfl
@[simp] theorem setMot_raw (n : Nat) (f : MotSt → MotSt) : (s.setMot n f).raw = s.raw := rfl
@[simp] theorem setMot_cmd (n : Nat) (f : MotSt → MotSt) : (s.setMot n f).cmd = s.cmd := rfl
@[simp] theorem setMot_memu (n : Nat) (f : MotSt → MotSt) : (s.setMot n f).memu = s.memu := rfl
@[simp] theorem setMot_host (n : Nat) (f : MotSt → MotSt) : (s.setMot n f).host = s.host := rfl
@[simp] theorem setMot_power (n : Nat) (f : MotSt → MotSt) : (s.setMot n f).power = s.power := rfl
@[simp] theorem setMot_ring (n : Nat) (f : MotSt → MotSt) : (s.setMot n f).ring = s.ring := rfl
@[simp] theorem setMot_time (n : Nat) (f : MotSt → MotSt) : (s.setMot n f).time = s.time := rfl
@[simp] theorem setMot_mrsh (n : Nat) (f : MotSt → MotSt) : (s.setMot n f).mrsh = s.mrsh := rfl
@[simp] theorem setMot_heal (n : Nat) (f : MotSt → MotSt) : (s.setMot n f).heal = s.heal := rfl
@[simp] theorem setMot_fab (n : Nat) (f : MotSt → MotSt) : (s.setMot n f).fab = s.fab := rfl
@[simp] theorem setMot_gate (n : Nat) (f : MotSt → MotSt) : (s.setMot n f).gate = s.gate := rfl
@[simp] theorem setMot_pairs (n : Nat) (f : MotSt → MotSt) : (s.setMot n f).pairs = s.pairs := rfl
@[simp] theorem setMot_procs (n : Nat) (f : MotSt → MotSt) : (s.setMot n f).procs = s.procs := rfl
@[simp] theorem setMot_engs (n : Nat) (f : MotSt → MotSt) : (s.setMot n f).engs = s.engs := rfl
@[simp] theorem setMot_hands (n : Nat) (f : MotSt → MotSt) : (s.setMot n f).hands = s.hands := rfl
@[simp] theorem setMot_adlib (n : Nat) (f : MotSt → MotSt) : (s.setMot n f).adlib = s.adlib := rfl
@[simp] theorem setMot_lib (n : Nat) (f : MotSt → MotSt) : (s.setMot n f).lib = s.lib := rfl
@[simp] theorem setMot_lines (n : Nat) (f : MotSt → MotSt) : (s.setMot n f).lines = s.lines := rfl
@[simp] theorem setMot_field (n : Nat) (f : MotSt → MotSt) : (s.setMot n f).field = s.field := rfl
@[simp] theorem setMot_cans (n : Nat) (f : MotSt → MotSt) : (s.setMot n f).cans = s.cans := rfl
@[simp] theorem setMot_net (n : Nat) (f : MotSt → MotSt) : (s.setMot n f).net = s.net := rfl
@[simp] theorem setMot_drvs (n : Nat) (f : MotSt → MotSt) : (s.setMot n f).drvs = s.drvs := rfl
@[simp] theorem setMot_out (n : Nat) (f : MotSt → MotSt) : (s.setMot n f).out = s.out := rfl
@[simp] theorem setMot_free (n : Nat) (f : MotSt → MotSt) : (s.setMot n f).free = s.free := rfl
@[simp] theorem setMot_pending (n : Nat) (f : MotSt → MotSt) : (s.setMot n f).pending = s.pending := rfl

@[simp] theorem setDrv_regs (n : Nat) (f : DrvSt → DrvSt) : (s.setDrv n f).regs = s.regs := rfl
@[simp] theorem setDrv_shadow (n : Nat) (f : DrvSt → DrvSt) : (s.setDrv n f).shadow = s.shadow := rfl
@[simp] theorem setDrv_mem (n : Nat) (f : DrvSt → DrvSt) : (s.setDrv n f).mem = s.mem := rfl
@[simp] theorem setDrv_raw (n : Nat) (f : DrvSt → DrvSt) : (s.setDrv n f).raw = s.raw := rfl
@[simp] theorem setDrv_cmd (n : Nat) (f : DrvSt → DrvSt) : (s.setDrv n f).cmd = s.cmd := rfl
@[simp] theorem setDrv_memu (n : Nat) (f : DrvSt → DrvSt) : (s.setDrv n f).memu = s.memu := rfl
@[simp] theorem setDrv_host (n : Nat) (f : DrvSt → DrvSt) : (s.setDrv n f).host = s.host := rfl
@[simp] theorem setDrv_power (n : Nat) (f : DrvSt → DrvSt) : (s.setDrv n f).power = s.power := rfl
@[simp] theorem setDrv_ring (n : Nat) (f : DrvSt → DrvSt) : (s.setDrv n f).ring = s.ring := rfl
@[simp] theorem setDrv_time (n : Nat) (f : DrvSt → DrvSt) : (s.setDrv n f).time = s.time := rfl
@[simp] theorem setDrv_mrsh (n : Nat) (f : DrvSt → DrvSt) : (s.setDrv n f).mrsh = s.mrsh := rfl
@[simp] theorem setDrv_heal (n : Nat) (f : DrvSt → DrvSt) : (s.setDrv n f).heal = s.heal := rfl
@[simp] theorem setDrv_fab (n : Nat) (f : DrvSt → DrvSt) : (s.setDrv n f).fab = s.fab := rfl
@[simp] theorem setDrv_gate (n : Nat) (f : DrvSt → DrvSt) : (s.setDrv n f).gate = s.gate := rfl
@[simp] theorem setDrv_pairs (n : Nat) (f : DrvSt → DrvSt) : (s.setDrv n f).pairs = s.pairs := rfl
@[simp] theorem setDrv_procs (n : Nat) (f : DrvSt → DrvSt) : (s.setDrv n f).procs = s.procs := rfl
@[simp] theorem setDrv_engs (n : Nat) (f : DrvSt → DrvSt) : (s.setDrv n f).engs = s.engs := rfl
@[simp] theorem setDrv_hands (n : Nat) (f : DrvSt → DrvSt) : (s.setDrv n f).hands = s.hands := rfl
@[simp] theorem setDrv_adlib (n : Nat) (f : DrvSt → DrvSt) : (s.setDrv n f).adlib = s.adlib := rfl
@[simp] theorem setDrv_lib (n : Nat) (f : DrvSt → DrvSt) : (s.setDrv n f).lib = s.lib := rfl
@[simp] theorem setDrv_lines (n : Nat) (f : DrvSt → DrvSt) : (s.setDrv n f).lines = s.lines := rfl
@[simp] theorem setDrv_field (n : Nat) (f : DrvSt → DrvSt) : (s.setDrv n f).field = s.field := rfl
@[simp] theorem setDrv_cans (n : Nat) (f : DrvSt → DrvSt) : (s.setDrv n f).cans = s.cans := rfl
@[simp] theorem setDrv_net (n : Nat) (f : DrvSt → DrvSt) : (s.setDrv n f).net = s.net := rfl
@[simp] theorem setDrv_mots (n : Nat) (f : DrvSt → DrvSt) : (s.setDrv n f).mots = s.mots := rfl
@[simp] theorem setDrv_out (n : Nat) (f : DrvSt → DrvSt) : (s.setDrv n f).out = s.out := rfl
@[simp] theorem setDrv_free (n : Nat) (f : DrvSt → DrvSt) : (s.setDrv n f).free = s.free := rfl
@[simp] theorem setDrv_pending (n : Nat) (f : DrvSt → DrvSt) : (s.setDrv n f).pending = s.pending := rfl

end Sys2Proof.Machine
end

