-- ==== Sys2Proof/WellFormed.lean ====
section
/-! DEFINITION. Well-formed commands: the operands that their types leave too wide. A unit code names a line that exists (R330), a ring frame
carries no more than the longest payload (R64), a host read that failed brought no data (R451), and the fields that the encoding
tables leave zero are zero (R248, R250, R260). -/
namespace Sys2Proof

/-- A unit code of a serial line, 0–47, or of a discrete line, 64–127 (R330). -/
def unitCode (u : Nat) : Bool := decide (u < 48) || (decide (64 ≤ u) && decide (u < 128))

/-- A frame carries at most 2,048 bytes of payload (R64). -/
def RFrame.wf (f : RFrame) : Bool := decide (f.payload.length ≤ 2048)

/-- A host read that failed brought no data (R451). -/
def Env.wf (e : Env) : Bool := !e.hostFail || e.host.isEmpty

def Instr.wf : Instr → Bool
  | .sysNop _ env => env.wf
  | .sysIdent _ env => env.wf
  | .sysReset _ env => env.wf
  | .sysStatus _ env => env.wf
  | .sysFwload _ env => env.wf
  | .sysFwselect _ env => env.wf
  | .storeRead _ env => env.wf
  | .storeWrite _ env => env.wf
  | .storeList _ env => env.wf
  | .storeErase _ env => env.wf
  | .storeStatus _ env => env.wf
  | .storeFactory _ env => env.wf
  | .ringConfig _ => true
  | .ringSchedule _ env => env.wf
  | .ringCommit _ => true
  | .ringJoin _ env => env.wf
  | .ringLeave _ => true
  | .ringSplit _ => true
  | .ringCredits _ => true
  | .ringHeal _ => true
  | .ringStatus _ => true
  | .timeStarter _ => true
  | .timeSet _ => true
  | .timeAsym _ => true
  | .timeTrig _ => true
  | .timeCapt _ => true
  | .timeUtc _ => true
  | .timePtp _ => true
  | .timeStatus _ => true
  | .mrshConfig _ => true
  | .mrshMode _ => true
  | .mrshStatus _ => true
  | .mrshClear _ => true
  | .fabWindow _ env => env.wf
  | .fabLogread _ env => env.wf
  | .fabLogclr _ env => env.wf
  | .fabFenceclr _ => true
  | .gateRoute _ env => env.wf
  | .gateRate _ => true
  | .gateCache _ => true
  | .gateStatus _ => true
  | .stageLoad _ env => env.wf
  | .stageVerify _ env => env.wf
  | .stageArm _ env => env.wf
  | .stageCue _ env => env.wf
  | .stageDisarm _ env => env.wf
  | .stageMode _ env => env.wf
  | .stageRestart _ env => env.wf
  | .stageCycle _ env => env.wf
  | .stageStatus _ env => env.wf
  | .engLoad _ env => env.wf
  | .engStart _ env => env.wf
  | .engStop _ => true
  | .engMatrix _ => true
  | .engHands _ => true
  | .engAdlib _ => true
  | .engAdliblock _ => true
  | .engStatus _ => true
  | .lineMode _ env => env.wf
  | .lineCal _ env => env.wf
  | .lineScope _ env => env.wf
  | .lineEcho _ env => env.wf
  | .lineMaint _ env => env.wf
  | .lineTelem _ env => env.wf
  | .dioMode _ env => env.wf
  | .dioFilter _ env => env.wf
  | .dioSet _ env => env.wf
  | .dioStatus _ env => env.wf
  | .canMode _ env => env.wf
  | .canTiming _ env => env.wf
  | .canDetect _ env => env.wf
  | .canFilter _ env => env.wf
  | .canPair _ env => env.wf
  | .canRecover _ env => env.wf
  | .canStatus _ env => env.wf
  | .netPort _ => true
  | .netQueue _ => true
  | .netGates _ => true
  | .netVlan _ => true
  | .netFdb _ => true
  | .netLimits _ => true
  | .netMirror _ => true
  | .netStatus _ => true
  | .motConfig _ => true
  | .motMove _ => true
  | .motVelocity _ => true
  | .motStop _ => true
  | .motHome _ => true
  | .motLatch _ => true
  | .motStatus _ => true
  | .drvConfig _ => true
  | .drvEnable _ => true
  | .drvCoil _ => true
  | .drvClear _ => true
  | .drvStatus _ => true
  | .memPower _ env => env.wf
  | .memScrub _ env => env.wf
  | .memRemap _ env => env.wf
  | .memCopy _ env => env.wf
  | .memStatus _ env => env.wf
  | .safeTable _ env => env.wf
  | .safeRelease _ env => env.wf
  | .safeStatus _ env => env.wf
  | .diagBist _ env => env.wf
  | .diagLoop _ env => env.wf
  | .diagInject _ env => env.wf
  | .diagWdog _ env => env.wf
  | .bookHead _ env => env.wf
  | .bookRead _ env => env.wf
  | .bookFind _ env => env.wf
  | .bookMark _ env => env.wf
  | .hostConfig _ env => env.wf
  | .hostUnfence _ env => env.wf
  | .hostStatus _ env => env.wf
  | .pwrDomain _ env => env.wf
  | .pwrHoldup _ env => env.wf
  | .pwrStatus _ env => env.wf
  | .callDoorbellWrite _ _ _ => true
  | .callMessageWrite _ _ _ _ => true
  | .callAckWrite _ _ _ => true
  | .callEvclr _ _ => true
  | .callBindWrite _ _ _ => true
  | .callLock _ => true
  | .callErrInfoClear _ => true
  | .callCntEvdropClear _ => true
  | .doorbellProcessing _ => true
  | .slotConsumption env => env.wf
  | .commandStart _ env => env.wf
  | .commandEnd _ env => env.wf
  | .completionInterrupt _ => true
  | .commandWatchdog _ => true
  | .coreHeartbeat => true
  | .epochRecordRetry env => env.wf
  | .cmdQctlReset _ _ env => env.wf
  | .cmdQctlCommit _ _ => true
  | .cmdQctlEnable _ _ env => env.wf
  | .cmdQctlDisable _ _ => true
  | .registerWrite _ _ _ _ => true
  | .sysDecerrInfoClear _ => true
  | .sysLinkerrClear _ => true
  | .viewIdtWrite _ _ _ => true
  | .viewLock _ => true
  | .viewFaultInfoClear _ => true
  | .ringCtlCommit _ => true
  | .ringCtlSplitcommit _ => true
  | .ringCtlCntclr _ => true
  | .ringPubcommit _ => true
  | .lapBoundary _ _ _ _ _ => true
  | .outputHold _ => true
  | .scheduledWindow _ _ _ => true
  | .openWindowInsertion _ _ => true
  | .transitBufferRelease _ => true
  | .splitPointFire _ => true
  | .lapFrame _ f _ _ => f.wf
  | .processFrame _ f _ => f.wf
  | .write _ f => f.wf
  | .readRequest _ f => f.wf
  | .atomic _ f => f.wf
  | .completion _ f => f.wf
  | .message _ f => f.wf
  | .sideBand _ f => f.wf
  | .inboundBufferDrain => true
  | .joinRequest _ f => f.wf
  | .joinGrant _ f => f.wf
  | .joinRefuse _ f => f.wf
  | .joinBusy _ f => f.wf
  | .joinNoAnswer => true
  | .closeNotice _ f => f.wf
  | .leaveRequest _ f => f.wf
  | .leaveNotice _ f => f.wf
  | .startClaim _ f => f.wf
  | .listenTime => true
  | .settleTime => true
  | .eightMissedLaps => true
  | .takeover _ _ => true
  | .servoUpdate => true
  | .delayMarkerReceivedRequest _ _ _ => true
  | .delayMarkerResponse _ _ _ _ => true
  | .blockLock _ _ => true
  | .portFailure _ _ => true
  | .wrap _ => true
  | .wrapMarker _ _ _ => true
  | .replayMarker _ _ => true
  | .unwrapNotice _ _ _ => true
  | .portReady => true
  | .unwrapProposal _ => true
  | .accept _ => true
  | .confirm _ => true
  | .markerReplay => true
  | .requestReplay => true
  | .replayRequest _ f => f.wf
  | .replayStart _ f => f.wf
  | .replayEnd _ f => f.wf
  | .fenceNotice _ f => f.wf
  | .holdTimeout _ _ => true
  | .recoverTimeout _ _ => true
  | .marshalMissedLap => true
  | .desynchronise => true
  | .desyncIdleEnd => true
  | .mrshCtlCommit _ => true
  | .mrshCtlRejoin _ => true
  | .mrshWlogRead => true
  | .forerunnerReferenceFrame f _ => f.wf
  | .timeSnapctlCap => true
  | .timeSnapctlCntclr => true
  | .timeTrigCommit _ => true
  | .triggerFire _ => true
  | .captureEdge _ _ => true
  | .timeCaptAuxRead _ => true
  | .timeTsqAuxRead _ => true
  | .ptpMessage _ _ _ => true
  | .fabricGrant => true
  | .tagTimeout _ => true
  | .prefetchAge _ => true
  | .fabCtlWincommit _ _ => true
  | .fabCtlCntclr _ => true
  | .messageEntersGate _ => true
  | .rateEntrySend _ => true
  | .gateWaitLimit _ => true
  | .gateAnswerLimit _ => true
  | .gateCtlLogclr _ => true
  | .gateCtlCntclr _ => true
  | .writeOutputs _ => true
  | .retainedJournalApply _ => true
  | .cycleWatchdog _ => true
  | .stgCtlCommit _ _ => true
  | .stgCtlCntclr _ => true
  | .dbgCtlHalt0 _ => true
  | .dbgCtlHalt1 _ => true
  | .add _ _ => true
  | .sub _ _ => true
  | .and _ _ => true
  | .or _ _ => true
  | .xor _ _ => true
  | .nor _ _ => true
  | .andn _ _ => true
  | .cplt _ _ => true
  | .cpltu _ _ => true
  | .cpeq _ _ => true
  | .shl _ _ => true
  | .shr _ _ => true
  | .shra _ _ => true
  | .shlK _ _ => true
  | .shrK _ _ => true
  | .shraK _ _ => true
  | .clz _ _ => true
  | .min _ _ => true
  | .max _ _ => true
  | .minu _ _ => true
  | .maxu _ _ => true
  | .mul _ _ => true
  | .mulh _ _ => true
  | .mulhu _ _ => true
  | .div _ _ => true
  | .divu _ _ => true
  | .rem _ _ => true
  | .remu _ _ => true
  | .fadd _ _ => true
  | .fsub _ _ => true
  | .fmul _ _ => true
  | .fdiv _ _ => true
  | .fsqrt _ _ => true
  | .fmin _ _ => true
  | .fmax _ _ => true
  | .feq _ _ => true
  | .flt _ _ => true
  | .fle _ _ => true
  | .itof _ _ => true
  | .ftoi _ _ => true
  | .ftoiz _ _ => true
  | .addK _ _ => true
  | .andK _ _ => true
  | .orK _ _ => true
  | .xorK _ _ => true
  | .cpltK _ _ => true
  | .cpltuK _ _ => true
  | .ldhi _ _ => true
  | .bperm _ _ => true
  | .bfx _ r => decide (r.z = 0)
  | .bfi _ r => decide (r.z = 0)
  | .ldB _ _ => true
  | .ldBu _ _ => true
  | .ldH _ _ => true
  | .ldHu _ _ => true
  | .ldW _ _ => true
  | .stB _ _ => true
  | .stH _ _ => true
  | .stW _ _ => true
  | .amadd _ _ => true
  | .amswap _ _ => true
  | .rep _ r => decide (r.z = 0)
  | .movs _ r => decide (r.z = 0)
  | .fills _ r => decide (r.z = 0)
  | .cmps _ r => decide (r.z = 0)
  | .brEq _ _ => true
  | .brNe _ _ => true
  | .brLt _ _ => true
  | .brGe _ _ => true
  | .brLtu _ _ => true
  | .brGeu _ _ => true
  | .brAny _ _ => true
  | .brNone _ _ => true
  | .jmp _ _ => true
  | .call _ _ => true
  | .jmpr _ _ => true
  | .callr _ _ => true
  | .trap _ _ => true
  | .brk _ _ => true
  | .tret _ _ => true
  | .rds _ _ => true
  | .wrs _ _ => true
  | .drain _ _ => true
  | .tget _ _ => true
  | .push _ r => decide (r.z = 0)
  | .pop _ r => decide (r.z = 0)
  | .hctl _ r => decide (r.z = 0)
  | .hsync _ r => decide (r.z = 0)
  | .wev _ r => decide (r.z = 0)
  | .wevEoc _ r => decide (r.z = 0)
  | .adLib _ _ => true
  | .interruptEntry _ => true
  | .engineTimer _ => true
  | .engineWatchdog _ => true
  | .engSync _ _ _ => true
  | .engWdkick _ _ => true
  | .engGtx _ _ _ => true
  | .engEvtClear _ _ _ => true
  | .engCntclr _ _ => true
  | .jump _ _ _ _ _ => true
  | .waitfor _ _ _ _ _ _ => true
  | .shift _ _ _ _ _ _ _ => true
  | .take _ _ _ _ _ => true
  | .give _ _ _ _ _ => true
  | .drive _ _ _ _ => true
  | .ldk _ _ _ _ => true
  | .move _ _ _ _ _ _ => true
  | .signal _ _ _ _ _ => true
  | .handCtlEnClear _ _ => true
  | .handCtlEnSet _ _ => true
  | .handCtlRestart _ _ => true
  | .handCtlFifoclr _ _ => true
  | .handCtlCommit _ _ => true
  | .handCtlArm _ _ _ => true
  | .handCtlCntclr _ _ => true
  | .handTxfWrite _ _ _ => true
  | .handRxfRead _ _ => true
  | .handImemWrite _ _ _ _ => true
  | .handABTsrWrite _ _ _ _ => true
  | .lineCtlCommit _ _ => true
  | .lineCtlCalreq _ _ => true
  | .lineCtlCntclr _ _ => true
  | .passRequestPeriod u => unitCode u
  | .passRequestTdelta u => unitCode u
  | .calibrationStep u => unitCode u
  | .stepDone u _ _ _ => unitCode u
  | .foregroundEvent u _ => unitCode u
  | .passApply u => unitCode u
  | .starvedInterval u => unitCode u
  | .maintenanceWindowEnd u => unitCode u
  | .driverCurrentLimit _ => true
  | .quadOvertemperature _ => true
  | .commonModeFault _ _ _ => true
  | .dominantTimeout _ => true
  | .dioCtlCommit _ _ => true
  | .dioCtlCntclr _ => true
  | .filteredEdge _ _ => true
  | .dioStampRead _ _ => true
  | .outputShort _ => true
  | .octetOvercurrent _ => true
  | .totalOvercurrent => true
  | .openLoad _ => true
  | .openLoadClear _ => true
  | .vfldLow => true
  | .vfldRecovery => true
  | .canCtlCommit _ _ => true
  | .commitAtBusIdle _ => true
  | .canCtlFltcommit _ _ => true
  | .canCtlRecover _ _ => true
  | .canCtlCntclr _ _ => true
  | .canTxw _ _ _ => true
  | .canCancel _ _ _ => true
  | .canTxevRead _ _ => true
  | .busIntegration _ => true
  | .canFrameReceived _ _ _ _ _ => true
  | .transmitEvent _ _ => true
  | .errorStateChange _ _ _ _ => true
  | .busOff _ => true
  | .busOffRecoveryEnd _ => true
  | .ethernetFrameReceived _ _ _ => true
  | .tierLinkFrame _ _ _ => true
  | .pauseFrame _ _ _ => true
  | .pauseEnd _ => true
  | .egressFrameStart _ _ => true
  | .gateControlListInterval _ => true
  | .linkDown _ => true
  | .linkUp _ _ => true
  | .learnedEntryAging _ => true
  | .plcaDuplicateNode _ => true
  | .macCtlCommit _ _ => true
  | .macCtlGcommit _ _ => true
  | .macCtlCntclr _ _ => true
  | .swCtlCommit _ => true
  | .swCtlCntclr _ => true
  | .swHtxIndexWrite _ _ env => env.wf
  | .swHrxIndexWrite _ _ env => env.wf
  | .stepTimerExpiry _ => true
  | .limitSwitch _ _ => true
  | .homeSwitch _ => true
  | .indexEdge _ => true
  | .homingSet _ => true
  | .searchLimit _ => true
  | .motCtlCommit _ _ => true
  | .motCtlStop _ _ => true
  | .motCtlCntclr _ _ => true
  | .motTgtWrite _ _ _ => true
  | .motLattWrite _ _ _ => true
  | .motLatrawHiRead _ _ => true
  | .drvCtlEn _ _ _ => true
  | .drvCtlCommit _ _ => true
  | .drvCtlClear _ _ => true
  | .drvCtlCntclr _ _ => true
  | .coilMeasurementDone _ _ _ => true
  | .driveFault _ _ => true
  | .holdDelayExpiry _ => true
  | .pullInTimeEnd _ _ _ => true
  | .bankWake _ => true
  | .bankInitDone _ => true
  | .correctableWriteBack => true
  | .remap => true
  | .remapTableRecord env => env.wf
  | .scrubStep _ => true
  | .memDmaStart _ _ => true
  | .memDmaAbort _ _ => true
  | .dmaDescriptorEnd _ => true
  | .memCtlCntclr _ => true
  | .memCtlLogclr _ => true
  | .pcieMemoryRead _ _ _ => true
  | .pcieMemoryWrite _ _ _ => true
  | .pcieAtomicop _ _ _ _ _ => true
  | .pcieUnsupportedRequest _ => true
  | .busMasterEnable _ _ => true
  | .hostReadTimeout _ _ => true
  | .functionLoss _ _ _ => true
  | .hostFenceClear _ _ => true
  | .hostCtlCommit _ => true
  | .hostCtlCntclr _ => true
  | .qspiRead _ _ => true
  | .qspiQuadRead _ _ => true
  | .qspiWrite _ _ _ => true
  | .qspiQuadWrite _ _ _ => true
  | .qspiStatus => true
  | .qspiUnknownInstruction _ => true
  | .parPointerWrite _ _ => true
  | .parControlWrite _ => true
  | .parStatusRead => true
  | .parDataLowRead => true
  | .parDataHighRead => true
  | .parDataLowWrite _ => true
  | .parDataHighWrite _ => true
  | .hotSwapGood => true
  | .hotSwapFault => true
  | .powerOnReset _ => true
  | .undervoltageLockout => true
  | .powerFailWarning => true
  | .vinRecovery => true
  | .consumptionResume => true
  | .coldReset _ => true
  | .warmReset => true
  | .pllLock => true
  | .startUp _ _ => true
  | .readyTimeout => true
  | .domainWake _ => true
  | .clockMonitorWindow _ _ => true
  | .referenceLoss _ => true
  | .railOutOfWindow _ _ => true
  | .temperatureMonitor _ _ => true
  | .safeTrip _ => true
  | .safeCtlCommit _ => true
  | .safeLockTable _ => true
  | .safeLockInj _ => true
  | .safeLockDbg _ => true
  | .delayRequestInterval _ _ => true
  | .lockstepMismatch _ => true
  | .quadTemperatureRecovery _ => true
  | .driveTemperatureWarning _ _ => true
  | .railBackInWindow _ => true
  | .canTransmitStart _ _ => true
  | .canBusError _ _ _ => true
  | .canDetectDwell _ => true
  | .lineCalTimeLimit _ => true
  | .lineScopeTimeout _ => true
  | .pcieLinkUp _ _ => true
  | .hostReadCompletion _ _ env => env.wf
  | .msixMaskChange _ _ _ _ => true
  | .debuggerAttach _ => true
  | .triggerPulseEnd _ => true

end Sys2Proof
end

