-- ==== Sys2Proof/Tests/Slice0.lean ====
section
/-! SUPPORT. Tests on fixed values: well-formedness, and for every statement with hypotheses states and operands that meet them, clause by clause. -/
open Sys2Proof Sys2Proof.Machine
set_option maxRecDepth 8000

/-- A station just out of reset: supply on and core PLL locked. -/
def Tests.up : State := { State.reset with power := { PowerSt.init with pll := true } }

/-- A command with sequence number 1, of a backstage owner, started and with its own step still to take. -/
def Tests.cmd (op : Nat) (ps : List Word) : CmdRec :=
  { seq := 1, queue := 0, ident := 0, bs := true, opcode := op, flags := 0, tag := 0, len := 4 + ps.length, params := ps, acc := 0, started := true,
    startRaw := 0, ran := false, fin := none, postable := true, headAfter := 0, units := [], inner := none }

/-- A station that has the command `c` in hand. -/
def Tests.having (s : State) (c : CmdRec) : State := { s with cmd := { s.cmd with cmds := [c], halted := false } }

/-- The same from reset, with fields set. -/
def Tests.upWith (ws : List (Fld × Nat)) : State := ws.foldl (fun s x => s.wr x.1 x.2) Tests.up
def Tests.at_ (op : Nat) (ps : List Word) (ws : List (Fld × Nat)) : State := Tests.having (Tests.upWith ws) (Tests.cmd op ps)

theorem Tests.wr_power (s : State) (f : Fld) (v : Nat) : (s.wr f v).power = s.power := rfl

theorem Tests.upWith_alive (ws : List (Fld × Nat)) : (Tests.upWith ws).alive = true := by
  have h : ∀ (l : List (Fld × Nat)) (s : State), s.alive = true → (l.foldl (fun s x => s.wr x.1 x.2) s).alive = true := by
    intro l
    induction l with
    | nil => intro s hs; exact hs
    | cons x l ih => intro s hs; exact ih _ hs
  exact h ws Tests.up rfl

/-- Every command of the prompt book can stand ready for its step: the hypothesis that the statements about the opcodes have in common. -/
theorem test_every_opcode_can_be_due (op : Nat) (ps : List Word) (ws : List (Fld × Nat)) :
    (Tests.at_ op ps ws).Due op 1 (Tests.cmd op ps) :=
  ⟨rfl, rfl, rfl, rfl, rfl, Tests.upWith_alive ws, rfl⟩

/-- A word as the four bytes that memory holds of it. -/
def Tests.cells (a : Nat) (w : Word) : List Host.Cell := [(a, byteOf w 0), (a + 1, byteOf w 1), (a + 2, byteOf w 2), (a + 3, byteOf w 3)]

/-- Engine 0 in RUN, at PC 0, where the word `w` stands; `x` are its registers. -/
def Tests.eng (x : Proc) (w : Word) : State :=
  { Tests.upWith [(F.ENG_STATE_state 0, 2), (subFld (F.PWR_DOMST 0) 0 2, 0)] with
    procs := [Proc.init, Proc.init, x] ++ List.replicate 15 Proc.init, mem := Tests.cells (engBase 0) w }

/-- Stage pair 0 in RUN, in its logic phase, at PC 0, where the word `w` stands. -/
def Tests.pair (x : Proc) (w : Word) : State :=
  { Tests.upWith [(F.STG_STATE_state 0, pRUN), (F.STG_STATE_phase 0, 2), (subFld (F.PWR_DOMST 1) 0 2, 0)] with
    procs := x :: List.replicate 17 Proc.init, mem := Tests.cells (codeBase 0 0) w }

/-- A processor whose registers are the listed ones. -/
def Tests.regs (l : List Word) : Proc := { Proc.init with stall := .none, w := l ++ List.replicate (32 - l.length) 0 }

theorem Tests.word_of_bytes (w : Word) : wordOf (byteOf w 0) (byteOf w 1) (byteOf w 2) (byteOf w 3) = w := by
  apply BitVec.eq_of_getLsbD_eq
  intro i hi
  simp only [wordOf, byteOf, BitVec.getLsbD_append, BitVec.getLsbD_setWidth, BitVec.getLsbD_ushiftRight]
  split
  · simp [*]
  · split
    · have e : 8 * 1 + (i - 8) = i := by omega
      simp only [e]; simp [*]
    · split
      · have e : 8 * 2 + (i - 8 - 8) = i := by omega
        simp only [e]; simp [*]
      · have e : 8 * 3 + (i - 8 - 8 - 8) = i := by omega
        have : i - 8 - 8 - 8 < 8 := by omega
        simp only [e]; simp [this]

theorem Tests.up_domains : (Tests.upWith [(F.ENG_STATE_state 0, 2), (subFld (F.PWR_DOMST 0) 0 2, 0)]).domState 0 = 0 ∧
    (Tests.upWith [(F.ENG_STATE_state 0, 2), (subFld (F.PWR_DOMST 0) 0 2, 0)]).engState 0 = 2 := by decide

theorem Tests.up_pair : (Tests.upWith [(F.STG_STATE_state 0, pRUN), (F.STG_STATE_phase 0, 2), (subFld (F.PWR_DOMST 1) 0 2, 0)]).domState 16 = 0 ∧
    (Tests.upWith [(F.STG_STATE_state 0, pRUN), (F.STG_STATE_phase 0, 2), (subFld (F.PWR_DOMST 1) 0 2, 0)]).pst 0 = 3 ∧
    (Tests.upWith [(F.STG_STATE_state 0, pRUN), (F.STG_STATE_phase 0, 2), (subFld (F.PWR_DOMST 1) 0 2, 0)]).rd (F.STG_STATE_phase 0) = 2 := by decide

theorem Tests.eng_memu (x : Proc) (w : Word) : (Tests.eng x w).eng 0 = EngSt.init := rfl

theorem Tests.fetch_eng (x : Proc) (w : Word) : (Tests.eng x w).fetch 2 0 = (.word w, Tests.eng x w) := by
  have d : (Tests.eng x w).domState 0 = 0 := Tests.up_domains.1
  have e : (Tests.eng x w).wordAt 16777216 = w := Tests.word_of_bytes w
  have p : (Tests.eng x w).parityBad 16777216 4 = false := rfl
  simp [State.fetch, State.rdMem, State.codeAddr, engBase, area, State.ready, domOf, d, e, p]

/-- Any word can stand at the PC of a running engine: the hypothesis that the statements about instructions have in common. -/
theorem test_engine_issues (w : Word) (x : Proc) (h : x.pc = 0 ∧ x.stall = .none) : (Tests.eng x w).Issues 2 w (Tests.eng x w) := by
  have e : (Tests.eng x w).pcOf 2 = 0 := h.1
  have q : ((Tests.eng x w).proc 2).stall = .none := h.2
  have d : (Tests.eng x w).domState 0 = 0 := Tests.up_domains.1
  have g : (Tests.eng x w).engState 0 = 2 := Tests.up_domains.2
  refine ⟨rfl, ?_, ?_⟩
  · simp [State.procRuns, q, d, g]
  · rw [e]; exact Tests.fetch_eng x w

theorem Tests.fetch_pair (x : Proc) (w : Word) : (Tests.pair x w).fetch 0 0 = (.word w, Tests.pair x w) := by
  have d : (Tests.pair x w).domState 16 = 0 := Tests.up_pair.1
  have e : (Tests.pair x w).wordAt 20971520 = w := Tests.word_of_bytes w
  have p : (Tests.pair x w).rdCoded false (procId 0) 20971520 = (.ok w, Tests.pair x w) := by
    have f : (Tests.pair x w).flipsAt 20971520 = [] := rfl
    simp [State.rdCoded, e, f]
  have m : ((Tests.pair x w).pair 0).half = 0 := rfl
  simp [State.fetch, State.rdMem, State.codeAddr, codeBase, area, State.ready, domOf, d, p, m]

/-- The same of a stage pair in its logic phase. -/
theorem test_pair_issues (w : Word) (x : Proc) (h : x.pc = 0 ∧ x.stall = .none) : (Tests.pair x w).Issues 0 w (Tests.pair x w) := by
  have e : (Tests.pair x w).pcOf 0 = 0 := h.1
  have q : ((Tests.pair x w).proc 0).stall = .none := h.2
  have d : (Tests.pair x w).domState 16 = 0 := Tests.up_pair.1
  have g : (Tests.pair x w).pst 0 = 3 := Tests.up_pair.2.1
  have f : (Tests.pair x w).rd (F.STG_STATE_phase 0) = 2 := Tests.up_pair.2.2
  refine ⟨rfl, ?_, ?_⟩
  · simp [State.procRuns, q, d, g, f, pRUN]
  · rw [e]; exact Tests.fetch_pair x w

theorem test_reset_is_canonical_witness : State.reset.pending = [] ∧ Tests.up.pending = [] ∧ Tests.up.alive = true ∧ State.reset.raw = 0 := ⟨rfl, rfl, rfl, rfl⟩

theorem test_raw_counter_premises : ({ State.reset with power := { PowerSt.init with on := false } } : State).power.on = false ∧
    (true = true ∨ Tests.up.cmd.resetReq = some 3) ∧ Tests.up.power.on = true ∧
    (∀ b, Instr.warmReset ≠ .powerOnReset b) ∧ (∀ b, Instr.warmReset ≠ .coldReset b) :=
  ⟨rfl, .inl rfl, rfl, nofun, nofun⟩

/-- A register's row and a shadow value of it, two fields of one register beside each other, and two registers. -/
theorem test_staged_fields_premises :
    let s := Tests.up.setShadow (F.STG_CYC_len 0).addr 5#32
    (findRow (F.STG_CYC_len 0).addr).isSome = true ∧ slook s.shadow (F.STG_CYC_len 0).addr = some 5#32 ∧ (F.STG_OUTOFS_ofs 0).addr ≠ (F.STG_CYC_len 0).addr ∧
    (F.STG_CYC_len 0).lo + (F.STG_CYC_len 0).w ≤ 32 ∧ (F.STG_CYC_len 0).lo + (F.STG_CYC_len 0).w ≤ (F.STG_CYC_phase 0).lo := by decide

theorem test_stored_words_premises : (3 < 4) ∧ ((7 : Nat) < 8 ∨ 8 + 4 ≤ 7) ∧ ((11 : Nat) < 8 ∨ 8 + 4 ≤ 12) ∧ ¬ ((8 : Nat) < 8 ∨ 8 + 4 ≤ 8) ∧
    inMram 0x02000000 = true ∧ inMram 0x02FFFFFF = true ∧ inMram 0x03000000 = false := by decide

theorem test_general_registers_premises : (17 : Nat) < Tests.up.procs.length ∧ (31 : Nat) < (Tests.up.proc 17).w.length ∧ (31 : Nat) ≠ 0 := by decide

theorem test_register_operations_premises :
    let r : RFmt := ⟨0, 0, 2, 1⟩
    let s := Tests.eng (Tests.regs [0, 0x00010000#32]) (r.word 0 0x18)
    s.Issues 2 (r.word 0 0x18) s ∧ r.x = 0 ∧ r.wt = 0 ∧ 15 ≤ 32 ∧ (s.getW 2 1).toNat < 2 ^ (32 - 15) ∧ (15 < 32 → 2 ^ (31 - 15) ≤ (s.getW 2 1).toNat) :=
  ⟨test_engine_issues _ _ ⟨rfl, rfl⟩, rfl, rfl, by decide, by decide, by decide⟩

/-- A count of all zeros: the clause of `clz` at its upper bound. -/
theorem test_count_of_zero_premises : 32 ≤ 32 ∧ ((Tests.eng (Tests.regs []) 0).getW 2 1).toNat < 2 ^ (32 - 32) ∧ ¬ (32 < 32) := by decide

theorem test_multiply_divide_premises :
    let r : RFmt := ⟨0, 2, 3, 1⟩
    let s := Tests.eng (Tests.regs [0, 9]) (r.word 1 0x04)
    s.Issues 2 (r.word 1 0x04) s ∧ r.x = 0 ∧ s.getW 2 2 = 0 := ⟨test_engine_issues _ _ ⟨rfl, rfl⟩, rfl, by decide⟩

theorem test_immediate_operations_premises :
    let r : IFmt := ⟨0x8000, 3, 0⟩
    let s := Tests.eng (Tests.regs []) (r.word 0x0A)
    s.Issues 2 (r.word 0x0A) s ∧ r.ws = 0 := ⟨test_engine_issues _ _ ⟨rfl, rfl⟩, rfl⟩

theorem test_field_operations_premises :
    let r : FieldFmt := ⟨24, 7, true, 0, 3, 1⟩
    let q : FieldFmt := ⟨31, 0, false, 0, 3, 1⟩
    let s := Tests.eng (Tests.regs [0, 9]) (r.word 0x0C)
    let t := Tests.eng (Tests.regs [0, 9]) (q.word 0x0D)
    s.Issues 2 (r.word 0x0C) s ∧ (r.pos.val + (r.wm1.val + 1) ≤ 32 ∧ r.z = 0) ∧ t.Issues 2 (q.word 0x0D) t ∧
    (q.pos.val + (q.wm1.val + 1) ≤ 32 ∧ q.z = 0 ∧ q.sg = false) :=
  ⟨test_engine_issues _ _ ⟨rfl, rfl⟩, by decide, test_engine_issues _ _ ⟨rfl, rfl⟩, by decide⟩

/-- One bit more is outside the word. -/
theorem test_field_operations_outside :
    let r : FieldFmt := ⟨25, 7, true, 0, 3, 1⟩
    let q : FieldFmt := ⟨0, 0, true, 0, 3, 1⟩
    ¬ (r.pos.val + (r.wm1.val + 1) ≤ 32 ∧ r.z = 0) ∧ ¬ (q.pos.val + (q.wm1.val + 1) ≤ 32 ∧ q.z = 0 ∧ q.sg = false) := by decide

theorem test_float_operations_premises :
    let r : RFmt := ⟨0, 0, 3, 1⟩
    let s := Tests.eng (Tests.regs [0, 0x7FC00000#32]) (r.word 3 0x04)
    s.Issues 2 (r.word 3 0x04) s ∧ r.x = 0 ∧ r.wt = 0 ∧ f32IsNaN 0x7F800001#32 = true ∧ f32IsNaN 0xFFFFFFFF#32 = true ∧ f32IsNaN 0x7F800000#32 = false :=
  ⟨test_engine_issues _ _ ⟨rfl, rfl⟩, rfl, rfl, by decide, by decide, by decide⟩

theorem test_branches_premises :
    let r : RFmt := ⟨0, 0, 0, 1⟩
    let s := Tests.pair (Tests.regs [0, 64]) (r.word 0x24 1)
    s.Issues 0 (r.word 0x24 1) s ∧ r.x = 0 ∧ r.wt = 0 ∧ r.wd = 0 := ⟨test_pair_issues _ _ ⟨rfl, rfl⟩, rfl, rfl, rfl⟩

/-- A load of each width from the engine's local memory, and an address of each misalignment. -/
theorem test_loads_premises :
    let r : IFmt := ⟨4, 3, 1⟩
    let s := Tests.eng (Tests.regs [0, 0x01000000#32]) (r.word 0x14)
    let a := (s.getW 2 r.ws + r.imm.signExtend 32).toNat
    s.Issues 2 (r.word 0x14) s ∧ ((s.proc 2).got = [] ∧ area a ≠ .aperture ∧ s.retWord 2 a = none) ∧ a % 4 = 0 ∧
    (∃ v u, s.locRead (procId 2) a = (.ok v, u)) ∧ (∃ v u, s.locNarrowRead (procId 2) a 1 = (.ok v, u)) ∧ (∃ v u, s.locNarrowRead (procId 2) a 2 = (.ok v, u)) :=
  ⟨test_engine_issues _ _ ⟨rfl, rfl⟩, by decide, by decide, ⟨_, _, rfl⟩, ⟨_, _, rfl⟩, ⟨_, _, rfl⟩⟩

theorem test_loads_misaligned_premises :
    let s := Tests.eng (Tests.regs [0, 0x01000000#32]) 0
    (s.getW 2 1 + (2#16).signExtend 32).toNat % 4 ≠ 0 ∧ (s.getW 2 1 + (0xFFFF#16).signExtend 32).toNat % 2 ≠ 0 := by decide

theorem test_house_reads_premises :
    Tests.up.bankState (0x003FFFFC / 0x10000) = 0 ∧ Tests.up.flipsAt (0x003FFFFC / 4 * 4) = [] ∧ 0x003FFFFC % 4 = 0 ∧ 0x003FFFFE % 2 = 0 ∧
    (0x003FFFFF : Nat) < 0x00400000 := by decide

theorem test_stores_premises :
    let s := Tests.eng (Tests.regs [0, 0x003FFFFC#32, 5, 0x01000000#32]) 0
    (s.getW 2 1 + (0#16).signExtend 32).toNat % 4 = 0 ∧ (s.getW 2 1 + (0#16).signExtend 32).toNat < 0x00400000 ∧
    s.bankState ((s.getW 2 1).toNat / 0x10000) = 0 ∧ s.flipsAt (s.getW 2 1).toNat = [] ∧
    (s.getW 2 1 + (2#16).signExtend 32).toNat % 4 ≠ 0 ∧ (s.getW 2 1 + (3#16).signExtend 32).toNat % 2 ≠ 0 ∧
    area 0x003FFFFF ≠ .aperture ∧ area 0x003FFFFF ≠ .reg ∧ area 0x01000002 ≠ .aperture ∧ 0x01000002 % 2 = 0 ∧ area 0x01000000 ≠ .house ∧
    (∃ u, s.locNarrowWrite (procId 2) 0x003FFFFF 1 5 = (.narrow, u)) ∧ (∃ u, s.locNarrowWrite (procId 2) 0x01000001 1 5 = (.ok, u)) ∧
    (∃ u, s.locNarrowWrite (procId 2) 0x01000002 2 5 = (.ok, u)) :=
  ⟨by decide, by decide, by decide, by decide, by decide, by decide, by decide, by decide, by decide, by decide, by decide, ⟨_, rfl⟩, ⟨_, rfl⟩, ⟨_, rfl⟩⟩

theorem test_string_steps_premises :
    let r : StrFmt := ⟨2, 0, 1, 0⟩
    let s := Tests.eng (Tests.regs [0, 0, 0, 0, 0, 2, 0x100#32, 0x01000100#32]) (r.word 0)
    s.Issues 2 (r.word 0) s ∧ r.size ≠ 3 ∧ r.z = 0 ∧ r.ss = 0 ∧ s.getW 2 5 ≠ 0 ∧ (Tests.eng (Tests.regs []) 0).getW 2 5 = 0 ∧
    (∃ v k u, s.accRead 2 (s.getW 2 6).toNat 4 (s.trail 2) = (.val v, k, u) ∧ (∃ c x, u.accWrite 2 (u.getW 2 7).toNat 4 v k = (.val c, x)) ∧
      ∃ c k' x, u.accRead 2 (u.getW 2 7).toNat 4 k = (.val c, k', x)) ∧
    (∃ c u, s.accWrite 2 (s.getW 2 7).toNat 4 (s.getW 2 6) (s.trail 2) = (.val c, u)) :=
  ⟨test_engine_issues _ _ ⟨rfl, rfl⟩, by decide, rfl, rfl, by decide, by decide, ⟨_, _, _, rfl, ⟨_, _, rfl⟩, _, _, _, rfl⟩, _, _, rfl⟩

/-- `rep` before `fills`, with two elements to go and with none. -/
theorem test_rep_premises :
    let r : StrFmt := ⟨0, 0, 0, 0⟩
    let f : StrFmt := ⟨2, 0, 1, 0⟩
    let s := fun n : Word => { Tests.eng (Tests.regs [0, 0, 0, 0, 0, n, 0x100#32, 0x01000100#32]) 0 with
      mem := Tests.cells 0x01000000 (r.word 3) ++ Tests.cells 0x01000004 (f.word 1) }
    (s 2).Issues 2 (r.word 3) (s 2) ∧ (s 2).fetch 2 ((s 2).pcOf 2 + 4) = (.word (f.word 1), s 2) ∧ isString (f.word 1) = true ∧
    (∃ x, (s 2).element 2 1 2 0 1 = (.did, x)) ∧ (∃ x, (s 0).element 2 1 2 0 1 = (.ended, x)) ∧
    getF (f.word 1) 24 2 = 1 ∧ getF (f.word 1) 22 2 = 2 ∧ getF (f.word 1) 18 4 = 0 ∧ getF (f.word 1) 14 4 = 1 :=
  ⟨⟨rfl, by decide, by rfl⟩, by rfl, by decide, ⟨_, rfl⟩, ⟨_, rfl⟩, by decide, by decide, by decide, by decide⟩

theorem test_system_instructions_premises :
    let r : RFmt := ⟨0, 0, 0, 0⟩
    let s := Tests.eng (Tests.regs []) (r.word 0x25 1)
    let d := fun p : Nat => { (if p = 0 then Tests.pair (Tests.regs []) (r.word 0x25 1) else Tests.eng (Tests.regs []) (r.word 0x25 1)) with
      regs := (Tests.upWith [(F.DBG_CTL_attached, 1)]).regs }
    s.Issues 2 (r.word 0x25 1) s ∧ s.rd F.DBG_CTL_attached = 0 ∧ (∀ a ∈ s.fab.reqs, a.ident ≠ procId 2) ∧ (d 0).rd F.DBG_CTL_attached ≠ 0 ∧
    (5 : Fin 32).val < 6 ∧ (30 : Fin 32).val % 2 = 0 ∧ 2 ≤ (2 : Fin 32).val :=
  ⟨test_engine_issues _ _ ⟨rfl, rfl⟩, by decide, nofun, by decide, by decide, by decide, by decide⟩

/-- The debugger's clauses of `brk`: an engine and a stage pair that run with a debugger attached. -/
theorem test_brk_with_debugger_premises :
    let w := (⟨0, 0, 0, 0⟩ : RFmt).word 0x25 1
    let e : State := (Tests.eng (Tests.regs []) w).wr F.DBG_CTL_attached 1
    let p : State := (Tests.pair (Tests.regs []) w).wr F.DBG_CTL_attached 1
    (e.Issues 2 w e ∧ e.rd F.DBG_CTL_attached ≠ 0) ∧ p.Issues 0 w p ∧ p.rd F.DBG_CTL_attached ≠ 0 :=
  ⟨⟨⟨rfl, by decide, rfl⟩, by decide⟩, ⟨rfl, by decide, rfl⟩, by decide⟩

theorem test_trap_entry_premises :
    let v : Proc := { Tests.regs [] with sr := [0, 0, 0, 0, 0x101#32] ++ List.replicate 11 0 }
    let s := Tests.pair v 0
    getF (s.sr 0 4) 0 1 = 1 ∧ getF (s.sr 0 0) 0 1 = 0 ∧ (((s.setSr 0 1 0).setSr 0 2 1).setSr 0 3 0).vecOn 0 = true ∧
    stIntrap ((((s.setSr 0 1 0).setSr 0 2 1).setSr 0 3 0).sr 0 0) = false ∧
    ((((Tests.eng (Tests.regs []) 0).setSr 2 1 0).setSr 2 2 1).setSr 2 3 0).vecOn 2 = false := by decide

/-- A word that no instruction has. -/
theorem test_no_instruction_premises : (Tests.eng (Tests.regs []) 0xFC000000#32).Issues 2 0xFC000000#32 (Tests.eng (Tests.regs []) 0xFC000000#32) ∧
    isInstr 0xFC000000#32 = false ∧ (0xFC000000#32 : Word) ≠ (⟨0, 0, 0, 0⟩ : RFmt).word 0 1 :=
  ⟨test_engine_issues _ _ ⟨rfl, rfl⟩, by decide, by decide⟩

theorem test_io_instructions_premises :
    let r : IoFmt := ⟨1, 0, 0, false, 0⟩
    let s := Tests.eng (Tests.regs [0, 1]) (r.word 0)
    s.Issues 2 (r.word 0) s ∧ r.unit.val < 32 ∧ s.rd (F.HAND_STAT_owner 0) = 0 ∧ (s.hand 0).txf.length < 8 ∧
    (({ s with hands := [{ HandSt.init with rxf := [7] }] } : State).hand 0).rxf = 7#32 :: [] ∧
    (∀ h, h < 32 → (s.getW 2 1).getLsbD h = true → s.rd (F.HAND_STAT_owner h) = 0) ∧ s.evPending 2 &&& 0#32 = 0 :=
  ⟨test_engine_issues _ _ ⟨rfl, rfl⟩, by decide, by decide, by decide, rfl, by decide, by decide⟩

theorem test_end_of_cycle_premises : (Tests.pair (Tests.regs []) ((⟨0, 0, 0, false, 0⟩ : IoFmt).word 5)).Issues 0 ((⟨0, 0, 0, false, 0⟩ : IoFmt).word 5)
    (Tests.pair (Tests.regs []) ((⟨0, 0, 0, false, 0⟩ : IoFmt).word 5)) := test_pair_issues _ _ ⟨rfl, rfl⟩

/-- An entry of one micro-operation, wd := ws. -/
theorem test_ad_lib_premises :
    let r : AdlibFmt := ⟨0, 3, 1, 0, 0⟩
    let s := { Tests.eng (Tests.regs [0, 5]) r.word with adlib := ⟨[(0, [BitVec.ofNat 32 (3 * 2 ^ 26 + 8 * 2 ^ 22 + 9 * 2 ^ 18 + 12 * 2 ^ 14)])], false⟩ }
    s.Issues 2 r.word s ∧ s.adlibEnt r.sel ≠ [] ∧
    ∃ v u, s.uops 2 ⟨s.getW 2 r.wd, s.getW 2 r.ws, s.getW 2 r.wt, BitVec.ofInt 32 (sgn 7 r.imm7), List.replicate 8 0⟩ none (s.trail 2) (s.adlibEnt r.sel)
      = ((.next, some v), u) :=
  ⟨⟨rfl, by decide, rfl⟩, by decide, _, _, rfl⟩

theorem test_interrupt_entry_premises :
    let v : Proc := { Tests.regs [] with sr := [2, 0, 0, 0, 0x101#32] ++ List.replicate 11 0 }
    let s := (Tests.eng v 0).wr (F.ENG_IEN 0) 0x100
    let t := { s with regs := (((Tests.eng v 0).wr (F.ENG_IEN 0) 0x100).wr (F.ENG_EVT 0) 0x100).regs }
    t.alive = true ∧ t.procRuns 2 = true ∧ (t.proc 2).got = [] ∧ getF (t.sr 2 0) 0 2 = 2 ∧ t.vecOn 2 = true ∧ (t.evtWord 0 &&& t.reg (F.ENG_IEN 0).addr : Word) ≠ 0 := by decide

/-- Stagehand 0 enabled at PC 0, where the word `w` stands. -/
def Tests.hand (w : Nat) (ws : List (Fld × Nat)) : State := Tests.upWith ([(F.HAND_CTL_en 0, 1), (F.HAND_IMEM 0 0, w)] ++ ws)

/-- Each stagehand instruction at the largest legal value of its fields, and at the smallest that is reserved, stands at a PC and runs. -/
theorem test_stagehand_words_run :
    [9 * 512 + 31 * 16 + 3, 0x2000 + 0x1000 + 2 * 1024 + 7 * 128, 0x4000 + 31 * 256 + 3 * 64 + 3 * 16 + 8 + 4, 0x6000 + 0x800 + 0x400, 0x7000,
     0x8000 + 255 * 32, 0xA000 + 2 * 2048 + 511 * 4, 0xC000 + 5 * 1024 + 7 * 128 + 3 * 32, 0xE000 + 3 * 2048 + 7 * 256,
     10 * 512, 0x2000 + 3 * 1024, 0x2000 + 1024, 0x6000 + 4, 0x7000 + 4, 0x8000 + 4, 0xA000 + 3 * 2048, 0xC000 + 4 * 1024, 0xE000 + 4].all
      (fun w => let s := Tests.hand w []
        s.alive && s.on (F.HAND_CTL_en 0) && decide ((s.hand 0).hold = 0) && decide (s.rd (F.HAND_IMEM 0 (s.handPc 0)) = w)) = true := by decide

theorem test_stagehand_instructions_premises :
    (Tests.hand (9 * 512 + 31 * 16 + 3) []).HandRuns 0 ((9 : Fin 16) * 512 + (31 : Fin 32) * 16 + (3 : Fin 4)) ∧
    (9 : Fin 16).val ≤ 9 ∧ (2 : Fin 4).val < 3 ∧ (2 : Fin 4) ≠ 3 ∧ ((3 : Fin 8).val ≤ 3 ∨ (3 : Fin 8) = 5) ∧ ((5 : Fin 8).val ≤ 3 ∨ (5 : Fin 8) = 5) ∧
    (Tests.hand 0 []).rd (F.HAND_SHCFG_obase 0) + (7 : Fin 32) + 1 ≤ 8 ∧ (Tests.hand 0 []).rd (F.HAND_SHCFG_ibase 0) + (7 : Fin 32) + 1 ≤ 8 :=
  ⟨⟨by decide, by decide, by decide, by decide⟩, by decide, by decide, by decide, by decide, by decide, by decide, by decide⟩

theorem test_stagehand_reserved_premises :
    (Tests.hand (10 * 512) []).HandRuns 0 ((10 : Fin 16) * 512 + (0 : Fin 32) * 16 + (0 : Fin 4) * 4 + (0 : Fin 4)) ∧
    (9 < (10 : Fin 16).val ∨ (0 : Fin 4) ≠ 0) ∧ ((1 : Fin 4) = 3 ∨ (0 : Fin 32) ≠ 0 ∨ ((1 : Fin 4) = 1 ∧ false = false)) ∧
    8 < (Tests.hand 0 []).rd (F.HAND_SHCFG_obase 0) + (8 : Fin 32) + 1 ∧ 8 < (Tests.hand 0 []).rd (F.HAND_SHCFG_ibase 0) + (8 : Fin 32) + 1 ∧
    ((0 : Fin 8) ≠ 0 ∨ (4 : Fin 8) = 4 ∨ (4 : Fin 8) = 6 ∨ (4 : Fin 8) = 7) :=
  ⟨⟨by decide, by decide, by decide, by decide⟩, by decide, by decide, by decide, by decide, by decide⟩

theorem test_stagehand_memory_premises :
    (Tests.hand 0 []).Reaches 0 0 ∧ (Tests.hand 0 []).rd (F.HAND_CTL_en 0) = 1 ∧ Tests.up.Reaches 0x10 0 ∧ Tests.up.rd (F.HAND_CTL_en 0) = 0 :=
  ⟨⟨by decide, by decide⟩, by decide, ⟨by decide, by decide⟩, by decide⟩

theorem test_stagehand_control_premises :
    (({ Tests.up with hands := [{ HandSt.init with rxf := [7] }] } : State).hand 0).rxf = 7#32 :: [] ∧ (Tests.up.hand 0).rxf = [] ∧
    (0x10 : Nat) ≤ (0x11 : Ident).val ∧ (0x11 : Ident).val < 0x20 ∧ (0x11 : Ident).val - 0x10 ≠ Tests.up.handOwner 0 ∧ (Tests.up.hand 0).txf.length < 8 := by
  refine ⟨rfl, rfl, ?_⟩; decide

theorem test_engine_events_premises :
    let s := Tests.upWith [(F.ENG_TCTL_en 0, 1), (subFld (F.PWR_DOMST 0) 0 2, 0), (F.ENG_STATE_state 0, 2)]
    let t := { s with raw := 4000, engs := [{ EngSt.init with wdPeriod := 1, wdRaw := 0 }] }
    s.alive = true ∧ s.rd (F.ENG_TCTL_en 0) = 1 ∧ s.domState 0 = 0 ∧ s.engState 0 = 2 ∧ s.domState 0 ≠ 1 ∧
    ((s.raw % 2 ^ 32 + 2 ^ 32 - s.rd (F.ENG_TCMP 0)) % 2 ^ 32) < 2 ^ 31 ∧ (t.eng 0).wdPeriod ≠ 0 ∧ (t.eng 0).wdRaw + (t.eng 0).wdPeriod * 4000 ≤ t.raw ∧
    ¬ (0x10 ≤ (0x0F : Ident).val ∧ (0x0F : Ident).val < 0x20) ∧ 0x10 ≤ (0x1F : Ident).val ∧ (0x1F : Ident).val < 0x20 := by decide

/-- A station whose command core consumes slots of queue 0, in house memory and in host memory; a command of its own that waits, runs and ends. -/
theorem test_command_pipeline_premises :
    let on := [(F.CMD_STATUS_ready, 1), (F.CMD_QCTL_enable 0, 1), (F.CMD_QSTAT_enabled 0, 1), (F.CMD_QPTR_tail 0, 1)]
    let s := Tests.having (Tests.upWith on) (Tests.cmd 0 [])
    let t := Tests.having (Tests.upWith ((F.CMD_QCFG_loc 0, 1) :: on)) { Tests.cmd 0 [] with started := false }
    s.coreUp = true ∧ s.cmd.accStop = false ∧ s.bookBlocked = false ∧ ((s.wr F.CMD_STATUS_bookstall 0).pickQueue).isSome = true ∧
    s.hostQueue 0 = false ∧ t.hostQueue 0 = true ∧ s.findCmd 1 = some (Tests.cmd 0 []) ∧ s.cmd.halted = false ∧
    s.mayStart (Tests.cmd 0 []) = false ∧ t.mayStart { Tests.cmd 0 [] with started := false } = true ∧ (Tests.cmd 0 []).fin = none ∧
    s.irqDue 0 = false ∧ (s.setQueue 0 (fun x => { x with unsig := 1 })).irqDue 0 = true := by decide

/-- A book whose next place is still in use. -/
theorem test_book_blocked_premises :
    ((Tests.up.setWord (bookAddr 1) 1).setWord (bookAddr 1 + 4) (BitVec.ofNat 32 (2 * 2 ^ 19))).bookBlocked = true := by decide

/-- A packet of SYS.NOP that passes every check, and one of a reserved length. -/
theorem test_accepted_commands_premises :
    let ws : List Word := [0x00000004#32, 7, 0, packetCrc [0x00000004#32, 7, 0, 0] 4]
    let s := Tests.upWith [(F.CMD_QCFG_owner 0, 0)]
    (0 : Nat) < 8 ∧ s.checkPacket 0 ws false = none ∧ s.checkPacket 0 [3, 7, 0, 0] false = some (0x0101, []) ∧ s.cmd.inject = [] ∧
    (Tests.having s (Tests.cmd 0 [])).findCmd 1 = some (Tests.cmd 0 []) := by decide

theorem test_command_watchdog_premises :
    let s := { Tests.having Tests.up (Tests.cmd 0 []) with raw := 100 * 400000 + 1 }
    s.findCmd 1 = some (Tests.cmd 0 []) ∧ s.alive = true ∧ (opRow 0).isSome = true ∧ isLong (Tests.cmd 0 []) = false ∧
    (Tests.cmd 0 []).startRaw + s.cmd.limS * 400000 < s.raw ∧ Tests.up.raw ≤ (Tests.cmd 0 []).startRaw + Tests.up.cmd.limQ * 400000 := by decide

theorem test_queue_control_premises :
    let s := Tests.upWith [(F.CMD_QCTL_enable 0, 1), (F.CMD_QSTAT_halted 0, 1)]
    Tests.up.Backs 0 ∧ s.rd (F.CMD_QCTL_enable 0) = 1 ∧ Tests.up.rd (F.CMD_QCTL_enable 0) = 0 ∧ Tests.up.placementOk 0 = true ∧
    (Tests.up.rd F.CALL_LOCK_lock = 0 ∨ Tests.up.bindsChange 0 (Tests.up.rdS (F.CMD_QCFG_owner 0)) = false) ∧
    (Tests.upWith [(F.CMD_QSQBASE_HI 0, 1)]).placementOk 0 = false ∧ (Tests.upWith [(F.CALL_LOCK_lock, 1)]).bindsChange 0 4 = true ∧
    s.rd (F.CMD_QSTAT_halted 0) = 1 ∧ Tests.up.cmd.halted = false ∧ Tests.up.backstage 2 = false :=
  ⟨⟨by decide, by decide⟩, by decide, by decide, by decide, by decide, by decide, by decide, by decide, by decide, by decide⟩

/-- Doorbells of queue 0: a legal value, the first value that is not, and a queue that is not enabled. -/
theorem test_doorbells_premises :
    let on := [(F.CMD_STATUS_ready, 1), (F.CALL_STAT_busy 0, 1), (F.CALL_STAT_busy 8, 1), (F.CMD_QSTAT_enabled 0, 1), (F.CMD_QCFG_size 0, 3)]
    let s := fun v : Nat => Tests.upWith ((F.CALL_DB 0, v) :: on)
    let tailOk := fun s : State => let v := s.rd (F.CALL_DB 0); let n := s.qSlots 0; let h := s.rd (F.CMD_QPTR_head 0)
      v < n ∧ (s.rd (F.CMD_QPTR_tail 0) + n - h) % n ≤ (v + n - h) % n
    (s 7).coreUp = true ∧ (s 7).rd (F.CALL_STAT_busy 0) = 1 ∧ (s 7).rd (F.CALL_STAT_busy 8) = 1 ∧
    ((s 7).rd (F.CMD_QSTAT_enabled 0) = 1 ∧ (s 7).rd (F.CMD_QSTAT_halted 0) = 0) ∧ tailOk (s 7) ∧ ¬ tailOk (s 8) ∧
    ¬ (Tests.up.rd (F.CMD_QSTAT_enabled 0) = 1 ∧ Tests.up.rd (F.CMD_QSTAT_halted 0) = 0) := by decide

theorem test_callboard_premises :
    let s := Tests.upWith [(F.CALL_BIND_valid 16, 1), (F.CALL_BIND_send 16, 1), (F.CALL_BIND_recv 16, 2), (F.CALL_BIND_valid 0, 1), (F.CALL_BIND_send 0, 1)]
    s.alive = true ∧ (s.rd (F.CALL_BIND_valid 16) = 1 ∧ s.rd (F.CALL_BIND_send 16) = 1) ∧ (s.rd (F.CALL_BIND_valid 16) = 1 ∧ s.rd (F.CALL_BIND_recv 16) = 2) ∧
    (s.rd (F.CALL_BIND_valid 0) = 1 ∧ s.rd (F.CALL_BIND_send 0) = 1) ∧ s.rd F.CMD_STATUS_ready = 0 ∧ s.rd (F.CALL_STAT_busy 16) = 0 ∧
    ¬ (s.rd (F.CALL_BIND_valid 63) = 1 ∧ s.rd (F.CALL_BIND_send 63) = 1) ∧ (0x00010000#32).getLsbD 17 = false ∧ s.rd F.CALL_LOCK_lock = 0 ∧
    (partyOk (getF 0x80020100#32 8 6) = true ∧ partyOk (getF 0x80020100#32 16 6) = true ∧ getF 0x80020100#32 8 6 ≠ getF 0x80020100#32 16 6) ∧
    (0x7FFFFFFF#32).getLsbD 31 = false := by decide

theorem test_backstage_premises : Tests.up.Backs 0 ∧ Tests.up.Backs 1 ∧ ¬ Tests.up.Backs 2 :=
  ⟨⟨by decide, by decide⟩, ⟨by decide, by decide⟩, fun h => absurd h.2 (by decide)⟩

/-- No command waits in a queue that holds none: the hypothesis of the statement that a step is taken once. -/
theorem test_step_taken_once_premises : ∀ c, ¬ Tests.up.Due 0x0000 1 c := fun _ h => nomatch h.1

/-- The buffer that the descriptor at parameter `i` names reads, and its bytes and the state after it meet `p`. -/
def Tests.reads (s : State) (c : CmdRec) (env : Env) (i : Nat) (p : List Byte → State → Bool) : Bool :=
  match bulkOf c i 0 with
  | .ok d => match s.readBuf c env d with
    | (.data bs, t) => p bs t
    | _ => false
  | .error _ => false

theorem Tests.reads_spec {s : State} {c : CmdRec} {env : Env} {i : Nat} {p : List Byte → State → Bool} (h : Tests.reads s c env i p = true) :
    ∃ d bs t, bulkOf c i 0 = .ok d ∧ s.readBuf c env d = (.data bs, t) ∧ p bs t = true := by
  unfold Tests.reads at h
  split at h
  · split at h
    · exact ⟨_, _, _, by assumption, by assumption, h⟩
    · cases h
  · cases h

/-- The buffer that the descriptor at parameter `i` names may be written. -/
def Tests.writes (s : State) (c : CmdRec) (i : Nat) (p : Bulk → Bool) : Bool :=
  match bulkOf c i 1 with
  | .ok d => (!d.host || s.bme (fnOf c.ident)) && p d
  | .error _ => false

def Tests.env : Env := ⟨[], false, []⟩

/-- Words of zeros in house memory at 0, as a descriptor of `n` bytes. -/
def Tests.zeros (n : Nat) : List Word := [0, 0, BitVec.ofNat 32 n, crc32c (List.replicate n 0)]

/-- 32 bytes of a number, the most significant first; an image is its words and its signature. -/
def Tests.be (n : Nat) : List Byte := (List.range 32).map (fun i => BitVec.ofNat 8 (n / 256 ^ (31 - i)))
def Tests.image (ws : List Word) (r t : Nat) : List Byte := wordsToBytes ws ++ Tests.be r ++ Tests.be t

/-- Bytes in memory from `a` upward. -/
def Tests.put (a : Nat) (bs : List Byte) : List Host.Cell := (List.range bs.length).map (fun i => (a + i, bs.getD i 0))

/-- A firmware image of 128 bytes, and the public key that its signature verifies under. -/
def Tests.fwWords : List Word := [0x57465356#32, 0x77480001#32, 0x80#32, 1] ++ List.replicate 12 0
def Tests.fwKey : List Byte := Tests.be 0x61cf0c683ea2d0238f92cb27dbf2d11e87acbff414823695997964744ef8baad ++ Tests.be 0xc15e1c41b83be6851e6e96a94f5068e6de734500cf9faefe77e15b3557ece9fd
def Tests.fwImage : List Byte := Tests.image Tests.fwWords
  0x578b00700eed0409c424bbf1d6858d9517b281dd323c9be45fc38d0a5fd7252
  0x578b00700eed0409c424bbf1d6858d9517b281dd323c9be45fc38d0a5fd7252
theorem Tests.fw_signed : ecdsaOk Tests.fwKey (Tests.fwImage.take 64) (Tests.fwImage.drop 64) = true := by decide +kernel
theorem Tests.fw_shape : Tests.fwImage.length - 64 = 64 ∧ Tests.fwKey.any (fun b => b ≠ 0) = true ∧ bytesToWords Tests.fwImage = Tests.fwWords ++ bytesToWords (Tests.fwImage.drop 64) := by
  decide +kernel

/-- A script image of 196 bytes with one instruction, under key 1. -/
def Tests.scriptWords : List Word := [0x52435356#32, 0, 0x77480001#32, 0xc4#32, 0x10005#32, 0x80#32, 4, 0, 0, 0x80#32, 0, 0x40#32, 0x20#32, 0, 0, 1] ++ List.replicate 17 0
def Tests.scriptKey : List Byte := Tests.be 0x6e53fa97b456f8923cb26ed5c18209ae6b4f09ad973dd4bb898be782458e579c ++ Tests.be 0x4523e4b1471a0530a8738ded85a39a15d6326cc7e35105cfd39d4607e481cba4
def Tests.scriptImage : List Byte := Tests.image Tests.scriptWords
  0xfc54eaccaa4faf38b4fea125c52198cedf33e3e91a18f3a941132f4d0d282110
  0xfc54eaccaa4faf38b4fea125c52198cedf33e3e91a18f3a941132f4d0d282110
theorem Tests.script_signed : ecdsaOk Tests.scriptKey (Tests.scriptImage.take 132) (Tests.scriptImage.drop 132) = true := by decide +kernel
theorem Tests.script_shape : Tests.scriptImage.length - 64 = 132 ∧ Tests.scriptKey.any (fun b => b ≠ 0) = true ∧ bytesToWords Tests.scriptImage = Tests.scriptWords ++ bytesToWords (Tests.scriptImage.drop 132) := by
  decide +kernel

/-- A stage image of 260 bytes with a section for pair 0, under key 2. -/
def Tests.stageWords : List Word := [0x47545356#32, 0x77480001#32, 0x104#32, 7, 0x40#32, 0, 2] ++ List.replicate 9 0 ++ [0xc0#32, 4] ++ List.replicate 15 0 ++ [0x1cc#32] ++ List.replicate 15 0
def Tests.stageKey : List Byte := Tests.be 0x2cd03b0e2527606a3764f0d5b077cd0556789efdeac4d46539d24de1dbd2647b ++ Tests.be 0x59b3e18f6723e33a07ac7b088b5d00705bb0ee41d40470d76228485e177763dd
def Tests.stageImage : List Byte := Tests.image Tests.stageWords
  0x3cfff9d117cfc4ca5de7eae1ba14e3db864dc898e813be4e3d4774196f437c8b
  0xbf924841ba4240afe8d7fcfbacde69b1758b8691e1a5fa20fffca16a567507e0
theorem Tests.stage_signed : ecdsaOk Tests.stageKey (Tests.stageImage.take 196) (Tests.stageImage.drop 196) = true := by decide +kernel
theorem Tests.stage_shape : Tests.stageImage.length - 64 = 196 ∧ Tests.stageKey.any (fun b => b ≠ 0) = true ∧ bytesToWords Tests.stageImage = Tests.stageWords ++ bytesToWords (Tests.stageImage.drop 196) := by
  decide +kernel

/-- A signature that verifies under the key in the factory region, in any station without inverted bits. -/
theorem Tests.sig_ok {s : State} {k n : Nat} {key img : List Byte} (hk : k ≤ 3) (hf : s.memu.flips = []) (h1 : s.imageKey k = key)
    (h2 : img.length - 64 = n) (h3 : key.any (fun b => b ≠ 0) = true) (h4 : ecdsaOk key (img.take n) (img.drop n) = true) : s.sigOk k img = true := by
  simp only [State.sigOk, h1, h2, h3, h4, State.anyBad, hf]
  simp [hk]

/-- A station with an image at `a` and its key. -/
def Tests.withImage (s : State) (a k : Nat) (img key : List Byte) : State := { s with mem := Tests.put a img ++ Tests.put (keyAddr k) key }

/-- The firmware image in slot B. -/
def Tests.fwSlot (s : State) : State := Tests.withImage s (fwBase 1) 0 Tests.fwImage Tests.fwKey
theorem Tests.fw_slot : (Tests.fwSlot Tests.up).imageKey 0 = Tests.fwKey ∧ (Tests.fwSlot Tests.up).bytesAt (fwBase 1) 128 = Tests.fwImage ∧
    (Tests.fwSlot Tests.up).wordsAt (fwBase 1) 16 = Tests.fwWords := by decide +kernel

theorem test_firmware_slot_valid (s : State) (h : s.memu.flips = []) : (Tests.fwSlot s).fwValid 1 = true := by
  have hf : (Tests.fwSlot s).memu.flips = [] := h
  have hk : (Tests.fwSlot s).imageKey 0 = Tests.fwKey := Tests.fw_slot.1
  have hb : (Tests.fwSlot s).bytesAt (fwBase 1) 128 = Tests.fwImage := Tests.fw_slot.2.1
  have hw : (Tests.fwSlot s).wordsAt (fwBase 1) 16 = Tests.fwWords := Tests.fw_slot.2.2
  simp only [State.fwValid, hw, show nAt Tests.fwWords 2 = 128 from rfl, show fwHeaderOk Tests.fwWords = true from by decide, hb,
    Tests.sig_ok (by decide) hf hk Tests.fw_shape.1 Tests.fw_shape.2.1 Tests.fw_signed, State.anyBad, hf]
  rfl

/-- The firmware image in house memory at 0: what SYS.FWLOAD reads, and its slot after the load. -/
def Tests.fwBuf (s : State) : State := Tests.withImage s 0 0 Tests.fwImage Tests.fwKey
theorem test_firmware_buffer_signed (s : State) (h : s.memu.flips = []) : (Tests.fwBuf s).sigOk 0 Tests.fwImage = true :=
  Tests.sig_ok (by decide) h (show (Tests.fwBuf Tests.up).imageKey 0 = Tests.fwKey from by decide +kernel) Tests.fw_shape.1 Tests.fw_shape.2.1 Tests.fw_signed

/-- The script in house memory at 0, as ENG.LOAD reads it, and in the library's first place, as ENG.START does. -/
theorem test_script_signed (s : State) (a : Nat) (h : s.memu.flips = []) (ha : a = 0 ∨ a = libBase) :
    (Tests.withImage s a 1 Tests.scriptImage Tests.scriptKey).sigOk 1 Tests.scriptImage = true := by
  refine Tests.sig_ok (by decide) h ?_ Tests.script_shape.1 Tests.script_shape.2.1 Tests.script_signed
  rcases ha with rfl | rfl
  · exact (show (Tests.withImage Tests.up 0 1 Tests.scriptImage Tests.scriptKey).imageKey 1 = Tests.scriptKey from by decide +kernel)
  · exact (show (Tests.withImage Tests.up libBase 1 Tests.scriptImage Tests.scriptKey).imageKey 1 = Tests.scriptKey from by decide +kernel)

theorem test_script_header_legal : hdrOk (Tests.scriptWords ++ bytesToWords (Tests.scriptImage.drop 132)) 196 = true := by decide +kernel

/-- The stage image in slot 0. -/
def Tests.stageSlot (s : State) : State := Tests.withImage s (slotBase 0) 2 Tests.stageImage Tests.stageKey
def Tests.section : Section := ⟨0, (Tests.stageWords.drop 16).take 32⟩
theorem Tests.stage_slot : (Tests.stageSlot Tests.up).imageKey 2 = Tests.stageKey ∧ (Tests.stageSlot Tests.up).bytesAt (slotBase 0) 260 = Tests.stageImage ∧
    (Tests.stageSlot Tests.up).wordsAt (slotBase 0) 16 = Tests.stageWords.take 16 := by decide +kernel
theorem Tests.stage_section : (Tests.stageSlot Tests.up).sectionOf 0 0 = some Tests.section := by decide +kernel
theorem Tests.stage_checked : (Tests.stageSlot Tests.up).sectReason 0 Tests.section = none := by decide +kernel

theorem test_stage_image_verifies : (Tests.stageSlot Tests.up).verifyReason 0 [0] = .ok none := by
  have hs := Tests.sig_ok (s := Tests.stageSlot Tests.up) (by decide : 2 ≤ 3) rfl Tests.stage_slot.1 Tests.stage_shape.1 Tests.stage_shape.2.1 Tests.stage_signed
  have hf : (Tests.stageSlot Tests.up).memu.flips = [] := rfl
  simp only [State.verifyReason, Tests.stage_slot.2.2, show nAt (Tests.stageWords.take 16) 2 = 260 from by decide, State.slotBytes, Nat.add_zero,
    Tests.stage_slot.2.1, show getF (wAt (Tests.stageWords.take 16) 6) 0 8 = 2 from by decide, hs, Tests.stage_section, Tests.stage_checked, State.anyBad, hf,
    show headReason (Tests.stageWords.take 16) = none from by decide, List.foldl, show nAt (Tests.stageWords.take 16) (4 + 0) = 64 from by decide]
  rfl

def Tests.fwParams : List Word := [0, 0, 128, crc32c Tests.fwImage]
theorem Tests.fw_reads : Tests.reads ((Tests.fwBuf (Tests.at_ 0x0004 Tests.fwParams [])).begun 1) (Tests.cmd 0x0004 Tests.fwParams) Tests.env 0 (fun bs t =>
    let u := t.putWords (fwBase (1 - t.rd F.SYS_BOOT_slot)) (bytesToWords bs)
    decide (bs = Tests.fwImage) && decide (u.imageKey 0 = Tests.fwKey) && decide (u.memu.flips = [])) = true := by decide +kernel

/-- A firmware image in a buffer that SYS.FWLOAD takes: its header, its length, its bytes and its signature are good. -/
theorem test_system_commands_premises :
    let s := Tests.fwBuf (Tests.at_ 0x0004 Tests.fwParams [])
    let c := Tests.cmd 0x0004 Tests.fwParams
    c.f 2 23 0 ≤ 786432 ∧ 786432 < (Tests.cmd 0x0004 [0, 0, 786436]).f 2 23 0 ∧
    ∃ d bs t, bulkOf c 0 0 = .ok d ∧ (s.begun 1).readBuf c Tests.env d = (.data bs, t) ∧
      let u := t.putWords (fwBase (1 - t.rd F.SYS_BOOT_slot)) (bytesToWords bs)
      ¬ (fwHeaderOk (bytesToWords bs) = false ∨ nAt (bytesToWords bs) 2 ≠ bs.length ∨ u.anyBad (fwBase (1 - t.rd F.SYS_BOOT_slot)) bs.length = true) ∧
      u.sigOk 0 bs = true := by
  refine ⟨by decide, by decide, ?_⟩
  obtain ⟨d, bs, t, h1, h2, h3⟩ := Tests.reads_spec Tests.fw_reads
  simp only [Bool.and_eq_true, decide_eq_true_eq] at h3
  obtain ⟨⟨rfl, h4⟩, h5⟩ := h3
  refine ⟨d, _, t, h1, h2, ?_, Tests.sig_ok (by decide) h5 h4 Tests.fw_shape.1 Tests.fw_shape.2.1 Tests.fw_signed⟩
  rintro (h | h | h)
  · rw [Tests.fw_shape.2.2] at h; revert h; decide +kernel
  · rw [Tests.fw_shape.2.2] at h; revert h; decide +kernel
  · simp [State.anyBad, h5] at h

theorem test_bad_firmware_premises :
    let c := Tests.cmd 0x0004 (Tests.zeros 4)
    Tests.reads ((Tests.at_ 0x0004 (Tests.zeros 4) []).begun 1) c Tests.env 0 (fun bs t => !fwHeaderOk (bytesToWords bs) && !t.sigOk 0 bs) = true := by
  decide +kernel

theorem test_select_and_book_premises :
    (Tests.cmd 5 [1]).f 0 1 0 = 1 ∧ (2 ≤ (Tests.cmd 5 [2]).f 0 1 0 ∧ Tests.up.fwValid 0 = false) ∧ (Tests.cmd 5 [0]).f 0 1 0 = 0 ∧ 2 ≤ (Tests.cmd 5 [3]).f 0 1 0 ∧
    Tests.writes Tests.up (Tests.cmd 0x0E01 [1, 0, 0, 0, 0x40000020#32]) 2 (fun d => decide (32 * 1 ≤ d.len)) = true ∧
    Tests.writes Tests.up (Tests.cmd 0x0E01 [1, 0, 0, 0, 0x40000004#32]) 2 (fun d => decide (d.len < 32 * 1)) = true ∧
    ({ Tests.cmd 0x0E02 [0, 1] with bs := false, ident := 1 } : CmdRec).f 1 5 0 = 1 ∧ (Tests.cmd 0x0E02 [0, 1]).bs = true ∧
    Tests.up.bookFind (fun _ => true) 0 16383 = none ∧
    ((Tests.up.setWord (bookAddr 1) 1).setWord (bookAddr 1 + 4) (BitVec.ofNat 32 (3 * 2 ^ 19))).bookFind (fun _ => true) 1 16383 = some 1 := by decide

theorem test_host_power_premises :
    (1 < (Tests.cmd 0x0F00 [0x2100#32]).f 0 13 12) ∧ ¬ (1 < (Tests.cmd 0x0F00 [0x1400#32]).f 0 13 12 ∨ (Tests.cmd 0x0F00 [0x1400#32]).f 0 11 8 < 1 ∨
      4 < (Tests.cmd 0x0F00 [0x1400#32]).f 0 11 8) ∧
    18 < (Tests.cmd 0x0F00 [0x100#32, 0x1300#32]).f 1 12 8 ∧ 32 < (Tests.cmd 0x0F00 [0x100#32, 0x021F#32]).f 1 4 0 + (Tests.cmd 0x0F00 [0x100#32, 0x021F#32]).f 1 12 8 ∧
    (Tests.cmd 0x0F00 [0x100#32, 0x0100#32]).len = 6 ∧ 6 + 1 ≤ (Tests.cmd 0x0F00 [0x100#32, 0x0100#32, 0]).len ∧
    ((Tests.cmd 0x0F01 [1]).f 0 1 0).testBit 0 = true ∧ ({ Tests.cmd 0x0F01 [1] with ident := 1 } : CmdRec).ident = 0 + 1 ∧
    (Tests.upWith [(F.HOST_STAT_link, 1)]).rd F.HOST_STAT_link = 1 ∧ Tests.up.rd F.HOST_STAT_link = 0 ∧
    (Tests.cmd 0x0F03 [3]).f 0 1 0 = 3 ∧ ((Tests.upWith [(F.SYS_ID_code, 1)]).isC = true ∧ (Tests.cmd 0x0F03 [0, 0, 0, 0x8000#32]).f 3 15 8 ≠ 0) ∧
    Tests.up.isC = false ∧ (domNamed (Tests.cmd 0x0F03 [2, 1])).any ((Tests.upWith [(F.ENG_STATE_state 0, 1)]).domRefused 2) = true ∧
    (domNamed (Tests.cmd 0x0F03 [1, 1])).any (Tests.up.domRefused 1) = false := by decide

theorem test_safety_commands_premises :
    (0 < 8 ∧ actionsOk ((Tests.cmd 0x0D00 [3]).pw 0) 3 = false) ∧ actionsOk ((Tests.cmd 0x0D00 [0, 0, 0, 0, 0, 0, 0, 0, 2]).pw 8) 2 = false ∧
    (∀ i, i < 8 → actionsOk ((Tests.cmd 0x0D00 []).pw i) 3 = true) ∧ actionsOk ((Tests.cmd 0x0D00 []).pw 8) 2 = true ∧
    (Tests.upWith [(F.SAFE_LOCK_table, 1)]).rd F.SAFE_LOCK_table = 1 ∧ Tests.up.rd F.SAFE_LOCK_table = 0 ∧ Tests.up.rd F.SAFE_STATE_state = 0 ∧
    (Tests.upWith [(F.SAFE_STATE_state, 1)]).rd F.SAFE_STATE_state = 1 ∧ (Tests.upWith [(F.SAFE_STATE_state, 2)]).rd F.SAFE_STATE_state = 2 ∧
    Tests.up.blocking ≠ 0 ∧ (Tests.upWith [(F.SAFE_CAUSENOW, 2 ^ 8 + 2 ^ 6)]).blocking = 0 ∧
    (Tests.cmd 0x0D03 [0x20#32]).f 0 1 0 = 0 ∧ 1 < (Tests.cmd 0x0D03 [0x20#32]).f 0 7 4 ∧ unitOk ((Tests.cmd 0x0D04 [48]).f 0 6 0) = false ∧
    (Tests.cmd 0x0D03 [0x12#32]).f 0 1 0 ≠ 3 ∧ (Tests.cmd 0x0D03 [0x10#32]).f 0 7 4 ≤ 1 ∧ Tests.up.bistReady (Tests.cmd 0x0D03 [2]) = false ∧
    (Tests.upWith [(F.SAFE_STATE_state, 2)]).bistReady (Tests.cmd 0x0D03 [2]) = true ∧ Tests.env.obs = [] ∧ ({ Tests.env with obs := [1] } : Env).obs ≠ [] ∧
    unitOk 47 = true ∧ unitOk 64 = true ∧ ((Tests.cmd 0x0D04 [47]).f 0 6 0 < 64 ↔ (Tests.cmd 0x0D04 [47]).f 0 8 8 = 0) ∧
    ((Tests.cmd 0x0D04 [0x140#32]).f 0 6 0 < 64 ↔ (Tests.cmd 0x0D04 [0x140#32]).f 0 8 8 = 0) ∧
    (200 ≤ (Tests.cmd 0x0D04 [0x140#32, 1000]).p 1 ∧ (Tests.cmd 0x0D04 [0x140#32, 1000]).p 1 ≤ 1000) ∧ (Tests.up.windowOpen 47 = false) ∧
    (Tests.up.unitOwner 64).isSome = false ∧ ({ Tests.up with lines := [{ LineSt.init with window := some 0 }] } : State).windowOpen 0 = true ∧
    (Tests.upWith [(F.SAFE_LOCK_inj, 1)]).rd F.SAFE_LOCK_inj = 1 ∧ Tests.up.rd F.SAFE_LOCK_inj = 0 ∧ 10 ≤ (Tests.cmd 0x0D05 [10]).f 0 3 0 ∧
    (2 ≤ (Tests.cmd 0x0D05 [9]).f 0 3 0 ∧ (Tests.cmd 0x0D05 [9]).f 0 3 0 < 10) ∧ codedWord 0x00400000 = false ∧ codedWord 0x003FFFFC = true ∧ codedWord 0x02FFFFFC = true ∧
    (Tests.cmd 0x0D05 [1, 0, 0x2526#32]).f 2 5 0 = 38 ∧ (Tests.cmd 0x0D05 [1, 0, 0x2526#32]).f 2 13 8 = 37 ∧ (Tests.cmd 0x0D05 [1]).f 0 3 0 = 1 ∧
    (Tests.cmd 0x0D05 [0]).f 0 3 0 = 0 ∧ (Tests.cmd 0x0D06 [0x10000#32]).f 0 15 0 = 0 ∧ (Tests.cmd 0x0D06 [0x10001#32]).f 0 15 0 ≠ 0 ∧
    (Tests.cmd 0x0D06 [0x10001#32]).f 0 31 16 ≠ 0 := by decide

theorem test_store_commands_premises :
    Tests.writes Tests.up (Tests.cmd 0x0100 [0, 0, 0, 0, 0x40000010#32]) 2 (fun _ => true) = true ∧
    Tests.writes Tests.up (Tests.cmd 0x0102 [0, 0, 0x40000010#32]) 0 (fun _ => true) = true ∧
    (4 * (recordWords 0 []).length ≤ 1048576) ∧ (Tests.up.storeWrite [] false).1 = true ∧ (Tests.up.storeWrite [] true).1 = false ∧
    (Tests.cmd 0x0103 [0, 0]).f 0 5 0 < 1 ∧ 59 < (Tests.cmd 0x0103 [60, 0]).f 0 5 0 ∧ (Tests.cmd 0x0103 [1]).f 0 5 0 = 1 ∧ (Tests.cmd 0x0103 [1]).len < 5 + 1 ∧
    (1 ≤ (Tests.cmd 0x0103 [1, 0xC0000000#32]).f 0 5 0 ∧ 5 + 1 ≤ (Tests.cmd 0x0103 [1, 0xC0000000#32]).len ∧ getF 0xC0000000#32 30 2 = 3) ∧
    getF 0x80000000#32 30 2 ≠ 3 := by decide

/-- A buffer of one entry of the store: key 5 of kind 2 with one data word. -/
theorem test_store_write_premises :
    let ws : List Word := [0x80000005#32, 4, 7]
    let bs := wordsToBytes ws
    let ps : List Word := [0, 0, 0, 12, crc32c bs]
    let s := { Tests.at_ 0x0101 ps [] with mem := Tests.put 0 bs }
    Tests.reads (s.begun 1) (Tests.cmd 0x0101 ps) Tests.env 1 (fun bs t =>
      match entsOf (bytesToWords bs) 0 (bytesToWords bs).length with
      | .ok new => (keyTwice [] 0 new).isNone && decide (4 * (recordWords 0 (new.foldl (fun l e => entPut e l) t.storeEnts)).length ≤ 1048576)
      | .error _ => false) = true := by decide +kernel

theorem test_memory_commands_premises :
    (Tests.cmd 0x0C00 [1, 0, 3]).f 2 1 0 = 3 ∧ ((ones 32 ((Tests.cmd 0x0C00 [1, 0, 2]).p 0)).any (Tests.upWith [(F.CMD_QCTL_enable 0, 1)]).bankBusy = true) ∧
    ((ones 32 ((Tests.cmd 0x0C00 [1, 0, 2]).p 0)).any Tests.up.bankBusy = false) ∧ (Tests.cmd 0x0C00 [1, 0, 0]).f 2 1 0 = 0 ∧
    (Tests.cmd 0x0C01 [0, 15]).f 1 15 0 < 16 ∧ 16 ≤ (Tests.cmd 0x0C01 [0, 16]).f 1 15 0 ∧ (Tests.cmd 0x0C02 [1]).f 0 0 0 = 1 ∧
    (0x00400000 ≤ (Tests.cmd 0x0C02 [0, 0x00400000#32]).p 1) ∧ (Tests.cmd 0x0C02 [0, 0x003FFFFE#32]).p 1 % 4 ≠ 0 ∧
    ((Tests.cmd 0x0C02 [0, 0x003FFFFC#32]).p 1 < 0x00400000 ∧ (Tests.cmd 0x0C02 [0, 0x003FFFFC#32]).p 1 % 4 = 0) ∧
    8 ≤ (Tests.upWith [(sparesFld 63, 8)]).rd (sparesFld (bankOf 0x003FFFFC)) ∧ (Tests.upWith [(sparesFld 63, 7)]).rd (sparesFld (bankOf 0x003FFFFC)) < 8 ∧
    (Tests.up.flipsAt 0x003FFFFC).length < 2 ∧
    Tests.writes Tests.up (Tests.cmd 0x0C03 (Tests.zeros 4 ++ [0x100#32, 0, 0x40000004#32])) 4 (fun o => decide ((Tests.cmd 0x0C03 (Tests.zeros 4)).f 2 23 0 = o.len)) = true ∧
    Tests.reads ((Tests.at_ 0x0C03 (Tests.zeros 4 ++ [0x100#32, 0, 0x40000004#32]) []).begun 1) (Tests.cmd 0x0C03 (Tests.zeros 4)) Tests.env 0 (fun _ _ => true) = true := by
  decide

theorem test_ring_commands_premises :
    (legalWord 0x040A0010 ((Tests.cmd 0x0200 [0]).pw 0) = true ∧ (Tests.cmd 0x0200 [0]).f 0 1 0 ≠ 3) ∧ ¬ ((Tests.cmd 0x0200 [3]).f 0 1 0 ≠ 3) ∧
    Tests.up.rd F.RING_STATE_join = 0 ∧ (Tests.upWith [(F.RING_STATE_join, 5)]).rd F.RING_STATE_join = 5 ∧ Tests.up.tierOk 0 = true ∧
    (Tests.upWith [(F.MAC_CFG_maxlen 0, 2089)]).tierOk 0x100#32 = false ∧ Tests.up.ring.commit = [] ∧
    ({ Tests.up with ring := { Tests.up.ring with commit := [⟨0, 0, false, none⟩] } } : State).ring.commit ≠ [] ∧
    (Tests.cmd 0x0201 [0, 0, 332]).f 2 23 0 = 332 ∧ (Tests.cmd 0x0201 [0, 0, 328]).f 2 23 0 ≠ 332 ∧
    (Tests.cmd 0x0202 [0, 2]).f 0 16 16 = 0 ∧ (Tests.cmd 0x0202 [0, 2]).f 0 15 0 = Tests.up.rd F.RING_GEN_shadow ∧
    (Tests.cmd 0x0202 [1, 2]).f 0 15 0 ≠ Tests.up.rd F.RING_GEN_shadow ∧ (Tests.cmd 0x0202 [0, 1]).p 1 < Tests.up.lap + 2 ∧
    Tests.up.lap + 2 ≤ (Tests.cmd 0x0202 [0, 2]).p 1 ∧ (Tests.cmd 0x0202 [0x10000#32, 100]).f 0 16 16 = 1 ∧ Tests.up.isStarter = false ∧
    (Tests.upWith [(F.TIME_STATE_role, rSTARTER)]).isStarter = true ∧ Tests.up.lap + Tests.up.rd F.RING_JOINCFG_lead ≤ (Tests.cmd 0x0202 [0x10000#32, 100]).p 1 ∧
    (Tests.up.rd F.RING_CFG_een = 0 ∧ Tests.up.rd F.RING_CFG_wen = 0 ∨ Tests.up.rd F.RING_CFG_een = 1) ∧ (Tests.upWith [(F.RING_CFG_een, 1)]).rd F.RING_CFG_een = 1 ∧
    (Tests.upWith [(F.RING_CFG_wen, 1)]).rd F.RING_CFG_wen = 1 ∧
    (Tests.cmd 0x0203 [2]).f 0 1 0 = 2 ∧ (Tests.cmd 0x0203 [3]).f 0 1 0 = 3 ∧ (Tests.cmd 0x0203 [1, 0, 0, 0x0FFE0000#32]).f 3 27 16 ≠ 4095 ∧
    (Tests.cmd 0x0203 [1, 0, 0, 0x00010000#32]).f 3 27 16 ≠ 0 ∧ Tests.up.ring.grants.length < 64 := by decide

/-- A legal schedule image of the shortest lap, and one whose word 1 is at fault. -/
theorem test_schedule_images_premises :
    let ws : List Word := [1, 2000] ++ List.replicate 81 0
    let bs := wordsToBytes ws
    let ps : List Word := [0, 0, 332, crc32c bs]
    imageBad ws = none ∧ imageBad ([1, 1999] ++ List.replicate 81 0) = some 1 ∧
    Tests.reads { (Tests.at_ 0x0201 ps []).begun 1 with mem := Tests.put 0 bs } (Tests.cmd 0x0201 ps) Tests.env 0
      (fun b _ => decide (imageBad (bytesToWords b) = none)) = true := by decide +kernel

theorem test_split_and_heal_premises :
    2 ^ (Tests.cmd 0x0205 [0, 0, 0, 0x02002000#32]).f 3 15 13 ≤ (Tests.cmd 0x0205 [0, 0, 0, 0x02002000#32]).f 3 30 24 ∧
    (Tests.cmd 0x0205 [0, 0, 0, 0x01002000#32]).f 3 30 24 < 2 ^ (Tests.cmd 0x0205 [0, 0, 0, 0x01002000#32]).f 3 15 13 ∧
    ((Tests.cmd 0x0207 [0, 0x00010800#32]).f 0 1 0 = 0 ∧ legalWord 0x040A0700 ((Tests.cmd 0x0207 [0, 0x00010800#32]).pw 1) = true) ∧
    (Tests.cmd 0x0207 [1]).f 0 1 0 = 1 ∧ (Tests.cmd 0x0207 [2]).f 0 1 0 = 2 ∧
    ((Tests.cmd 0x0207 [3, 1]).f 0 1 0 = 3 ∧ (Tests.cmd 0x0207 [3, 1]).f 1 1 1 = 0 ∧ (Tests.cmd 0x0207 [3, 1]).f 1 0 0 = 1) := by decide

theorem test_time_commands_premises :
    let starter := Tests.upWith [(F.TIME_STATE_role, rSTARTER)]
    (Tests.cmd 0x0300 [0, 0xFF00#32]).f 1 15 8 = 255 ∧ (Tests.cmd 0x0300 [0, 0xFE01#32]).f 1 15 8 ≠ 255 ∧ (Tests.cmd 0x0300 [0, 0xFE01#32]).f 1 0 0 = 1 ∧
    (Tests.upWith [(F.TIME_STATE_role, rLISTEN)]).role = rLISTEN ∧ (Tests.upWith [(F.TIME_STATE_role, rCLAIM)]).role = rCLAIM ∧
    (Tests.up.role ≠ rLISTEN ∧ Tests.up.role ≠ rCLAIM) ∧ (Tests.cmd 0x0300 [1]).f 0 1 0 = 1 ∧ starter.isStarter = true ∧ 2 ≤ (Tests.cmd 0x0300 [2]).f 0 1 0 ∧
    (Tests.cmd 0x0301 [2, 0, 0, 1000000000]).f 0 1 1 = 1 ∧ 999999999 < (Tests.cmd 0x0301 [2, 0, 0, 1000000000]).p 3 ∧ (Tests.cmd 0x0301 [0, 0, 0, 999999999]).p 3 ≤ 999999999 ∧ starter.lapsRun = true ∧
    Tests.up.lapsRun = false ∧ (Tests.upWith [(F.TIME_STATE_role, 5)]).lapsRun = true ∧ (Tests.upWith [(F.TIME_STATE_role, 5)]).isStarter = false ∧
    (Tests.cmd 0x0301 [2]).f 0 1 1 = 1 ∧ (Tests.cmd 0x0301 [4]).f 0 1 1 = 0 ∧ (Tests.cmd 0x0301 [4]).f 0 0 0 = 0 ∧ (Tests.cmd 0x0302 [1]).f 0 0 0 = 1 ∧
    trigPeriodOk 2 0 = false ∧ trigPeriodOk 2 1000 = true ∧ trigWidthOk 2 1000 0xFFFF0000#32 = false ∧ trigWidthOk 2 1000 0x00010000#32 = true ∧
    (Tests.upWith [(F.MOT_CFG_route 0, 1), (F.MOT_STEPIO_step 0, 0x80)]).motDrives 0 = true ∧ (Tests.cmd 0x0303 [0, 4]).f 1 2 2 = 1 ∧ Tests.up.motDrives 0 = false ∧
    (Tests.cmd 0x0304 [0, 1]).f 1 2 1 = 0 ∧ (Tests.cmd 0x0304 [0, 2]).f 1 2 1 ≠ 0 ∧ (Tests.cmd 0x0306 [0x30#32]).f 0 5 4 = 3 ∧
    ((Tests.cmd 0x0306 [0x28#32]).f 0 5 4 ≠ 3 ∧ (Tests.cmd 0x0306 [0x28#32]).f 0 3 2 = 2) ∧ (Tests.cmd 0x0306 [0x24#32]).f 0 3 2 ≠ 2 := by decide

theorem test_marshal_commands_premises :
    mrshBadWord (Tests.cmd 0x0400 [0x08030001#32]) = none ∧ mrshBadWord (Tests.cmd 0x0400 [0x08030001#32, 0x80000FFF#32]) = some 1 ∧ 2 ≤ (Tests.cmd 0x0401 [2]).f 0 1 0 ∧
    (Tests.cmd 0x0401 [1]).f 0 1 0 < 2 ∧ legalWord ((winRegs 15).getD 0 0) ((Tests.cmd 0x0500 [15, 10000]).pw 1) = true ∧
    legalWord ((winRegs 0).getD 0 0) 10001#32 = false ∧ 4096 < (Tests.cmd 0x0500 [0, 0, 0, 0x10010000#32]).f 3 28 16 ∧
    (Tests.cmd 0x0500 [0, 0, 0, 0x10000000#32]).f 3 28 16 ≤ 4096 ∧
    Tests.writes Tests.up (Tests.cmd 0x0501 [3, 0, 0, 0x40000300#32]) 1 (fun d => decide (768 ≤ d.len)) = true ∧
    Tests.writes Tests.up (Tests.cmd 0x0501 [3, 0, 0, 0x400002FC#32]) 1 (fun d => decide (d.len < 768)) = true := by decide

theorem test_gate_commands_premises :
    (Tests.cmd 0x0504 [2]).f 0 1 0 = 2 ∧ (Tests.cmd 0x0504 [3]).f 0 1 0 = 3 ∧ (Tests.cmd 0x0504 [1, 0]).f 1 12 0 = 0 ∧ 4096 < (Tests.cmd 0x0504 [1, 4097]).f 1 12 0 ∧
    (Tests.cmd 0x0504 [0x0FFF0000#32, 1]).f 0 27 16 + (Tests.cmd 0x0504 [0x0FFF0000#32, 1]).f 1 12 0 ≤ 4096 ∧
    Tests.reads ((Tests.at_ 0x0504 ([0, 1] ++ Tests.zeros 16) []).begun 1) (Tests.cmd 0x0504 ([0, 1] ++ Tests.zeros 16)) Tests.env 2
      (fun bs _ => decide (bs.length = 16 * 1) && !(quads 1 (bytesToWords bs)).any routeBad) = true ∧
    Tests.writes Tests.up (Tests.cmd 0x0504 [1, 1, 0, 0, 0x40000010#32]) 2 (fun d => decide (16 * 1 ≤ d.len)) = true ∧
    (Tests.cmd 0x0505 [0]).f 0 19 16 = 0 ∧ 14 < (Tests.cmd 0x0505 [0xF0000#32]).f 0 19 16 ∧
    1024 < (Tests.cmd 0x0505 [0x103FF#32 + 0x10000#32]).f 0 9 0 + (Tests.cmd 0x0505 [0x103FF#32 + 0x10000#32]).f 0 19 16 ∧
    (Tests.cmd 0x0505 [0x103FF#32]).f 0 9 0 + (Tests.cmd 0x0505 [0x103FF#32]).f 0 19 16 ≤ 1024 ∧ (Tests.cmd 0x0505 [0x10000#32, 0, 0, 0]).params.length < 1 + 4 * 1 ∧
    1 + 4 * 1 ≤ (Tests.cmd 0x0505 [0x10000#32, 0, 0, 0, 0]).params.length ∧
    (quads 1 ((Tests.cmd 0x0505 [0x10000#32, 0x80000000#32, 0, 0, 0]).params.drop 1)).any rateBad = true ∧
    (quads 1 ((Tests.cmd 0x0505 [0x10000#32, 0x80200000#32, 0, 0, 0]).params.drop 1)).any rateBad = false ∧
    (Tests.cmd 0x0506 [0x000003FF#32]).f 0 26 16 = 0 ∧ (Tests.cmd 0x0506 [0x000103FF#32]).f 0 9 0 + (Tests.cmd 0x0506 [0x000103FF#32]).f 0 26 16 ≤ 1024 ∧
    Tests.writes Tests.up (Tests.cmd 0x0506 [0x10000#32, 0, 0, 0x40000030#32]) 1 (fun d => decide (48 * 1 ≤ d.len)) = true ∧
    Tests.writes Tests.up (Tests.cmd 0x0506 [0x10000#32, 0, 0, 0x4000002C#32]) 1 (fun d => decide (d.len < 48 * 1)) = true := by decide

/-- Slots in use and free; the largest image, and one byte range more. -/
theorem test_stage_load_premises :
    let c := Tests.cmd 0x0600 (1 :: Tests.zeros 64)
    let s := Tests.at_ 0x0600 (1 :: Tests.zeros 64) []
    Tests.up.rd (F.STG_STATE_slot 0) = 0 ∧ ¬ (s.rd (F.STG_STATE_slot 0) = 1 ∨ s.rd (F.STG_STATE_slot 1) = 1) ∧ c.f 3 23 0 ≤ 0x00400000 ∧
    0x00400000 < (Tests.cmd 0x0600 [1, 0, 0, 0x00400004#32]).f 3 23 0 ∧ Tests.reads (s.begun 1) c Tests.env 1 (fun _ _ => true) = true := by decide +kernel

/-- The three outcomes of STAGE.VERIFY: an empty slot, a signature that fails, and the image that verifies. -/
theorem test_stage_verify_premises :
    (match Tests.up.verifyReason 0 [0] with | .ok (some r) => r | _ => 0) = 1 ∧
    (match ({ Tests.up with mem := Tests.put (slotBase 0) (wordsToBytes [0x47545356#32, 0x77480001#32, 128]) } : State).verifyReason 0 [0] with
      | .error st => st | .ok _ => 0) = 0x0602 := by decide +kernel

theorem test_stage_arm_premises :
    let s := Tests.stageSlot ({ Tests.upWith [(F.STG_WDOG_limit 0, 1000)] with pairs := [{ PairSt.init with verified := some 0 }, PairSt.init] })
    (∀ p ∈ [0], (s.pair p).verified = some 0) ∧ s.cueGap 0 Tests.section = 460 ∧ ¬ (s.rd (F.STG_WDOG_limit 0) * 5 ≤ 460 * 2) ∧
    (Tests.upWith [(F.STG_WDOG_limit 0, 184)]).rd (F.STG_WDOG_limit 0) * 5 ≤ 460 * 2 ∧ s.sectBad Tests.section = false ∧
    ({ s with memu := { s.memu with flips := [(slotBase 0, 0), (slotBase 0, 1)] } } : State).sectBad Tests.section = true ∧
    ¬ (∀ p ∈ [0], (Tests.up.pair p).verified = some 0) := by decide +kernel

theorem test_stage_commands_premises :
    let s := { Tests.upWith [(F.STG_CYC_len 0, 1)] with pairs := [{ PairSt.init with armed := some 1 }, PairSt.init] }
    (Tests.cmd 0x0603 [0x100#32, 5]).pairs = [0] ∧ ¬ ((s.pair 0).armed = none ∨ s.pst 0 = pFAULT ∨ s.rd (F.STG_STATE_midhold 0) = 1) ∧
    (Tests.up.pair 0).armed = none ∧ ¬ ((5 : Nat) ≠ 0 ∧ (5 ≤ s.lap ∨ s.isCyc 0 5 = false)) ∧
    ((5 : Nat) ≠ 0 ∧ (Tests.upWith [(F.STG_CYC_len 0, 3)]).isCyc 0 5 = false) ∧
    (Tests.cmd 0x0605 [0x100#32]).f 0 1 0 = 0 ∧ (Tests.upWith [(F.STG_STATE_state 0, pRUN)]).pst 0 = pRUN ∧ (Tests.upWith [(F.STG_STATE_state 0, pHOLD)]).pst 0 = pHOLD ∧
    (Tests.upWith [(F.STG_STATE_state 0, pSTOP)]).pst 0 = pSTOP ∧ (Tests.upWith [(F.STG_STATE_state 0, pFAULT)]).pst 0 = pFAULT ∧
    (Tests.upWith [(F.STG_STATE_state 0, pHOLD), (F.STG_STATE_midhold 0, 1)]).rd (F.STG_STATE_midhold 0) = 1 ∧ Tests.up.rd (F.STG_STATE_midhold 0) = 0 ∧
    (Tests.cmd 0x0606 [0x30#32]).f 0 5 4 = 3 ∧ (Tests.cmd 0x0606 [0x20#32]).f 0 5 4 ≠ 3 ∧ (Tests.upWith [(F.STG_STATE_state 0, pLOADING)]).pst 0 = pLOADING ∧
    (Tests.upWith [(F.STG_STATE_state 0, pRUN), (F.STG_STATE_phase 0, 1)]).idlePair 0 = false ∧ Tests.up.idlePair 0 = true ∧
    (Tests.upWith [(F.RING_LAPCFG_len, 10000)]).cycOk 1 0 0 9999 = true ∧ (Tests.upWith [(F.RING_LAPCFG_len, 10000)]).cycOk 1 0 0 10000 = false := by decide

theorem test_script_library_premises :
    let ps := [0, 0, 196, crc32c Tests.scriptImage]
    Tests.reads ((Tests.withImage (Tests.at_ 0x0700 ps []) 0 1 Tests.scriptImage Tests.scriptKey).begun 1) (Tests.cmd 0x0700 ps) Tests.env 0
      (fun bs t => decide (bs = Tests.scriptImage) && decide (t.memu.flips = []) && decide (t.imageKey 1 = Tests.scriptKey) && decide (t.lib.length < 64) &&
        decide (libPlace t.lib 196 libBase 65 = some libBase)) = true ∧
    hdrOk [0, 0] 8 = false ∧ (196 : Nat) ≤ 196608 ∧ (∀ n, n < 16 → ¬ ((Tests.up.engState n = 1 ∨ Tests.up.engState n = 2) ∧ Tests.up.rd (F.ENG_STATE_script n) = 5)) := by
  decide +kernel

/-- An engine that is idle, one that has loaded script 5, a script of another version, and a parameter block that names no unit. -/
theorem test_engine_start_premises :
    let e : LibEnt := ⟨5, 1, libBase, 196⟩
    let pb := wordsToBytes ([0, 0, 0, 0xFFFFFFFF#32, 0xFFFFFFFF#32] ++ List.replicate 3 0)
    let ps := [0, 0x00010005#32, 0, 0, 32, crc32c pb]
    let s := { Tests.at_ 0x0701 ps [] with lib := [e], mem := Tests.put 0 pb ++ Tests.put libBase (wordsToBytes Tests.scriptWords) }
    s.engIdle 0 = true ∧ (s.eng 0).loadSeq ≠ some 1 ∧ s.lib.find? (fun x => x.id = 5 && decide (1 ≤ x.version)) = some e ∧
    s.lib.find? (fun x => x.id = 5 && decide (2 ≤ x.version)) = none ∧ (Tests.upWith [(F.ENG_STATE_state 0, 1)]).engIdle 0 = false ∧
    Tests.reads (s.begun 1) (Tests.cmd 0x0701 ps) Tests.env 2 (fun bs t =>
      decide (bs.length ≤ (t.wordAt (libBase + 48)).toNat) && t.ownsAll 0 (unitKind (t.wordAt (libBase + 52)).toNat) (bytesToWords bs) &&
      decide ((t.wordAt (libBase + 52)).toNat / 2 ^ 17 % 64 ≤ (ones 32 (t.handsOf 0)).length)) = true := by decide +kernel

theorem test_engine_load_done_premises :
    let s := { Tests.withImage Tests.up libBase 1 Tests.scriptImage Tests.scriptKey with engs := [{ EngSt.init with loadSeq := some 1 }], lib := [⟨5, 1, libBase, 196⟩] }
    (s.eng 0).loadSeq = some 1 ∧ (s.lib.find? (fun e => e.id = 5)).isSome = true ∧ s.anyBad libBase 196 = false ∧ getF (s.wordAt (libBase + 60)) 0 8 = 1 ∧
    s.bytesAt libBase 196 = Tests.scriptImage := by decide +kernel

theorem test_engine_commands_premises :
    (Tests.cmd 0x0703 [0x100#32]).f 0 9 8 < 2 ∧ (Tests.cmd 0x0703 [0x200#32]).f 0 9 8 = 2 ∧ (Tests.cmd 0x0703 [0x300#32]).f 0 9 8 = 3 ∧
    (Tests.up.engIdle 0 = true ∧ (∀ u ∈ [0], Tests.up.unitOwner u = none) ∧ (∀ k ∈ [0], (Tests.up.can k).owner = none)) ∧ (Tests.cmd 0x0703 [0x200#32, 0x07#32]).f 1 5 4 = 0 ∧
    (∀ h ∈ ones 32 3, Tests.up.rd (F.HAND_CTL_en h) = 0 ∧ Tests.up.engIdle (Tests.up.handOwner h) = true) ∧ (Tests.upWith [(F.HAND_CTL_en 0, 1)]).rd (F.HAND_CTL_en 0) = 1 ∧
    (Tests.cmd 0x0705 [0]).f 0 8 8 = 0 ∧ Tests.up.adlib.locked = false ∧ ({ Tests.up with adlib := ⟨[], true⟩ } : State).adlib.locked = true ∧
    32 < (Tests.cmd 0x0705 [0x210000#32]).f 0 21 16 ∧ (Tests.cmd 0x0705 [0x010000#32]).f 0 21 16 ≤ 32 ∧ 1 + 1 ≤ (Tests.cmd 0x0705 [0x010000#32, 0]).params.length ∧
    adlibBad [0] = some 0 ∧ adlibBad [BitVec.ofNat 32 (2 ^ 31 + 3 * 2 ^ 26 + 8 * 2 ^ 22 + 9 * 2 ^ 18 + 12 * 2 ^ 14)] = none ∧ (Tests.cmd 0x0705 [0x100#32]).f 0 8 8 = 1 ∧
    Tests.writes Tests.up (Tests.cmd 0x0705 [0x100#32, 0, 0, 0x40000080#32]) 1 (fun d => decide (128 ≤ d.len)) = true := by decide

theorem test_line_commands_premises :
    let off := Tests.upWith [(subFld (F.PWR_DOMST (groupDom 0 / 16)) (groupDom 0 % 16 * 2) 2, 2)]
    48 ≤ (Tests.cmd 0x0800 [48]).f 0 5 0 ∧ (Tests.cmd 0x0800 [47]).f 0 5 0 < 48 ∧ off.groupOn 0 = false ∧ Tests.up.groupOn 47 = true ∧ Tests.up.groupOn 127 = true ∧
    Tests.up.windowOpen 0 = false ∧ (modeWordOk 3 = true ∧ legalWord (F.LINE_MODE_mode 47).addr 3 = true) ∧ ¬ (modeWordOk 4 = true) ∧
    (Tests.upWith [(F.LINE_MODE_mode 1, 3), (F.LINE_MODE_cansel 1, 5)]).canTaken 0 5 = true ∧ Tests.up.canTaken 0 5 = false ∧
    (∀ w ∈ Tests.up.field.waits, w.seq ≠ 1) ∧ (Tests.cmd 0x0801 [1, 0, 0, 0, 0]).p 4 = 0 ∧ 600000 < (Tests.cmd 0x0801 [1, 0, 0, 0, 600001]).p 4 ∧
    (1 ≤ (Tests.cmd 0x0801 [1, 0, 0, 0, 600000]).p 4 ∧ (Tests.cmd 0x0801 [1, 0, 0, 0, 600000]).p 4 ≤ 600000) ∧
    off.anyOff (lineMask (Tests.cmd 0x0801 [1]) 0) = true ∧ Tests.up.anyOff (lineMask (Tests.cmd 0x0801 [1]) 0) = false ∧ lineMask (Tests.cmd 0x0801 [0]) 0 = [] ∧
    lineMask (Tests.cmd 0x0801 [1]) 0 ≠ [] ∧ (Tests.cmd 0x0802 [0x0003007F#32]).f 0 18 16 < 4 ∧
    Tests.writes Tests.up (Tests.cmd 0x0802 [0, 1, 0, 0, 0x40000004#32]) 2 (fun d => decide (2 * 2 ≤ d.len)) = true ∧
    Tests.writes Tests.up (Tests.cmd 0x0802 [0, 2, 0, 0, 0x40000004#32]) 2 (fun d => decide (d.len < 2 * 3)) = true ∧ wAt Tests.env.obs 0 = 0 ∧
    wAt ({ Tests.env with obs := [1] } : Env).obs 0 ≠ 0 ∧
    Tests.writes Tests.up (Tests.cmd 0x0803 [0, 0, 0, 0, 0x40002040#32]) 2 (fun d => decide (8256 ≤ d.len)) = true ∧ (Tests.cmd 0x0803 [0x1FF#32]).f 0 9 9 = 0 ∧
    ({ Tests.up with lines := [{ LineSt.init with window := some 0 }] } : State).windowOpen 0 = true ∧
    (Tests.upWith [(F.LINE_MODE_mode 0, 2)]).rd (F.LINE_MODE_mode 0) = 2 ∧ (Tests.cmd 0x0804 [1]).f 0 0 0 = 1 ∧ 60000 < (Tests.cmd 0x0804 [1, 0, 0, 0, 0, 60001]).p 5 ∧
    ((Tests.cmd 0x0805 [0, 0]).f 1 6 0 = 0 ∧ 64 < (Tests.cmd 0x0805 [0, 65]).f 1 6 0 ∧ (Tests.cmd 0x0805 [0, 64]).f 1 6 0 ≤ 64) ∧
    Tests.writes Tests.up (Tests.cmd 0x0805 [0, 1, 0, 0, 0x40000040#32]) 2 (fun _ => true) = true := by decide

theorem test_discrete_commands_premises :
    let off := Tests.upWith [(subFld (F.PWR_DOMST (groupDom 64 / 16)) (groupDom 64 % 16 * 2) 2, 2)]
    4 < (Tests.cmd 0x0806 [0, 5]).f 1 2 0 ∧ ((Tests.cmd 0x0806 [16, 4]).f 1 2 0 = 4 ∧ 16 ≤ (Tests.cmd 0x0806 [16, 4]).f 0 5 0) ∧
    ((Tests.cmd 0x0806 [15, 4]).f 1 2 0 = 4 ∧ (Tests.cmd 0x0806 [15, 4]).f 0 5 0 < 16) ∧ off.groupOn 64 = false ∧ Tests.up.groupOn 64 = true ∧
    off.anyOff ((ones 32 1).map (64 + ·)) = true ∧ Tests.up.anyOff ((ones 32 1).map (64 + ·)) = false ∧
    (Tests.upWith [(ownFld 0, 1)]).octPair 0 = some 0 ∧ Tests.up.octPair 0 = none ∧ (∀ i ∈ ones 8 255, (Tests.up.dio (8 * 0 + i)).owner.isSome = false) ∧
    (∃ i ∈ ones 8 1, (({ Tests.up with field := { FieldSt.init with dios := [{ DioSt.init with owner := some 3 }] } } : State).dio (8 * 0 + i)).owner.isSome = true) := by decide

theorem test_can_commands_premises :
    let owned := { Tests.upWith [(F.ENG_STATE_state 3, 2)] with cans := [{ CanSt.init with owner := some 3 }] }
    4 < (Tests.cmd 0x0900 [0x500#32]).f 0 10 8 ∧ (Tests.cmd 0x0900 [0x400#32]).f 0 10 8 ≤ 4 ∧ owned.canEngRun 0 = true ∧ Tests.up.canEngRun 0 = false ∧
    timingOk 0x00020000#32 0 = true ∧ timingOk 0 0 = false ∧ (Tests.up.can 0).detect = none ∧ (Tests.up.canMode 0 = 0 ∨ Tests.up.canMode 0 = 2) ∧
    (Tests.upWith [(F.CAN_STAT_mode 0, 1)]).canMode 0 ≠ 0 ∧ (Tests.upWith [(F.CAN_STAT_mode 0, 1)]).canMode 0 ≠ 2 ∧ 60000 < (Tests.cmd 0x0902 [0, 60001]).p 1 ∧
    (1 ≤ (Tests.cmd 0x0902 [0, 60000]).p 1 ∧ (Tests.cmd 0x0902 [0, 60000]).p 1 ≤ 60000) ∧
    128 < (Tests.cmd 0x0903 [0x007F0000#32, 2]).f 0 22 16 + (Tests.cmd 0x0903 [0x007F0000#32, 2]).f 1 7 0 ∧
    (Tests.cmd 0x0903 [0x007F0000#32, 1]).f 0 22 16 + (Tests.cmd 0x0903 [0x007F0000#32, 1]).f 1 7 0 ≤ 128 ∧ 29 < (Tests.cmd 0x0903 [0, 30]).f 1 7 0 ∧
    (Tests.up.canMode 15 = 0 ∧ Tests.up.canMode 14 = 0) ∧ (Tests.upWith [(F.CAN_STAT_errst 0, 2)]).canErr 0 = 2 ∧ Tests.up.canErr 0 ≠ 2 := by decide

theorem test_net_commands_premises :
    macBad 0 0x05F20005#32 = true ∧ macBad 2 0x05F20005#32 = false ∧ legalWord (F.MAC_GCFG_en 3).addr 0x100#32 = true ∧ legalWord (F.MAC_GCFG_en 3).addr 0 = false ∧
    54 < (Tests.cmd 0x0A02 (List.replicate 61 0)).params.length - 6 ∧ (Tests.cmd 0x0A02 (List.replicate 60 0)).params.length - 6 ≤ 54 ∧
    legalWord (F.MAC_VLAN_tag 0).addr 0x30000#32 = false ∧ legalWord (F.MAC_VLAN_tag 0).addr 0x20FFF#32 = true ∧
    ((Tests.cmd 0x0A04 [0, 0, 0x10000#32, 0]).f 2 31 28 = 0 ∧ (Tests.cmd 0x0A04 [0, 0, 0x10000#32, 0]).f 3 31 16 = 0) ∧ (Tests.cmd 0x0A04 [0, 0, 0x10000000#32, 0]).f 2 31 28 ≠ 0 ∧
    (Tests.up.net.fdb.any (fun e => e.vid = 1 && e.mac = 0) = false) ∧ Tests.up.net.fdb.length < 8192 ∧
    (({ Tests.up with net := { Tests.up.net with fdb := [⟨1, 0, 0, true, 0, 0⟩] } } : State).net.fdb.any (fun e => e.vid = 1 && e.mac = 0) = true) ∧
    (Tests.cmd 0x0A04 [1]).f 0 1 0 = 1 ∧ (Tests.cmd 0x0A04 [2]).f 0 1 0 = 2 ∧ (Tests.cmd 0x0A04 [3]).f 0 1 0 = 3 ∧
    Tests.writes Tests.up (Tests.cmd 0x0A04 [3, 0, 0, 0, 0, 0, 0x4000000C#32]) 4 (fun _ => true) = true ∧ 6144 < (Tests.cmd 0x0A05 [0, 6145]).f 1 12 0 ∧
    (Tests.cmd 0x0A05 [0, 6144]).f 1 12 0 ≤ 6144 ∧ 13 < (Tests.cmd 0x0A06 [0, 0xE00#32]).f 1 13 8 ∧ 64 < (Tests.cmd 0x0A06 [0, 0x23F#32]).f 1 5 0 + 2 ∧
    ((Tests.cmd 0x0A06 [0x80000007#32]).f 0 31 31 = 1 ∧ 6 < (Tests.cmd 0x0A06 [0x80000007#32]).f 0 2 0) ∧ (Tests.cmd 0x0A06 [0, 0x100#32]).params.length < 2 + 4 * 1 ∧
    2 + 4 * 1 ≤ (Tests.cmd 0x0A06 [0, 0x100#32, 0, 0, 0, 0]).params.length := by decide

/-- More forwarding entries than the table holds. -/
theorem test_full_forwarding_table : 8192 ≤ (List.replicate 8192 (⟨1, 0, 0, true, 0, 0⟩ : FdbEnt)).length := Nat.le_of_eq (List.length_replicate).symm

/-- Words 1 to 10 of MOT.CONFIG that name no reserved encoding. -/
def Tests.motWords : List Word := [0x00500A01#32] ++ (List.range 9).map (fun i => Tests.up.reg ((F.MOT_CFG_route 0).addr + 4 * (i + 1)))

theorem test_motion_commands_premises :
    (Tests.upWith [(F.MOT_STATE_state 0, 5)]).motState 0 = 5 ∧ Tests.up.motState 0 ≠ 5 ∧ (Tests.upWith [(F.SYS_ID_code, 1)]).isC = true ∧ Tests.up.isC = false ∧
    (∀ i, i < 10 → legalWord ((F.MOT_CFG_route 0).addr + 4 * i) ((Tests.cmd 0x0B00 (0 :: Tests.motWords)).pw (1 + i)) = true) ∧
    legalWord (F.MOT_CFG_route 0).addr 3 = false ∧ (Tests.cmd 0x0B00 [0, 0x00100000#32 + 0x00020000#32]).f 1 22 20 < (Tests.cmd 0x0B00 [0, 0x00120000#32]).f 1 18 16 ∧
    (Tests.cmd 0x0B00 (0 :: Tests.motWords)).f 1 18 16 ≤ (Tests.cmd 0x0B00 (0 :: Tests.motWords)).f 1 22 20 ∧ (Tests.up.motCommit 0).1 = true := by decide

theorem test_motion_moves_premises :
    (Tests.cmd 0x0B01 [0x30#32]).f 0 5 4 = 3 ∧ (Tests.cmd 0x0B01 [0x20#32]).f 0 5 4 = 2 ∧ Tests.up.motBusy 0 = false ∧ (Tests.upWith [(F.MOT_STATE_state 0, 3)]).motBusy 0 = true ∧
    Tests.up.motTargetOk 0 2147483648 = false ∧ Tests.up.motTargetOk 0 (-2147483648) = true ∧ (Tests.cmd 0x0B01 [0, 0, 0x0FFFFFFF#32]).p 2 < 2 ^ 28 ∧
    Tests.up.motBlocked 0 5 = false ∧ (Tests.cmd 0x0B01 [0x10#32]).f 0 5 4 = 1 ∧ Tests.up.rd (F.MOT_VMAX 0) < ((Tests.cmd 0x0B02 [0, 0x7FFFFFFF#32]).pI 1).natAbs ∧
    ((Tests.cmd 0x0B02 [0, 0]).pI 1).natAbs ≤ Tests.up.rd (F.MOT_VMAX 0) ∧ (Tests.up.mot 0).plan = .none ∧
    (1 ≤ (Tests.cmd 0x0B04 [0, 1, 1]).p 1 ∧ (Tests.cmd 0x0B04 [0, 1, 1]).p 1 ≤ (Tests.upWith [(F.MOT_VMAX 0, 1)]).rd (F.MOT_VMAX 0)) ∧
    (Tests.cmd 0x0B05 [0x00070100#32]).f 0 21 16 = 7 ∧ 7 < (Tests.cmd 0x0B05 [0x00080100#32]).f 0 21 16 ∧ (Tests.cmd 0x0B05 [0x00080100#32]).f 0 9 8 = 1 ∧
    ((Tests.cmd 0x0B05 [0x200#32, 0, 0, 999999999]).f 0 9 8 = 2 ∧ (Tests.cmd 0x0B05 [0x200#32, 0, 0, 999999999]).p 3 ≤ 999999999) ∧
    (Tests.cmd 0x0B05 [0x300#32]).f 0 9 8 = 3 ∧
    (∀ i, i < 5 → legalWord ((F.DRV_CFG_mode 0).addr + 4 * i) (Tests.up.reg ((F.DRV_CFG_mode 0).addr + 4 * i)) = true) ∧
    2500 < (Tests.cmd 0x0B09 [0, 2501]).f 1 11 0 ∧ (Tests.cmd 0x0B09 [0, 2500]).f 1 11 0 ≤ 2500 := by decide

/-- A frame as a station seals it, its fields given: type, direction, destination, source, word 0 and payload. -/
def Tests.frame (typ dir dring dstation sring sstation w0 : Nat) (pl : List Word) : RFrame :=
  RFrame.seal { w0 := BitVec.ofNat 32 w0, w1 := BitVec.ofNat 32 (dring * 2 ^ 24 + dstation * 2 ^ 12 + 4 * pl.length),
                w2 := BitVec.ofNat 32 (sring * 2 ^ 24 + sstation * 2 ^ 12), w3 := BitVec.ofNat 32 (typ * 2 ^ 12 + (typeClass typ).getD 0 * 2 ^ 10 + dir * 2 ^ 9),
                payload := wordsToBytes pl, crc := 0, err := false }

/-- Station 5 of ring 1, a member whose ports are locked. -/
def Tests.member (ws : List (Fld × Nat)) : State :=
  Tests.upWith ([(F.RING_STATE_locke, 1), (F.RING_STATE_lockw, 1), (F.RING_ID_station, 5), (F.RING_ID_ring, 1), (F.RING_STATE_join, 5)] ++ ws)

theorem test_register_actions_premises :
    area 0x03FFFFFF ≠ .reg ∧ area 0x04000000 = .reg ∧ area 0x04FFFFFC = .reg ∧ 0x04000002 % 4 ≠ 0 ∧ 0x04000004 % 4 = 0 ∧
    (Tests.upWith [(F.VIEW_LOCK_lock, 1)]).rd F.VIEW_LOCK_lock = 1 ∧ Tests.up.rd F.VIEW_LOCK_lock = 0 ∧ Tests.up.winOut 15 = 0 ∧
    Tests.up.fab.commitWait.contains 15 = false ∧ ((7 : Fin 8).val = 7 ∧ (1 : Ident).val ≠ 0) ∧ ((6 : Fin 8).val ≠ 7 ∨ (1 : Ident).val = 0) ∧
    (Tests.upWith [(F.MEM_DMA2_busy 0, 1)]).rd (F.MEM_DMA2_busy 0) = 1 ∧ Tests.up.rd (F.MEM_DMA2_busy 0) = 0 ∧ Tests.up.backstage 2 = false := by decide

theorem test_ring_actions_premises :
    let run := Tests.member [(F.TIME_STATE_role, 5)]
    Tests.up.rd F.RING_STATE_join = 0 ∧ Tests.up.tierOk (Tests.up.shown 0x040A0010) = true ∧ run.rd F.RING_STATE_join ≠ 0 ∧ run.lapsRun = true ∧ Tests.up.lapsRun = false ∧
    run.time.nextLap = 0 ∧ ({ run with time := { run.time with nextLap := 1, nextStart := -1 } } : State).time.nextStart ≤ run.nowU ∧
    ({ Tests.upWith [(F.RING_STATE_join, 2)] with time := { TimeSt.init with nextLap := 1 } } : State).joining = true ∧ Tests.up.joining = false ∧
    run.inserts = true ∧ run.winActive 0 0 = false ∧ (run.wr (F.RING_WIN3_en 1 7) 1).winActive 1 7 = true ∧
    run.winLegal 0 0 = false ∧ (run.wr (F.RING_WIN1_bytes 0 0) 2048).winLegal 0 0 = true ∧ (run.wr (F.RING_WIN1_bytes 0 0) 2052).winLegal 0 0 = false ∧
    run.rd (F.RING_WIN3_auto 0 0) = 0 ∧ ({ run with ring := { run.ring with published := 2 ^ 15 } } : State).ring.published.testBit (1 * 8 + 7) = true := by decide

theorem test_windows_premises :
    let run := Tests.member [(F.TIME_STATE_role, 5), (F.RING_WIN3_en 0 0, 1), (F.RING_WIN3_auto 0 0, 1), (F.RING_WIN1_bytes 0 0, 4), (F.RING_LAPCFG_len, 10000), (F.RING_WIN0_start 0 0, 5000)]
    run.winActive 0 0 = true ∧ run.winLegal 0 0 = true ∧ run.rd (F.RING_WIN3_auto 0 0) ≠ 0 ∧ run.schedVerdict 0 0 1 0 = .blocked ∧
    (run.wr F.MRSH_MODE_mode 1).monitorOnly = true ∧ (run.wr F.MRSH_MODE_mode 1).schedVerdict 0 0 1 0 = .pass ∧
    ((run.wr F.MRSH_STATE_state 3).schedVerdict 0 0 1 0 = .cut ∨ (run.wr F.MRSH_STATE_state 2).schedVerdict 0 0 1 0 = .cut) ∧
    ((run.wr F.MRSH_STATE_state 3).cutNow.monitorOnly = false) := by decide

theorem test_insertion_premises :
    let f := Tests.frame 2 0 1 9 1 5 0 [1, 2]
    let run := Tests.member [(F.TIME_STATE_role, 5), (F.MRSH_MODE_mode, 1)]
    let q := { run with ring := { run.ring with insq := [[⟨f, false, false⟩], []], credit := [100, 100, 100, 100] } }
    (Tests.up.egress 0 = none ∨ Tests.up.pickIns 0 [] (Tests.up.ring.insq.getD 0 []) 0 = none) ∧
    run.egress 0 = some 0 ∧ q.pickIns 0 [] (q.ring.insq.getD 0 []) 0 = some (0, ⟨f, false, false⟩) ∧ q.transitOf 0 = [] ∧ q.fits 0 f.blocks 0 = true ∧
    q.starWindow f.blocks = true ∧ q.inserts = true ∧ q.openVerdict 0 f.blocks 0 false = .pass := by decide

theorem test_transit_premises :
    let f := Tests.frame 2 0 1 9 1 4 0 [1]
    let run := Tests.member [(F.TIME_STATE_role, 5)]
    let q := fun l : List TransItem => { run with ring := { run.ring with transit := [l, []] } }
    (q []).transitOf 0 = [] ∧ (q [.mark 3]).transitOf 0 = .mark 3 :: [] ∧ (q [.frame f]).transitOf 0 = .frame f :: [] ∧ (q [.frame f]).fits 0 f.blocks run.openGap = true := by decide

theorem test_split_points_premises :
    let run := Tests.member [(F.TIME_STATE_role, 5), (F.RING_SPLIT0_en 15, 1), (F.RING_LAPCFG_len, 10000), (F.RING_SPLIT0_offset 15, 0)]
    run.splitDue 15 = true ∧ (run.wr (F.RING_SPLIT0_offset 15) 10000).splitDue 15 = false ∧ Tests.up.splitDue 15 = false := by decide

theorem test_lap_frames_premises :
    let f := Tests.frame 0 0 1 4095 1 4 0 [0x01000000#32, 0, 0, 0, 0, 0, 0, 0]
    let g := Tests.frame 0 0 1 4095 1 5 0 [0x01000000#32, 0, 0, 0, 0, 0, 0, 0]
    let run := Tests.member [(F.TIME_STATE_role, 5)]
    run.rxUp 0 = true ∧ run.rxUp 1 = true ∧ run.rd F.RING_CFG_rate < 2 ∧ headerGood f = true ∧ f.typ = 0 ∧ getF (f.pw 0) 24 8 = 1 ∧
    (run.arrive 0 f (addCorr (run.residence 0 31 0))).1 = true ∧ (run.arrive 0 g (addCorr (run.residence 0 0 0))).1 = false ∧ trailerGood g = true ∧
    headerGood { f with w3 := 0xFFFFFFFF#32 } = false ∧ (Tests.frame 1 0 1 4095 1 4 0 []).typ ≠ 0 := by decide +kernel

theorem test_process_frames_premises :
    let f := Tests.frame 1 0 1 4095 1 4 0 [7]
    let late := Tests.frame 1 0 1 4095 1 4 (255 * 2 ^ 24) [7]
    let wrong := Tests.frame 1 0 1 4095 1 4 (2 * 2 ^ 24) [7]
    let odd := Tests.frame 1 0 1 4095 1 4 2 [7]
    let run := Tests.member [(F.TIME_STATE_role, 5)]
    let tag := fun f : RFrame => getF f.w0 24 8
    run.rxUp 1 = true ∧ headerGood f = true ∧ f.typ = 1 ∧ (run.arrive 1 f id).1 = true ∧ (run.arrive 1 { f with crc := 0 } id).1 = false ∧
    tag f = run.lap % 256 ∧ run.rangeBad (getF f.w0 0 18) f.length = false ∧ run.rangeBad (getF odd.w0 0 18) odd.length = true ∧
    (tag late ≠ run.lap % 256 ∧ tag late = (run.lap + 255) % 256) ∧ (tag wrong ≠ run.lap % 256 ∧ tag wrong ≠ (run.lap + 255) % 256) := by decide +kernel

/-- Join frames of each subtype that are taken in, and the states of the station that take them differently. -/
theorem test_join_frames_premises :
    let j := fun sub : Nat => Tests.frame 8 0 1 4095 1 4 0 (joinWords sub 0 0 7 8 9 1 100)
    let run := Tests.member [(F.TIME_STATE_role, 5)]
    let wait := run.wr F.RING_STATE_join 2
    let starter := run.wr F.TIME_STATE_role rSTARTER
    let u := (starter.arrive 0 (j 1) id).2
    run.rxUp 0 = true ∧ run.rd (edgeFld 0) = 0 ∧ (∀ k, k < 9 → headerGood (j k) = true ∧ (j k).typ = 8 ∧ joinSub (j k) = k ∧ (run.arrive 0 (j k) id).1 = true) ∧
    (wait.arrive 0 (j 2) id).1 = true ∧ (wait.arrive 0 (j 2) id).2.rd F.RING_STATE_join = 2 ∧ wait.mySid (j 2) = false ∧
    ((wait.setReg F.RING_SID_LO.addr 7).setReg F.RING_SID_HI.addr 8).mySid (j 2) = true ∧ u.isStarter = true ∧ u.busyJoin = false ∧ run.isStarter = false ∧
    ({ starter with ring := { starter.ring with handling := some 1 } } : State).busyJoin = true ∧ getF ((j 1).pw 3) 16 12 = 9 ∧
    getF ((Tests.frame 8 0 1 5 1 4 0 (joinWords 1 0 0 7 8 0 1 0)).pw 3) 16 12 = 0 := by decide +kernel

theorem test_join_entries_premises :
    let g : GrantEnt := ⟨7, 8, 9, 0, []⟩
    (∃ e ∈ [((7 : Word), (8 : Word), 9)], e.1 = 7 ∧ e.2.1 = 8) ∧ (∀ e ∈ Tests.up.ring.members, ¬ (e.1 = 7 ∧ e.2.1 = 8)) ∧
    Tests.up.ring.grants.find? (fun e => decide (e.sidLo = 7 ∧ e.sidHi = 8)) = none ∧ [g].find? (fun e => decide (e.sidLo = 7 ∧ e.sidHi = 8)) = some g ∧
    64 ≤ 63 + 1 ∧ Tests.up.ring.busyAns + 1 < 64 ∧ 16 ≤ ({ Tests.up.ring with silentLaps := 16 } : RingSt).silentLaps ∧ 3 ≤ 2 + 1 ∧ Tests.up.ring.silent + 1 < 3 := by decide

/-- A join request at an edge port, from a station without an address and from one that has one. -/
theorem test_edge_requests_premises :
    let j := fun from_ : Nat => Tests.frame 8 0 255 0 255 from_ 0 (joinWords 1 0 0 7 8 9 1 0)
    let s := Tests.member [(F.RING_STATE_edgee, 1)]
    s.rxUp 0 = true ∧ s.rd (edgeFld 0) ≠ 0 ∧ headerGood (j 0) = true ∧ (j 0).typ = 8 ∧ joinSub (j 0) = 1 ∧ (j 0).sstation = 0 ∧ trailerGood (j 0) = true ∧
    (j 4).sstation ≠ 0 ∧ trailerGood { j 0 with err := true } = false := by decide +kernel

theorem test_start_claims_premises :
    let f := Tests.frame 0 0 1 4095 1 4 0 [0x02070000#32, 7, 8, 0]
    let run := Tests.member [(F.TIME_STATE_role, rLISTEN)]
    run.rxUp 0 = true ∧ run.rd F.RING_CFG_rate < 2 ∧ headerGood f = true ∧ f.typ = 0 ∧ getF (f.pw 0) 24 8 = 2 ∧ (run.arrive 0 f id).1 = true ∧
    (run.arrive 0 f id).2.role = rLISTEN ∧ ((Tests.member [(F.TIME_STATE_role, rCLAIM)]).arrive 0 f id).2.role = rCLAIM ∧
    (Tests.member [(F.TIME_STATE_role, 5)]).role ≠ rLISTEN ∧ (Tests.member [(F.TIME_STATE_role, 5)]).role ≠ rCLAIM := by decide +kernel

theorem test_time_roles_premises :
    let base := fun r : Nat => Tests.upWith [(F.TIME_STATE_role, r), (F.TIME_STATE_rank, 2)]
    let s := { base rLISTEN with raw := 10 ^ 9, time := { TimeSt.init with listenRaw := some 0 } }
    let c := { base rCLAIM with raw := 10 ^ 9, time := { TimeSt.init with settleRaw := some 0 } }
    let m := fun (r k : Nat) => { base r with time := { TimeSt.init with missed := k } }
    s.time.listenRaw = some 0 ∧ s.role = rLISTEN ∧ 0 + (s.rd F.TIME_CLAIMCFG_base * 400000 + s.rd F.RING_SID_LO % 1024 * 10 * 400) ≤ s.raw ∧
    Tests.up.time.listenRaw = none ∧ c.time.settleRaw = some 0 ∧ c.role = rCLAIM ∧ 0 + c.rd F.TIME_CLAIMCFG_settle * 100 * 400 ≤ c.raw ∧
    Tests.up.time.settleRaw = none ∧ ((m rFOLLOW 8).role = rFOLLOW ∨ (m rFOLLOW 8).role = rRESERVE) ∧ 8 ≤ (m rFOLLOW 8).time.missed ∧ (m rFOLLOW 7).time.missed < 8 ∧
    (m rRESERVE 3).role = rRESERVE ∧ (m rRESERVE 3).rd F.TIME_STATE_rank ≠ 0 ∧ (m rRESERVE 3).rd F.TIME_STATE_rank + 1 ≤ (m rRESERVE 3).time.missed ∧
    Tests.up.role ≠ rRESERVE ∧ Tests.up.servoDue = false ∧
    ({ base rFOLLOW with regs := (Tests.upWith [(F.TIME_STATE_role, rFOLLOW), (F.TIME_SERVO_en, 1)]).regs, time := { TimeSt.init with accN := 1 } } : State).servoDue = true := by
  decide

theorem test_delay_markers_premises :
    let s := { Tests.member [] with time := { TimeSt.init with links := [{ LinkSt.init with asked := some (63, 0) }, LinkSt.init] } }
    s.rxUp 0 = true ∧ (1280 ≤ 1280 ∧ 1280 < 65536) ∧ (1280 ≤ 65535 ∧ 65535 < 65536) ∧ (1279 < 1280 ∨ 65536 ≤ 1279) ∧
    (s.time.links.getD 0 LinkSt.init).asked = some (63, 0) ∧ 63 = (63 : Fin 64).val ∧ 63 ≠ (0 : Fin 64).val ∧ Tests.up.lapsRun = false ∧
    ({ Tests.up with raw := 4000 } : State).time.reqRaw + 4000 ≤ 4000 ∧ Tests.up.raw < Tests.up.time.reqRaw + 4000 := by decide

theorem test_triggers_premises :
    let a := 0x04090100 + 7 * 32
    let s := Tests.upWith [(F.TIME_TRIG0_pin 7, 0)]
    let t := fun n : Option Int => { Tests.up with time := { TimeSt.init with trigs := [⟨n, none, n.isSome⟩] } }
    (trigPeriodOk (s.shown a) (s.shown (a + 0x14)) = true ∧ trigWidthOk (s.shown a) (s.shown (a + 0x14)) (s.shown (a + 0x18)) = true) ∧
    trigPeriodOk ((s.setReg a 2).shown a) 0 = false ∧ (s.commitRegs (trigRegs 7)).motDrives 7 = false ∧
    ((Tests.upWith [(F.MOT_CFG_route 0, 1), (F.MOT_STEPIO_step 0, 0x87)]).commitRegs (trigRegs 7)).motDrives 7 = true ∧
    ((t (some (-1))).time.trigs.getD 0 TrigSt.init).next = some (-1) ∧ (-1 : Int) ≤ (t (some (-1))).nowU ∧ (t (some (10 ^ 20))).nowU < 10 ^ 20 ∧
    ((t none).time.trigs.getD 0 TrigSt.init).next = none ∧ ((t (some 0)).time.trigs.getD 0 TrigSt.init).active = true ∧
    ((t none).time.trigs.getD 0 TrigSt.init).active = false := by decide

theorem test_ptp_premises :
    let s := Tests.upWith [(F.MAC_STAT_link 3, 1)]
    let p := fun r : Nat => { s with time := { TimeSt.init with ptp := List.replicate 4 { PtpSt.init with role := r } } }
    s.macLink 3 = true ∧ (s.ptp 3).role = 0 ∧ ((p 3).ptp 3).role = 3 ∧ ((p 2).ptp 3).role = 2 ∧
    ((p 2).wr F.TIME_STATE_role rSTARTER).isStarter = true := by decide

theorem test_reference_frames_premises :
    let f := Tests.frame 0 0 1 4095 1 4 0 [1, 2, 3, 4]
    let s := Tests.member [(F.RING_CFG_rate, 2)]
    s.rxUp 0 = true ∧ s.rd F.RING_CFG_rate = 2 ∧ headerGood { f with w3 := 0xFFFFFFFF#32 } = false ∧ headerGood f = true ∧ f.typ = 0 ∧ trailerGood f = true ∧
    f.length = 16 ∧ trailerGood { f with err := true } = false ∧ (Tests.frame 1 0 1 4095 1 4 0 []).typ ≠ 0 := by decide +kernel

theorem test_ports_premises :
    let s := Tests.upWith [(F.RING_CFG_een, 1), (F.RING_CFG_wen, 1)]
    s.portEnabled 0 = true ∧ s.portEnabled 1 = true ∧ s.rd (lockFld 0) = 0 ∧ Tests.up.portEnabled 1 = false ∧ (Tests.member []).rd (lockFld 1) ≠ 0 ∧
    s.port 0 ≠ 1 ∧ (s.wr (portFld 1) 1).port 1 = 1 ∧ (s.wr (portFld 0) 2).port 0 = 2 := by decide

theorem test_markers_premises :
    let s := Tests.member []
    s.rxUp 0 = true ∧ s.staleMarker (markerOf 0 1 5) = true ∧ s.staleMarker (markerOf 0 1 4095) = false ∧ s.staleMarker (markerOf 2 0 5) = true ∧
    s.staleMarker (markerOf 2 0 4) = false ∧ s.staleMarker (markerOf 1 1 5) = true ∧ s.staleMarker (markerOf 1 0 4) = false := by decide

theorem test_unwrap_premises :
    let s := Tests.member [(portFld 0, 2), (portFld 1, 2)]
    let r := { s with heal := { s.heal with ready := [1000, 1000], lapU := [some 100, some 100] } }
    r.port 0 = 2 ∧ r.port 1 = 2 ∧ s.readyLong 0 = false ∧ r.rd (lockFld 1) = 1 ∧ r.heal.lapU.getD 0 none = some 100 ∧ r.heal.lapU.getD 1 none = some 100 ∧
    (r.wr (portFld 0) 3).port 0 = 3 ∧ (r.wr (portFld 1) 4).port 1 = 4 ∧ 100 % 65536 = (100 : Fin 65536).val ∧ r.lap + 1 < 100 ∧ r.lap < 100 ∧
    (∃ x : State, x.readyLong 0 = true ∧ x.port 0 = 2) ∧ (∃ x : State, x.rd (lockFld 1) = 1 ∧ x.port 1 = 2 ∧ x.readyLong 1 = true) := by
  refine ⟨by decide, by decide, by decide, by decide, by decide, by decide, by decide, by decide, by decide, by decide, by decide, ?_, ?_⟩
  · exact ⟨{ Tests.member [(portFld 0, 2), (linkFld 0, 1)] with heal := { HealSt.init with ready := [1000, 1000] } }, by decide, by decide⟩
  · exact ⟨{ Tests.member [(portFld 1, 2), (linkFld 1, 1)] with heal := { HealSt.init with ready := [1000, 1000] } }, by decide, by decide, by decide⟩

theorem test_replays_premises :
    let q := fun k : Option Nat => ({ Tests.up with heal := { HealSt.init with queue := [⟨k, 1, 4, 7, [0, 0, 0]⟩] } } : State)
    (q none).rd F.RING_HEALSTAT_replaying = 0 ∧ (q (some 9)).heal.queue = ⟨some 9, 1, 4, 7, [0, 0, 0]⟩ :: [] ∧ (q none).heal.queue = ⟨none, 1, 4, 7, [0, 0, 0]⟩ :: [] := by decide

/-- Replay frames of each kind, and streams in each state. -/
theorem test_replay_frames_premises :
    let f := fun (k d : Nat) => Tests.frame 9 0 1 d 1 4 0 [BitVec.ofNat 32 (k * 2 ^ 24), 0, 0, 0]
    let x := fun (st : RxSt) (g : Bool) => (⟨1, 4, [some 0, some 0, some 0], st, g, false, 0, 0, 0⟩ : Stream)
    let run := fun l : List Stream => { Tests.member [] with heal := { HealSt.init with streams := l } }
    (∀ k, k < 6 → headerGood (f k 5) = true ∧ (f k 5).typ = 9 ∧ ((run []).arrive 0 (f k 5) id).1 = true ∧ getF ((f k 5).pw 0) 24 8 = k) ∧
    ((run []).arrive 0 (f 2 4095) id).1 = true ∧ ((run []).arrive 0 (f 1 5) id).2.heal.queue.length < 16 ∧ (f 2 4095).dstation = 4095 ∧ ¬ (f 2 5).dstation = 4095 ∧
    ((run []).arrive 0 (f 2 5) id).2.findStream 1 4 = none ∧
    (((run [x .hold false]).arrive 0 (f 2 4095) id).2.findStream 1 4).map (fun y => y.st) = some .hold ∧
    (((run [x .recover false]).arrive 0 (f 2 5) id).2.findStream 1 4).map (fun y => y.st) = some .recover ∧
    (((run [x .holdReplay true]).arrive 0 (f 3 4095) id).2.findStream 1 4).map (fun y => (y.st, y.gap)) = some (.holdReplay, true) ∧
    numsEqual (x .holdReplay false) (ctlMask (f 3 4095)) (ctlNums (f 3 4095)) = true ∧ getF ((f 2 5).pw 0) 8 3 = 0 ∧
    getF ((Tests.frame 9 0 1 5 1 4 0 [0x02000700#32]).pw 0) 8 3 ≠ 0 := by decide +kernel

theorem test_full_replay_queue_premises :
    let f := Tests.frame 9 0 1 5 1 4 0 [0x01000000#32]
    let s := { Tests.member [] with heal := { HealSt.init with queue := List.replicate 16 ⟨none, 1, 4, 7, [0, 0, 0]⟩ } }
    16 ≤ (s.arrive 0 f id).2.heal.queue.length ∧ numsEqual (⟨1, 4, [some 0, some 0, some 0], .holdReplay, false, false, 0, 0, 0⟩ : Stream) 7 [1, 0, 0] = false := by decide +kernel

theorem test_stream_timeouts_premises :
    let x := fun (st : RxSt) (d : Bool) (n : Nat) => (⟨1, 4, [some 0, some 0, some 0], st, false, d, n, 0, 0⟩ : Stream)
    let run := fun (y : Stream) => ({ Tests.up with raw := 10 ^ 9, heal := { HealSt.init with streams := [y] } } : State)
    (run (x .hold true 0)).findStream 1 4 = some (x .hold true 0) ∧ (x .hold true 0).since + 2 * (run (x .hold true 0)).healW ≤ (run (x .hold true 0)).raw ∧
    (run (x .recover false 3)).findStream 1 4 = some (x .recover false 3) ∧ 3 ≤ (x .recover false 3).tries ∧ (x .recover false 2).tries < 3 ∧
    ((x .hold true 0).disc = true ∧ (x .hold false 0).disc = false) ∧ ¬ ((x .normal false 0).st = .hold ∨ (x .normal false 0).st = .holdReplay) := by decide

theorem test_marshal_events_premises :
    let s := Tests.upWith [(F.MRSH_STATE_state, 3)]
    let cut := { s with mrsh := { s.mrsh with cuts := [0, 100, 100] } }
    let idle := { Tests.upWith [(F.MRSH_STATE_state, 4)] with mrsh := { MrshSt.init with idleEnd := some 0 } }
    s.mrshState ≠ 0 ∧ s.mrsh.took = false ∧ s.isStarter = false ∧ Tests.up.mrshState = 0 ∧ s.monitorOnly = false ∧ s.mrshLocked = true ∧ cut.cutLimit = true ∧
    s.cutLimit = false ∧ idle.mrsh.idleEnd = some 0 ∧ idle.mrshState = 4 ∧ 0 ≤ idle.raw ∧ s.mrsh.idleEnd = none ∧
    (Tests.upWith [(F.MRSH_STATE_state, 5)]).mrshState = 5 := by decide

/-- An access of identity 7 to window 0: a write, a read. -/
def Tests.acc (k : AccKind) : FabAcc := ⟨7, k, 0x10000000, 4, 15, 15, [1], .drop⟩

/-- A first frame of a source is accepted, a fenced one is not, and the inbound buffer is full or has room. -/
theorem test_inbound_frames_premises :
    let f := fun t : Nat => Tests.frame t 0 1 5 1 4 0 [1, 2]
    let run := Tests.member []
    let with_ := fun st : RxSt => { run with heal := { HealSt.init with streams := [⟨1, 4, [none, none, none], st, false, false, 0, 0, 0⟩] } }
    let how := fun (s : State) (t : Nat) => ((s.arrive 0 (f t) id).1, ((s.arrive 0 (f t) id).2.accept (f t)).1)
    (∀ t ∈ [2, 3, 4, 5, 6, 7], headerGood (f t) = true ∧ (f t).typ = t ∧ how run t = (true, .yes) ∧ how (with_ .hold) t = (true, .no) ∧ how (with_ .fenced) t = (true, .fenced)) ∧
    65536 < inBytes [⟨1, 4, 0, 2, 0, List.replicate 17000 0⟩] + 20 + (f 2).payload.length ∧ inBytes run.fab.inbound + 20 + (f 2).payload.length ≤ 65536 ∧
    (∃ r ∈ [(⟨1, 4, 0, 2, 0, []⟩ : InReq)], r.ring = (f 2).sring ∧ r.station = (f 2).sstation) ∧ (∀ r ∈ run.fab.inbound, ¬ (r.ring = (f 2).sring ∧ r.station = (f 2).sstation)) := by
  decide +kernel

/-- Completions: late, in error, of a read and of a speculative read. -/
theorem test_completion_premises :
    let f := fun k : Nat => Tests.frame 4 0 1 5 1 4 0 [BitVec.ofNat 32 (k * 2 ^ 8), 7]
    let run := fun spec : Bool => { Tests.member [] with fab := { Tests.up.fab with tags := [some ⟨Tests.acc .read, 1, 4, 0, 0, 0, spec⟩], tgens := [0] } }
    let t := fun (spec : Bool) (k : Nat) => (((run spec).arrive 0 (f k) id).2.accept (f k)).2
    ((Tests.member []).fab.tags.getD 0 none = none) ∧ getF ((f 0).pw 0) 22 2 = (t false 0).fab.tgens.getD 0 0 ∧ getF ((f 5).pw 0) 8 8 ≠ 0 ∧ getF ((f 0).pw 0) 8 8 = 0 ∧
    ((t false 0).fab.tags.getD 0 none).map (fun e => e.spec) = some false ∧ ((t true 0).fab.tags.getD 0 none).map (fun e => e.spec) = some true := by decide +kernel

/-- The inbound buffer and the fabric requester: each outcome of the access in turn. -/
theorem test_fabric_requests_premises :
    let run := Tests.member [(F.FAB_WIN0_en 0, 1), (F.FAB_WIN1_ring 0, 1), (F.FAB_WIN1_station 0, 5), (F.FAB_INCTL_en, 1)]
    let far := run.wr (F.FAB_WIN1_station 0) 9
    let asks := fun (s : State) (a : FabAcc) => s.setFab (fun f => { f with reqs := [a] })
    let host := { Tests.acc .read with ident := 1 }
    let w : InReq := ⟨1, 4, 0, 2, 0, [7]⟩
    let ends := fun (s : State) => (match s.target w with | (.done c _ _, _) => c | (.wait, _) => 99)
    ends run = 0 ∧ ends (run.wr (subFld (F.MEM_BANKST 0) 0 2) 3) = 99 ∧ (asks run (Tests.acc .write)).nextGrant = some (Tests.acc .write) ∧ run.nextGrant = none ∧
    ((Tests.upWith [(F.HOST_FENCE_f0, 1)]).fenced (fnOf 1) = true ∧ host.ident = 1) ∧ run.fenced (fnOf 1) = false ∧ ¬ ((Tests.acc .read).ident = 1 ∨ (Tests.acc .read).ident = 2) ∧
    Tests.up.fabRefusal (Tests.acc .read) = some 0x12 ∧ run.fabRefusal (Tests.acc .read) = none ∧ far.fabRefusal (Tests.acc .read) = none ∧
    ¬ (far.fabRing 0x10000000 = far.ringId ∧ far.fabStation 0x10000000 = far.station) ∧ (run.fabRing 0x10000000 = run.ringId ∧ run.fabStation 0x10000000 = run.station) ∧
    ((run.inc F.FAB_CNT_NPREQ).fabOwn (Tests.acc .read)).isSome = true := by decide +kernel

theorem test_fabric_timers_premises :
    let e : TagEnt := ⟨Tests.acc .read, 1, 4, 0, 0, 0, false⟩
    let b : PfBuf := ⟨0, [], false, [], 0, 7, 0, 1, 4, 0⟩
    let s := { Tests.upWith [(F.FAB_WIN0_timeout 0, 1), (F.FAB_PFCFG_age, 1)] with raw := 400, fab := { Tests.up.fab with tags := [some e], pf := [some b] } }
    s.fab.tags.getD 0 none = some e ∧ e.start + s.rd (F.FAB_WIN0_timeout e.window) * 400 ≤ s.raw ∧ s.fab.pf.getD 0 none = some b ∧
    b.raw + s.rd F.FAB_PFCFG_age * 400 ≤ s.raw ∧ Tests.up.raw < e.start + s.rd (F.FAB_WIN0_timeout e.window) * 400 ∧ Tests.up.raw < b.raw + s.rd F.FAB_PFCFG_age * 400 := by
  decide

theorem test_gate_events_premises :
    let w : List Word := [0x80000000#32, 0, 0, 0]
    let e : CacheEnt := ⟨0, [], 0, 0, true, none⟩
    let s := { Tests.upWith [(F.GATE_CTL_en, 1)] with gate := { Tests.up.gate with rates := [(1023, w)], cache := [(1023, e)] } }
    let t : GateTx := ⟨63, 0, 1, 0, 0, 0, none, none, 0, 0, none⟩
    let u := { s with gate := { s.gate with txs := [t] } }
    slook s.gate.rates 1023 = some w ∧ slook s.gate.cache 1023 = some e ∧ (getF (wAt w 0) 31 1 = 1 ∧ getF (wAt w 0) 30 1 = 0 ∧ e.fresh = true ∧ e.sent = none) ∧
    s.rd F.GATE_CTL_en ≠ 0 ∧ s.gateRoom (wAt w 3) e.val.length = true ∧ ¬ ({ e with fresh := false } : CacheEnt).fresh = true ∧ sideTooLong (wAt w 3) 0 = false ∧
    sideTooLong 0x12#32 17 = true ∧ (Tests.member []).gateRoom 0x12#32 17 = true ∧
    s.gate.txs.find? (fun t => decide (t.num = 63)) = none ∧ u.gate.txs.find? (fun t => decide (t.num = 63)) = some t ∧
    ({ t with waiting := some ⟨0, 0, 0, 0, false, false, 0, 0, [], false⟩ } : GateTx).waiting.isSome = true ∧ t.waiting = none ∧
    t.start + (Tests.upWith [(F.GATE_CFG_wait, 0)]).rd F.GATE_CFG_wait * 400 ≤ Tests.up.raw ∧ Tests.up.raw < t.start + (Tests.upWith [(F.GATE_CFG_wait, 1)]).rd F.GATE_CFG_wait * 400 ∧
    t.start + (Tests.upWith [(F.GATE_CFG_txlim, 0)]).rd F.GATE_CFG_txlim * 400000 ≤ Tests.up.raw ∧ Tests.up.raw < t.start + (Tests.upWith [(F.GATE_CFG_txlim, 1)]).rd F.GATE_CFG_txlim * 400000 ∧
    ({ Tests.up with engs := [{ EngSt.init with gtx := some 0 }] } : State).eng 0 = { EngSt.init with gtx := some 0 } ∧ (Tests.up.eng 15).gtx = none := by decide

theorem test_pair_events_premises :
    let s := Tests.upWith [(F.STG_OHOLD_laps 1, 3), (F.STG_OHOLD_count 1, 3)]
    let run := { Tests.upWith [(F.STG_STATE_state 0, pRUN), (F.STG_STATE_phase 0, 2)] with raw := 10 ^ 9, pairs := [{ PairSt.init with wrDue := true, jpend := [(0, 1)] }, PairSt.init] }
    (s.rd (F.STG_OHOLD_laps 1) ≠ 0 ∧ s.rd (F.STG_OHOLD_laps 1) ≤ s.rd (F.STG_OHOLD_count 1) ∧ s.rd (F.STG_STATE_ohold 1) = 0) ∧ Tests.up.rd (F.STG_OHOLD_laps 0) = 0 ∧
    ((run.pair 0).wrDue = true ∧ (run.pair 0).refreshed = false ∧ run.pst 0 = pRUN ∧ (run.pair 0).cycRaw + run.rd (F.STG_OUTOFS_ofs 0) ≤ run.raw) ∧
    (((run.setPhase 0 3).publish 0).pst 0 ≠ pFAULT) ∧ (run.pair 0).jpend ≠ [] ∧ (Tests.up.pair 0).jpend = [] ∧ (Tests.up.pair 0).wrDue = false ∧
    (run.rd (F.STG_STATE_phase 0) = 2 ∧ (run.pair 0).free = false ∧ (run.pair 0).cycRaw + run.rd (F.STG_WDOG_limit 0) ≤ run.raw) ∧ Tests.up.pst 0 ≠ pRUN ∧
    ¬ (Tests.up.cycOk 0 0 0 0 = true) ∧ (Tests.upWith [(F.RING_LAPCFG_len, 10000)]).cycOk 1 0 0 9999 = true := by decide

theorem test_stage_controls_premises :
    let s := { Tests.upWith [(F.STG_STATE_state 0, pRUN), (F.RING_LAPCFG_len, 10000)] with
      shadow := [((F.STG_CYC_len 0).addr, 1), ((F.STG_OUTOFS_ofs 0).addr, 0), ((F.STG_WDOG_limit 0).addr, 9999)] }
    s.cycOk (s.rdS (F.STG_CYC_len 0)) (s.rdS (F.STG_CYC_phase 0)) (s.rdS (F.STG_OUTOFS_ofs 0)) (s.rdS (F.STG_WDOG_limit 0)) = true ∧ s.pst 0 ≠ pOFF ∧ Tests.up.pst 0 = pOFF ∧
    Tests.up.lapsRun = false ∧ (Tests.member [(F.TIME_STATE_role, rSTARTER)]).lapsRun = true := by decide

theorem test_field_commits_premises :
    let taken := { Tests.upWith [(F.LINE_MODE_mode 1, 3), (F.LINE_MODE_cansel 1, 5)] with shadow := [((F.LINE_MODE_mode 0).addr, 0x00050003#32)] }
    (modeWordOk (taken.shown (F.LINE_MODE_mode 0).addr) = true ∧ getF (taken.shown (F.LINE_MODE_mode 0).addr) 0 3 = 3 ∧
      taken.canTaken 0 (getF (taken.shown (F.LINE_MODE_mode 0).addr) 16 4) = true) ∧ modeWordOk 4 = false ∧
    (modeWordOk (Tests.up.shown (F.LINE_MODE_mode 47).addr) = true ∧ getF (Tests.up.shown (F.LINE_MODE_mode 47).addr) 0 3 ≠ 3) ∧
    unitOk 47 = true ∧ unitOk 48 = false ∧ unitOk 63 = false ∧ unitOk 64 = true ∧ unitOk 127 = true := by decide

theorem test_calibration_premises :
    let s := { Tests.upWith [(F.LINE_CALCFG_period, 1), (F.LINE_CALCFG2_tdelta, 1)] with raw := 400000000 }
    let z := Tests.upWith [(F.LINE_CALCFG_period, 0), (F.LINE_CALCFG2_tdelta, 0)]
    let c := fun f : CalSt → CalSt => ({ s with lines := [{ LineSt.init with cal := f CalSt.init, window := some 5 }] } : State)
    s.rd F.LINE_CALCFG_period ≠ 0 ∧ (s.cal 127).applied + s.rd F.LINE_CALCFG_period * 1000 * 400000 ≤ s.raw ∧ z.rd F.LINE_CALCFG_period = 0 ∧
    s.rd F.LINE_CALCFG2_tdelta ≠ 0 ∧ z.rd F.LINE_CALCFG2_tdelta = 0 ∧ Tests.up.unitMode 64 = 0 ∧
    (let t := (c (fun x => { x with st := 1, steps := [0] })).cal 0
     t.st = 1 ∧ t.running = false ∧ t.applyDue = false ∧ t.steps ≠ []) ∧ s.groupOn 0 = true ∧ (c id).windowOpen 0 = true ∧ (c id).lineWindow 0 = some 5 ∧ 5 ≤ s.raw ∧
    Tests.up.raw < 5 ∧ Tests.up.lineWindow 127 = none ∧ ((c (fun x => { x with running := true })).cal 0).first = none ∧
    ((c (fun x => { x with running := true, first := some 3 })).cal 0).first = some 3 ∧ (Tests.up.cal 0).running = false ∧ (Tests.up.cal 0).st ≠ 1 ∧
    ((c (fun x => { x with applyDue := true })).cal 0).applyDue = true ∧ (Tests.up.cal 0).applyDue = false := by decide

theorem test_line_faults_premises :
    (Tests.upWith [(F.LINE_MODE_mode 47, 3)]).rd (F.LINE_MODE_mode 47) = 3 ∧ Tests.up.rd (F.LINE_MODE_mode 47) = 0 ∧ (Tests.upWith [(F.LINE_MODE_mode 47, 1)]).rd (F.LINE_MODE_mode 47) ≠ 0 ∧
    (let s := { Tests.at_ 0x0801 [0, 0, 0, 0, 1] [] with raw := 400000, field := { FieldSt.init with waits := [⟨1, [0], [], []⟩] } }
     s.findCmd 1 = some (Tests.cmd 0x0801 [0, 0, 0, 0, 1]) ∧ s.field.waits.find? (fun w => decide (w.seq = 1)) = some ⟨1, [0], [], []⟩ ∧ 0 + 1 * 400000 ≤ s.raw) ∧
    (let c := Tests.cmd 0x0802 [0x1000#32]
     (Tests.at_ 0x0802 [0x1000#32] []).findCmd 1 = some c ∧ c.opcode = 0x0802 ∧ c.started = true ∧ c.f 0 12 12 = 1 ∧ c.startRaw + 100 * 400000 ≤ 100 * 400000 ∧ Tests.up.raw < c.startRaw + 1) ∧
    Tests.up.field.waits.find? (fun w => decide (w.seq = 1)) = none := by decide

theorem test_discrete_events_premises :
    let s := Tests.upWith [(F.DIO_CFG_mode 5, 1)]
    let d := Tests.upWith [(F.DIO_CFG_mode 5, 3), (F.DIO_CFG_openld 5, 1), (bitFld (F.DIO_OUT_out 0) 5, 1), (F.SAFE_STATE_state, 1)]
    (s.filteredEdge 5 false).on (dioFilt 5) = s.on (dioFilt 5) ∧ (s.filteredEdge 5 true).on (dioFilt 5) ≠ s.on (dioFilt 5) ∧ Tests.up.dioOn 5 = false ∧
    d.dioOn 5 = true ∧ d.rd (F.DIO_CFG_openld 5) ≠ 0 ∧ Tests.up.rd (F.DIO_CFG_openld 5) = 0 := by decide

theorem test_can_controls_premises :
    let on := fun f : CanSt → CanSt => ({ Tests.upWith [(F.CAN_STAT_mode 0, 1)] with cans := [f CanSt.init] } : State)
    let odd := Tests.upWith [(F.CAN_CFG_paired 1, 1)]
    let good := { Tests.up with shadow := [((F.CAN_NBT_brp 0).addr, 0x00020000#32)] }
    odd.canPaired 1 = true ∧ Tests.up.canPaired 0 = false ∧ timingOk (good.shown (F.CAN_NBT_brp 0).addr) (good.shown (F.CAN_DBT_brp 0).addr) = true ∧ timingOk 0 0 = false ∧
    (Tests.up.canMode 0 = 0 ∧ Tests.up.canIdle 0 = true) ∧ (on id).canMode 0 ≠ 0 ∧ (on (fun x => { x with onBus := some 0 })).canIdle 0 = false ∧
    (Tests.upWith [(F.CAN_STAT_errst 15, 2)]).canErr 15 = 2 ∧ Tests.up.canErr 15 ≠ 2 ∧ ((on (fun x => { x with commitReq := true })).can 0).commitReq = true ∧
    (Tests.up.can 0).commitReq = false := by decide

theorem test_can_queue_premises :
    let r : List Word := [0x00000100#32, 0]
    let on := fun f : CanSt → CanSt => ({ Tests.upWith [(F.CAN_STAT_mode 0, 1)] with cans := [f CanSt.init] } : State)
    let has := fun r : List Word => decide (getF (wAt r 0) 16 8 = 255)
    let q : List (List Word) := [[0x00FE0000#32, 0], [0x00FF0000#32, 0]]
    ((on (fun x => { x with owner := some 3 })).can 0).owner.isSome = true ∧ (Tests.up.can 0).owner = none ∧ ([] ++ [(8 : Word)]).length < txLen (wAt [(8 : Word)] 0) ∧
    txLen (wAt r 0) ≤ r.length ∧ 64 ≤ (List.replicate 64 r).length ∧ ((on (fun x => { x with txw := r })).can 0).txq.length < 64 ∧
    Tests.up.can 0 = CanSt.init ∧ CanSt.init.txq.find? has = none ∧ q.find? has = some [0x00FF0000#32, 0] ∧ has (q.headD []) = false ∧ has (q.tail.headD []) = true ∧
    q.tail.find? has = some [0x00FF0000#32, 0] ∧ ((on (fun x => { x with onBus := some 0 })).can 0).onBus.isSome = true ∧ ((on id).can 0).onBus = none := by decide

theorem test_can_bus_premises :
    let on := Tests.upWith [(F.CAN_STAT_mode 0, 1), (F.CAN_STAT_integ 0, 1)]
    let sends := { on with cans := [{ CanSt.init with txq := [[0x40000000#32, 0]] }] }
    let d : CanDetect := ⟨1, [(0, 0)], 0, 0, 1, 0, 0, [0], 1, 0, 0, (0, 0, 0)⟩
    let run := { on with raw := 400000, cans := [{ CanSt.init with detect := some d }] }
    (on.rd (F.CAN_STAT_integ 0) ≠ 0 ∧ on.canMode 0 = 1) ∧ Tests.up.rd (F.CAN_STAT_integ 0) = 0 ∧ (on.canMode 0 ≠ 3 ∧ on.canErr 0 ≠ 2) ∧
    ((on.canCounts 0 128 0).canErr 0 = 0 ∧ (on.canCounts 0 128 0).canErr 0 ≠ 1) ∧ (Tests.upWith [(F.CAN_STAT_mode 0, 3)]).canMode 0 = 3 ∧
    (Tests.upWith [(F.CAN_STAT_recovering 0, 1)]).rd (F.CAN_STAT_recovering 0) ≠ 0 ∧ Tests.up.rd (F.CAN_STAT_recovering 0) = 0 ∧
    ((sends.can 0).onBus = none ∧ sends.canMaySend 0 = true) ∧ on.canMaySend 0 = false ∧ getF (wAt ((sends.can 0).txq.headD []) 0) 30 1 = 1 ∧
    ((((run.inc (F.CAN_CNT_ERRFRM 0)).canCounts 0 0 0).can 0).detect = some d ∧ (((run.inc (F.CAN_CNT_ERRFRM 0)).canCounts 0 0 0).can 0).onBus = none) ∧
    (run.can 0).detect = some d ∧ d.t0 + d.dwell * 400000 ≤ run.raw ∧ Tests.up.raw < d.t0 + d.dwell * 400000 ∧ (on.can 0).detect = none := by decide

/-- Received Ethernet frames: a plain one, one too short, a pause frame, and tier-link frames that carry a good and a bad ring frame. -/
theorem test_ethernet_premises :
    let bs : List Byte := List.replicate 60 0
    let pause : List Byte := List.replicate 12 0 ++ [0x88, 0x08, 0x00, 0x01]
    let s := Tests.upWith [(F.MAC_STAT_link 0, 1), (F.MAC_CFG_maxlen 0, 1518)]
    let tier := Tests.member [(F.MAC_STAT_link 0, 1), (F.MAC_CFG_maxlen 0, 1518), (F.RING_CFG_role, 1), (F.RING_CFG_tiermac, 0)]
    let f := Tests.frame 2 0 1 9 1 4 0 [1]
    let tf : List Byte := List.replicate 12 0 ++ [0x88, 0xB5] ++ wordsToBytes [f.w0, f.w1, f.w2, f.w3] ++ f.payload ++ wordsToBytes [f.crc] ++ List.replicate 40 0
    let bad : List Byte := List.replicate 12 0 ++ [0x88, 0xB5] ++ List.replicate 46 0xFF
    (s.macLink 0 = true ∧ isPause bs = false ∧ s.isTierFrame 0 bs = false ∧ s.macAccepts 0 true bs = true) ∧ s.macAccepts 0 true (bs.drop 1) = false ∧ isPause pause = true ∧
    s.macResv 0 = false ∧ (s.wr (F.MAC_CFG_resv 0) 1).macResv 0 = true ∧ Tests.up.macLink 0 = false ∧ (tier.isTierFrame 0 tf = true ∧ tier.macAccepts 0 true tf = true) ∧
    (headerGood (tierInner (tf.drop 14)) = true ∧ trailerGood (tierInner (tf.drop 14)) = true ∧ (tierInner (tf.drop 14)).cls ≠ 0) ∧
    tier.ringAdmits tier.odir (tierInner (tf.drop 14)).cls (tierInner (tf.drop 14)).bytes = true ∧ headerGood (tierInner (bad.drop 14)) = false ∧
    (tier.wr (F.SW_PLIM_cells tier.odir) 0).ringAdmits tier.odir 1 40 = false := by decide +kernel

theorem test_mac_events_premises :
    let g : SwFrame := ⟨List.replicate 60 0, 1, 0, 7, none, 0⟩
    let s := Tests.upWith [(F.MAC_STAT_link 0, 1), (F.MAC_CFG_maxlen 0, 1518), (F.MAC_CFG_pause 0, 1)]
    let q := { s with net := { s.net with macs := [{ MacSt.init with queues := List.replicate 7 [] ++ [[g]], pauseEnd := 5 }] } }
    (s.rd (F.MAC_CFG_pause 0) ≠ 0) ∧ ((Tests.upWith [(F.MAC_CFG_pause 0, 0)]).rd (F.MAC_CFG_pause 0) = 0) ∧ (Tests.up.mac 0).pauseEnd ≤ Tests.up.raw ∧ q.raw < (q.mac 0).pauseEnd ∧
    (q.macLink 0 = true ∧ q.rd (F.MAC_STAT_paused 0) = 0 ∧ [7, 6, 5, 4, 3, 2, 1, 0].find? (fun c => q.macMayStart 0 c) = some 7 ∧ (q.mac 0).queues.getD 7 [] = g :: []) ∧
    [7, 6, 5, 4, 3, 2, 1, 0].find? (fun c => s.macMayStart 0 c) = none ∧ (q.outBytes 0 g).length + 4 ≤ q.rd (F.MAC_CFG_maxlen 0) ∧ g.stamp = none ∧
    ({ g with stamp := some 9 } : SwFrame).stamp = some 9 ∧ (q.wr (F.MAC_CFG_maxlen 0) 63).rd (F.MAC_CFG_maxlen 0) < (q.outBytes 0 g).length + 4 ∧
    (∀ k, k < 6 → (Tests.upWith [(F.MAC_CFG_phy 3, k)]).rd (F.MAC_CFG_phy 3) = k) := by decide

theorem test_gate_list_premises :
    let m := fun (f : MacSt → MacSt) => ({ Tests.upWith [(F.MAC_GCFG_en 0, 1), (F.MAC_GCFG_entries 0, 2), (F.MAC_GCYCLE 0, 1000), (F.MAC_GCFG_align 0, 0)] with net := { NetSt.init with macs := [f MacSt.init] } } : State)
    let due := fun t : Int => m (fun x => { x with gdue := some t })
    let at_ := fun (i : Nat) (t : Int) => m (fun x => { x with gpos := some i, gstart := t })
    ((due (-1)).mac 0).gdue = some (-1) ∧ (-1 : Int) ≤ (due (-1)).nowU ∧ (due (10 ^ 20)).nowU < 10 ^ 20 ∧ (Tests.up.mac 0).gdue = none ∧ (Tests.up.mac 0).gpos = none ∧
    ((at_ 0 (-10 ^ 20)).gateRuns 0 = true ∧ ((at_ 0 (-10 ^ 20)).mac 0).gpos = some 0) ∧
    ((at_ 0 (-10 ^ 20)).rd (F.MAC_GCFG_align 0) = 0 ∧ (at_ 0 (-10 ^ 20)).gateEnd 0 ≤ (at_ 0 (-10 ^ 20)).nowU) ∧
    (¬ (at_ 0 0).gateEnd 0 ≤ (at_ 0 0).nowU ∧ 0 + 1 < ((at_ 0 0).gcl 0).length ∧ (at_ 0 0).entryStart 0 1 ≤ (at_ 0 0).nowU) ∧
    ((at_ 1 0).gcl 0).length ≤ 1 + 1 ∧ Tests.up.gateRuns 0 = false ∧
    ({ Tests.up with shadow := [((F.MAC_GCFG_en 0).addr, 0x00000001#32)] } : State).rdS (F.MAC_GCFG_en 0) = 1 ∧ Tests.up.rdS (F.MAC_GCFG_en 0) = 0 ∧
    ({ Tests.up with shadow := [((F.MAC_GCFG_en 0).addr, 0x00000001#32)] } : State).rdS (F.MAC_GCFG_align 0) = 0 := by decide

theorem test_forwarding_age_premises :
    let e : FdbEnt := ⟨1, 0, 0, false, 0, 0⟩
    let s := { Tests.upWith [(F.SW_AGE_age, 1)] with raw := 400000000, net := { NetSt.init with fdb := [e] } }
    s.net.fdb[0]? = some e ∧ e.static = false ∧ e.raw + s.rd F.SW_AGE_age * 1000 * 400000 ≤ s.raw ∧ Tests.up.net.fdb[8191]? = none ∧ (⟨1, 0, 0, true, 0, 0⟩ : FdbEnt).static = true := by
  decide

theorem test_step_timer_premises :
    let m := fun f : MotSt → MotSt => ({ Tests.up with mots := [f MotSt.init] } : State)
    let x := (m (fun y => { y with armed := true })).mot 0
    (x.armed = true ∧ x.armRaw * 5 + x.interval * 8 ≤ Tests.up.raw * 5 ∧ Tests.up.motState 0 ≠ 5) ∧ (Tests.up.mot 7).armed = false ∧
    ((m (fun y => { y with dry := true })).mot 0).dry = true ∧ x.dry = false ∧ Tests.up.motMeasuring 0 = false ∧
    ({ Tests.upWith [(F.MOT_CFG_route 0, 0)] with drvs := [{ DrvSt.init with measuring := true }] } : State).motMeasuring 0 = true := by decide

/-- Limit switches in both directions, an index edge, and homing in each of its states. -/
theorem test_homing_premises :
    let sw := [(F.MOT_SW_posen 0, 1), (F.MOT_SW_poslvl 0, 0), (F.MOT_SW_negen 0, 1), (F.MOT_SW_neglvl 0, 0), (F.MOT_SW_homeen 0, 1), (F.MOT_SW_homelvl 0, 0), (F.MOT_SW_idxen 0, 1)]
    let h : Homing := ⟨1, false, true, 1, 1, 0, 5, 0, 0, none, some 256⟩
    let s := fun (v st : Nat) => ({ Tests.upWith (sw ++ [(F.MOT_VEL 0, v), (F.MOT_STATE_hstate 0, st)]) with mots := [{ MotSt.init with plan := .vel 1, home := some h }] } : State)
    ((s 1 0).limitOn 0 true = true ∧ (s 1 0).motHeading 0 = 1) ∧ ((s 4294967295 0).limitOn 0 false = true ∧ (s 4294967295 0).motHeading 0 = -1) ∧ Tests.up.limitOn 0 true = false ∧
    (∀ k, k < 6 → (s 1 k).rd (F.MOT_STATE_hstate 0) = k) ∧ (s 1 4).rd (F.MOT_SW_idxen 0) ≠ 0 ∧ Tests.up.rd (F.MOT_SW_idxen 0) = 0 ∧ (Tests.up.mot 0).home = none ∧
    ((s 1 1).mot 0).home = some h ∧ (s 1 1).homeOn 0 = true ∧ Tests.up.homeOn 0 = false ∧ h.release = none ∧ h.latched = some 256 ∧ (256 : Int) % 256 = 0 ∧ (Tests.up.mot 0).plan = .none ∧
    ({ h with latched := none } : Homing).latched = none ∧ h.limit < ((Tests.upWith [(F.MOT_POS 0, 6)]).motPos 0 - h.start).natAbs ∧ (Tests.up.motPos 0 - h.start).natAbs ≤ h.limit := by
  decide

theorem test_motion_controls_premises :
    let bad := { Tests.up with shadow := [((F.MOT_CFG_mresmin 0).addr, Tests.up.reg (F.MOT_CFG_mresmin 0).addr), ((F.MOT_CFG_route 0).addr, 0x00020000#32)] }
    let run := { Tests.upWith [(F.MOT_STATE_state 0, 2)] with mots := [{ MotSt.init with plan := .vel 1 }] }
    (∃ s : State, s.motRefuse 0 = true) ∧ Tests.up.motRefuse 0 = false ∧ bad.motState 0 ≠ 5 ∧ run.motState 0 = 2 ∧ (run.mot 0).plan ≠ .none ∧
    ((run.commitRegs (motRegs 0)).showMot 0).mot 0 = run.mot 0 ∧ (run.mot 0).next = none ∧ ((run.homeFail 0 6).setMot 0 (fun x => { x with queued := none })).motState 0 = 2 ∧
    (((Tests.upWith [(F.MOT_STATE_state 0, 1)]).homeFail 0 6).setMot 0 (fun x => { x with queued := none })).motState 0 = 1 ∧ (Tests.upWith [(F.MOT_STATE_state 0, 5)]).motState 0 = 5 ∧
    (let u := Tests.up.setReg (F.MOT_TGT 0).addr 256
     u.motState 0 = 0 ∧ u.rd (F.MOT_CFG_src 0) = 0 ∧ u.rdI (F.MOT_TARGET 0) ≠ 256 ∧ u.motTargetOk 0 256 = true ∧ u.motBlocked 0 (256 - u.motPos 0) = false) := by
  refine ⟨⟨({ Tests.upWith [(F.MOT_CFG_mresmin 0, 5), (F.MOT_CFG_mresmax 0, 0)] with shadow := [] } : State), by decide⟩, ?_⟩
  decide

theorem test_drive_premises :
    let on := fun (ws : List (Fld × Nat)) => Tests.upWith ([(subFld (F.PWR_DOMST (0x38 / 16)) (0x38 % 16 * 2) 2, 0)] ++ ws)
    let due := on [(F.DRV_STAT_coil 0, 1), (F.DRV_CFG_mode 0, 2), (F.DRV_HOLD_pullin 0, 0), (F.DRV_HOLD_delay 0, 0)]
    (on []).hasDrv 0 = true ∧ (Tests.upWith [(F.SYS_ID_code, 1)]).hasDrv 0 = false ∧ (on [(F.DRV_STAT_enabled 0, 1)]).rd (F.DRV_STAT_enabled 0) ≠ 0 ∧ (on []).rd (F.DRV_STAT_enabled 0) = 0 ∧
    ((on []).drv 0).measuring = false ∧ ({ on [] with drvs := [{ DrvSt.init with measuring := true }] } : State).drv 0 = { DrvSt.init with measuring := true } ∧
    (due.rd (F.DRV_STAT_coil 0) = 1 ∧ due.rd (F.DRV_CFG_mode 0) = 2 ∧ (due.drv 0).coilRaw + due.rd (F.DRV_HOLD_pullin 0) * 400000 ≤ due.raw) ∧ (on []).rd (F.DRV_STAT_coil 0) = 0 ∧
    (let find := fun s : State => (List.range 8).find? (fun n => s.rd (F.MOT_CFG_route n) = 0 && s.rd (F.MOT_CFG_pair n) = 0)
     find (due.wr (F.MOT_CFG_route 0) 0) = some 0 ∧ find ((List.range 8).foldl (fun s n => s.wr (F.MOT_CFG_route n) 1) due) = none ∧
     (due.mot 0).plan = .none ∧ (due.mot 0).stillRaw + due.rd (F.DRV_HOLD_delay 0) * 400000 ≤ due.raw ∧
     ¬ (({ due with mots := [{ MotSt.init with plan := .stop }] } : State).mot 0).plan = .none) := by decide

theorem test_memory_events_premises :
    let s := Tests.upWith [(subFld (F.MEM_BANKST 3) 30 2, 1)]
    let m := fun f : MemSt → MemSt => ({ Tests.up with memu := f Tests.up.memu } : State)
    let a := m (fun x => { x with wbq := [(0, false)], flips := [(0, 3)] })
    let r := m (fun x => { x with remapDue := [0x10000] })
    s.bankState 63 = 1 ∧ (Tests.upWith [(subFld (F.MEM_BANKST 3) 30 2, 3)]).bankState 63 = 3 ∧ (Tests.upWith [(subFld (F.MEM_BANKST 3) 30 2, 0)]).bankState 63 = 0 ∧
    Tests.up.memu.wbq = [] ∧ a.memu.wbq = (0, false) :: [] ∧ (a.flipsAt 0).length = 1 ∧ (Tests.up.flipsAt 0).length ≠ 1 ∧ Tests.up.memu.remapDue = [] ∧
    r.memu.remapDue = 0x10000 :: [] ∧ (r.wr (sparesFld (bankOf 0x10000)) 8).rd (sparesFld (bankOf 0x10000)) = 8 ∧ r.rd (sparesFld (bankOf 0x10000)) < 8 ∧
    2 ≤ ((m (fun x => { x with flips := [(0, 3), (0, 4)] })).flipsAt 0).length ∧ (a.flipsAt 0).length < 2 := by decide

/-- A remap that the store takes, and one that it finds bad when it reads it back. -/
theorem test_remap_record_premises :
    let s := { Tests.up with memu := { Tests.up.memu with recordDue := [0] } }
    s.cmd.halted = false ∧ s.memu.recordDue = 0 :: [] ∧ (s.storeDevice 0x010000 s.remapData (readBackBad Tests.env)).1 = true ∧
    (s.storeDevice 0x010000 s.remapData (readBackBad { Tests.env with obs := [1] })).1 = false := by decide +kernel

theorem test_scrub_premises :
    let s := Tests.upWith [(F.MEM_SCRUB_en 1, 1)]
    s.rd (F.MEM_SCRUB_en 1) ≠ 0 ∧ (Tests.upWith [(F.MEM_SCRUB_en 1, 0)]).rd (F.MEM_SCRUB_en 1) = 0 ∧ s.scrubSkip (s.memu.scrub.getD 1 0) < scrubHi 1 ∧ scrubHi 1 ≤ s.scrubSkip 0x014FFFFC := by decide

/-- A DMA descriptor that ends the chain, one that goes on, and one that is malformed. -/
theorem test_dma_premises :
    let go := fun last : Nat =>
      let s := { Tests.upWith ([(F.MEM_DMA2_busy 0, 1)] ++ (List.range 4).map (fun k => (subFld (F.MEM_BANKST 0) (2 * k) 2, 0))) with
        mem := Tests.put 0 (wordsToBytes [0x100#32, 0x200#32, BitVec.ofNat 32 (last * 2 ^ 31 + 4), 0]) }
      let u := (s.dmaDesc 0).dmaGo 0 (descLen ((s.dmaDesc 0).dma 0).words / 4)
      (u.rd (F.MEM_DMA2_busy 0), (u.dma 0).waiting, decide ((u.dma 0).words = []), decide ((u.dma 0).done < descLen (u.dma 0).words), getF (wAt (u.dma 0).words 2) 31 1)
    go 1 = (1, false, false, false, 1) ∧ go 0 = (1, false, false, false, 0) ∧ Tests.up.rd (F.MEM_DMA2_busy 0) = 0 ∧
    (let z := Tests.upWith [(F.MEM_DMA2_busy 0, 1), (subFld (F.MEM_BANKST 0) 0 2, 0)]
     ((z.dmaDesc 0).dmaGo 0 (descLen ((z.dmaDesc 0).dma 0).words / 4)).rd (F.MEM_DMA2_busy 0) = 0) := by decide +kernel

theorem test_pcie_premises :
    let s := Tests.upWith [(F.HOST_CFG_pcien, 1), (F.HOST_STAT_link, 1)]
    let fw := { s with power := { s.power with booted := true } }
    s.pcieUp = true ∧ Tests.up.pcieUp = false ∧ s.power.starting = some 1 ∧ ({ s with power := { s.power with starting := none } } : State).noFw = true ∧ fw.noFw = false ∧ area 0 = .house ∧ area 0x10000000 = .aperture ∧ area 0x04000000 = .reg ∧
    (fw.wr F.HOST_FENCE_f0 1).fenced 0 = true ∧ fw.fenced 0 = false ∧ (0x1FFFFFFF : Nat) + 1 ≤ 0x20000000 := by decide

theorem test_pcie_link_premises :
    let s := Tests.upWith [(F.HOST_CFG_pcien, 1), (F.HOST_CFG_maxgen, 4), (F.HOST_CFG_maxwidth, 1), (F.HOST_STAT_link, 0)]
    (s.rd F.HOST_CFG_pcien ≠ 0 ∧ s.rd F.HOST_STAT_link = 0 ∧ 4 ≤ s.rd F.HOST_CFG_maxgen ∧ s.rd F.HOST_CFG_maxwidth ≠ 0) ∧
    (Tests.upWith [(F.HOST_STAT_link, 1)]).rd F.HOST_STAT_link ≠ 0 ∧
    (let c := Tests.cmd 0x0004 []
     (Tests.at_ 0x0004 [] []).findCmd 1 = some c ∧ c.startRaw + 50 * 400000 ≤ 20000000 ∧ (Tests.at_ 0x0004 [] []).raw < c.startRaw + 50 * 400000 ∧ (Tests.at_ 0x0004 [] []).findCmd 2 = none) ∧
    ((Tests.having (Tests.upWith [(F.CMD_STATUS_ready, 1)]) (Tests.cmd 0x0004 [])).coreUp = true ∧ Tests.up.cmd.accStop = false) := by decide

theorem test_host_bus_premises :
    let q := Tests.upWith [(F.HOST_CFG_qspien, 1), (F.HOST_CFG_paren, 1)]
    let h := fun f : HostSt → HostSt => ({ q with host := f q.host } : State)
    q.qspiUp = true ∧ q.host.qbusy = false ∧ ((h (fun x => { x with qbusy := true })).qspiUp = true ∧ (h (fun x => { x with qbusy := true })).host.qbusy = true) ∧
    ((63 : Fin 64).val + 1 ≤ (List.replicate 64 (0 : Word)).length ∧ (List.replicate 63 (0 : Word)).length < (63 : Fin 64).val + 1) ∧
    (0x9F#8 ∉ [0x0B#8, 0xEB#8, 0x02#8, 0x38#8, 0x05#8] ∧ 0x05#8 ∈ [0x0B#8, 0xEB#8, 0x02#8, 0x38#8, 0x05#8]) ∧
    (q.rd F.HOST_CFG_paren ≠ 0 ∧ q.busHeld 4 = false) ∧ q.host.latch = none ∧ (h (fun x => { x with latch := some 65535 })).host.latch = some 65535 ∧
    Tests.up.rd F.HOST_HSSTAT_fault = 0 ∧ (Tests.upWith [(F.HOST_HSSTAT_fault, 1)]).rd F.HOST_HSSTAT_fault ≠ 0 := by decide

theorem test_supply_premises :
    let p := fun f : PowerSt → PowerSt => ({ Tests.up with power := f Tests.up.power } : State)
    let c := fun f : CmdSt → CmdSt => ({ Tests.up with raw := 4000000, cmd := f Tests.up.cmd } : State)
    State.reset.power.on = true ∧ State.reset.power.pll = false ∧ (p (fun x => { x with on := false })).power.on = false ∧ Tests.up.power.pll = true ∧ Tests.up.power.low = false ∧
    ((p (fun x => { x with low := true })).alive = true ∧ (p (fun x => { x with low := true })).power.low = true) ∧ Tests.up.cmd.recoverRaw = none ∧
    ((c (fun x => { x with recoverRaw := some 0 })).cmd.recoverRaw = some 0 ∧ 0 + 10 * 400000 ≤ (c id).raw) ∧ Tests.up.raw < 0 + 10 * 400000 ∧
    (c (fun x => { x with resetReq := some 4 })).cmd.resetReq = some 4 ∧ (c (fun x => { x with resetReq := some 5 })).cmd.resetReq = some 5 ∧ Tests.up.cmd.resetReq = none := by decide

theorem test_start_up_premises :
    let p := fun f : PowerSt → PowerSt => ({ Tests.up with power := f Tests.up.power } : State)
    let b := p (fun x => { x with booted := true })
    Tests.up.power.starting = some 1 ∧ Tests.up.cmd.halted = false ∧ Tests.up.power.booted = false ∧ (p (fun x => { x with starting := none })).power.starting = none ∧
    b.power.booted = true ∧ (∃ n, (some 1 : Option Nat) = some n ∧ ((Tests.at_ 0x0004 [] []).findCmd n).isSome = true) ∧ (b.power.cur = none ∧ b.power.todo = []) ∧
    (p (fun x => { x with todo := [.stored [1]] })).power.todo = .stored [1] :: [] ∧ (p (fun x => { x with todo := [.pair 1] })).power.todo = .pair 1 :: [] ∧
    (({ b with raw := 400000000 } : State).power.booted = true ∧ b.rd F.CMD_STATUS_ready = 0 ∧ b.power.bootRaw + 1000 * 400000 ≤ 400000000) ∧ ¬ Tests.up.power.booted = true := by
  refine ⟨by decide, by decide, by decide, by decide, by decide, ⟨1, by decide⟩, by decide, by decide, by decide, by decide, by decide⟩

theorem test_monitor_premises :
    let off := Tests.upWith [(subFld (F.PWR_DOMST 0) 0 2, 3), (subFld (F.PWR_DOMST 2) 0 2, 3), (subFld (F.PWR_DOMST 3) 14 2, 3), (subFld (F.PWR_DOMST 1) 0 2, 3)]
    let mv := { Tests.up with power := { Tests.up.power with moved := [5, 7] } }
    off.domState 0 = 3 ∧ off.domState 32 = 3 ∧ off.domState 55 = 3 ∧ off.domState 16 = 3 ∧ (Tests.upWith [(subFld (F.PWR_DOMST 0) 0 2, 2)]).domState 0 ≠ 3 ∧
    200 < (201 : BitVec 16).toInt.natAbs ∧ ¬ 200 < (200 : BitVec 16).toInt.natAbs ∧ Tests.up.power.moved.contains 5 = false ∧ mv.power.moved.contains 5 = true ∧
    1500 < (1501 : BitVec 16).toInt ∧ ¬ 1500 < (1500 : BitVec 16).toInt ∧ mv.power.moved.contains 7 = true ∧ Tests.up.power.moved.contains 7 = false := by decide

theorem test_safety_premises :
    let now := (Tests.upWith [(F.SAFE_STATE_state, 1)])
    let trip := fun s : State => ((s.wr F.SAFE_CAUSE (s.rd F.SAFE_CAUSE ||| 2 ^ 8)).wr F.SAFE_CAUSENOW (s.rd F.SAFE_CAUSENOW ||| 2 ^ 8)).rd F.SAFE_STATE_state
    trip now = 1 ∧ trip Tests.up ≠ 1 ∧ Tests.up.forcing = true ∧ now.forcing = false ∧ now.rd F.SAFE_LOCK_table = 0 ∧ (Tests.upWith [(F.SAFE_LOCK_table, 1)]).rd F.SAFE_LOCK_table ≠ 0 ∧
    (Tests.up.pst 0 = pOFF) ∧ (Tests.upWith [(F.STG_STATE_state 1, pRUN)]).pst 1 ≠ pOFF ∧ (Tests.upWith [(F.STG_STATE_state 1, pRUN)]).pst 1 ≠ pFAULT ∧ Tests.up.cmd.halted = false ∧
    ({ Tests.up with cmd := { Tests.up.cmd with halted := true } } : State).cmd.halted = true ∧ (Tests.upWith [(F.SAFE_LOCK_dbg, 1)]).rd F.SAFE_LOCK_dbg ≠ 0 ∧
    Tests.up.rd F.SAFE_LOCK_dbg = 0 := by decide

/-- Each check of well-formedness refuses a command that breaks it, and passes one at its bound. -/
theorem test_ill_formed_units : (Instr.passApply 48).wf = false ∧ (Instr.passApply 63).wf = false ∧ (Instr.passApply 47).wf = true ∧ (Instr.passApply 64).wf = true := by decide

theorem test_ill_formed_frames :
    let f := fun n : Nat => (⟨0, 0, 0, 0, List.replicate n 0, 0, false⟩ : RFrame)
    (Instr.write 0 (f 2049)).wf = false ∧ (Instr.write 0 (f 2048)).wf = true := by
  simp [Instr.wf, RFrame.wf]

theorem test_ill_formed_buffers : (Instr.sysNop 1 ⟨[0], true, []⟩).wf = false ∧ (Instr.sysNop 1 ⟨[], true, []⟩).wf = true ∧ (Instr.sysNop 1 ⟨[0], false, []⟩).wf = true := by decide

theorem test_ill_formed_fields :
    (Instr.bfx 0 ⟨0, 0, false, 1, 0, 0⟩).wf = false ∧ (Instr.bfx 0 ⟨0, 0, true, 0, 0, 0⟩).wf = true ∧ (Instr.rep 0 ⟨0, 0, 0, 1⟩).wf = false ∧
    (Instr.rep 0 ⟨0, 0, 0, 0⟩).wf = true ∧ (Instr.push 2 ⟨0, 0, 0, false, 1⟩).wf = false ∧ (Instr.push 2 ⟨0, 0, 0, true, 0⟩).wf = true := by decide

/-- R469, R473: the lock of the core PLL takes the station out of reset; a second lock changes nothing. -/
theorem test_pll_lock : exec .pllLock State.reset = .next (Tests.up.wr F.CLK_STAT_lock 1) := by rfl

/-- An empty queue: the raw counter goes on by one tick (R92, notes/assumptions/1.md). -/
theorem test_idle_tick : (match step Tests.up with | .next t => t.raw | _ => 0) = 1 := by decide

/-- Words with reserved fields stand at a processor's PC: the smallest field value that each kind of instruction refuses. -/
theorem test_reserved_fields_premises :
    let at_ := fun w : Word => (Tests.eng (Tests.regs []) w).Issues 2 w (Tests.eng (Tests.regs []) w)
    (at_ ((⟨1, 0, 0, 0⟩ : RFmt).word 0 1) ∧ (1 : Fin 32) ≠ 0) ∧ at_ ((⟨0, 1, 0, 0⟩ : RFmt).word 0 0x14) ∧ at_ ((⟨0, 0, 1, 0⟩ : RFmt).word 0x24 0) ∧
    at_ ((⟨0, 0, 0, 1⟩ : RFmt).word 0x25 0) ∧ (at_ ((⟨0, 8, 0, 0⟩ : RFmt).word 0x25 3) ∧ 8 ≤ (8 : Fin 32).val) ∧ at_ ((⟨3, 0, 2, 0⟩ : RFmt).word 0x25 6) ∧
    (at_ ((⟨0, 0, 3, 0⟩ : RFmt).word 0x25 6) ∧ (3 : Fin 32).val % 2 = 1) ∧ at_ ((⟨3, 0, 0, 0⟩ : StrFmt).word 0) ∧ at_ ((⟨0, 1, 0, 0⟩ : StrFmt).word 1) ∧
    (at_ ((⟨0, 0, 40, false, 0⟩ : IoFmt).word 0) ∧ 40 ≤ (40 : Fin 64).val) ∧ (at_ ((⟨0, 3, 0, false, 0⟩ : IoFmt).word 2) ∧ 3 ≤ (3 : Fin 32).val) ∧
    at_ ((⟨0, 0, 0, true, 0⟩ : IoFmt).word 3) ∧ at_ ((⟨0, 0, 1, false, 0⟩ : IoFmt).word 4) ∧ at_ ((⟨0, 0, 0, false, 0⟩ : IoFmt).word 5) := by
  intro at_
  have h : ∀ w, at_ w := fun w => test_engine_issues _ _ ⟨rfl, rfl⟩
  exact ⟨⟨h _, by decide⟩, h _, h _, h _, ⟨h _, by decide⟩, h _, ⟨h _, by decide⟩, h _, h _, ⟨h _, by decide⟩, ⟨h _, by decide⟩, h _, h _, h _⟩

/-- R8: a reserved encoding leaves its field as it was, field by field (LINEnn_MODE, SAFE_DIOk, RING_WINd_n, DIO_CFGnn, HANDnn_WRAP). -/
theorem test_reserved_encodings :
    (Tests.up.plainWrite (F.LINE_MODE_mode 47).addr 0x304#32).rdS (F.LINE_MODE_mode 47) = 0 ∧ (Tests.up.plainWrite (F.LINE_MODE_mode 47).addr 0x103#32).rdS (F.LINE_MODE_mode 47) = 3 ∧
    (Tests.up.plainWrite (F.SAFE_DIO 7).addr 0xE4#32).rdS (F.SAFE_DIO 7) = 0x24 ∧ (Tests.up.plainWrite (F.DIO_CFG_mode 16).addr 4).rdS (F.DIO_CFG_mode 16) = 0 ∧
    (Tests.up.plainWrite (F.DIO_CFG_mode 15).addr 4).rdS (F.DIO_CFG_mode 15) = 4 ∧ (Tests.up.plainWrite (F.RING_WIN1_bytes 1 7).addr 0x00060001#32).rdS (F.RING_WIN1_bytes 1 7) = 0 ∧
    (Tests.up.plainWrite (F.RING_WIN1_bytes 1 7).addr 0x00060001#32).rdS (F.RING_WIN1_quanta 1 7) = 1 ∧
    (Tests.up.plainWrite (F.RING_WIN3_phase 0 0).addr 0x411#32).rdS (F.RING_WIN3_phase 0 0) = 0 ∧ (Tests.up.plainWrite (F.RING_WIN3_phase 0 0).addr 0x111#32).rdS (F.RING_WIN3_phase 0 0) = 1 ∧
    (Tests.up.plainWrite (F.HAND_WRAP_top 3).addr 0x304#32).rdS (F.HAND_WRAP_top 3) = 31 ∧ (Tests.up.plainWrite (F.HAND_WRAP_top 3).addr 0x403#32).rdS (F.HAND_WRAP_bottom 3) = 3 := by
  decide
end

section
/-! PROOFS. The command watchdog (R43, R488): the limit of a command is read from its kind in the opcode table, and the watchdog of a
running command without a result compares the time since its start with that limit. -/
namespace Sys2Proof.Machine

theorem exec_commandWatchdog (seq : Nat) (s : State) :
    exec (.commandWatchdog seq) s = execCommandWatchdog seq s := by
  rfl

/-- The limits that DIAG.WDOG sets are counts of milliseconds, of 400,000 ticks each (R488). -/
theorem cmdLimit_of_opRow {c : CmdRec} {r : OpRow} (hrow : opRow c.opcode = some r) (s : State) :
    s.cmdLimit c = (if r.kind = .q then s.cmd.limQ else s.cmd.limS) * 400000 := by
  simp [State.cmdLimit, hrow, tickMs]

/-- For a command of kind S or Q that runs and has no result, the watchdog decides by the limit alone. -/
theorem execCommandWatchdog_of_running {seq : Nat} {s : State} {c : CmdRec} (hfind : s.findCmd seq = some c)
    (halive : s.alive = true) (hstarted : c.started = true) (hfin : c.fin = none) (hlong : isLong c = false) :
    execCommandWatchdog seq s = .next (if c.startRaw + s.cmdLimit c < s.raw then s.fin seq 0x0F01 [] else s) := by
  simp [execCommandWatchdog, hfind, halive, hstarted, hfin, hlong]

/-- Settles O30: the two clauses are the two branches of the comparison with the limit. -/
theorem commandWatchdog : Obligations.CommandWatchdog := by
  intro seq s c r hfind halive hstarted hfin hrow hlong limit
  have hexec : exec (.commandWatchdog seq) s = .next (if c.startRaw + limit < s.raw then s.fin seq 0x0F01 [] else s) := by
    rw [exec_commandWatchdog, execCommandWatchdog_of_running hfind halive hstarted hfin hlong, cmdLimit_of_opRow hrow]
  constructor
  · intro hover
    rw [hexec, if_pos hover]
  · intro hwithin
    rw [hexec, if_neg (Nat.not_lt.mpr hwithin)]

end Sys2Proof.Machine
end

section
/-! PROOFS. What an instruction that writes wd from its operands does where it stands at the PC (R233, R239–R242): one equation per format. -/
namespace Sys2Proof.Machine

variable {s t : State}

theorem alu1_of_issues {p : Nat} {w : Word} (h : s.Issues p w t) (ok : Bool) (wd ws : Fin 32) (f : Word → Word) :
    s.alu1 p w ok wd ws f = if ok then t.putNext p wd (f (t.getW p ws)) else t.takeTrap p 1 w := by
  cases ok with
  | true => exact (issue_runs h _).trans (retire_putNext t p wd _)
  | false => exact issue_illegal h _

theorem alu2_of_issues {p : Nat} {w : Word} (h : s.Issues p w t) (ok : Bool) (wd ws wt : Fin 32) (f : Word → Word → Word) :
    s.alu2 p w ok wd ws wt f = if ok then t.putNext p wd (f (t.getW p ws) (t.getW p wt)) else t.takeTrap p 1 w := by
  cases ok with
  | true => exact (issue_runs h _).trans (retire_putNext t p wd _)
  | false => exact issue_illegal h _

/-- Format R: the value `v` of the operation goes to wd, unless the reserved field x is not zero. -/
theorem intR_of_issues {p : Fin 18} {r : RFmt} {maj fn : Nat} {f : Word → Word → Word} {v : Word}
    (h : s.Issues p (r.word maj fn) t) (hv : f (t.getW p r.ws) (t.getW p r.wt) = v) :
    (Host.Outcome.next (s.intR p maj fn r f) : Out) =
      if r.x = 0 then .next (t.putNext p r.wd v) else .next (t.takeTrap p 1 (r.word maj fn)) := by
  subst hv
  by_cases hx : r.x = 0 <;> simp [State.intR, alu2_of_issues h, hx]

/-- Format I with no reserved field. -/
theorem intI_of_issues {p : Fin 18} {r : IFmt} {maj : Nat} {f : Word → Word} {v : Word}
    (h : s.Issues p (r.word maj) t) (hv : f (t.getW p r.ws) = v) :
    (Host.Outcome.next (s.intI p maj r true f) : Out) = .next (t.putNext p r.wd v) := by
  subst hv
  simp [State.intI, alu1_of_issues h]

end Sys2Proof.Machine
end

section
/-! PROOFS. Multiplication and division (R241): the model computes with integers and numbers, the statement with words of 32 and 64 bits. -/
namespace Sys2Proof.Machine

/-- The upper half of a product of 64 bits, read as a signed number. -/
theorem ofInt_toInt_ediv (x : BitVec 64) : BitVec.ofInt 32 (x.toInt / 2 ^ 32) = x.extractLsb' 32 32 := by
  apply BitVec.eq_of_toNat_eq
  rw [BitVec.toNat_ofInt, BitVec.extractLsb'_toNat, Nat.shiftRight_eq_div_pow, BitVec.toInt_eq_toNat_cond]
  split <;> omega

/-- The product of two words of 32 bits does not overflow 64 bits. -/
theorem toInt_mul_signExtend (x y : Word) : (x.signExtend 64 * y.signExtend 64).toInt = x.toInt * y.toInt := by
  have hlow := BitVec.le_toInt_mul_toInt (x := x) (y := y)
  have hhigh := BitVec.toInt_mul_toInt_le (x := x) (y := y)
  rw [BitVec.toInt_mul, BitVec.toInt_signExtend_of_le (by decide), BitVec.toInt_signExtend_of_le (by decide)]
  exact Int.bmod_eq_of_le (by omega) (by omega)

theorem mulHi_eq (x y : Word) : mulHi x y = (x.signExtend 64 * y.signExtend 64).extractLsb' 32 32 := by
  rw [mulHi, ← toInt_mul_signExtend, ofInt_toInt_ediv]

theorem mulHiU_eq (x y : Word) : mulHiU x y = (x.setWidth 64 * y.setWidth 64).extractLsb' 32 32 := by
  have hlt : x.toNat * y.toNat < 2 ^ 64 := calc
    x.toNat * y.toNat < 2 ^ 32 * 2 ^ 32 := Nat.mul_lt_mul'' x.isLt y.isLt
    _ = 2 ^ 64 := by decide
  apply BitVec.eq_of_toNat_eq
  rw [mulHiU, BitVec.toNat_ofNat, BitVec.extractLsb'_toNat, BitVec.toNat_mul, BitVec.toNat_setWidth_of_le (by decide),
    BitVec.toNat_setWidth_of_le (by decide), Nat.mod_eq_of_lt hlt, Nat.shiftRight_eq_div_pow]

/-- The quotient rounded toward zero, cut to 32 bits: the one quotient that does not fit is 2^31. -/
theorem ofInt_tdiv_toInt (x y : Word) : BitVec.ofInt 32 (x.toInt.tdiv y.toInt) = x.sdiv y := by
  apply BitVec.eq_of_toInt_eq
  rw [BitVec.toInt_ofInt, BitVec.toInt_sdiv]

theorem divS_eq (x y : Word) : divS x y = if y = 0 then 0xFFFFFFFF#32 else x.sdiv y := by
  rw [divS, ofInt_tdiv_toInt]

theorem divU_eq (x y : Word) : divU x y = if y = 0 then 0xFFFFFFFF#32 else x / y := by
  rw [divU, BitVec.udiv_def]

theorem remS_eq (x y : Word) : remS x y = if y = 0 then x else x - y * x.sdiv y := by
  rw [remS, Int.sub_eq_add_neg, BitVec.ofInt_add, BitVec.ofInt_neg, BitVec.ofInt_mul, BitVec.ofInt_toInt, BitVec.ofInt_toInt,
    ofInt_tdiv_toInt, BitVec.sub_eq_add_neg]

theorem remU_eq (x y : Word) : remU x y = if y = 0 then x else x % y := by
  rw [remU, BitVec.umod_def]

/-- Settles O12: each operation is of format R and its value is that of the words. -/
theorem multiplyDivide : Obligations.MultiplyDivide := by
  intro p r s t a b out
  refine ⟨?mul, ?mulh, ?mulhu, ?div, ?divu, ?rem, ?remu, ?overflow⟩
  case mul => exact fun h => intR_of_issues h rfl
  case mulh => exact fun h => intR_of_issues h (mulHi_eq a b)
  case mulhu => exact fun h => intR_of_issues h (mulHiU_eq a b)
  case div => exact fun h => intR_of_issues h (divS_eq a b)
  case divu => exact fun h => intR_of_issues h (divU_eq a b)
  case rem => exact fun h => intR_of_issues h (remS_eq a b)
  case remu => exact fun h => intR_of_issues h (remU_eq a b)
  case overflow => exact BitVec.intMin_sdiv_neg_one (w := 32)

end Sys2Proof.Machine
end

section
/-! PROOFS. The I-format operations (R242). -/
namespace Sys2Proof.Machine

theorem boolW_slt (x y : Word) : boolW (x.slt y) = if x.toInt < y.toInt then 1 else 0 := by
  simp [boolW, BitVec.slt_eq_decide]

theorem boolW_ult (x y : Word) : boolW (x.ult y) = if x.toNat < y.toNat then 1 else 0 := by
  simp [boolW, BitVec.ult_eq_decide]

/-- The constant of `ldhi` is the upper half of the word. -/
theorem setWidth_shiftLeft_eq_append (x : BitVec 16) : x.setWidth 32 <<< 16 = x ++ 0#16 := by
  rw [BitVec.append_def, BitVec.shiftLeftZeroExtend_eq]
  simp

theorem ldhi_of_issues {p : Fin 18} {r : IFmt} {s t : State} (h : s.Issues p (r.word 0x0A) t) :
    exec (.ldhi p r) s = if r.ws = 0 then .next (t.putNext p r.wd (r.imm ++ 0#16)) else .next (t.takeTrap p 1 (r.word 0x0A)) := by
  change Host.Outcome.next (s.alu1 p (r.word 0x0A) (decide (r.ws = 0)) r.wd r.ws _) = _
  rw [alu1_of_issues h, setWidth_shiftLeft_eq_append]
  by_cases hws : r.ws = 0 <;> simp [hws]

/-- Settles O13: all but `ldhi` have no reserved field. -/
theorem immediateOperations : Obligations.ImmediateOperations := by
  intro p r s t a sx zx out
  refine ⟨?addK, ?andK, ?orK, ?xorK, ?cpltK, ?cpltuK, ?ldhi⟩
  case addK => exact fun h => intI_of_issues h rfl
  case andK => exact fun h => intI_of_issues h rfl
  case orK => exact fun h => intI_of_issues h rfl
  case xorK => exact fun h => intI_of_issues h rfl
  case cpltK => exact fun h => intI_of_issues h (boolW_slt a sx)
  case cpltuK => exact fun h => intI_of_issues h (boolW_ult a sx)
  case ldhi => exact ldhi_of_issues

end Sys2Proof.Machine
end

section
/-! PROOFS. Bit fields and byte permutation (R248, R249): a field is a word of its own width, extended to 32 bits, and each byte of a permutation is the
byte its nibble names. -/
namespace Sys2Proof.Machine

theorem ofNat_getF (x : Word) (lo w : Nat) : BitVec.ofNat w (getF x lo w) = x.extractLsb' lo w := by
  apply BitVec.eq_of_toNat_eq
  simp [getF, Nat.shiftRight_eq_div_pow]

/-- The two's complement value of the low `w` bits is that of a word of `w` bits. -/
theorem sgn_eq_toInt {w : Nat} (hw : 0 < w) (v : Nat) : sgn w v = (BitVec.ofNat w v).toInt := by
  obtain ⟨n, rfl⟩ := Nat.exists_eq_add_one.mpr hw
  rw [BitVec.toInt_eq_toNat_cond, BitVec.toNat_ofNat, sgn, Nat.add_sub_cancel]
  have hpow : 2 ^ (n + 1) = 2 * 2 ^ n := Nat.pow_succ'
  split <;> split <;> omega

theorem fieldOut_signed (pos : Nat) {w : Nat} (hw : 0 < w) (x : Word) :
    fieldOut pos w true x = (x.extractLsb' pos w).signExtend 32 := by
  rw [fieldOut, if_pos rfl, sgn_eq_toInt hw, ofNat_getF, BitVec.signExtend]

/-- The bits of an extracted field: those of the source, then zeros or the field's upper bit. -/
theorem getLsbD_fieldOut (pos : Nat) {w i : Nat} (hw : 0 < w) (hi : i < 32) (sg : Bool) (x : Word) :
    (fieldOut pos w sg x).getLsbD i = if i < w then x.getLsbD (pos + i) else sg && x.getLsbD (pos + w - 1) := by
  cases sg with
  | true =>
    have hmsb : (x.extractLsb' pos w).msb = x.getLsbD (pos + w - 1) := by
      rw [BitVec.msb_eq_getLsbD_last, BitVec.getLsbD_extractLsb', Nat.add_sub_assoc hw, decide_eq_true (Nat.sub_lt hw Nat.one_pos),
        Bool.true_and]
    rw [fieldOut_signed pos hw, BitVec.getLsbD_signExtend, hmsb]
    by_cases hiw : i < w <;> simp [hi, hiw]
  | false =>
    rw [fieldOut, if_neg Bool.false_ne_true, BitVec.getLsbD_ofNat, testBit_getF]
    by_cases hiw : i < w <;> simp [hi, hiw]

theorem fieldFmt_ok_iff (r : FieldFmt) : r.ok = true ↔ r.pos.val + (r.wm1.val + 1) ≤ 32 ∧ r.z = 0 := by
  simp [FieldFmt.ok, Nat.add_assoc]

theorem bfx_of_issues {p : Fin 18} {r : FieldFmt} {s t : State} (h : s.Issues p (r.word 0x0C) t) :
    exec (.bfx p r) s = .next (if r.ok then t.putNext p r.wd (fieldOut r.pos (r.wm1 + 1) r.sg (t.getW p r.ws))
      else t.takeTrap p 1 (r.word 0x0C)) :=
  congrArg Host.Outcome.next (alu1_of_issues h _ _ _ _)

theorem bfi_of_issues {p : Fin 18} {r : FieldFmt} {s t : State} (h : s.Issues p (r.word 0x0D) t) :
    exec (.bfi p r) s = .next (if r.ok && !r.sg then t.putNext p r.wd (setF (t.getW p r.wd) r.pos (r.wm1 + 1) (t.getW p r.ws).toNat)
      else t.takeTrap p 1 (r.word 0x0D)) :=
  congrArg Host.Outcome.next (alu2_of_issues h _ _ _ _ _)

theorem bperm_of_issues {p : Fin 18} {r : IFmt} {s t : State} (h : s.Issues p (r.word 0x0B) t) :
    exec (.bperm p r) s = .next (t.putNext p r.wd (bperm r.imm (t.getW p r.ws) (t.getW p r.wd))) :=
  congrArg Host.Outcome.next ((issue_runs h _).trans (retire_putNext t p r.wd _))

theorem byteOf_eq_extractLsb' (x : Word) (i : Nat) : byteOf x i = x.extractLsb' (8 * i) 8 :=
  BitVec.setWidth_ushiftRight_eq_extractLsb

/-- Byte `k` of a word made of four bytes. -/
theorem extractLsb'_wordOf (f : Nat → Byte) {k : Nat} (hk : k < 4) : (wordOf (f 0) (f 1) (f 2) (f 3)).extractLsb' (8 * k) 8 = f k := by
  match k, hk with
  | 0, _ => exact BitVec.extractLsb'_append_eq_right
  | 1, _ =>
    calc (f 3 ++ f 2 ++ f 1 ++ f 0).extractLsb' 8 8
      _ = (f 3 ++ f 2 ++ f 1).extractLsb' 0 8 := BitVec.extractLsb'_append_eq_of_le (Nat.le_refl 8)
      _ = f 1 := BitVec.extractLsb'_append_eq_right
  | 2, _ =>
    calc (f 3 ++ f 2 ++ f 1 ++ f 0).extractLsb' 16 8
      _ = (f 3 ++ f 2 ++ f 1).extractLsb' 8 8 := BitVec.extractLsb'_append_eq_of_le (by decide)
      _ = (f 3 ++ f 2).extractLsb' 0 8 := BitVec.extractLsb'_append_eq_of_le (Nat.le_refl 8)
      _ = f 2 := BitVec.extractLsb'_append_eq_right
  | 3, _ =>
    calc (f 3 ++ f 2 ++ f 1 ++ f 0).extractLsb' 24 8
      _ = (f 3 ++ f 2 ++ f 1).extractLsb' 16 8 := BitVec.extractLsb'_append_eq_of_le (by decide)
      _ = (f 3 ++ f 2).extractLsb' 8 8 := BitVec.extractLsb'_append_eq_of_le (by decide)
      _ = f 3 := BitVec.extractLsb'_append_eq_left

/-- Byte `k` of the permutation of `x` and `d` by `sel` (R249). -/
def permByte (sel : BitVec 16) (x d : Word) (k : Nat) : Byte :=
  let n := sel.toNat / 2 ^ (4 * k) % 16
  if n < 4 then byteOf x n else if n < 8 then byteOf d (n - 4) else 0#8

theorem bperm_eq_wordOf (sel : BitVec 16) (x d : Word) :
    bperm sel x d = wordOf (permByte sel x d 0) (permByte sel x d 1) (permByte sel x d 2) (permByte sel x d 3) := by
  rfl

theorem permByte_eq (sel : BitVec 16) (x d : Word) (k : Nat) :
    permByte sel x d k =
      let n := sel.toNat / 16 ^ k % 16
      if n < 4 then x.extractLsb' (8 * n) 8 else if n < 8 then d.extractLsb' (8 * (n - 4)) 8 else 0 := by
  simp only [permByte, Nat.pow_mul, byteOf_eq_extractLsb']
  rfl

/-- Settles O14: the legal fields are those of `FieldFmt.ok`, and each value is given bit by bit or byte by byte. -/
theorem fieldOperations : Obligations.FieldOperations := by
  refine ⟨?bfx, ?bfi, ?bperm⟩
  case bfx =>
    intro p r s t h a w
    refine ⟨fun hok => ?_, fun hbad => ?_⟩
    · refine ⟨_, (bfx_of_issues h).trans (congrArg _ (if_pos ((fieldFmt_ok_iff r).mpr hok))), fun i hi => ?_⟩
      exact getLsbD_fieldOut r.pos (Nat.succ_pos _) hi r.sg a
    · exact (bfx_of_issues h).trans (congrArg _ (if_neg (mt (fieldFmt_ok_iff r).mp hbad)))
  case bfi =>
    intro p r s t h a w
    have hlegal : (r.ok && !r.sg) = true ↔ r.pos.val + w ≤ 32 ∧ r.z = 0 ∧ r.sg = false := by
      simp [fieldFmt_ok_iff, w, and_assoc]
    refine ⟨fun hok => ?_, fun hbad => ?_⟩
    · refine ⟨_, (bfi_of_issues h).trans (congrArg _ (if_pos (hlegal.mpr hok))), fun i hi => ?_⟩
      rw [getLsbD_setF]
      simp only [hi, true_and]
      rfl
    · exact (bfi_of_issues h).trans (congrArg _ (if_neg (mt hlegal.mp hbad)))
  case bperm =>
    intro p r s t h
    refine ⟨_, bperm_of_issues h, fun k hk => ?_⟩
    rw [bperm_eq_wordOf, extractLsb'_wordOf _ hk, permByte_eq]

end Sys2Proof.Machine
end

section
/-! PROOFS. A stagehand's instruction word with a reserved value in a field (R294): the tick of such a word, said once, and for each operation why its
fields are not legal. -/
namespace Sys2Proof.Machine

/-- The tick of a word with a reserved field: after the tick's beginning the stagehand stops, and nothing of it moves. -/
theorem next_handTick_of_reserved {s : State} {h w : Nat} {legal : State → Bool} {op : State → HandRes} (hruns : s.HandRuns h w)
    (hbad : legal (s.handBegin h) = false) : (.next (s.handTick h w legal op) : Out) = .next ((s.handBegin h).handIllegal h) := by
  obtain ⟨halive, hen, hhold, hword⟩ := hruns
  simp [State.handTick, halive, hen, hhold, hword, hbad]

/-- A field that must be zero and is not. -/
theorem decide_val_eq_zero_of_ne {n : Nat} {z : Fin (n + 1)} (hz : z ≠ 0) : decide (z.val = 0) = false :=
  decide_eq_false (Fin.val_ne_zero_iff.mpr hz)

theorem jump_of_reserved {h : Fin 32} {cond : Fin 16} {addr : Fin 32} {z sel : Fin 4} {s : State} (hbad : 9 < cond.val ∨ z ≠ 0)
    (hruns : s.HandRuns h (cond * 512 + addr * 16 + z * 4 + sel)) :
    exec (.jump h cond addr z sel) s = .next ((s.handBegin h).handIllegal h) := by
  refine next_handTick_of_reserved hruns (decide_eq_false ?_)
  rintro ⟨hcond, hz⟩
  rcases hbad with hover | hne
  · exact absurd hcond (Nat.not_le.mpr hover)
  · exact hne (Fin.ext hz)

theorem waitfor_of_reserved {h : Fin 32} {lvl : Bool} {src : Fin 4} {k : Fin 8} {z : Fin 32} {sel : Fin 4} {s : State}
    (hbad : src = 3 ∨ z ≠ 0 ∨ (src = 1 ∧ lvl = false))
    (hruns : s.HandRuns h (0x2000 + (if lvl then 0x1000 else 0) + src * 1024 + k * 128 + z * 4 + sel)) :
    exec (.waitfor h lvl src k z sel) s = .next ((s.handBegin h).handIllegal h) := by
  refine next_handTick_of_reserved hruns (decide_eq_false ?_)
  rintro ⟨hsrc, hz, htrig⟩
  rcases hbad with rfl | hne | ⟨rfl, hlow⟩
  · exact hsrc rfl
  · exact hne (Fin.ext hz)
  · exact absurd (htrig rfl) (by simp [hlow])

/-- SHIFT: a code of a side that is off, bits with both sides off, or pins beyond slot 7 (R292, R293). -/
theorem shift_of_reserved {h n1 : Fin 32} {dst src : Fin 4} {ien oen : Bool} {sel : Fin 4} {s : State}
    (hbad : (oen = false ∧ dst ≠ 0) ∨ (ien = false ∧ src ≠ 0) ∨ (oen = false ∧ ien = false ∧ n1 ≠ 0) ∨
      (oen = true ∧ dst = 0 ∧ 8 < (s.handBegin h).rd (F.HAND_SHCFG_obase h) + n1 + 1) ∨
      (ien = true ∧ src = 0 ∧ 8 < (s.handBegin h).rd (F.HAND_SHCFG_ibase h) + n1 + 1))
    (hruns : s.HandRuns h (0x4000 + n1 * 256 + dst * 64 + src * 16 + (if ien then 8 else 0) + (if oen then 4 else 0) + sel)) :
    exec (.shift h n1 dst src ien oen sel) s = .next ((s.handBegin h).handIllegal h) := by
  refine next_handTick_of_reserved hruns ?_
  rcases hbad with ⟨rfl, hdst⟩ | ⟨rfl, hsrc⟩ | ⟨rfl, rfl, hn⟩ | ⟨rfl, rfl, hover⟩ | ⟨rfl, rfl, hover⟩
  · simp [hdst]
  · simp [hsrc]
  · simp [hn]
  · simp [Nat.not_le.mpr hover]
  · simp [Nat.not_le.mpr hover]

theorem move_of_reserved {h : Fin 32} {dst src : Fin 8} {op : Fin 4} {z : Fin 8} {sel : Fin 4} {s : State}
    (hbad : z ≠ 0 ∨ dst = 4 ∨ dst = 6 ∨ dst = 7)
    (hruns : s.HandRuns h (0xC000 + dst * 1024 + src * 128 + op * 32 + z * 4 + sel)) :
    exec (.move h dst src op z sel) s = .next ((s.handBegin h).handIllegal h) := by
  refine next_handTick_of_reserved hruns (decide_eq_false ?_)
  rintro ⟨hz, hdst⟩
  rcases hbad with hne | rfl | rfl | rfl
  · exact hne (Fin.ext hz)
  all_goals exact absurd hdst (by decide)

/-- Settles O24: each operation's reserved values are those that its row does not take as legal. -/
theorem stagehandReserved : Obligations.StagehandReserved := by
  intro h sel s u stopped
  refine ⟨?jump, ?waitfor, ?shift, ?take, ?give, ?drive, ?ldk, ?move, ?signal⟩
  case jump => exact fun _ _ _ hbad hruns => jump_of_reserved hbad hruns
  case waitfor => exact fun _ _ _ _ hbad hruns => waitfor_of_reserved hbad hruns
  case shift => exact fun _ _ _ _ _ hbad hruns => shift_of_reserved hbad hruns
  case take => exact fun _ _ _ hz hruns => next_handTick_of_reserved hruns (decide_val_eq_zero_of_ne hz)
  case give => exact fun _ _ _ hz hruns => next_handTick_of_reserved hruns (decide_val_eq_zero_of_ne hz)
  case drive => exact fun _ _ hz hruns => next_handTick_of_reserved hruns (decide_val_eq_zero_of_ne hz)
  case ldk => exact fun _ hruns => next_handTick_of_reserved hruns rfl
  case move => exact fun _ _ _ _ hbad hruns => move_of_reserved hbad hruns
  case signal => exact fun _ _ _ hz hruns => next_handTick_of_reserved hruns (decide_val_eq_zero_of_ne hz)

end Sys2Proof.Machine
end

section
/-! PROOFS. Writes of a stagehand's instruction memory, A, B and TSR (R299). -/
namespace Sys2Proof.Machine

theorem handWriteMem_enabled {s : State} {h : Nat} (hen : s.rd (F.HAND_CTL_en h) = 1) (f : Fld) (v : Nat) :
    s.handWriteMem h f v = s.wr (F.HAND_STAT_imemerr h) 1 := by
  simp [State.handWriteMem, State.on, hen]

theorem handWriteMem_disabled {s : State} {h : Nat} (hen : s.rd (F.HAND_CTL_en h) = 0) (f : Fld) (v : Nat) :
    s.handWriteMem h f v = s.wr f v := by
  simp [State.handWriteMem, State.on, hen]

/-- A field that takes a value it can hold reads that value, and every other register and all else stay. -/
theorem wr_takes (s : State) (f : Fld) (v : Nat) (hf : f.lo + f.w ≤ 32) (hv : v < 2 ^ f.w) :
    (s.wr f v).rd f = v ∧ (∀ a, a ≠ f.addr → (s.wr f v).reg a = s.reg a) ∧ { s.wr f v with regs := s.regs } = s :=
  ⟨(rd_wr_same s f v hf).trans (Nat.mod_eq_of_lt hv), reg_wr_ne s f v, rfl⟩

/-- The register that a write of A (0), B (1) or TSR (2) names. -/
def abTsrFld (h : Nat) (r : Fin 3) : Fld := [F.HAND_A h, F.HAND_B h, F.HAND_TSR h].getD r (F.HAND_A h)

/-- A, B and TSR fill their registers. -/
theorem abTsrFld_bits (h : Nat) (r : Fin 3) : (abTsrFld h r).lo = 0 ∧ (abTsrFld h r).w = 32 := by
  match r with
  | 0 | 1 | 2 => exact ⟨rfl, rfl⟩

theorem handImemWrite_of_reaches {id : Ident} {h : Fin 32} {s : State} (hr : s.Reaches id h) (i : Fin 32) (v : BitVec 16) :
    exec (.handImemWrite id h i v) s = .next (s.handWriteMem h (F.HAND_IMEM h i) v.toNat) :=
  congrArg _ (guardHand_ok hr _ _)

theorem handABTsrWrite_of_reaches {id : Ident} {h : Fin 32} {s : State} (hr : s.Reaches id h) (r : Fin 3) (v : Word) :
    exec (.handABTsrWrite id h r v) s = .next (s.handWriteMem h (abTsrFld h r) v.toNat) := by
  match r with
  | 0 | 1 | 2 => exact congrArg _ (guardHand_ok hr _ _)

/-- Settles O25: a write that reaches the stagehand is `State.handWriteMem`, and the enable bit decides what that does. -/
theorem stagehandMemory : Obligations.StagehandMemory := by
  intro id h s hr
  refine ⟨fun hen => ⟨?imemOn, ?regOn⟩, fun hen => ⟨?imemOff, ?regOff⟩⟩
  case imemOn =>
    intro i v
    rw [handImemWrite_of_reaches hr, handWriteMem_enabled hen]
  case regOn =>
    intro r v
    rw [handABTsrWrite_of_reaches hr, handWriteMem_enabled hen]
  case imemOff =>
    intro i v
    refine ⟨_, handImemWrite_of_reaches hr i v, ?_⟩
    rw [handWriteMem_disabled hen]
    exact wr_takes s (F.HAND_IMEM h i) v.toNat (by decide : 0 + 16 ≤ 32) v.isLt
  case regOff =>
    intro r v f
    refine ⟨_, handABTsrWrite_of_reaches hr r v, ?_⟩
    rw [handWriteMem_disabled hen]
    obtain ⟨hlo, hw⟩ := abTsrFld_bits h r
    exact wr_takes s (abTsrFld h r) v.toNat (by omega) (by rw [hw]; exact v.isLt)

end Sys2Proof.Machine
end
